-- ==== Sys2Proof/Word.lean ====
section
/-! DEFINITION. The machine's plain value types (R1, R2, R49): 32-bit words, bytes, lane masks, a
row of 32 lane words, and the 56-bit virtual address. -/

namespace Sys2Proof

/-- A 32-bit register word (R49). -/
abbrev Word := BitVec 32

/-- One byte of memory. -/
abbrev Byte := BitVec 8

/-- A lane mask: bit l stands for lane l (R27). -/
abbrev Mask := BitVec 32

/-- A 56-bit virtual byte address (R56, R115). -/
abbrev Addr := BitVec 56

/-- One lane-scope register: lane l's word at index l (R49, R303). -/
abbrev Row := Vector Word 32

/-- A lane's index, 0 to 31 (R25). -/
abbrev Lane := Fin 32

/-- The row all of whose lanes hold 0: the initial contents of R49. -/
def Row.zero : Row := Vector.replicate 32 0

/-- Lane l of a mask. -/
def laneIn (m : Mask) (l : Lane) : Bool := m.getLsbD l.val

/-- The row that holds f in the lanes of m and the old words in every other lane. -/
def Row.update (r : Row) (m : Mask) (f : Lane → Word) : Row :=
  Vector.ofFn fun l => if laneIn m l then f l else r[l]

/-- Lanes 0 to 31 in ascending order. -/
def lanes : List Lane := List.finRange 32

/-- The mask of the lanes at which p holds. -/
def maskOf (p : Lane → Bool) : Mask :=
  lanes.foldl (fun m l => if p l then m ||| (1#32 <<< l.val) else m) 0#32

/-- The lanes of a mask, ascending. -/
def lanesOf (m : Mask) : List Lane := lanes.filter (laneIn m)

/-- The lowest lane of a mask, or none when it is empty (R51, R171, R179). -/
def lowest (m : Mask) : Option Lane := lanes.find? (laneIn m)

/-- How many lanes a mask holds. -/
def popcount (m : Mask) : Nat := (lanesOf m).length

end Sys2Proof
end

