-- ==== Sys2Proof/Config.lean ====
section
/-! DEFINITION. Constants of the device (R16) and the free values the spec leaves open. A free value
is an opaque constant with no body: nothing can evaluate it, and a claim holds whatever it is. -/

namespace Sys2Proof.Config

/-- Free value: the contents of an accumulator element of a bank that ALLOCK has handed out and
nothing has written since (R231 leaves them unspecified). Its argument is the machine's counter of
free values. (Log entry 4.) -/
opaque freeBankWord : Nat → Word

/-- Free value: a byte of an operand-buffer range that nothing has written since the range was reserved
(R229 calls a slice defined only after its own loads). (Log entry 4.) -/
opaque freeOpByte : Nat → Byte

/-- Free value: the version of a poisoned line (R402: versions of a poisoned line are not defined). (Log entry 4.) -/
opaque freeVersion : Nat → BitVec 32

/-- Free value: a byte of a tile that a collective leaves unspecified (R224). (Log entry 4.) -/
opaque freeByte : Nat → Byte

/-- Free value: the number of a member device of which nothing has been heard (R413 names it, R265 holds no
numbers of members). (Log entry 4.) -/
opaque freeDevice : Nat → Nat

/-- Bytes in one line of the caches and of every registering write (R59). -/
def lineBytes : Nat := 128

/-- Group slots of one core (R16). -/
def slotsPerCore : Nat := 192

/-- Bytes of scratchpad of one core (R16, R26). -/
def scratchBytes : Nat := 524288

/-- Bytes of register file of one core (R16, R26). -/
def regFileBytes : Nat := 1048576

/-- Entries of a core's pantry (R374). -/
def pantryEntries : Nat := 512

/-- Entries of a group's snapshot set (R201). -/
def snapEntries : Nat := 64

/-- Entries of a cluster's reservation table (R262). -/
def resEntries : Nat := 64

/-- The reset value of a core's activity budget (R191). -/
def budgetReset : Nat := 384

end Sys2Proof.Config
end

