-- ==== Sys2Proof/Syntax.lean ====
section
/-! DEFINITION. The instruction set as a type: ONE inductive with a constructor for every row of
spec/opcode_table.json. The first 246 constructors have encodings; their arguments are the encoded
fields, most significant field first, as bit vectors of the field's width (those without fields
follow those with fields). The last 75 are the device's own steps
(spec/95_what_each_step_holds.md); they have no encoding, and what such a step is about, or what the
world outside the device supplies to it, stands in an EvArgs record that the state holds while the
step runs. -/

namespace Sys2Proof

/-- One member's tile as the fabric delivers it from another device (R223, R332): rank and bytes. -/
structure RemoteTile where
  comm : Nat
  rank : Nat
  bytes : List Nat
  deriving DecidableEq, Repr

/-- The physical temperature of one vault in 1/256 of a degree Celsius (R281). -/
structure VaultTemp where
  vault : Nat
  t : Int
  deriving DecidableEq, Repr

/-- What an arriving peer request asks for (R329). -/
inductive PeerOp where
  | load
  | store (bytes : List Nat)
  /-- the lanes of one instruction that reach one line: offset from the address, operand, compare value -/
  | atomic (major : Nat) (minor : Nat) (lanes : List (Nat × Nat × Nat))
  deriving DecidableEq, Repr

/-- A peer request as it arrives at this device (R314, R329): the sender's device number and pod tag, window address,
width. -/
structure PeerAccess where
  sender : Nat
  podtag : Nat
  pa : Nat
  width : Nat
  op : PeerOp
  deriving DecidableEq, Repr

/-- A rail flit as received (R328): who sent it, to whom, on which channel, with which number, and
whether its checks pass. -/
structure Flit where
  sender : Nat
  receiver : Nat
  chan : Nat
  seq : Nat
  ok : Bool
  deriving DecidableEq, Repr

/-- What a scrub read finds on a line (R401, R403). -/
inductive ScrubResult where
  | clean
  | corrected
  | uncorrectable
  deriving DecidableEq, Repr

/-- The outcome of one start-up step (R418): it passed, it failed, or its alternative failed too. -/
inductive StepOutcome where
  | pass
  | fail
  | altFail
  deriving DecidableEq, Repr

/-- One start-up step's outcome, with the link, die, vault or port it concerns (R418), and the rate in tenths of GT/s and
the width at which a host port has trained in place of the full ones (R21). -/
structure StepResult where
  step : Nat
  unit : Nat
  outcome : StepOutcome
  rate : Nat := 320
  width : Nat := 16
  deriving DecidableEq, Repr

/-- What a step of the device is about, and what the world outside supplies to it. A step reads the
fields its meaning names and no others. (Log entry 30.) -/
structure EvArgs where
  /-- a request, copy, walk or flight by its number -/
  id : Nat := 0
  /-- an engine request's position in its descriptor when it stops (R387) -/
  pos : Nat := 0
  /-- a stop's cause code (R387), or the outcome code of an operation outside -/
  code : Nat := 0
  core : Nat := 0
  slot : Nat := 0
  /-- a split's age number -/
  age : Nat := 0
  die : Nat := 0
  /-- a cluster -/
  cl : Nat := 0
  /-- a communicator -/
  comm : Nat := 0
  /-- a partition -/
  part : Nat := 0
  /-- a launch slot, or an RCB index -/
  rcb : Nat := 0
  /-- a block -/
  blk : Nat := 0
  /-- a virtual or physical address -/
  va : Nat := 0
  /-- a queue -/
  q : Nat := 0
  /-- a virtual device -/
  vd : Nat := 0
  way : Nat := 0
  /-- a geyser context -/
  ctx : Nat := 0
  /-- a count or a kind -/
  m : Nat := 0
  vault : Nat := 0
  line : Nat := 0
  /-- a measured amount: amperes, watts -/
  amount : Nat := 0
  value : Nat := 0
  bar : Nat := 0
  off : Nat := 0
  size : Nat := 0
  w : Bool := false
  f : Bool := false
  up : Bool := false
  dn : Bool := false
  store : Bool := false
  ok : Bool := false
  bytes : List Nat := []
  remote : List RemoteTile := []
  temps : List VaultTemp := []
  peer : PeerAccess := ⟨256, 0, 0, 0, .load⟩
  flit : Flit := ⟨0, 0, 0, 0, false⟩
  scrub : ScrubResult := .clean
  results : List StepResult := []
  deriving DecidableEq, Repr

/-- The rows of spec/opcode_table.json. -/
inductive Instr where
  | iadd (b : BitVec 8) (a : BitVec 8) (d : BitVec 7)
  | isub (b : BitVec 8) (a : BitVec 8) (d : BitVec 7)
  | imul (b : BitVec 8) (a : BitVec 8) (d : BitVec 7)
  | imulhS (b : BitVec 8) (a : BitVec 8) (d : BitVec 7)
  | imulhU (b : BitVec 8) (a : BitVec 8) (d : BitVec 7)
  | imad (b : BitVec 8) (a : BitVec 8) (d : BitVec 7)
  | iaddc (b : BitVec 8) (a : BitVec 8) (d : BitVec 7)
  | isubb (b : BitVec 8) (a : BitVec 8) (d : BitVec 7)
  | and (b : BitVec 8) (a : BitVec 8) (d : BitVec 7)
  | or (b : BitVec 8) (a : BitVec 8) (d : BitVec 7)
  | xor (b : BitVec 8) (a : BitVec 8) (d : BitVec 7)
  | andn (b : BitVec 8) (a : BitVec 8) (d : BitVec 7)
  | shl (b : BitVec 8) (a : BitVec 8) (d : BitVec 7)
  | shr (b : BitVec 8) (a : BitVec 8) (d : BitVec 7)
  | sar (b : BitVec 8) (a : BitVec 8) (d : BitVec 7)
  | rotl (b : BitVec 8) (a : BitVec 8) (d : BitVec 7)
  | iminS (b : BitVec 8) (a : BitVec 8) (d : BitVec 7)
  | imaxS (b : BitVec 8) (a : BitVec 8) (d : BitVec 7)
  | iminU (b : BitVec 8) (a : BitVec 8) (d : BitVec 7)
  | imaxU (b : BitVec 8) (a : BitVec 8) (d : BitVec 7)
  | popc (a : BitVec 8) (d : BitVec 7)
  | clz (a : BitVec 8) (d : BitVec 7)
  | brev (a : BitVec 8) (d : BitVec 7)
  | iabs (a : BitVec 8) (d : BitVec 7)
  | bfxU (b : BitVec 8) (a : BitVec 8) (d : BitVec 7)
  | bfxS (b : BitVec 8) (a : BitVec 8) (d : BitVec 7)
  | bfi (b : BitVec 8) (a : BitVec 8) (d : BitVec 7)
  | bshuf (b : BitVec 8) (a : BitVec 8) (d : BitVec 7)
  | shld (b : BitVec 8) (a : BitVec 8) (d : BitVec 7)
  | shrd (b : BitVec 8) (a : BitVec 8) (d : BitVec 7)
  | iaddi (i : BitVec 8) (a : BitVec 8) (d : BitVec 7)
  | andi (i : BitVec 8) (a : BitVec 8) (d : BitVec 7)
  | ori (i : BitVec 8) (a : BitVec 8) (d : BitVec 7)
  | xori (i : BitVec 8) (a : BitVec 8) (d : BitVec 7)
  | shli (i : BitVec 8) (a : BitVec 8) (d : BitVec 7)
  | shri (i : BitVec 8) (a : BitVec 8) (d : BitVec 7)
  | sari (i : BitVec 8) (a : BitVec 8) (d : BitVec 7)
  | imuli (i : BitVec 8) (a : BitVec 8) (d : BitVec 7)
  | fadd (b : BitVec 8) (a : BitVec 8) (d : BitVec 7)
  | fsub (b : BitVec 8) (a : BitVec 8) (d : BitVec 7)
  | fmul (b : BitVec 8) (a : BitVec 8) (d : BitVec 7)
  | ffma (b : BitVec 8) (a : BitVec 8) (d : BitVec 7)
  | ffms (b : BitVec 8) (a : BitVec 8) (d : BitVec 7)
  | fmin (b : BitVec 8) (a : BitVec 8) (d : BitVec 7)
  | fmax (b : BitVec 8) (a : BitVec 8) (d : BitVec 7)
  | fnma (b : BitVec 8) (a : BitVec 8) (d : BitVec 7)
  | dadd (b : BitVec 8) (a : BitVec 8) (d : BitVec 7)
  | dsub (b : BitVec 8) (a : BitVec 8) (d : BitVec 7)
  | dmul (b : BitVec 8) (a : BitVec 8) (d : BitVec 7)
  | dfma (b : BitVec 8) (a : BitVec 8) (d : BitVec 7)
  | dfms (b : BitVec 8) (a : BitVec 8) (d : BitVec 7)
  | dmin (b : BitVec 8) (a : BitVec 8) (d : BitVec 7)
  | dmax (b : BitVec 8) (a : BitVec 8) (d : BitVec 7)
  | dnma (b : BitVec 8) (a : BitVec 8) (d : BitVec 7)
  | hadd2F16 (b : BitVec 8) (a : BitVec 8) (d : BitVec 7)
  | hmul2F16 (b : BitVec 8) (a : BitVec 8) (d : BitVec 7)
  | hfma2F16 (b : BitVec 8) (a : BitVec 8) (d : BitVec 7)
  | hmin2F16 (b : BitVec 8) (a : BitVec 8) (d : BitVec 7)
  | hadd2Bf16 (b : BitVec 8) (a : BitVec 8) (d : BitVec 7)
  | hmul2Bf16 (b : BitVec 8) (a : BitVec 8) (d : BitVec 7)
  | hfma2Bf16 (b : BitVec 8) (a : BitVec 8) (d : BitVec 7)
  | hmin2Bf16 (b : BitVec 8) (a : BitVec 8) (d : BitVec 7)
  | frcp (a : BitVec 8) (d : BitVec 7)
  | frsq (a : BitVec 8) (d : BitVec 7)
  | fsqrt (a : BitVec 8) (d : BitVec 7)
  | fex2 (a : BitVec 8) (d : BitVec 7)
  | flg2 (a : BitVec 8) (d : BitVec 7)
  | fsinr (a : BitVec 8) (d : BitVec 7)
  | fcosr (a : BitVec 8) (d : BitVec 7)
  | dsqrt (a : BitVec 8) (d : BitVec 7)
  | icmpS (b : BitVec 8) (a : BitVec 8) (c : BitVec 3) (p : BitVec 3)
  | icmpU (b : BitVec 8) (a : BitVec 8) (c : BitVec 3) (p : BitVec 3)
  | fcmp (b : BitVec 8) (a : BitVec 8) (c : BitVec 3) (p : BitVec 3)
  | dcmp (b : BitVec 8) (a : BitVec 8) (c : BitVec 3) (p : BitVec 3)
  | hcmp2F16 (b : BitVec 8) (a : BitVec 8) (c : BitVec 3) (p : BitVec 3)
  | hcmp2Bf16 (b : BitVec 8) (a : BitVec 8) (c : BitVec 3) (p : BitVec 3)
  | plop (l : BitVec 8) (b : BitVec 3) (a : BitVec 3) (d : BitVec 3)
  | sel (p : BitVec 3) (b : BitVec 8) (a : BitVec 8) (d : BitVec 7)
  | cvt (m : BitVec 2) (t : BitVec 1) (s : BitVec 3) (e : BitVec 4) (a : BitVec 8) (d : BitVec 7)
  | shflIdx (b : BitVec 8) (a : BitVec 8) (d : BitVec 7)
  | shflUp (b : BitVec 8) (a : BitVec 8) (d : BitVec 7)
  | shflDn (b : BitVec 8) (a : BitVec 8) (d : BitVec 7)
  | shflXor (b : BitVec 8) (a : BitVec 8) (d : BitVec 7)
  | voteAny (s : BitVec 1) (p : BitVec 3) (d : BitVec 7)
  | voteAll (s : BitVec 1) (p : BitVec 3) (d : BitVec 7)
  | ballot (s : BitVec 1) (p : BitVec 3) (d : BitVec 7)
  | matchL (a : BitVec 8) (d : BitVec 7)
  | rdaddF32 (a : BitVec 8) (d : BitVec 7)
  | rdaddF64 (a : BitVec 8) (d : BitVec 7)
  | rdaddI32 (a : BitVec 8) (d : BitVec 7)
  | rdminF32 (a : BitVec 8) (d : BitVec 7)
  | rdmaxF32 (a : BitVec 8) (d : BitVec 7)
  | rdminI32 (a : BitVec 8) (d : BitVec 7)
  | rdmaxI32 (a : BitVec 8) (d : BitVec 7)
  | scanI32 (e : BitVec 1) (a : BitVec 8) (d : BitVec 7)
  | ldk (i : BitVec 19) (d : BitVec 7)
  | ldkh (i : BitVec 13) (d : BitVec 7)
  | ldB (h : BitVec 3) (x : BitVec 8) (r : BitVec 5) (d : BitVec 7)
  | ldBs (h : BitVec 3) (x : BitVec 8) (r : BitVec 5) (d : BitVec 7)
  | ldH (h : BitVec 3) (x : BitVec 8) (r : BitVec 5) (d : BitVec 7)
  | ldHs (h : BitVec 3) (x : BitVec 8) (r : BitVec 5) (d : BitVec 7)
  | ldW (h : BitVec 3) (x : BitVec 8) (r : BitVec 5) (d : BitVec 7)
  | ldD (h : BitVec 3) (x : BitVec 8) (r : BitVec 5) (d : BitVec 7)
  | ldQ (h : BitVec 3) (x : BitVec 8) (r : BitVec 5) (d : BitVec 7)
  | ldpW (h : BitVec 3) (x : BitVec 8) (d : BitVec 7)
  | stB (h : BitVec 3) (x : BitVec 8) (r : BitVec 5) (d : BitVec 7)
  | stH (h : BitVec 3) (x : BitVec 8) (r : BitVec 5) (d : BitVec 7)
  | stW (h : BitVec 3) (x : BitVec 8) (r : BitVec 5) (d : BitVec 7)
  | stD (h : BitVec 3) (x : BitVec 8) (r : BitVec 5) (d : BitVec 7)
  | stQ (h : BitVec 3) (x : BitVec 8) (r : BitVec 5) (d : BitVec 7)
  | stpW (h : BitVec 3) (x : BitVec 8) (d : BitVec 7)
  | pref (h : BitVec 3) (x : BitVec 8) (r : BitVec 5)
  | ldsW (x : BitVec 8) (d : BitVec 7)
  | ldsD (x : BitVec 8) (d : BitVec 7)
  | ldsQ (x : BitVec 8) (d : BitVec 7)
  | stsW (x : BitVec 8) (d : BitVec 7)
  | stsD (x : BitVec 8) (d : BitVec 7)
  | stsQ (x : BitVec 8) (d : BitVec 7)
  | ldsB (x : BitVec 8) (d : BitVec 7)
  | stsB (x : BitVec 8) (d : BitVec 7)
  | atomAdd (s : BitVec 2) (x : BitVec 8) (r : BitVec 5) (d : BitVec 7)
  | atomMinS (s : BitVec 2) (x : BitVec 8) (r : BitVec 5) (d : BitVec 7)
  | atomMaxS (s : BitVec 2) (x : BitVec 8) (r : BitVec 5) (d : BitVec 7)
  | atomAnd (s : BitVec 2) (x : BitVec 8) (r : BitVec 5) (d : BitVec 7)
  | atomOr (s : BitVec 2) (x : BitVec 8) (r : BitVec 5) (d : BitVec 7)
  | atomXor (s : BitVec 2) (x : BitVec 8) (r : BitVec 5) (d : BitVec 7)
  | atomExch (s : BitVec 2) (x : BitVec 8) (r : BitVec 5) (d : BitVec 7)
  | atomCas (s : BitVec 2) (x : BitVec 8) (r : BitVec 5) (d : BitVec 7)
  | redAdd (s : BitVec 2) (x : BitVec 8) (r : BitVec 5) (d : BitVec 7)
  | redMinS (s : BitVec 2) (x : BitVec 8) (r : BitVec 5) (d : BitVec 7)
  | redMaxS (s : BitVec 2) (x : BitVec 8) (r : BitVec 5) (d : BitVec 7)
  | redAnd (s : BitVec 2) (x : BitVec 8) (r : BitVec 5) (d : BitVec 7)
  | redOr (s : BitVec 2) (x : BitVec 8) (r : BitVec 5) (d : BitVec 7)
  | redXor (s : BitVec 2) (x : BitVec 8) (r : BitVec 5) (d : BitVec 7)
  | redExch (s : BitVec 2) (x : BitVec 8) (r : BitVec 5) (d : BitVec 7)
  | atomAddF32 (s : BitVec 2) (x : BitVec 8) (r : BitVec 5) (d : BitVec 7)
  | atomAddD (s : BitVec 2) (x : BitVec 8) (r : BitVec 5) (d : BitVec 7)
  | atomCasD (s : BitVec 2) (x : BitVec 8) (r : BitVec 5) (d : BitVec 7)
  | atomExchD (s : BitVec 2) (x : BitVec 8) (r : BitVec 5) (d : BitVec 7)
  | atomMinU (s : BitVec 2) (x : BitVec 8) (r : BitVec 5) (d : BitVec 7)
  | atomMaxU (s : BitVec 2) (x : BitVec 8) (r : BitVec 5) (d : BitVec 7)
  | atomIncWrap (s : BitVec 2) (x : BitVec 8) (r : BitVec 5) (d : BitVec 7)
  | atomAddF64 (s : BitVec 2) (x : BitVec 8) (r : BitVec 5) (d : BitVec 7)
  | redAddF32 (s : BitVec 2) (x : BitVec 8) (r : BitVec 5) (d : BitVec 7)
  | redAddD (s : BitVec 2) (x : BitVec 8) (r : BitVec 5) (d : BitVec 7)
  | redExchD (s : BitVec 2) (x : BitVec 8) (r : BitVec 5) (d : BitVec 7)
  | redMinU (s : BitVec 2) (x : BitVec 8) (r : BitVec 5) (d : BitVec 7)
  | redMaxU (s : BitVec 2) (x : BitVec 8) (r : BitVec 5) (d : BitVec 7)
  | redIncWrap (s : BitVec 2) (x : BitVec 8) (r : BitVec 5) (d : BitVec 7)
  | redAddF64 (s : BitVec 2) (x : BitVec 8) (r : BitVec 5) (d : BitVec 7)
  | ldv (x : BitVec 8) (r : BitVec 5) (d : BitVec 7)
  | ldvsW (x : BitVec 8) (r : BitVec 5) (d : BitVec 7)
  | ldvsD (x : BitVec 8) (r : BitVec 5) (d : BitVec 7)
  | vrd (x : BitVec 8) (r : BitVec 5) (d : BitVec 7)
  | casvW (x : BitVec 8) (r : BitVec 5) (d : BitVec 7)
  | casvD (x : BitVec 8) (r : BitVec 5) (d : BitVec 7)
  | vchk (p : BitVec 3)
  | waitc (c : BitVec 2) (n : BitVec 6)
  | sleept (a : BitVec 8)
  | cpoll (r : BitVec 5) (a : BitVec 8) (d : BitVec 7)
  | cpy (b : BitVec 8) (a : BitVec 8) (d : BitVec 7)
  | cpy2d (b : BitVec 8) (a : BitVec 8) (d : BitVec 7)
  | gath (b : BitVec 8) (a : BitVec 8) (d : BitVec 7)
  | scat (b : BitVec 8) (a : BitVec 8) (d : BitVec 7)
  | abarInit (b : BitVec 8) (a : BitVec 8)
  | abarArv (b : BitVec 8) (a : BitVec 8) (d : BitVec 7)
  | abarWait (b : BitVec 8) (a : BitVec 8)
  | abarTry (b : BitVec 8) (a : BitVec 8) (d : BitVec 7)
  | qinit (b : BitVec 8) (a : BitVec 8)
  | qpush (b : BitVec 8) (a : BitVec 8)
  | qpop (a : BitVec 8) (d : BitVec 7)
  | qpushTry (b : BitVec 8) (a : BitVec 8) (d : BitVec 7)
  | qtpop (a : BitVec 8) (d : BitVec 7)
  | qallow (b : BitVec 8) (a : BitVec 8)
  | qclose (a : BitVec 8)
  | qstat (a : BitVec 8) (d : BitVec 7)
  | ores (b : BitVec 8) (a : BitVec 8) (d : BitVec 4)
  | orel (d : BitVec 4)
  | allock (a : BitVec 8) (d : BitVec 7)
  | freek (b : BitVec 8) (a : BitVec 8)
  | mld (a : BitVec 8) (d : BitVec 4)
  | mlds (b : BitVec 8) (a : BitVec 8) (d : BitVec 4)
  | mlease (a : BitVec 8)
  | mma (b : BitVec 4) (a : BitVec 4) (d : BitVec 7)
  | mmap (b : BitVec 4) (a : BitVec 4) (d : BitVec 7)
  | mzero (a : BitVec 8)
  | maccr (a : BitVec 8) (d : BitVec 7)
  | maccw (b : BitVec 8) (a : BitVec 8)
  | mst (a : BitVec 8)
  | accsave (a : BitVec 8)
  | accload (a : BitVec 8)
  | bra (o : BitVec 19) (s : BitVec 1) (p : BitVec 3)
  | brc (o : BitVec 19) (s : BitVec 1) (p : BitVec 3)
  | call (o : BitVec 19) (s : BitVec 1) (p : BitVec 3)
  | brx (r : BitVec 7) (s : BitVec 1) (p : BitVec 3)
  | callx (r : BitVec 7) (s : BitVec 1) (p : BitVec 3)
  | jset (o : BitVec 19)
  | loop (o : BitVec 19) (n : BitVec 3)
  | trapi (i : BitVec 8)
  | signal (i : BitVec 1) (a : BitVec 8)
  | rdsr (i : BitVec 8) (d : BitVec 7)
  | wrsr (i : BitVec 8) (a : BitVec 8)
  | brec (o : BitVec 8) (a : BitVec 8) (n : BitVec 5)
  | vstat (i : BitVec 8) (a : BitVec 8) (d : BitVec 7)
  | rlaunch (a : BitVec 8)
  | tlbfill (l : BitVec 2) (a : BitVec 8)
  | tlbinv (s : BitVec 2) (a : BitVec 8)
  | plogrd (p : BitVec 5) (k : BitVec 1) (d : BitVec 7)
  | actset (a : BitVec 8)
  | philox (b : BitVec 8) (a : BitVec 8) (d : BitVec 7)
  | coll (b : BitVec 8) (a : BitVec 8) (t : BitVec 3)
  | add (b : BitVec 5) (d : BitVec 5)
  | sub (b : BitVec 5) (d : BitVec 5)
  | andParcel (b : BitVec 5) (d : BitVec 5)
  | orParcel (b : BitVec 5) (d : BitVec 5)
  | xorParcel (b : BitVec 5) (d : BitVec 5)
  | shlParcel (b : BitVec 5) (d : BitVec 5)
  | shrParcel (b : BitVec 5) (d : BitVec 5)
  | mov (b : BitVec 5) (d : BitVec 5)
  | faddParcel (b : BitVec 5) (d : BitVec 5)
  | fsubParcel (b : BitVec 5) (d : BitVec 5)
  | fmulParcel (b : BitVec 5) (d : BitVec 5)
  | fminParcel (b : BitVec 5) (d : BitVec 5)
  | fmaxParcel (b : BitVec 5) (d : BitVec 5)
  | imulParcel (b : BitVec 5) (d : BitVec 5)
  | addi (i : BitVec 5) (d : BitVec 5)
  | movi (i : BitVec 5) (d : BitVec 5)
  | grd (c : BitVec 2) (s : BitVec 1) (p : BitVec 3)
  | xm (d : BitVec 2) (e : BitVec 1) (s : BitVec 1) (r : BitVec 1) (b : BitVec 1) (m : BitVec 1) (a : BitVec 1) (n : BitVec 1)
  | beat (i : BitVec 10)
  | brs (o : BitVec 10)
  | waitcParcel (n : BitVec 6) (c : BitVec 2)
  | sleep (n : BitVec 10)
  | vclr
  | acq
  | rel
  | acqrel
  | fenceEng
  | mrel
  | rtt
  | nop
  | yield
  | tfence
  | exit
  | ret
  | join
  | longLatencyFill
  | accessPerformed
  | requestRetire
  | engineRequestStop
  | deferredReportTrap
  | copyPromiseMiss
  | sleeptWake
  | sleepWake
  | yieldEnd
  | groupEnd
  | activityWindow
  | boostCeiling
  | arbiterPass
  | leaseIdleEnd
  | collectiveChunkSend
  | chunkCreditReturn
  | collectiveResume
  | collectiveComplete
  | pageWalk
  | pageRequestRewalk
  | pantryReplay
  | remoteRequest
  | remoteRetry
  | peerRequest
  | bar2Access
  | railFlitReceive
  | flitResend
  | railRetrain
  | railPortFailed
  | qnotify
  | vfDoorbell
  | frontEndTurn
  | noOperation
  | launch
  | queueIdleUnmap
  | notifyWaitExpiry
  | tokenRefill
  | bucketDry
  | budgetReached
  | placementDecision
  | blockReserving
  | clusterGate
  | preemptDrain
  | preemptFreeze
  | preemptResume
  | drainHandler
  | drainDeadline
  | blockFreeze
  | periodBoundary
  | mergedBeats
  | mergeWindowExpiry
  | geyserStep
  | poolWayChangeDone
  | poolWayChangeSlow
  | gloopBind
  | gloopUnbind
  | clockStepSwitch
  | sensorSample
  | refreshCommand
  | currentCapWindow
  | currentCapRise
  | powerCapWindow
  | scrub
  | partActivate
  | partDeactivate
  | vdbindEnable
  | queueEnable
  | queueDisable
  | vdlogTailWrite
  | registerWrite
  | recoveryGo
  | startUp
  | railRetrainComplete
  | clusterWakeComplete
  | partitionKeyLoad
  deriving DecidableEq, Repr

/-- Where an instruction stands in the opcode map (R126, R127, R133): a 32-bit instruction's major
and minor number, a parcel's op number, or a step of the device that has no encoding. -/
inductive Head where
  | w32 (major minor : Nat)
  | p16 (op : Nat)
  | event
  deriving DecidableEq, Repr

/-- The opcode-map place of every row (R133, R127). -/
def Instr.head : Instr → Head
  | .iadd _ _ _ => .w32 0 0
  | .isub _ _ _ => .w32 0 1
  | .imul _ _ _ => .w32 0 2
  | .imulhS _ _ _ => .w32 0 3
  | .imulhU _ _ _ => .w32 0 4
  | .imad _ _ _ => .w32 0 5
  | .iaddc _ _ _ => .w32 0 6
  | .isubb _ _ _ => .w32 0 7
  | .and _ _ _ => .w32 1 0
  | .or _ _ _ => .w32 1 1
  | .xor _ _ _ => .w32 1 2
  | .andn _ _ _ => .w32 1 3
  | .shl _ _ _ => .w32 1 4
  | .shr _ _ _ => .w32 1 5
  | .sar _ _ _ => .w32 1 6
  | .rotl _ _ _ => .w32 1 7
  | .iminS _ _ _ => .w32 2 0
  | .imaxS _ _ _ => .w32 2 1
  | .iminU _ _ _ => .w32 2 2
  | .imaxU _ _ _ => .w32 2 3
  | .popc _ _ => .w32 2 4
  | .clz _ _ => .w32 2 5
  | .brev _ _ => .w32 2 6
  | .iabs _ _ => .w32 2 7
  | .bfxU _ _ _ => .w32 3 0
  | .bfxS _ _ _ => .w32 3 1
  | .bfi _ _ _ => .w32 3 2
  | .bshuf _ _ _ => .w32 3 3
  | .shld _ _ _ => .w32 3 4
  | .shrd _ _ _ => .w32 3 5
  | .iaddi _ _ _ => .w32 4 0
  | .andi _ _ _ => .w32 4 1
  | .ori _ _ _ => .w32 4 2
  | .xori _ _ _ => .w32 4 3
  | .shli _ _ _ => .w32 4 4
  | .shri _ _ _ => .w32 4 5
  | .sari _ _ _ => .w32 4 6
  | .imuli _ _ _ => .w32 4 7
  | .fadd _ _ _ => .w32 5 0
  | .fsub _ _ _ => .w32 5 1
  | .fmul _ _ _ => .w32 5 2
  | .ffma _ _ _ => .w32 5 3
  | .ffms _ _ _ => .w32 5 4
  | .fmin _ _ _ => .w32 5 5
  | .fmax _ _ _ => .w32 5 6
  | .fnma _ _ _ => .w32 5 7
  | .dadd _ _ _ => .w32 6 0
  | .dsub _ _ _ => .w32 6 1
  | .dmul _ _ _ => .w32 6 2
  | .dfma _ _ _ => .w32 6 3
  | .dfms _ _ _ => .w32 6 4
  | .dmin _ _ _ => .w32 6 5
  | .dmax _ _ _ => .w32 6 6
  | .dnma _ _ _ => .w32 6 7
  | .hadd2F16 _ _ _ => .w32 7 0
  | .hmul2F16 _ _ _ => .w32 7 1
  | .hfma2F16 _ _ _ => .w32 7 2
  | .hmin2F16 _ _ _ => .w32 7 3
  | .hadd2Bf16 _ _ _ => .w32 7 4
  | .hmul2Bf16 _ _ _ => .w32 7 5
  | .hfma2Bf16 _ _ _ => .w32 7 6
  | .hmin2Bf16 _ _ _ => .w32 7 7
  | .frcp _ _ => .w32 8 0
  | .frsq _ _ => .w32 8 1
  | .fsqrt _ _ => .w32 8 2
  | .fex2 _ _ => .w32 8 3
  | .flg2 _ _ => .w32 8 4
  | .fsinr _ _ => .w32 8 5
  | .fcosr _ _ => .w32 8 6
  | .dsqrt _ _ => .w32 8 7
  | .icmpS _ _ _ _ => .w32 9 0
  | .icmpU _ _ _ _ => .w32 9 1
  | .fcmp _ _ _ _ => .w32 9 2
  | .dcmp _ _ _ _ => .w32 9 3
  | .hcmp2F16 _ _ _ _ => .w32 9 4
  | .hcmp2Bf16 _ _ _ _ => .w32 9 5
  | .plop _ _ _ _ => .w32 9 6
  | .sel _ _ _ _ => .w32 10 0
  | .cvt _ _ _ _ _ _ => .w32 11 0
  | .shflIdx _ _ _ => .w32 12 0
  | .shflUp _ _ _ => .w32 12 1
  | .shflDn _ _ _ => .w32 12 2
  | .shflXor _ _ _ => .w32 12 3
  | .voteAny _ _ _ => .w32 12 4
  | .voteAll _ _ _ => .w32 12 5
  | .ballot _ _ _ => .w32 12 6
  | .matchL _ _ => .w32 12 7
  | .rdaddF32 _ _ => .w32 13 0
  | .rdaddF64 _ _ => .w32 13 1
  | .rdaddI32 _ _ => .w32 13 2
  | .rdminF32 _ _ => .w32 13 3
  | .rdmaxF32 _ _ => .w32 13 4
  | .rdminI32 _ _ => .w32 13 5
  | .rdmaxI32 _ _ => .w32 13 6
  | .scanI32 _ _ _ => .w32 13 7
  | .ldk _ _ => .w32 14 0
  | .ldkh _ _ => .w32 15 0
  | .ldB _ _ _ _ => .w32 16 0
  | .ldBs _ _ _ _ => .w32 16 1
  | .ldH _ _ _ _ => .w32 16 2
  | .ldHs _ _ _ _ => .w32 16 3
  | .ldW _ _ _ _ => .w32 16 4
  | .ldD _ _ _ _ => .w32 16 5
  | .ldQ _ _ _ _ => .w32 16 6
  | .ldpW _ _ _ => .w32 16 7
  | .stB _ _ _ _ => .w32 17 0
  | .stH _ _ _ _ => .w32 17 1
  | .stW _ _ _ _ => .w32 17 2
  | .stD _ _ _ _ => .w32 17 3
  | .stQ _ _ _ _ => .w32 17 4
  | .stpW _ _ _ => .w32 17 5
  | .pref _ _ _ => .w32 17 6
  | .ldsW _ _ => .w32 18 0
  | .ldsD _ _ => .w32 18 1
  | .ldsQ _ _ => .w32 18 2
  | .stsW _ _ => .w32 18 3
  | .stsD _ _ => .w32 18 4
  | .stsQ _ _ => .w32 18 5
  | .ldsB _ _ => .w32 18 6
  | .stsB _ _ => .w32 18 7
  | .atomAdd _ _ _ _ => .w32 19 0
  | .atomMinS _ _ _ _ => .w32 19 1
  | .atomMaxS _ _ _ _ => .w32 19 2
  | .atomAnd _ _ _ _ => .w32 19 3
  | .atomOr _ _ _ _ => .w32 19 4
  | .atomXor _ _ _ _ => .w32 19 5
  | .atomExch _ _ _ _ => .w32 19 6
  | .atomCas _ _ _ _ => .w32 19 7
  | .redAdd _ _ _ _ => .w32 19 0
  | .redMinS _ _ _ _ => .w32 19 1
  | .redMaxS _ _ _ _ => .w32 19 2
  | .redAnd _ _ _ _ => .w32 19 3
  | .redOr _ _ _ _ => .w32 19 4
  | .redXor _ _ _ _ => .w32 19 5
  | .redExch _ _ _ _ => .w32 19 6
  | .atomAddF32 _ _ _ _ => .w32 20 0
  | .atomAddD _ _ _ _ => .w32 20 1
  | .atomCasD _ _ _ _ => .w32 20 2
  | .atomExchD _ _ _ _ => .w32 20 3
  | .atomMinU _ _ _ _ => .w32 20 4
  | .atomMaxU _ _ _ _ => .w32 20 5
  | .atomIncWrap _ _ _ _ => .w32 20 6
  | .atomAddF64 _ _ _ _ => .w32 20 7
  | .redAddF32 _ _ _ _ => .w32 20 0
  | .redAddD _ _ _ _ => .w32 20 1
  | .redExchD _ _ _ _ => .w32 20 3
  | .redMinU _ _ _ _ => .w32 20 4
  | .redMaxU _ _ _ _ => .w32 20 5
  | .redIncWrap _ _ _ _ => .w32 20 6
  | .redAddF64 _ _ _ _ => .w32 20 7
  | .ldv _ _ _ => .w32 21 0
  | .ldvsW _ _ _ => .w32 21 1
  | .ldvsD _ _ _ => .w32 21 2
  | .vrd _ _ _ => .w32 21 3
  | .casvW _ _ _ => .w32 21 4
  | .casvD _ _ _ => .w32 21 5
  | .vchk _ => .w32 21 6
  | .waitc _ _ => .w32 22 4
  | .sleept _ => .w32 22 5
  | .cpoll _ _ _ => .w32 22 6
  | .cpy _ _ _ => .w32 23 0
  | .cpy2d _ _ _ => .w32 23 1
  | .gath _ _ _ => .w32 23 2
  | .scat _ _ _ => .w32 23 3
  | .abarInit _ _ => .w32 23 4
  | .abarArv _ _ _ => .w32 23 5
  | .abarWait _ _ => .w32 23 6
  | .abarTry _ _ _ => .w32 23 7
  | .qinit _ _ => .w32 24 0
  | .qpush _ _ => .w32 24 1
  | .qpop _ _ => .w32 24 2
  | .qpushTry _ _ _ => .w32 24 3
  | .qtpop _ _ => .w32 24 4
  | .qallow _ _ => .w32 24 5
  | .qclose _ => .w32 24 6
  | .qstat _ _ => .w32 24 7
  | .ores _ _ _ => .w32 25 0
  | .orel _ => .w32 25 1
  | .allock _ _ => .w32 25 2
  | .freek _ _ => .w32 25 3
  | .mld _ _ => .w32 25 4
  | .mlds _ _ _ => .w32 25 5
  | .mlease _ => .w32 25 6
  | .mma _ _ _ => .w32 26 0
  | .mmap _ _ _ => .w32 26 1
  | .mzero _ => .w32 26 2
  | .maccr _ _ => .w32 26 3
  | .maccw _ _ => .w32 26 4
  | .mst _ => .w32 26 5
  | .accsave _ => .w32 26 6
  | .accload _ => .w32 26 7
  | .bra _ _ _ => .w32 27 0
  | .brc _ _ _ => .w32 27 1
  | .call _ _ _ => .w32 27 2
  | .brx _ _ _ => .w32 27 3
  | .callx _ _ _ => .w32 27 4
  | .jset _ => .w32 27 5
  | .loop _ _ => .w32 27 6
  | .trapi _ => .w32 28 0
  | .signal _ _ => .w32 28 1
  | .rdsr _ _ => .w32 28 2
  | .wrsr _ _ => .w32 28 3
  | .brec _ _ _ => .w32 28 4
  | .vstat _ _ _ => .w32 28 5
  | .rlaunch _ => .w32 28 6
  | .tlbfill _ _ => .w32 29 0
  | .tlbinv _ _ => .w32 29 1
  | .plogrd _ _ _ => .w32 29 3
  | .actset _ => .w32 29 4
  | .philox _ _ _ => .w32 30 0
  | .coll _ _ _ => .w32 30 1
  | .add _ _ => .p16 0
  | .sub _ _ => .p16 1
  | .andParcel _ _ => .p16 2
  | .orParcel _ _ => .p16 3
  | .xorParcel _ _ => .p16 4
  | .shlParcel _ _ => .p16 5
  | .shrParcel _ _ => .p16 6
  | .mov _ _ => .p16 7
  | .faddParcel _ _ => .p16 8
  | .fsubParcel _ _ => .p16 9
  | .fmulParcel _ _ => .p16 10
  | .fminParcel _ _ => .p16 11
  | .fmaxParcel _ _ => .p16 12
  | .imulParcel _ _ => .p16 13
  | .addi _ _ => .p16 14
  | .movi _ _ => .p16 15
  | .grd _ _ _ => .p16 17
  | .xm _ _ _ _ _ _ _ _ => .p16 18
  | .beat _ => .p16 19
  | .brs _ => .p16 25
  | .waitcParcel _ _ => .p16 26
  | .sleep _ => .p16 27
  | .vclr => .w32 21 7
  | .acq => .w32 22 0
  | .rel => .w32 22 1
  | .acqrel => .w32 22 2
  | .fenceEng => .w32 22 3
  | .mrel => .w32 25 7
  | .rtt => .w32 29 2
  | .nop => .p16 16
  | .yield => .p16 20
  | .tfence => .p16 21
  | .exit => .p16 22
  | .ret => .p16 23
  | .join => .p16 24
  | .longLatencyFill => .event
  | .accessPerformed => .event
  | .requestRetire => .event
  | .engineRequestStop => .event
  | .deferredReportTrap => .event
  | .copyPromiseMiss => .event
  | .sleeptWake => .event
  | .sleepWake => .event
  | .yieldEnd => .event
  | .groupEnd => .event
  | .activityWindow => .event
  | .boostCeiling => .event
  | .arbiterPass => .event
  | .leaseIdleEnd => .event
  | .collectiveChunkSend => .event
  | .chunkCreditReturn => .event
  | .collectiveResume => .event
  | .collectiveComplete => .event
  | .pageWalk => .event
  | .pageRequestRewalk => .event
  | .pantryReplay => .event
  | .remoteRequest => .event
  | .remoteRetry => .event
  | .peerRequest => .event
  | .bar2Access => .event
  | .railFlitReceive => .event
  | .flitResend => .event
  | .railRetrain => .event
  | .railPortFailed => .event
  | .qnotify => .event
  | .vfDoorbell => .event
  | .frontEndTurn => .event
  | .noOperation => .event
  | .launch => .event
  | .queueIdleUnmap => .event
  | .notifyWaitExpiry => .event
  | .tokenRefill => .event
  | .bucketDry => .event
  | .budgetReached => .event
  | .placementDecision => .event
  | .blockReserving => .event
  | .clusterGate => .event
  | .preemptDrain => .event
  | .preemptFreeze => .event
  | .preemptResume => .event
  | .drainHandler => .event
  | .drainDeadline => .event
  | .blockFreeze => .event
  | .periodBoundary => .event
  | .mergedBeats => .event
  | .mergeWindowExpiry => .event
  | .geyserStep => .event
  | .poolWayChangeDone => .event
  | .poolWayChangeSlow => .event
  | .gloopBind => .event
  | .gloopUnbind => .event
  | .clockStepSwitch => .event
  | .sensorSample => .event
  | .refreshCommand => .event
  | .currentCapWindow => .event
  | .currentCapRise => .event
  | .powerCapWindow => .event
  | .scrub => .event
  | .partActivate => .event
  | .partDeactivate => .event
  | .vdbindEnable => .event
  | .queueEnable => .event
  | .queueDisable => .event
  | .vdlogTailWrite => .event
  | .registerWrite => .event
  | .recoveryGo => .event
  | .startUp => .event
  | .railRetrainComplete => .event
  | .clusterWakeComplete => .event
  | .partitionKeyLoad => .event

/-- The mnemonic of every row, as the table spells it. -/
def Instr.mnemonic : Instr → String
  | .iadd _ _ _ => "IADD"
  | .isub _ _ _ => "ISUB"
  | .imul _ _ _ => "IMUL"
  | .imulhS _ _ _ => "IMULH_S"
  | .imulhU _ _ _ => "IMULH_U"
  | .imad _ _ _ => "IMAD"
  | .iaddc _ _ _ => "IADDC"
  | .isubb _ _ _ => "ISUBB"
  | .and _ _ _ => "AND"
  | .or _ _ _ => "OR"
  | .xor _ _ _ => "XOR"
  | .andn _ _ _ => "ANDN"
  | .shl _ _ _ => "SHL"
  | .shr _ _ _ => "SHR"
  | .sar _ _ _ => "SAR"
  | .rotl _ _ _ => "ROTL"
  | .iminS _ _ _ => "IMIN_S"
  | .imaxS _ _ _ => "IMAX_S"
  | .iminU _ _ _ => "IMIN_U"
  | .imaxU _ _ _ => "IMAX_U"
  | .popc _ _ => "POPC"
  | .clz _ _ => "CLZ"
  | .brev _ _ => "BREV"
  | .iabs _ _ => "IABS"
  | .bfxU _ _ _ => "BFX_U"
  | .bfxS _ _ _ => "BFX_S"
  | .bfi _ _ _ => "BFI"
  | .bshuf _ _ _ => "BSHUF"
  | .shld _ _ _ => "SHLD"
  | .shrd _ _ _ => "SHRD"
  | .iaddi _ _ _ => "IADDI"
  | .andi _ _ _ => "ANDI"
  | .ori _ _ _ => "ORI"
  | .xori _ _ _ => "XORI"
  | .shli _ _ _ => "SHLI"
  | .shri _ _ _ => "SHRI"
  | .sari _ _ _ => "SARI"
  | .imuli _ _ _ => "IMULI"
  | .fadd _ _ _ => "FADD"
  | .fsub _ _ _ => "FSUB"
  | .fmul _ _ _ => "FMUL"
  | .ffma _ _ _ => "FFMA"
  | .ffms _ _ _ => "FFMS"
  | .fmin _ _ _ => "FMIN"
  | .fmax _ _ _ => "FMAX"
  | .fnma _ _ _ => "FNMA"
  | .dadd _ _ _ => "DADD"
  | .dsub _ _ _ => "DSUB"
  | .dmul _ _ _ => "DMUL"
  | .dfma _ _ _ => "DFMA"
  | .dfms _ _ _ => "DFMS"
  | .dmin _ _ _ => "DMIN"
  | .dmax _ _ _ => "DMAX"
  | .dnma _ _ _ => "DNMA"
  | .hadd2F16 _ _ _ => "HADD2_F16"
  | .hmul2F16 _ _ _ => "HMUL2_F16"
  | .hfma2F16 _ _ _ => "HFMA2_F16"
  | .hmin2F16 _ _ _ => "HMIN2_F16"
  | .hadd2Bf16 _ _ _ => "HADD2_BF16"
  | .hmul2Bf16 _ _ _ => "HMUL2_BF16"
  | .hfma2Bf16 _ _ _ => "HFMA2_BF16"
  | .hmin2Bf16 _ _ _ => "HMIN2_BF16"
  | .frcp _ _ => "FRCP"
  | .frsq _ _ => "FRSQ"
  | .fsqrt _ _ => "FSQRT"
  | .fex2 _ _ => "FEX2"
  | .flg2 _ _ => "FLG2"
  | .fsinr _ _ => "FSINR"
  | .fcosr _ _ => "FCOSR"
  | .dsqrt _ _ => "DSQRT"
  | .icmpS _ _ _ _ => "ICMP_S"
  | .icmpU _ _ _ _ => "ICMP_U"
  | .fcmp _ _ _ _ => "FCMP"
  | .dcmp _ _ _ _ => "DCMP"
  | .hcmp2F16 _ _ _ _ => "HCMP2_F16"
  | .hcmp2Bf16 _ _ _ _ => "HCMP2_BF16"
  | .plop _ _ _ _ => "PLOP"
  | .sel _ _ _ _ => "SEL"
  | .cvt _ _ _ _ _ _ => "CVT"
  | .shflIdx _ _ _ => "SHFL_IDX"
  | .shflUp _ _ _ => "SHFL_UP"
  | .shflDn _ _ _ => "SHFL_DN"
  | .shflXor _ _ _ => "SHFL_XOR"
  | .voteAny _ _ _ => "VOTE_ANY"
  | .voteAll _ _ _ => "VOTE_ALL"
  | .ballot _ _ _ => "BALLOT"
  | .matchL _ _ => "MATCH"
  | .rdaddF32 _ _ => "RDADD_F32"
  | .rdaddF64 _ _ => "RDADD_F64"
  | .rdaddI32 _ _ => "RDADD_I32"
  | .rdminF32 _ _ => "RDMIN_F32"
  | .rdmaxF32 _ _ => "RDMAX_F32"
  | .rdminI32 _ _ => "RDMIN_I32"
  | .rdmaxI32 _ _ => "RDMAX_I32"
  | .scanI32 _ _ _ => "SCAN_I32"
  | .ldk _ _ => "LDK"
  | .ldkh _ _ => "LDKH"
  | .ldB _ _ _ _ => "LD_B"
  | .ldBs _ _ _ _ => "LD_BS"
  | .ldH _ _ _ _ => "LD_H"
  | .ldHs _ _ _ _ => "LD_HS"
  | .ldW _ _ _ _ => "LD_W"
  | .ldD _ _ _ _ => "LD_D"
  | .ldQ _ _ _ _ => "LD_Q"
  | .ldpW _ _ _ => "LDP_W"
  | .stB _ _ _ _ => "ST_B"
  | .stH _ _ _ _ => "ST_H"
  | .stW _ _ _ _ => "ST_W"
  | .stD _ _ _ _ => "ST_D"
  | .stQ _ _ _ _ => "ST_Q"
  | .stpW _ _ _ => "STP_W"
  | .pref _ _ _ => "PREF"
  | .ldsW _ _ => "LDS_W"
  | .ldsD _ _ => "LDS_D"
  | .ldsQ _ _ => "LDS_Q"
  | .stsW _ _ => "STS_W"
  | .stsD _ _ => "STS_D"
  | .stsQ _ _ => "STS_Q"
  | .ldsB _ _ => "LDS_B"
  | .stsB _ _ => "STS_B"
  | .atomAdd _ _ _ _ => "ATOM_ADD"
  | .atomMinS _ _ _ _ => "ATOM_MIN_S"
  | .atomMaxS _ _ _ _ => "ATOM_MAX_S"
  | .atomAnd _ _ _ _ => "ATOM_AND"
  | .atomOr _ _ _ _ => "ATOM_OR"
  | .atomXor _ _ _ _ => "ATOM_XOR"
  | .atomExch _ _ _ _ => "ATOM_EXCH"
  | .atomCas _ _ _ _ => "ATOM_CAS"
  | .redAdd _ _ _ _ => "RED_ADD"
  | .redMinS _ _ _ _ => "RED_MIN_S"
  | .redMaxS _ _ _ _ => "RED_MAX_S"
  | .redAnd _ _ _ _ => "RED_AND"
  | .redOr _ _ _ _ => "RED_OR"
  | .redXor _ _ _ _ => "RED_XOR"
  | .redExch _ _ _ _ => "RED_EXCH"
  | .atomAddF32 _ _ _ _ => "ATOM_ADD_F32"
  | .atomAddD _ _ _ _ => "ATOM_ADD_D"
  | .atomCasD _ _ _ _ => "ATOM_CAS_D"
  | .atomExchD _ _ _ _ => "ATOM_EXCH_D"
  | .atomMinU _ _ _ _ => "ATOM_MIN_U"
  | .atomMaxU _ _ _ _ => "ATOM_MAX_U"
  | .atomIncWrap _ _ _ _ => "ATOM_INC_WRAP"
  | .atomAddF64 _ _ _ _ => "ATOM_ADD_F64"
  | .redAddF32 _ _ _ _ => "RED_ADD_F32"
  | .redAddD _ _ _ _ => "RED_ADD_D"
  | .redExchD _ _ _ _ => "RED_EXCH_D"
  | .redMinU _ _ _ _ => "RED_MIN_U"
  | .redMaxU _ _ _ _ => "RED_MAX_U"
  | .redIncWrap _ _ _ _ => "RED_INC_WRAP"
  | .redAddF64 _ _ _ _ => "RED_ADD_F64"
  | .ldv _ _ _ => "LDV"
  | .ldvsW _ _ _ => "LDVS_W"
  | .ldvsD _ _ _ => "LDVS_D"
  | .vrd _ _ _ => "VRD"
  | .casvW _ _ _ => "CASV_W"
  | .casvD _ _ _ => "CASV_D"
  | .vchk _ => "VCHK"
  | .waitc _ _ => "WAITC"
  | .sleept _ => "SLEEPT"
  | .cpoll _ _ _ => "CPOLL"
  | .cpy _ _ _ => "CPY"
  | .cpy2d _ _ _ => "CPY2D"
  | .gath _ _ _ => "GATH"
  | .scat _ _ _ => "SCAT"
  | .abarInit _ _ => "ABAR_INIT"
  | .abarArv _ _ _ => "ABAR_ARV"
  | .abarWait _ _ => "ABAR_WAIT"
  | .abarTry _ _ _ => "ABAR_TRY"
  | .qinit _ _ => "QINIT"
  | .qpush _ _ => "QPUSH"
  | .qpop _ _ => "QPOP"
  | .qpushTry _ _ _ => "QPUSH_TRY"
  | .qtpop _ _ => "QTPOP"
  | .qallow _ _ => "QALLOW"
  | .qclose _ => "QCLOSE"
  | .qstat _ _ => "QSTAT"
  | .ores _ _ _ => "ORES"
  | .orel _ => "OREL"
  | .allock _ _ => "ALLOCK"
  | .freek _ _ => "FREEK"
  | .mld _ _ => "MLD"
  | .mlds _ _ _ => "MLDS"
  | .mlease _ => "MLEASE"
  | .mma _ _ _ => "MMA"
  | .mmap _ _ _ => "MMAP"
  | .mzero _ => "MZERO"
  | .maccr _ _ => "MACCR"
  | .maccw _ _ => "MACCW"
  | .mst _ => "MST"
  | .accsave _ => "ACCSAVE"
  | .accload _ => "ACCLOAD"
  | .bra _ _ _ => "BRA"
  | .brc _ _ _ => "BRC"
  | .call _ _ _ => "CALL"
  | .brx _ _ _ => "BRX"
  | .callx _ _ _ => "CALLX"
  | .jset _ => "JSET"
  | .loop _ _ => "LOOP"
  | .trapi _ => "TRAPI"
  | .signal _ _ => "SIGNAL"
  | .rdsr _ _ => "RDSR"
  | .wrsr _ _ => "WRSR"
  | .brec _ _ _ => "BREC"
  | .vstat _ _ _ => "VSTAT"
  | .rlaunch _ => "RLAUNCH"
  | .tlbfill _ _ => "TLBFILL"
  | .tlbinv _ _ => "TLBINV"
  | .plogrd _ _ _ => "PLOGRD"
  | .actset _ => "ACTSET"
  | .philox _ _ _ => "PHILOX"
  | .coll _ _ _ => "COLL"
  | .add _ _ => "ADD"
  | .sub _ _ => "SUB"
  | .andParcel _ _ => "AND_PARCEL"
  | .orParcel _ _ => "OR_PARCEL"
  | .xorParcel _ _ => "XOR_PARCEL"
  | .shlParcel _ _ => "SHL_PARCEL"
  | .shrParcel _ _ => "SHR_PARCEL"
  | .mov _ _ => "MOV"
  | .faddParcel _ _ => "FADD_PARCEL"
  | .fsubParcel _ _ => "FSUB_PARCEL"
  | .fmulParcel _ _ => "FMUL_PARCEL"
  | .fminParcel _ _ => "FMIN_PARCEL"
  | .fmaxParcel _ _ => "FMAX_PARCEL"
  | .imulParcel _ _ => "IMUL_PARCEL"
  | .addi _ _ => "ADDI"
  | .movi _ _ => "MOVI"
  | .grd _ _ _ => "GRD"
  | .xm _ _ _ _ _ _ _ _ => "XM"
  | .beat _ => "BEAT"
  | .brs _ => "BRS"
  | .waitcParcel _ _ => "WAITC_PARCEL"
  | .sleep _ => "SLEEP"
  | .vclr => "VCLR"
  | .acq => "ACQ"
  | .rel => "REL"
  | .acqrel => "ACQREL"
  | .fenceEng => "FENCE_ENG"
  | .mrel => "MREL"
  | .rtt => "RTT"
  | .nop => "NOP"
  | .yield => "YIELD"
  | .tfence => "TFENCE"
  | .exit => "EXIT"
  | .ret => "RET"
  | .join => "JOIN"
  | .longLatencyFill => "LONG_LATENCY_FILL"
  | .accessPerformed => "ACCESS_PERFORMED"
  | .requestRetire => "REQUEST_RETIRE"
  | .engineRequestStop => "ENGINE_REQUEST_STOP"
  | .deferredReportTrap => "DEFERRED_REPORT_TRAP"
  | .copyPromiseMiss => "COPY_PROMISE_MISS"
  | .sleeptWake => "SLEEPT_WAKE"
  | .sleepWake => "SLEEP_WAKE"
  | .yieldEnd => "YIELD_END"
  | .groupEnd => "GROUP_END"
  | .activityWindow => "ACTIVITY_WINDOW"
  | .boostCeiling => "BOOST_CEILING"
  | .arbiterPass => "ARBITER_PASS"
  | .leaseIdleEnd => "LEASE_IDLE_END"
  | .collectiveChunkSend => "COLLECTIVE_CHUNK_SEND"
  | .chunkCreditReturn => "CHUNK_CREDIT_RETURN"
  | .collectiveResume => "COLLECTIVE_RESUME"
  | .collectiveComplete => "COLLECTIVE_COMPLETE"
  | .pageWalk => "PAGE_WALK"
  | .pageRequestRewalk => "PAGE_REQUEST_REWALK"
  | .pantryReplay => "PANTRY_REPLAY"
  | .remoteRequest => "REMOTE_REQUEST"
  | .remoteRetry => "REMOTE_RETRY"
  | .peerRequest => "PEER_REQUEST"
  | .bar2Access => "BAR2_ACCESS"
  | .railFlitReceive => "RAIL_FLIT_RECEIVE"
  | .flitResend => "FLIT_RESEND"
  | .railRetrain => "RAIL_RETRAIN"
  | .railPortFailed => "RAIL_PORT_FAILED"
  | .qnotify => "QNOTIFY"
  | .vfDoorbell => "VF_DOORBELL"
  | .frontEndTurn => "FRONT_END_TURN"
  | .noOperation => "NO_OPERATION"
  | .launch => "LAUNCH"
  | .queueIdleUnmap => "QUEUE_IDLE_UNMAP"
  | .notifyWaitExpiry => "NOTIFY_WAIT_EXPIRY"
  | .tokenRefill => "TOKEN_REFILL"
  | .bucketDry => "BUCKET_DRY"
  | .budgetReached => "BUDGET_REACHED"
  | .placementDecision => "PLACEMENT_DECISION"
  | .blockReserving => "BLOCK_RESERVING"
  | .clusterGate => "CLUSTER_GATE"
  | .preemptDrain => "PREEMPT_DRAIN"
  | .preemptFreeze => "PREEMPT_FREEZE"
  | .preemptResume => "PREEMPT_RESUME"
  | .drainHandler => "DRAIN_HANDLER"
  | .drainDeadline => "DRAIN_DEADLINE"
  | .blockFreeze => "BLOCK_FREEZE"
  | .periodBoundary => "PERIOD_BOUNDARY"
  | .mergedBeats => "MERGED_BEATS"
  | .mergeWindowExpiry => "MERGE_WINDOW_EXPIRY"
  | .geyserStep => "GEYSER_STEP"
  | .poolWayChangeDone => "POOL_WAY_CHANGE_DONE"
  | .poolWayChangeSlow => "POOL_WAY_CHANGE_SLOW"
  | .gloopBind => "GLOOP_BIND"
  | .gloopUnbind => "GLOOP_UNBIND"
  | .clockStepSwitch => "CLOCK_STEP_SWITCH"
  | .sensorSample => "SENSOR_SAMPLE"
  | .refreshCommand => "REFRESH_COMMAND"
  | .currentCapWindow => "CURRENT_CAP_WINDOW"
  | .currentCapRise => "CURRENT_CAP_RISE"
  | .powerCapWindow => "POWER_CAP_WINDOW"
  | .scrub => "SCRUB"
  | .partActivate => "PART_ACTIVATE"
  | .partDeactivate => "PART_DEACTIVATE"
  | .vdbindEnable => "VDBIND_ENABLE"
  | .queueEnable => "QUEUE_ENABLE"
  | .queueDisable => "QUEUE_DISABLE"
  | .vdlogTailWrite => "VDLOG_TAIL_WRITE"
  | .registerWrite => "REGISTER_WRITE"
  | .recoveryGo => "RECOVERY_GO"
  | .startUp => "START_UP"
  | .railRetrainComplete => "RAIL_RETRAIN_COMPLETE"
  | .clusterWakeComplete => "CLUSTER_WAKE_COMPLETE"
  | .partitionKeyLoad => "PARTITION_KEY_LOAD"

end Sys2Proof
end

