-- ==== Sys2Proof/WellFormed.lean ====
section
/-! DEFINITION. Which instructions are instructions: every reserved value that an encoding's fields
can hold, and every field that must be zero for a value of another field (R5, R118, R123, R130,
R156, R160, R161, R185, R188, R190, R359). The decoder refuses the rest. -/

namespace Sys2Proof

/-- A 7-bit register selector is not one of the reserved 0x7E and 0x7F (R49, R118). -/
def selOk7 (s : BitVec 7) : Bool := decide (s.toNat < 126)

/-- The selector of an 8-bit source field is not reserved; bit 7 is the action bit (R118). -/
def selOk8 (s : BitVec 8) : Bool := decide (s.toNat % 128 < 126)

/-- The pairings of source and destination codes that CVT assigns, and where its saturate bit may
be 1 (R160, R161). -/
def cvtOk (src dst : Nat) (sat : Bool) : Bool :=
  if dst ≥ 14 then false
  else if dst ≥ 12 then src == 0 && !sat
  else if src < 4 then
    if dst < 4 then !sat else true
  else if dst < 4 then !sat
  else if dst == 8 || dst == 9 then true
  else src != dst

/-- An atomic or reduction at .blk or .clu names no record (R123). -/
def siteOk (s : BitVec 2) (r : BitVec 5) : Bool := decide (2 ≤ s.toNat) || r == 0#5

/-- The instruction holds no reserved value (R5, R359). A step of the device always does. -/
def Instr.wf : Instr → Bool
  | .iadd b a d => selOk8 b && selOk8 a && selOk7 d
  | .isub b a d => selOk8 b && selOk8 a && selOk7 d
  | .imul b a d => selOk8 b && selOk8 a && selOk7 d
  | .imulhS b a d => selOk8 b && selOk8 a && selOk7 d
  | .imulhU b a d => selOk8 b && selOk8 a && selOk7 d
  | .imad b a d => selOk8 b && selOk8 a && selOk7 d
  | .iaddc b a d => selOk8 b && selOk8 a && selOk7 d
  | .isubb b a d => selOk8 b && selOk8 a && selOk7 d
  | .and b a d => selOk8 b && selOk8 a && selOk7 d
  | .or b a d => selOk8 b && selOk8 a && selOk7 d
  | .xor b a d => selOk8 b && selOk8 a && selOk7 d
  | .andn b a d => selOk8 b && selOk8 a && selOk7 d
  | .shl b a d => selOk8 b && selOk8 a && selOk7 d
  | .shr b a d => selOk8 b && selOk8 a && selOk7 d
  | .sar b a d => selOk8 b && selOk8 a && selOk7 d
  | .rotl b a d => selOk8 b && selOk8 a && selOk7 d
  | .iminS b a d => selOk8 b && selOk8 a && selOk7 d
  | .imaxS b a d => selOk8 b && selOk8 a && selOk7 d
  | .iminU b a d => selOk8 b && selOk8 a && selOk7 d
  | .imaxU b a d => selOk8 b && selOk8 a && selOk7 d
  | .popc a d => selOk8 a && selOk7 d
  | .clz a d => selOk8 a && selOk7 d
  | .brev a d => selOk8 a && selOk7 d
  | .iabs a d => selOk8 a && selOk7 d
  | .bfxU b a d => selOk8 b && selOk8 a && selOk7 d
  | .bfxS b a d => selOk8 b && selOk8 a && selOk7 d
  | .bfi b a d => selOk8 b && selOk8 a && selOk7 d
  | .bshuf b a d => selOk8 b && selOk8 a && selOk7 d
  | .shld b a d => selOk8 b && selOk8 a && selOk7 d
  | .shrd b a d => selOk8 b && selOk8 a && selOk7 d
  | .iaddi _ a d => selOk8 a && selOk7 d
  | .andi _ a d => selOk8 a && selOk7 d
  | .ori _ a d => selOk8 a && selOk7 d
  | .xori _ a d => selOk8 a && selOk7 d
  | .shli _ a d => selOk8 a && selOk7 d
  | .shri _ a d => selOk8 a && selOk7 d
  | .sari _ a d => selOk8 a && selOk7 d
  | .imuli _ a d => selOk8 a && selOk7 d
  | .fadd b a d => selOk8 b && selOk8 a && selOk7 d
  | .fsub b a d => selOk8 b && selOk8 a && selOk7 d
  | .fmul b a d => selOk8 b && selOk8 a && selOk7 d
  | .ffma b a d => selOk8 b && selOk8 a && selOk7 d
  | .ffms b a d => selOk8 b && selOk8 a && selOk7 d
  | .fmin b a d => selOk8 b && selOk8 a && selOk7 d
  | .fmax b a d => selOk8 b && selOk8 a && selOk7 d
  | .fnma b a d => selOk8 b && selOk8 a && selOk7 d
  | .dadd b a d => selOk8 b && selOk8 a && selOk7 d
  | .dsub b a d => selOk8 b && selOk8 a && selOk7 d
  | .dmul b a d => selOk8 b && selOk8 a && selOk7 d
  | .dfma b a d => selOk8 b && selOk8 a && selOk7 d
  | .dfms b a d => selOk8 b && selOk8 a && selOk7 d
  | .dmin b a d => selOk8 b && selOk8 a && selOk7 d
  | .dmax b a d => selOk8 b && selOk8 a && selOk7 d
  | .dnma b a d => selOk8 b && selOk8 a && selOk7 d
  | .hadd2F16 b a d => selOk8 b && selOk8 a && selOk7 d
  | .hmul2F16 b a d => selOk8 b && selOk8 a && selOk7 d
  | .hfma2F16 b a d => selOk8 b && selOk8 a && selOk7 d
  | .hmin2F16 b a d => selOk8 b && selOk8 a && selOk7 d
  | .hadd2Bf16 b a d => selOk8 b && selOk8 a && selOk7 d
  | .hmul2Bf16 b a d => selOk8 b && selOk8 a && selOk7 d
  | .hfma2Bf16 b a d => selOk8 b && selOk8 a && selOk7 d
  | .hmin2Bf16 b a d => selOk8 b && selOk8 a && selOk7 d
  | .frcp a d => selOk8 a && selOk7 d
  | .frsq a d => selOk8 a && selOk7 d
  | .fsqrt a d => selOk8 a && selOk7 d
  | .fex2 a d => selOk8 a && selOk7 d
  | .flg2 a d => selOk8 a && selOk7 d
  | .fsinr a d => selOk8 a && selOk7 d
  | .fcosr a d => selOk8 a && selOk7 d
  | .dsqrt a d => selOk8 a && selOk7 d
  | .icmpS b a c _ => selOk8 b && selOk8 a && decide (c.toNat < 6)
  | .icmpU b a c _ => selOk8 b && selOk8 a && decide (c.toNat < 6)
  | .fcmp b a _ _ => selOk8 b && selOk8 a
  | .dcmp b a _ _ => selOk8 b && selOk8 a
  | .hcmp2F16 b a _ _ => selOk8 b && selOk8 a
  | .hcmp2Bf16 b a _ _ => selOk8 b && selOk8 a
  | .plop _ _ _ _ => true
  | .sel _ b a d => selOk8 b && selOk8 a && selOk7 d
  | .cvt _ t s e a d => selOk8 a && selOk7 d && cvtOk s.toNat e.toNat (t == 1#1)
  | .shflIdx b a d => selOk8 b && selOk8 a && selOk7 d
  | .shflUp b a d => selOk8 b && selOk8 a && selOk7 d
  | .shflDn b a d => selOk8 b && selOk8 a && selOk7 d
  | .shflXor b a d => selOk8 b && selOk8 a && selOk7 d
  | .voteAny _ _ d => selOk7 d
  | .voteAll _ _ d => selOk7 d
  | .ballot _ _ d => selOk7 d
  | .matchL a d => selOk8 a && selOk7 d
  | .rdaddF32 a d => selOk8 a && selOk7 d
  | .rdaddF64 a d => selOk8 a && selOk7 d
  | .rdaddI32 a d => selOk8 a && selOk7 d
  | .rdminF32 a d => selOk8 a && selOk7 d
  | .rdmaxF32 a d => selOk8 a && selOk7 d
  | .rdminI32 a d => selOk8 a && selOk7 d
  | .rdmaxI32 a d => selOk8 a && selOk7 d
  | .scanI32 _ a d => selOk8 a && selOk7 d
  | .ldk _ d => selOk7 d
  | .ldkh _ d => selOk7 d
  | .ldB h x _ d => selOk8 x && selOk7 d && decide (h.toNat < 4)
  | .ldBs h x _ d => selOk8 x && selOk7 d && decide (h.toNat < 4)
  | .ldH h x _ d => selOk8 x && selOk7 d && decide (h.toNat < 4)
  | .ldHs h x _ d => selOk8 x && selOk7 d && decide (h.toNat < 4)
  | .ldW h x _ d => selOk8 x && selOk7 d && decide (h.toNat < 4)
  | .ldD h x _ d => selOk8 x && selOk7 d && decide (h.toNat < 4)
  | .ldQ h x _ d => selOk8 x && selOk7 d && decide (h.toNat < 4)
  | .ldpW h x d => selOk8 x && selOk7 d && decide (h.toNat < 4)
  | .stB h x _ d => selOk8 x && selOk7 d && decide (h.toNat < 4)
  | .stH h x _ d => selOk8 x && selOk7 d && decide (h.toNat < 4)
  | .stW h x _ d => selOk8 x && selOk7 d && decide (h.toNat < 4)
  | .stD h x _ d => selOk8 x && selOk7 d && decide (h.toNat < 4)
  | .stQ h x _ d => selOk8 x && selOk7 d && decide (h.toNat < 4)
  | .stpW h x d => selOk8 x && selOk7 d && decide (h.toNat < 4)
  | .pref h x _ => selOk8 x && decide (h.toNat < 2)
  | .ldsW x d => selOk8 x && selOk7 d
  | .ldsD x d => selOk8 x && selOk7 d
  | .ldsQ x d => selOk8 x && selOk7 d
  | .stsW x d => selOk8 x && selOk7 d
  | .stsD x d => selOk8 x && selOk7 d
  | .stsQ x d => selOk8 x && selOk7 d
  | .ldsB x d => selOk8 x && selOk7 d
  | .stsB x d => selOk8 x && selOk7 d
  | .atomAdd s x r d => selOk8 x && selOk7 d && siteOk s r
  | .atomMinS s x r d => selOk8 x && selOk7 d && siteOk s r
  | .atomMaxS s x r d => selOk8 x && selOk7 d && siteOk s r
  | .atomAnd s x r d => selOk8 x && selOk7 d && siteOk s r
  | .atomOr s x r d => selOk8 x && selOk7 d && siteOk s r
  | .atomXor s x r d => selOk8 x && selOk7 d && siteOk s r
  | .atomExch s x r d => selOk8 x && selOk7 d && siteOk s r
  | .atomCas s x r d => selOk8 x && selOk7 d && siteOk s r
  | .redAdd s x r d => selOk8 x && selOk7 d && siteOk s r
  | .redMinS s x r d => selOk8 x && selOk7 d && siteOk s r
  | .redMaxS s x r d => selOk8 x && selOk7 d && siteOk s r
  | .redAnd s x r d => selOk8 x && selOk7 d && siteOk s r
  | .redOr s x r d => selOk8 x && selOk7 d && siteOk s r
  | .redXor s x r d => selOk8 x && selOk7 d && siteOk s r
  | .redExch s x r d => selOk8 x && selOk7 d && siteOk s r
  | .atomAddF32 s x r d => selOk8 x && selOk7 d && siteOk s r
  | .atomAddD s x r d => selOk8 x && selOk7 d && siteOk s r
  | .atomCasD s x r d => selOk8 x && selOk7 d && siteOk s r
  | .atomExchD s x r d => selOk8 x && selOk7 d && siteOk s r
  | .atomMinU s x r d => selOk8 x && selOk7 d && siteOk s r
  | .atomMaxU s x r d => selOk8 x && selOk7 d && siteOk s r
  | .atomIncWrap s x r d => selOk8 x && selOk7 d && siteOk s r
  | .atomAddF64 s x r d => selOk8 x && selOk7 d && siteOk s r
  | .redAddF32 s x r d => selOk8 x && selOk7 d && siteOk s r
  | .redAddD s x r d => selOk8 x && selOk7 d && siteOk s r
  | .redExchD s x r d => selOk8 x && selOk7 d && siteOk s r
  | .redMinU s x r d => selOk8 x && selOk7 d && siteOk s r
  | .redMaxU s x r d => selOk8 x && selOk7 d && siteOk s r
  | .redIncWrap s x r d => selOk8 x && selOk7 d && siteOk s r
  | .redAddF64 s x r d => selOk8 x && selOk7 d && siteOk s r
  | .ldv x _ d => selOk8 x && selOk7 d
  | .ldvsW x _ d => selOk8 x && selOk7 d
  | .ldvsD x _ d => selOk8 x && selOk7 d
  | .vrd x _ d => selOk8 x && selOk7 d
  | .casvW x _ d => selOk8 x && selOk7 d
  | .casvD x _ d => selOk8 x && selOk7 d
  | .vchk _ => true
  | .waitc _ _ => true
  | .sleept a => selOk8 a
  | .cpoll _ a d => selOk8 a && selOk7 d
  | .cpy b a d => selOk8 b && selOk8 a && selOk7 d
  | .cpy2d b a d => selOk8 b && selOk8 a && selOk7 d
  | .gath b a d => selOk8 b && selOk8 a && selOk7 d
  | .scat b a d => selOk8 b && selOk8 a && selOk7 d
  | .abarInit b a => selOk8 b && selOk8 a
  | .abarArv b a d => selOk8 b && selOk8 a && selOk7 d
  | .abarWait b a => selOk8 b && selOk8 a
  | .abarTry b a d => selOk8 b && selOk8 a && selOk7 d
  | .qinit b a => selOk8 b && selOk8 a
  | .qpush b a => selOk8 b && selOk8 a
  | .qpop a d => selOk8 a && selOk7 d
  | .qpushTry b a d => selOk8 b && selOk8 a && selOk7 d
  | .qtpop a d => selOk8 a && selOk7 d
  | .qallow b a => selOk8 b && selOk8 a
  | .qclose a => selOk8 a
  | .qstat a d => selOk8 a && selOk7 d
  | .ores b a _ => selOk8 b && selOk8 a
  | .orel _ => true
  | .allock a d => selOk8 a && selOk7 d
  | .freek b a => selOk8 b && selOk8 a
  | .mld a _ => selOk8 a
  | .mlds b a _ => selOk8 b && selOk8 a
  | .mlease a => selOk8 a
  | .mma _ _ d => selOk7 d
  | .mmap _ _ d => selOk7 d
  | .mzero a => selOk8 a
  | .maccr a d => selOk8 a && selOk7 d
  | .maccw b a => selOk8 b && selOk8 a
  | .mst a => selOk8 a
  | .accsave a => selOk8 a
  | .accload a => selOk8 a
  | .bra _ _ _ => true
  | .brc _ _ _ => true
  | .call _ _ _ => true
  | .brx r _ _ => selOk7 r
  | .callx r _ _ => selOk7 r
  | .jset _ => true
  | .loop _ _ => true
  | .trapi _ => true
  | .signal _ a => selOk8 a
  | .rdsr _ d => selOk7 d
  | .wrsr _ a => selOk8 a
  | .brec _ a _ => selOk8 a
  | .vstat i a d => selOk8 a && selOk7 d && decide (i.toNat < 5)
  | .rlaunch a => selOk8 a
  | .tlbfill l a => selOk8 a && l != 3#2
  | .tlbinv s a => selOk8 a && s != 3#2 && (s != 1#2 || a == 0#8)
  | .plogrd p _ d => selOk7 d && decide (p.toNat < 21)
  | .actset a => selOk8 a
  | .philox b a d => selOk8 b && selOk8 a && selOk7 d
  | .coll b a _ => selOk8 b && selOk8 a
  | .add _ _ => true
  | .sub _ _ => true
  | .andParcel _ _ => true
  | .orParcel _ _ => true
  | .xorParcel _ _ => true
  | .shlParcel _ _ => true
  | .shrParcel _ _ => true
  | .mov _ _ => true
  | .faddParcel _ _ => true
  | .fsubParcel _ _ => true
  | .fmulParcel _ _ => true
  | .fminParcel _ _ => true
  | .fmaxParcel _ _ => true
  | .imulParcel _ _ => true
  | .addi _ _ => true
  | .movi _ _ => true
  | .grd _ _ _ => true
  | .xm d e _ _ _ _ _ _ => (e == 1#1 || d == 0#2)
  | .beat _ => true
  | .brs o => o != 0x200#10
  | .waitcParcel _ _ => true
  | .sleep _ => true
  | .vclr => true
  | .acq => true
  | .rel => true
  | .acqrel => true
  | .fenceEng => true
  | .mrel => true
  | .rtt => true
  | .nop => true
  | .yield => true
  | .tfence => true
  | .exit => true
  | .ret => true
  | .join => true
  | .longLatencyFill => true
  | .accessPerformed => true
  | .requestRetire => true
  | .engineRequestStop => true
  | .deferredReportTrap => true
  | .copyPromiseMiss => true
  | .sleeptWake => true
  | .sleepWake => true
  | .yieldEnd => true
  | .groupEnd => true
  | .activityWindow => true
  | .boostCeiling => true
  | .arbiterPass => true
  | .leaseIdleEnd => true
  | .collectiveChunkSend => true
  | .chunkCreditReturn => true
  | .collectiveResume => true
  | .collectiveComplete => true
  | .pageWalk => true
  | .pageRequestRewalk => true
  | .pantryReplay => true
  | .remoteRequest => true
  | .remoteRetry => true
  | .peerRequest => true
  | .bar2Access => true
  | .railFlitReceive => true
  | .flitResend => true
  | .railRetrain => true
  | .railPortFailed => true
  | .qnotify => true
  | .vfDoorbell => true
  | .frontEndTurn => true
  | .noOperation => true
  | .launch => true
  | .queueIdleUnmap => true
  | .notifyWaitExpiry => true
  | .tokenRefill => true
  | .bucketDry => true
  | .budgetReached => true
  | .placementDecision => true
  | .blockReserving => true
  | .clusterGate => true
  | .preemptDrain => true
  | .preemptFreeze => true
  | .preemptResume => true
  | .drainHandler => true
  | .drainDeadline => true
  | .blockFreeze => true
  | .periodBoundary => true
  | .mergedBeats => true
  | .mergeWindowExpiry => true
  | .geyserStep => true
  | .poolWayChangeDone => true
  | .poolWayChangeSlow => true
  | .gloopBind => true
  | .gloopUnbind => true
  | .clockStepSwitch => true
  | .sensorSample => true
  | .refreshCommand => true
  | .currentCapWindow => true
  | .currentCapRise => true
  | .powerCapWindow => true
  | .scrub => true
  | .partActivate => true
  | .partDeactivate => true
  | .vdbindEnable => true
  | .queueEnable => true
  | .queueDisable => true
  | .vdlogTailWrite => true
  | .registerWrite => true
  | .recoveryGo => true
  | .startUp => true
  | .railRetrainComplete => true
  | .clusterWakeComplete => true
  | .partitionKeyLoad => true

end Sys2Proof
end

