-- ==== Sys2Proof/Decode.lean ====
section
/-! DEFINITION. Reading an instruction from bytes (R115, R121, R126, R127, R133) and, after it,
the words of an instruction. Decoding is total: what is no instruction is refused by name. -/

namespace Sys2Proof

/-- The field of n bits of w whose lowest bit is lo (R1). -/
def fld (w lo n : Nat) : Nat := w / 2 ^ lo % 2 ^ n

/-- Major 0 of the opcode map (R133). -/
def decodeMajor0 (w : Nat) : Option Instr :=
  if fld w 29 3 = 0 then some (.iadd (.ofNat 8 (fld w 21 8)) (.ofNat 8 (fld w 13 8)) (.ofNat 7 (fld w 6 7)))
  else if fld w 29 3 = 1 then some (.isub (.ofNat 8 (fld w 21 8)) (.ofNat 8 (fld w 13 8)) (.ofNat 7 (fld w 6 7)))
  else if fld w 29 3 = 2 then some (.imul (.ofNat 8 (fld w 21 8)) (.ofNat 8 (fld w 13 8)) (.ofNat 7 (fld w 6 7)))
  else if fld w 29 3 = 3 then some (.imulhS (.ofNat 8 (fld w 21 8)) (.ofNat 8 (fld w 13 8)) (.ofNat 7 (fld w 6 7)))
  else if fld w 29 3 = 4 then some (.imulhU (.ofNat 8 (fld w 21 8)) (.ofNat 8 (fld w 13 8)) (.ofNat 7 (fld w 6 7)))
  else if fld w 29 3 = 5 then some (.imad (.ofNat 8 (fld w 21 8)) (.ofNat 8 (fld w 13 8)) (.ofNat 7 (fld w 6 7)))
  else if fld w 29 3 = 6 then some (.iaddc (.ofNat 8 (fld w 21 8)) (.ofNat 8 (fld w 13 8)) (.ofNat 7 (fld w 6 7)))
  else if fld w 29 3 = 7 then some (.isubb (.ofNat 8 (fld w 21 8)) (.ofNat 8 (fld w 13 8)) (.ofNat 7 (fld w 6 7)))
  else none

/-- Major 1 of the opcode map (R133). -/
def decodeMajor1 (w : Nat) : Option Instr :=
  if fld w 29 3 = 0 then some (.and (.ofNat 8 (fld w 21 8)) (.ofNat 8 (fld w 13 8)) (.ofNat 7 (fld w 6 7)))
  else if fld w 29 3 = 1 then some (.or (.ofNat 8 (fld w 21 8)) (.ofNat 8 (fld w 13 8)) (.ofNat 7 (fld w 6 7)))
  else if fld w 29 3 = 2 then some (.xor (.ofNat 8 (fld w 21 8)) (.ofNat 8 (fld w 13 8)) (.ofNat 7 (fld w 6 7)))
  else if fld w 29 3 = 3 then some (.andn (.ofNat 8 (fld w 21 8)) (.ofNat 8 (fld w 13 8)) (.ofNat 7 (fld w 6 7)))
  else if fld w 29 3 = 4 then some (.shl (.ofNat 8 (fld w 21 8)) (.ofNat 8 (fld w 13 8)) (.ofNat 7 (fld w 6 7)))
  else if fld w 29 3 = 5 then some (.shr (.ofNat 8 (fld w 21 8)) (.ofNat 8 (fld w 13 8)) (.ofNat 7 (fld w 6 7)))
  else if fld w 29 3 = 6 then some (.sar (.ofNat 8 (fld w 21 8)) (.ofNat 8 (fld w 13 8)) (.ofNat 7 (fld w 6 7)))
  else if fld w 29 3 = 7 then some (.rotl (.ofNat 8 (fld w 21 8)) (.ofNat 8 (fld w 13 8)) (.ofNat 7 (fld w 6 7)))
  else none

/-- Major 2 of the opcode map (R133). -/
def decodeMajor2 (w : Nat) : Option Instr :=
  if fld w 29 3 = 0 then some (.iminS (.ofNat 8 (fld w 21 8)) (.ofNat 8 (fld w 13 8)) (.ofNat 7 (fld w 6 7)))
  else if fld w 29 3 = 1 then some (.imaxS (.ofNat 8 (fld w 21 8)) (.ofNat 8 (fld w 13 8)) (.ofNat 7 (fld w 6 7)))
  else if fld w 29 3 = 2 then some (.iminU (.ofNat 8 (fld w 21 8)) (.ofNat 8 (fld w 13 8)) (.ofNat 7 (fld w 6 7)))
  else if fld w 29 3 = 3 then some (.imaxU (.ofNat 8 (fld w 21 8)) (.ofNat 8 (fld w 13 8)) (.ofNat 7 (fld w 6 7)))
  else if fld w 21 11 = 1024 then some (.popc (.ofNat 8 (fld w 13 8)) (.ofNat 7 (fld w 6 7)))
  else if fld w 21 11 = 1280 then some (.clz (.ofNat 8 (fld w 13 8)) (.ofNat 7 (fld w 6 7)))
  else if fld w 21 11 = 1536 then some (.brev (.ofNat 8 (fld w 13 8)) (.ofNat 7 (fld w 6 7)))
  else if fld w 21 11 = 1792 then some (.iabs (.ofNat 8 (fld w 13 8)) (.ofNat 7 (fld w 6 7)))
  else none

/-- Major 3 of the opcode map (R133). -/
def decodeMajor3 (w : Nat) : Option Instr :=
  if fld w 29 3 = 0 then some (.bfxU (.ofNat 8 (fld w 21 8)) (.ofNat 8 (fld w 13 8)) (.ofNat 7 (fld w 6 7)))
  else if fld w 29 3 = 1 then some (.bfxS (.ofNat 8 (fld w 21 8)) (.ofNat 8 (fld w 13 8)) (.ofNat 7 (fld w 6 7)))
  else if fld w 29 3 = 2 then some (.bfi (.ofNat 8 (fld w 21 8)) (.ofNat 8 (fld w 13 8)) (.ofNat 7 (fld w 6 7)))
  else if fld w 29 3 = 3 then some (.bshuf (.ofNat 8 (fld w 21 8)) (.ofNat 8 (fld w 13 8)) (.ofNat 7 (fld w 6 7)))
  else if fld w 29 3 = 4 then some (.shld (.ofNat 8 (fld w 21 8)) (.ofNat 8 (fld w 13 8)) (.ofNat 7 (fld w 6 7)))
  else if fld w 29 3 = 5 then some (.shrd (.ofNat 8 (fld w 21 8)) (.ofNat 8 (fld w 13 8)) (.ofNat 7 (fld w 6 7)))
  else none

/-- Major 4 of the opcode map (R133). -/
def decodeMajor4 (w : Nat) : Option Instr :=
  if fld w 21 3 = 0 then some (.iaddi (.ofNat 8 (fld w 24 8)) (.ofNat 8 (fld w 13 8)) (.ofNat 7 (fld w 6 7)))
  else if fld w 21 3 = 1 then some (.andi (.ofNat 8 (fld w 24 8)) (.ofNat 8 (fld w 13 8)) (.ofNat 7 (fld w 6 7)))
  else if fld w 21 3 = 2 then some (.ori (.ofNat 8 (fld w 24 8)) (.ofNat 8 (fld w 13 8)) (.ofNat 7 (fld w 6 7)))
  else if fld w 21 3 = 3 then some (.xori (.ofNat 8 (fld w 24 8)) (.ofNat 8 (fld w 13 8)) (.ofNat 7 (fld w 6 7)))
  else if fld w 21 3 = 4 then some (.shli (.ofNat 8 (fld w 24 8)) (.ofNat 8 (fld w 13 8)) (.ofNat 7 (fld w 6 7)))
  else if fld w 21 3 = 5 then some (.shri (.ofNat 8 (fld w 24 8)) (.ofNat 8 (fld w 13 8)) (.ofNat 7 (fld w 6 7)))
  else if fld w 21 3 = 6 then some (.sari (.ofNat 8 (fld w 24 8)) (.ofNat 8 (fld w 13 8)) (.ofNat 7 (fld w 6 7)))
  else if fld w 21 3 = 7 then some (.imuli (.ofNat 8 (fld w 24 8)) (.ofNat 8 (fld w 13 8)) (.ofNat 7 (fld w 6 7)))
  else none

/-- Major 5 of the opcode map (R133). -/
def decodeMajor5 (w : Nat) : Option Instr :=
  if fld w 29 3 = 0 then some (.fadd (.ofNat 8 (fld w 21 8)) (.ofNat 8 (fld w 13 8)) (.ofNat 7 (fld w 6 7)))
  else if fld w 29 3 = 1 then some (.fsub (.ofNat 8 (fld w 21 8)) (.ofNat 8 (fld w 13 8)) (.ofNat 7 (fld w 6 7)))
  else if fld w 29 3 = 2 then some (.fmul (.ofNat 8 (fld w 21 8)) (.ofNat 8 (fld w 13 8)) (.ofNat 7 (fld w 6 7)))
  else if fld w 29 3 = 3 then some (.ffma (.ofNat 8 (fld w 21 8)) (.ofNat 8 (fld w 13 8)) (.ofNat 7 (fld w 6 7)))
  else if fld w 29 3 = 4 then some (.ffms (.ofNat 8 (fld w 21 8)) (.ofNat 8 (fld w 13 8)) (.ofNat 7 (fld w 6 7)))
  else if fld w 29 3 = 5 then some (.fmin (.ofNat 8 (fld w 21 8)) (.ofNat 8 (fld w 13 8)) (.ofNat 7 (fld w 6 7)))
  else if fld w 29 3 = 6 then some (.fmax (.ofNat 8 (fld w 21 8)) (.ofNat 8 (fld w 13 8)) (.ofNat 7 (fld w 6 7)))
  else if fld w 29 3 = 7 then some (.fnma (.ofNat 8 (fld w 21 8)) (.ofNat 8 (fld w 13 8)) (.ofNat 7 (fld w 6 7)))
  else none

/-- Major 6 of the opcode map (R133). -/
def decodeMajor6 (w : Nat) : Option Instr :=
  if fld w 29 3 = 0 then some (.dadd (.ofNat 8 (fld w 21 8)) (.ofNat 8 (fld w 13 8)) (.ofNat 7 (fld w 6 7)))
  else if fld w 29 3 = 1 then some (.dsub (.ofNat 8 (fld w 21 8)) (.ofNat 8 (fld w 13 8)) (.ofNat 7 (fld w 6 7)))
  else if fld w 29 3 = 2 then some (.dmul (.ofNat 8 (fld w 21 8)) (.ofNat 8 (fld w 13 8)) (.ofNat 7 (fld w 6 7)))
  else if fld w 29 3 = 3 then some (.dfma (.ofNat 8 (fld w 21 8)) (.ofNat 8 (fld w 13 8)) (.ofNat 7 (fld w 6 7)))
  else if fld w 29 3 = 4 then some (.dfms (.ofNat 8 (fld w 21 8)) (.ofNat 8 (fld w 13 8)) (.ofNat 7 (fld w 6 7)))
  else if fld w 29 3 = 5 then some (.dmin (.ofNat 8 (fld w 21 8)) (.ofNat 8 (fld w 13 8)) (.ofNat 7 (fld w 6 7)))
  else if fld w 29 3 = 6 then some (.dmax (.ofNat 8 (fld w 21 8)) (.ofNat 8 (fld w 13 8)) (.ofNat 7 (fld w 6 7)))
  else if fld w 29 3 = 7 then some (.dnma (.ofNat 8 (fld w 21 8)) (.ofNat 8 (fld w 13 8)) (.ofNat 7 (fld w 6 7)))
  else none

/-- Major 7 of the opcode map (R133). -/
def decodeMajor7 (w : Nat) : Option Instr :=
  if fld w 29 3 = 0 then some (.hadd2F16 (.ofNat 8 (fld w 21 8)) (.ofNat 8 (fld w 13 8)) (.ofNat 7 (fld w 6 7)))
  else if fld w 29 3 = 1 then some (.hmul2F16 (.ofNat 8 (fld w 21 8)) (.ofNat 8 (fld w 13 8)) (.ofNat 7 (fld w 6 7)))
  else if fld w 29 3 = 2 then some (.hfma2F16 (.ofNat 8 (fld w 21 8)) (.ofNat 8 (fld w 13 8)) (.ofNat 7 (fld w 6 7)))
  else if fld w 29 3 = 3 then some (.hmin2F16 (.ofNat 8 (fld w 21 8)) (.ofNat 8 (fld w 13 8)) (.ofNat 7 (fld w 6 7)))
  else if fld w 29 3 = 4 then some (.hadd2Bf16 (.ofNat 8 (fld w 21 8)) (.ofNat 8 (fld w 13 8)) (.ofNat 7 (fld w 6 7)))
  else if fld w 29 3 = 5 then some (.hmul2Bf16 (.ofNat 8 (fld w 21 8)) (.ofNat 8 (fld w 13 8)) (.ofNat 7 (fld w 6 7)))
  else if fld w 29 3 = 6 then some (.hfma2Bf16 (.ofNat 8 (fld w 21 8)) (.ofNat 8 (fld w 13 8)) (.ofNat 7 (fld w 6 7)))
  else if fld w 29 3 = 7 then some (.hmin2Bf16 (.ofNat 8 (fld w 21 8)) (.ofNat 8 (fld w 13 8)) (.ofNat 7 (fld w 6 7)))
  else none

/-- Major 8 of the opcode map (R133). -/
def decodeMajor8 (w : Nat) : Option Instr :=
  if fld w 21 11 = 0 then some (.frcp (.ofNat 8 (fld w 13 8)) (.ofNat 7 (fld w 6 7)))
  else if fld w 21 11 = 256 then some (.frsq (.ofNat 8 (fld w 13 8)) (.ofNat 7 (fld w 6 7)))
  else if fld w 21 11 = 512 then some (.fsqrt (.ofNat 8 (fld w 13 8)) (.ofNat 7 (fld w 6 7)))
  else if fld w 21 11 = 768 then some (.fex2 (.ofNat 8 (fld w 13 8)) (.ofNat 7 (fld w 6 7)))
  else if fld w 21 11 = 1024 then some (.flg2 (.ofNat 8 (fld w 13 8)) (.ofNat 7 (fld w 6 7)))
  else if fld w 21 11 = 1280 then some (.fsinr (.ofNat 8 (fld w 13 8)) (.ofNat 7 (fld w 6 7)))
  else if fld w 21 11 = 1536 then some (.fcosr (.ofNat 8 (fld w 13 8)) (.ofNat 7 (fld w 6 7)))
  else if fld w 21 11 = 1792 then some (.dsqrt (.ofNat 8 (fld w 13 8)) (.ofNat 7 (fld w 6 7)))
  else none

/-- Major 9 of the opcode map (R133). -/
def decodeMajor9 (w : Nat) : Option Instr :=
  if fld w 12 1 = 0 ∧ fld w 29 3 = 0 then some (.icmpS (.ofNat 8 (fld w 21 8)) (.ofNat 8 (fld w 13 8)) (.ofNat 3 (fld w 9 3)) (.ofNat 3 (fld w 6 3)))
  else if fld w 12 1 = 0 ∧ fld w 29 3 = 1 then some (.icmpU (.ofNat 8 (fld w 21 8)) (.ofNat 8 (fld w 13 8)) (.ofNat 3 (fld w 9 3)) (.ofNat 3 (fld w 6 3)))
  else if fld w 12 1 = 0 ∧ fld w 29 3 = 2 then some (.fcmp (.ofNat 8 (fld w 21 8)) (.ofNat 8 (fld w 13 8)) (.ofNat 3 (fld w 9 3)) (.ofNat 3 (fld w 6 3)))
  else if fld w 12 1 = 0 ∧ fld w 29 3 = 3 then some (.dcmp (.ofNat 8 (fld w 21 8)) (.ofNat 8 (fld w 13 8)) (.ofNat 3 (fld w 9 3)) (.ofNat 3 (fld w 6 3)))
  else if fld w 12 1 = 0 ∧ fld w 29 3 = 4 then some (.hcmp2F16 (.ofNat 8 (fld w 21 8)) (.ofNat 8 (fld w 13 8)) (.ofNat 3 (fld w 9 3)) (.ofNat 3 (fld w 6 3)))
  else if fld w 12 1 = 0 ∧ fld w 29 3 = 5 then some (.hcmp2Bf16 (.ofNat 8 (fld w 21 8)) (.ofNat 8 (fld w 13 8)) (.ofNat 3 (fld w 9 3)) (.ofNat 3 (fld w 6 3)))
  else if fld w 9 4 = 0 ∧ fld w 19 2 = 0 ∧ fld w 29 3 = 6 then some (.plop (.ofNat 8 (fld w 21 8)) (.ofNat 3 (fld w 16 3)) (.ofNat 3 (fld w 13 3)) (.ofNat 3 (fld w 6 3)))
  else none

/-- Major 10 of the opcode map (R133). -/
def decodeMajor10 (w : Nat) : Option Instr :=
  some (.sel (.ofNat 3 (fld w 29 3)) (.ofNat 8 (fld w 21 8)) (.ofNat 8 (fld w 13 8)) (.ofNat 7 (fld w 6 7)))

/-- Major 11 of the opcode map (R133). -/
def decodeMajor11 (w : Nat) : Option Instr :=
  if fld w 31 1 = 0 then some (.cvt (.ofNat 2 (fld w 29 2)) (.ofNat 1 (fld w 28 1)) (.ofNat 3 (fld w 25 3)) (.ofNat 4 (fld w 21 4)) (.ofNat 8 (fld w 13 8)) (.ofNat 7 (fld w 6 7)))
  else none

/-- Major 12 of the opcode map (R133). -/
def decodeMajor12 (w : Nat) : Option Instr :=
  if fld w 29 3 = 0 then some (.shflIdx (.ofNat 8 (fld w 21 8)) (.ofNat 8 (fld w 13 8)) (.ofNat 7 (fld w 6 7)))
  else if fld w 29 3 = 1 then some (.shflUp (.ofNat 8 (fld w 21 8)) (.ofNat 8 (fld w 13 8)) (.ofNat 7 (fld w 6 7)))
  else if fld w 29 3 = 2 then some (.shflDn (.ofNat 8 (fld w 21 8)) (.ofNat 8 (fld w 13 8)) (.ofNat 7 (fld w 6 7)))
  else if fld w 29 3 = 3 then some (.shflXor (.ofNat 8 (fld w 21 8)) (.ofNat 8 (fld w 13 8)) (.ofNat 7 (fld w 6 7)))
  else if fld w 13 8 = 0 ∧ fld w 25 7 = 64 then some (.voteAny (.ofNat 1 (fld w 24 1)) (.ofNat 3 (fld w 21 3)) (.ofNat 7 (fld w 6 7)))
  else if fld w 13 8 = 0 ∧ fld w 25 7 = 80 then some (.voteAll (.ofNat 1 (fld w 24 1)) (.ofNat 3 (fld w 21 3)) (.ofNat 7 (fld w 6 7)))
  else if fld w 13 8 = 0 ∧ fld w 25 7 = 96 then some (.ballot (.ofNat 1 (fld w 24 1)) (.ofNat 3 (fld w 21 3)) (.ofNat 7 (fld w 6 7)))
  else if fld w 21 11 = 1792 then some (.matchL (.ofNat 8 (fld w 13 8)) (.ofNat 7 (fld w 6 7)))
  else none

/-- Major 13 of the opcode map (R133). -/
def decodeMajor13 (w : Nat) : Option Instr :=
  if fld w 21 11 = 0 then some (.rdaddF32 (.ofNat 8 (fld w 13 8)) (.ofNat 7 (fld w 6 7)))
  else if fld w 21 11 = 256 then some (.rdaddF64 (.ofNat 8 (fld w 13 8)) (.ofNat 7 (fld w 6 7)))
  else if fld w 21 11 = 512 then some (.rdaddI32 (.ofNat 8 (fld w 13 8)) (.ofNat 7 (fld w 6 7)))
  else if fld w 21 11 = 768 then some (.rdminF32 (.ofNat 8 (fld w 13 8)) (.ofNat 7 (fld w 6 7)))
  else if fld w 21 11 = 1024 then some (.rdmaxF32 (.ofNat 8 (fld w 13 8)) (.ofNat 7 (fld w 6 7)))
  else if fld w 21 11 = 1280 then some (.rdminI32 (.ofNat 8 (fld w 13 8)) (.ofNat 7 (fld w 6 7)))
  else if fld w 21 11 = 1536 then some (.rdmaxI32 (.ofNat 8 (fld w 13 8)) (.ofNat 7 (fld w 6 7)))
  else if fld w 22 10 = 896 then some (.scanI32 (.ofNat 1 (fld w 21 1)) (.ofNat 8 (fld w 13 8)) (.ofNat 7 (fld w 6 7)))
  else none

/-- Major 14 of the opcode map (R133). -/
def decodeMajor14 (w : Nat) : Option Instr :=
  some (.ldk (.ofNat 19 (fld w 13 19)) (.ofNat 7 (fld w 6 7)))

/-- Major 15 of the opcode map (R133). -/
def decodeMajor15 (w : Nat) : Option Instr :=
  if fld w 26 6 = 0 then some (.ldkh (.ofNat 13 (fld w 13 13)) (.ofNat 7 (fld w 6 7)))
  else none

/-- Major 16 of the opcode map (R133). -/
def decodeMajor16 (w : Nat) : Option Instr :=
  if fld w 26 3 = 0 then some (.ldB (.ofNat 3 (fld w 29 3)) (.ofNat 8 (fld w 18 8)) (.ofNat 5 (fld w 13 5)) (.ofNat 7 (fld w 6 7)))
  else if fld w 26 3 = 1 then some (.ldBs (.ofNat 3 (fld w 29 3)) (.ofNat 8 (fld w 18 8)) (.ofNat 5 (fld w 13 5)) (.ofNat 7 (fld w 6 7)))
  else if fld w 26 3 = 2 then some (.ldH (.ofNat 3 (fld w 29 3)) (.ofNat 8 (fld w 18 8)) (.ofNat 5 (fld w 13 5)) (.ofNat 7 (fld w 6 7)))
  else if fld w 26 3 = 3 then some (.ldHs (.ofNat 3 (fld w 29 3)) (.ofNat 8 (fld w 18 8)) (.ofNat 5 (fld w 13 5)) (.ofNat 7 (fld w 6 7)))
  else if fld w 26 3 = 4 then some (.ldW (.ofNat 3 (fld w 29 3)) (.ofNat 8 (fld w 18 8)) (.ofNat 5 (fld w 13 5)) (.ofNat 7 (fld w 6 7)))
  else if fld w 26 3 = 5 then some (.ldD (.ofNat 3 (fld w 29 3)) (.ofNat 8 (fld w 18 8)) (.ofNat 5 (fld w 13 5)) (.ofNat 7 (fld w 6 7)))
  else if fld w 26 3 = 6 then some (.ldQ (.ofNat 3 (fld w 29 3)) (.ofNat 8 (fld w 18 8)) (.ofNat 5 (fld w 13 5)) (.ofNat 7 (fld w 6 7)))
  else if fld w 13 5 = 0 ∧ fld w 26 3 = 7 then some (.ldpW (.ofNat 3 (fld w 29 3)) (.ofNat 8 (fld w 18 8)) (.ofNat 7 (fld w 6 7)))
  else none

/-- Major 17 of the opcode map (R133). -/
def decodeMajor17 (w : Nat) : Option Instr :=
  if fld w 26 3 = 0 then some (.stB (.ofNat 3 (fld w 29 3)) (.ofNat 8 (fld w 18 8)) (.ofNat 5 (fld w 13 5)) (.ofNat 7 (fld w 6 7)))
  else if fld w 26 3 = 1 then some (.stH (.ofNat 3 (fld w 29 3)) (.ofNat 8 (fld w 18 8)) (.ofNat 5 (fld w 13 5)) (.ofNat 7 (fld w 6 7)))
  else if fld w 26 3 = 2 then some (.stW (.ofNat 3 (fld w 29 3)) (.ofNat 8 (fld w 18 8)) (.ofNat 5 (fld w 13 5)) (.ofNat 7 (fld w 6 7)))
  else if fld w 26 3 = 3 then some (.stD (.ofNat 3 (fld w 29 3)) (.ofNat 8 (fld w 18 8)) (.ofNat 5 (fld w 13 5)) (.ofNat 7 (fld w 6 7)))
  else if fld w 26 3 = 4 then some (.stQ (.ofNat 3 (fld w 29 3)) (.ofNat 8 (fld w 18 8)) (.ofNat 5 (fld w 13 5)) (.ofNat 7 (fld w 6 7)))
  else if fld w 13 5 = 0 ∧ fld w 26 3 = 5 then some (.stpW (.ofNat 3 (fld w 29 3)) (.ofNat 8 (fld w 18 8)) (.ofNat 7 (fld w 6 7)))
  else if fld w 6 7 = 0 ∧ fld w 26 3 = 6 then some (.pref (.ofNat 3 (fld w 29 3)) (.ofNat 8 (fld w 18 8)) (.ofNat 5 (fld w 13 5)))
  else none

/-- Major 18 of the opcode map (R133). -/
def decodeMajor18 (w : Nat) : Option Instr :=
  if fld w 13 5 = 0 ∧ fld w 26 6 = 0 then some (.ldsW (.ofNat 8 (fld w 18 8)) (.ofNat 7 (fld w 6 7)))
  else if fld w 13 5 = 0 ∧ fld w 26 6 = 1 then some (.ldsD (.ofNat 8 (fld w 18 8)) (.ofNat 7 (fld w 6 7)))
  else if fld w 13 5 = 0 ∧ fld w 26 6 = 2 then some (.ldsQ (.ofNat 8 (fld w 18 8)) (.ofNat 7 (fld w 6 7)))
  else if fld w 13 5 = 0 ∧ fld w 26 6 = 3 then some (.stsW (.ofNat 8 (fld w 18 8)) (.ofNat 7 (fld w 6 7)))
  else if fld w 13 5 = 0 ∧ fld w 26 6 = 4 then some (.stsD (.ofNat 8 (fld w 18 8)) (.ofNat 7 (fld w 6 7)))
  else if fld w 13 5 = 0 ∧ fld w 26 6 = 5 then some (.stsQ (.ofNat 8 (fld w 18 8)) (.ofNat 7 (fld w 6 7)))
  else if fld w 13 5 = 0 ∧ fld w 26 6 = 6 then some (.ldsB (.ofNat 8 (fld w 18 8)) (.ofNat 7 (fld w 6 7)))
  else if fld w 13 5 = 0 ∧ fld w 26 6 = 7 then some (.stsB (.ofNat 8 (fld w 18 8)) (.ofNat 7 (fld w 6 7)))
  else none

/-- Major 19 of the opcode map (R133). -/
def decodeMajor19 (w : Nat) : Option Instr :=
  if fld w 26 4 = 0 then some (.atomAdd (.ofNat 2 (fld w 30 2)) (.ofNat 8 (fld w 18 8)) (.ofNat 5 (fld w 13 5)) (.ofNat 7 (fld w 6 7)))
  else if fld w 26 4 = 1 then some (.atomMinS (.ofNat 2 (fld w 30 2)) (.ofNat 8 (fld w 18 8)) (.ofNat 5 (fld w 13 5)) (.ofNat 7 (fld w 6 7)))
  else if fld w 26 4 = 2 then some (.atomMaxS (.ofNat 2 (fld w 30 2)) (.ofNat 8 (fld w 18 8)) (.ofNat 5 (fld w 13 5)) (.ofNat 7 (fld w 6 7)))
  else if fld w 26 4 = 3 then some (.atomAnd (.ofNat 2 (fld w 30 2)) (.ofNat 8 (fld w 18 8)) (.ofNat 5 (fld w 13 5)) (.ofNat 7 (fld w 6 7)))
  else if fld w 26 4 = 4 then some (.atomOr (.ofNat 2 (fld w 30 2)) (.ofNat 8 (fld w 18 8)) (.ofNat 5 (fld w 13 5)) (.ofNat 7 (fld w 6 7)))
  else if fld w 26 4 = 5 then some (.atomXor (.ofNat 2 (fld w 30 2)) (.ofNat 8 (fld w 18 8)) (.ofNat 5 (fld w 13 5)) (.ofNat 7 (fld w 6 7)))
  else if fld w 26 4 = 6 then some (.atomExch (.ofNat 2 (fld w 30 2)) (.ofNat 8 (fld w 18 8)) (.ofNat 5 (fld w 13 5)) (.ofNat 7 (fld w 6 7)))
  else if fld w 26 4 = 7 then some (.atomCas (.ofNat 2 (fld w 30 2)) (.ofNat 8 (fld w 18 8)) (.ofNat 5 (fld w 13 5)) (.ofNat 7 (fld w 6 7)))
  else if fld w 26 4 = 8 then some (.redAdd (.ofNat 2 (fld w 30 2)) (.ofNat 8 (fld w 18 8)) (.ofNat 5 (fld w 13 5)) (.ofNat 7 (fld w 6 7)))
  else if fld w 26 4 = 9 then some (.redMinS (.ofNat 2 (fld w 30 2)) (.ofNat 8 (fld w 18 8)) (.ofNat 5 (fld w 13 5)) (.ofNat 7 (fld w 6 7)))
  else if fld w 26 4 = 10 then some (.redMaxS (.ofNat 2 (fld w 30 2)) (.ofNat 8 (fld w 18 8)) (.ofNat 5 (fld w 13 5)) (.ofNat 7 (fld w 6 7)))
  else if fld w 26 4 = 11 then some (.redAnd (.ofNat 2 (fld w 30 2)) (.ofNat 8 (fld w 18 8)) (.ofNat 5 (fld w 13 5)) (.ofNat 7 (fld w 6 7)))
  else if fld w 26 4 = 12 then some (.redOr (.ofNat 2 (fld w 30 2)) (.ofNat 8 (fld w 18 8)) (.ofNat 5 (fld w 13 5)) (.ofNat 7 (fld w 6 7)))
  else if fld w 26 4 = 13 then some (.redXor (.ofNat 2 (fld w 30 2)) (.ofNat 8 (fld w 18 8)) (.ofNat 5 (fld w 13 5)) (.ofNat 7 (fld w 6 7)))
  else if fld w 26 4 = 14 then some (.redExch (.ofNat 2 (fld w 30 2)) (.ofNat 8 (fld w 18 8)) (.ofNat 5 (fld w 13 5)) (.ofNat 7 (fld w 6 7)))
  else none

/-- Major 20 of the opcode map (R133). -/
def decodeMajor20 (w : Nat) : Option Instr :=
  if fld w 26 4 = 0 then some (.atomAddF32 (.ofNat 2 (fld w 30 2)) (.ofNat 8 (fld w 18 8)) (.ofNat 5 (fld w 13 5)) (.ofNat 7 (fld w 6 7)))
  else if fld w 26 4 = 1 then some (.atomAddD (.ofNat 2 (fld w 30 2)) (.ofNat 8 (fld w 18 8)) (.ofNat 5 (fld w 13 5)) (.ofNat 7 (fld w 6 7)))
  else if fld w 26 4 = 2 then some (.atomCasD (.ofNat 2 (fld w 30 2)) (.ofNat 8 (fld w 18 8)) (.ofNat 5 (fld w 13 5)) (.ofNat 7 (fld w 6 7)))
  else if fld w 26 4 = 3 then some (.atomExchD (.ofNat 2 (fld w 30 2)) (.ofNat 8 (fld w 18 8)) (.ofNat 5 (fld w 13 5)) (.ofNat 7 (fld w 6 7)))
  else if fld w 26 4 = 4 then some (.atomMinU (.ofNat 2 (fld w 30 2)) (.ofNat 8 (fld w 18 8)) (.ofNat 5 (fld w 13 5)) (.ofNat 7 (fld w 6 7)))
  else if fld w 26 4 = 5 then some (.atomMaxU (.ofNat 2 (fld w 30 2)) (.ofNat 8 (fld w 18 8)) (.ofNat 5 (fld w 13 5)) (.ofNat 7 (fld w 6 7)))
  else if fld w 26 4 = 6 then some (.atomIncWrap (.ofNat 2 (fld w 30 2)) (.ofNat 8 (fld w 18 8)) (.ofNat 5 (fld w 13 5)) (.ofNat 7 (fld w 6 7)))
  else if fld w 26 4 = 7 then some (.atomAddF64 (.ofNat 2 (fld w 30 2)) (.ofNat 8 (fld w 18 8)) (.ofNat 5 (fld w 13 5)) (.ofNat 7 (fld w 6 7)))
  else if fld w 26 4 = 8 then some (.redAddF32 (.ofNat 2 (fld w 30 2)) (.ofNat 8 (fld w 18 8)) (.ofNat 5 (fld w 13 5)) (.ofNat 7 (fld w 6 7)))
  else if fld w 26 4 = 9 then some (.redAddD (.ofNat 2 (fld w 30 2)) (.ofNat 8 (fld w 18 8)) (.ofNat 5 (fld w 13 5)) (.ofNat 7 (fld w 6 7)))
  else if fld w 26 4 = 11 then some (.redExchD (.ofNat 2 (fld w 30 2)) (.ofNat 8 (fld w 18 8)) (.ofNat 5 (fld w 13 5)) (.ofNat 7 (fld w 6 7)))
  else if fld w 26 4 = 12 then some (.redMinU (.ofNat 2 (fld w 30 2)) (.ofNat 8 (fld w 18 8)) (.ofNat 5 (fld w 13 5)) (.ofNat 7 (fld w 6 7)))
  else if fld w 26 4 = 13 then some (.redMaxU (.ofNat 2 (fld w 30 2)) (.ofNat 8 (fld w 18 8)) (.ofNat 5 (fld w 13 5)) (.ofNat 7 (fld w 6 7)))
  else if fld w 26 4 = 14 then some (.redIncWrap (.ofNat 2 (fld w 30 2)) (.ofNat 8 (fld w 18 8)) (.ofNat 5 (fld w 13 5)) (.ofNat 7 (fld w 6 7)))
  else if fld w 26 4 = 15 then some (.redAddF64 (.ofNat 2 (fld w 30 2)) (.ofNat 8 (fld w 18 8)) (.ofNat 5 (fld w 13 5)) (.ofNat 7 (fld w 6 7)))
  else none

/-- Major 21 of the opcode map (R133). -/
def decodeMajor21 (w : Nat) : Option Instr :=
  if fld w 26 6 = 0 then some (.ldv (.ofNat 8 (fld w 18 8)) (.ofNat 5 (fld w 13 5)) (.ofNat 7 (fld w 6 7)))
  else if fld w 26 6 = 1 then some (.ldvsW (.ofNat 8 (fld w 18 8)) (.ofNat 5 (fld w 13 5)) (.ofNat 7 (fld w 6 7)))
  else if fld w 26 6 = 2 then some (.ldvsD (.ofNat 8 (fld w 18 8)) (.ofNat 5 (fld w 13 5)) (.ofNat 7 (fld w 6 7)))
  else if fld w 26 6 = 3 then some (.vrd (.ofNat 8 (fld w 18 8)) (.ofNat 5 (fld w 13 5)) (.ofNat 7 (fld w 6 7)))
  else if fld w 26 6 = 4 then some (.casvW (.ofNat 8 (fld w 18 8)) (.ofNat 5 (fld w 13 5)) (.ofNat 7 (fld w 6 7)))
  else if fld w 26 6 = 5 then some (.casvD (.ofNat 8 (fld w 18 8)) (.ofNat 5 (fld w 13 5)) (.ofNat 7 (fld w 6 7)))
  else if fld w 9 23 = 786432 then some (.vchk (.ofNat 3 (fld w 6 3)))
  else if fld w 6 26 = 7340032 then some .vclr
  else none

/-- Major 22 of the opcode map (R133). -/
def decodeMajor22 (w : Nat) : Option Instr :=
  if fld w 6 18 = 131072 then some (.waitc (.ofNat 2 (fld w 30 2)) (.ofNat 6 (fld w 24 6)))
  else if fld w 6 7 = 0 ∧ fld w 21 11 = 5 then some (.sleept (.ofNat 8 (fld w 13 8)))
  else if fld w 21 3 = 6 ∧ fld w 29 3 = 0 then some (.cpoll (.ofNat 5 (fld w 24 5)) (.ofNat 8 (fld w 13 8)) (.ofNat 7 (fld w 6 7)))
  else if fld w 6 26 = 0 then some .acq
  else if fld w 6 26 = 32768 then some .rel
  else if fld w 6 26 = 65536 then some .acqrel
  else if fld w 6 26 = 98304 then some .fenceEng
  else none

/-- Major 23 of the opcode map (R133). -/
def decodeMajor23 (w : Nat) : Option Instr :=
  if fld w 29 3 = 0 then some (.cpy (.ofNat 8 (fld w 21 8)) (.ofNat 8 (fld w 13 8)) (.ofNat 7 (fld w 6 7)))
  else if fld w 29 3 = 1 then some (.cpy2d (.ofNat 8 (fld w 21 8)) (.ofNat 8 (fld w 13 8)) (.ofNat 7 (fld w 6 7)))
  else if fld w 29 3 = 2 then some (.gath (.ofNat 8 (fld w 21 8)) (.ofNat 8 (fld w 13 8)) (.ofNat 7 (fld w 6 7)))
  else if fld w 29 3 = 3 then some (.scat (.ofNat 8 (fld w 21 8)) (.ofNat 8 (fld w 13 8)) (.ofNat 7 (fld w 6 7)))
  else if fld w 6 7 = 0 ∧ fld w 29 3 = 4 then some (.abarInit (.ofNat 8 (fld w 21 8)) (.ofNat 8 (fld w 13 8)))
  else if fld w 29 3 = 5 then some (.abarArv (.ofNat 8 (fld w 21 8)) (.ofNat 8 (fld w 13 8)) (.ofNat 7 (fld w 6 7)))
  else if fld w 6 7 = 0 ∧ fld w 29 3 = 6 then some (.abarWait (.ofNat 8 (fld w 21 8)) (.ofNat 8 (fld w 13 8)))
  else if fld w 29 3 = 7 then some (.abarTry (.ofNat 8 (fld w 21 8)) (.ofNat 8 (fld w 13 8)) (.ofNat 7 (fld w 6 7)))
  else none

/-- Major 24 of the opcode map (R133). -/
def decodeMajor24 (w : Nat) : Option Instr :=
  if fld w 6 7 = 0 ∧ fld w 29 3 = 0 then some (.qinit (.ofNat 8 (fld w 21 8)) (.ofNat 8 (fld w 13 8)))
  else if fld w 6 7 = 0 ∧ fld w 29 3 = 1 then some (.qpush (.ofNat 8 (fld w 21 8)) (.ofNat 8 (fld w 13 8)))
  else if fld w 21 11 = 512 then some (.qpop (.ofNat 8 (fld w 13 8)) (.ofNat 7 (fld w 6 7)))
  else if fld w 29 3 = 3 then some (.qpushTry (.ofNat 8 (fld w 21 8)) (.ofNat 8 (fld w 13 8)) (.ofNat 7 (fld w 6 7)))
  else if fld w 21 11 = 1024 then some (.qtpop (.ofNat 8 (fld w 13 8)) (.ofNat 7 (fld w 6 7)))
  else if fld w 6 7 = 0 ∧ fld w 29 3 = 5 then some (.qallow (.ofNat 8 (fld w 21 8)) (.ofNat 8 (fld w 13 8)))
  else if fld w 6 7 = 0 ∧ fld w 21 11 = 1536 then some (.qclose (.ofNat 8 (fld w 13 8)))
  else if fld w 21 11 = 1792 then some (.qstat (.ofNat 8 (fld w 13 8)) (.ofNat 7 (fld w 6 7)))
  else none

/-- Major 25 of the opcode map (R133). -/
def decodeMajor25 (w : Nat) : Option Instr :=
  if fld w 10 3 = 0 ∧ fld w 29 3 = 0 then some (.ores (.ofNat 8 (fld w 21 8)) (.ofNat 8 (fld w 13 8)) (.ofNat 4 (fld w 6 4)))
  else if fld w 10 22 = 524288 then some (.orel (.ofNat 4 (fld w 6 4)))
  else if fld w 21 11 = 512 then some (.allock (.ofNat 8 (fld w 13 8)) (.ofNat 7 (fld w 6 7)))
  else if fld w 6 7 = 0 ∧ fld w 29 3 = 3 then some (.freek (.ofNat 8 (fld w 21 8)) (.ofNat 8 (fld w 13 8)))
  else if fld w 10 3 = 0 ∧ fld w 21 11 = 1024 then some (.mld (.ofNat 8 (fld w 13 8)) (.ofNat 4 (fld w 6 4)))
  else if fld w 10 3 = 0 ∧ fld w 29 3 = 5 then some (.mlds (.ofNat 8 (fld w 21 8)) (.ofNat 8 (fld w 13 8)) (.ofNat 4 (fld w 6 4)))
  else if fld w 6 7 = 0 ∧ fld w 21 11 = 1536 then some (.mlease (.ofNat 8 (fld w 13 8)))
  else if fld w 6 26 = 58720256 then some .mrel
  else none

/-- Major 26 of the opcode map (R133). -/
def decodeMajor26 (w : Nat) : Option Instr :=
  if fld w 17 4 = 0 ∧ fld w 25 7 = 0 then some (.mma (.ofNat 4 (fld w 21 4)) (.ofNat 4 (fld w 13 4)) (.ofNat 7 (fld w 6 7)))
  else if fld w 17 4 = 0 ∧ fld w 25 7 = 16 then some (.mmap (.ofNat 4 (fld w 21 4)) (.ofNat 4 (fld w 13 4)) (.ofNat 7 (fld w 6 7)))
  else if fld w 6 7 = 0 ∧ fld w 21 11 = 512 then some (.mzero (.ofNat 8 (fld w 13 8)))
  else if fld w 21 11 = 768 then some (.maccr (.ofNat 8 (fld w 13 8)) (.ofNat 7 (fld w 6 7)))
  else if fld w 6 7 = 0 ∧ fld w 29 3 = 4 then some (.maccw (.ofNat 8 (fld w 21 8)) (.ofNat 8 (fld w 13 8)))
  else if fld w 6 7 = 0 ∧ fld w 21 11 = 1280 then some (.mst (.ofNat 8 (fld w 13 8)))
  else if fld w 6 7 = 0 ∧ fld w 21 11 = 1536 then some (.accsave (.ofNat 8 (fld w 13 8)))
  else if fld w 6 7 = 0 ∧ fld w 21 11 = 1792 then some (.accload (.ofNat 8 (fld w 13 8)))
  else none

/-- Major 27 of the opcode map (R133). -/
def decodeMajor27 (w : Nat) : Option Instr :=
  if fld w 6 3 = 0 then some (.bra (.ofNat 19 (fld w 13 19)) (.ofNat 1 (fld w 12 1)) (.ofNat 3 (fld w 9 3)))
  else if fld w 6 3 = 1 then some (.brc (.ofNat 19 (fld w 13 19)) (.ofNat 1 (fld w 12 1)) (.ofNat 3 (fld w 9 3)))
  else if fld w 6 3 = 2 then some (.call (.ofNat 19 (fld w 13 19)) (.ofNat 1 (fld w 12 1)) (.ofNat 3 (fld w 9 3)))
  else if fld w 6 3 = 3 ∧ fld w 20 12 = 0 then some (.brx (.ofNat 7 (fld w 13 7)) (.ofNat 1 (fld w 12 1)) (.ofNat 3 (fld w 9 3)))
  else if fld w 6 3 = 4 ∧ fld w 20 12 = 0 then some (.callx (.ofNat 7 (fld w 13 7)) (.ofNat 1 (fld w 12 1)) (.ofNat 3 (fld w 9 3)))
  else if fld w 6 7 = 61 then some (.jset (.ofNat 19 (fld w 13 19)))
  else if fld w 6 3 = 6 ∧ fld w 12 1 = 0 then some (.loop (.ofNat 19 (fld w 13 19)) (.ofNat 3 (fld w 9 3)))
  else none

/-- Major 28 of the opcode map (R133). -/
def decodeMajor28 (w : Nat) : Option Instr :=
  if fld w 6 18 = 0 then some (.trapi (.ofNat 8 (fld w 24 8)))
  else if fld w 6 7 = 0 ∧ fld w 21 3 = 1 ∧ fld w 25 7 = 0 then some (.signal (.ofNat 1 (fld w 24 1)) (.ofNat 8 (fld w 13 8)))
  else if fld w 13 11 = 512 then some (.rdsr (.ofNat 8 (fld w 24 8)) (.ofNat 7 (fld w 6 7)))
  else if fld w 6 7 = 0 ∧ fld w 21 3 = 3 then some (.wrsr (.ofNat 8 (fld w 24 8)) (.ofNat 8 (fld w 13 8)))
  else if fld w 11 2 = 0 ∧ fld w 21 3 = 4 then some (.brec (.ofNat 8 (fld w 24 8)) (.ofNat 8 (fld w 13 8)) (.ofNat 5 (fld w 6 5)))
  else if fld w 21 3 = 5 then some (.vstat (.ofNat 8 (fld w 24 8)) (.ofNat 8 (fld w 13 8)) (.ofNat 7 (fld w 6 7)))
  else if fld w 6 7 = 0 ∧ fld w 21 11 = 6 then some (.rlaunch (.ofNat 8 (fld w 13 8)))
  else none

/-- Major 29 of the opcode map (R133). -/
def decodeMajor29 (w : Nat) : Option Instr :=
  if fld w 6 7 = 0 ∧ fld w 21 3 = 0 ∧ fld w 26 6 = 0 then some (.tlbfill (.ofNat 2 (fld w 24 2)) (.ofNat 8 (fld w 13 8)))
  else if fld w 6 7 = 0 ∧ fld w 21 3 = 1 ∧ fld w 26 6 = 0 then some (.tlbinv (.ofNat 2 (fld w 24 2)) (.ofNat 8 (fld w 13 8)))
  else if fld w 13 11 = 768 ∧ fld w 30 2 = 0 then some (.plogrd (.ofNat 5 (fld w 25 5)) (.ofNat 1 (fld w 24 1)) (.ofNat 7 (fld w 6 7)))
  else if fld w 6 7 = 0 ∧ fld w 21 11 = 4 then some (.actset (.ofNat 8 (fld w 13 8)))
  else if fld w 6 26 = 65536 then some .rtt
  else none

/-- Major 30 of the opcode map (R133). -/
def decodeMajor30 (w : Nat) : Option Instr :=
  if fld w 29 3 = 0 then some (.philox (.ofNat 8 (fld w 21 8)) (.ofNat 8 (fld w 13 8)) (.ofNat 7 (fld w 6 7)))
  else if fld w 9 4 = 0 ∧ fld w 29 3 = 1 then some (.coll (.ofNat 8 (fld w 21 8)) (.ofNat 8 (fld w 13 8)) (.ofNat 3 (fld w 6 3)))
  else none

/-- The 32-bit instructions by their major number (R121, R133), before the checks of reserved values. -/
def decodeRaw32 (w : Nat) : Option Instr :=
  match fld w 1 5 with
  | 0 => decodeMajor0 w
  | 1 => decodeMajor1 w
  | 2 => decodeMajor2 w
  | 3 => decodeMajor3 w
  | 4 => decodeMajor4 w
  | 5 => decodeMajor5 w
  | 6 => decodeMajor6 w
  | 7 => decodeMajor7 w
  | 8 => decodeMajor8 w
  | 9 => decodeMajor9 w
  | 10 => decodeMajor10 w
  | 11 => decodeMajor11 w
  | 12 => decodeMajor12 w
  | 13 => decodeMajor13 w
  | 14 => decodeMajor14 w
  | 15 => decodeMajor15 w
  | 16 => decodeMajor16 w
  | 17 => decodeMajor17 w
  | 18 => decodeMajor18 w
  | 19 => decodeMajor19 w
  | 20 => decodeMajor20 w
  | 21 => decodeMajor21 w
  | 22 => decodeMajor22 w
  | 23 => decodeMajor23 w
  | 24 => decodeMajor24 w
  | 25 => decodeMajor25 w
  | 26 => decodeMajor26 w
  | 27 => decodeMajor27 w
  | 28 => decodeMajor28 w
  | 29 => decodeMajor29 w
  | 30 => decodeMajor30 w
  | _ => none

/-- The parcels by their op number (R126, R127), before the checks of reserved values. -/
def decodeRaw16 (w : Nat) : Option Instr :=
  match fld w 1 5 with
  | 0 => some (.add (.ofNat 5 (fld w 11 5)) (.ofNat 5 (fld w 6 5)))
  | 1 => some (.sub (.ofNat 5 (fld w 11 5)) (.ofNat 5 (fld w 6 5)))
  | 2 => some (.andParcel (.ofNat 5 (fld w 11 5)) (.ofNat 5 (fld w 6 5)))
  | 3 => some (.orParcel (.ofNat 5 (fld w 11 5)) (.ofNat 5 (fld w 6 5)))
  | 4 => some (.xorParcel (.ofNat 5 (fld w 11 5)) (.ofNat 5 (fld w 6 5)))
  | 5 => some (.shlParcel (.ofNat 5 (fld w 11 5)) (.ofNat 5 (fld w 6 5)))
  | 6 => some (.shrParcel (.ofNat 5 (fld w 11 5)) (.ofNat 5 (fld w 6 5)))
  | 7 => some (.mov (.ofNat 5 (fld w 11 5)) (.ofNat 5 (fld w 6 5)))
  | 8 => some (.faddParcel (.ofNat 5 (fld w 11 5)) (.ofNat 5 (fld w 6 5)))
  | 9 => some (.fsubParcel (.ofNat 5 (fld w 11 5)) (.ofNat 5 (fld w 6 5)))
  | 10 => some (.fmulParcel (.ofNat 5 (fld w 11 5)) (.ofNat 5 (fld w 6 5)))
  | 11 => some (.fminParcel (.ofNat 5 (fld w 11 5)) (.ofNat 5 (fld w 6 5)))
  | 12 => some (.fmaxParcel (.ofNat 5 (fld w 11 5)) (.ofNat 5 (fld w 6 5)))
  | 13 => some (.imulParcel (.ofNat 5 (fld w 11 5)) (.ofNat 5 (fld w 6 5)))
  | 14 => some (.addi (.ofNat 5 (fld w 11 5)) (.ofNat 5 (fld w 6 5)))
  | 15 => some (.movi (.ofNat 5 (fld w 11 5)) (.ofNat 5 (fld w 6 5)))
  | 17 => if fld w 12 4 = 0 then some (.grd (.ofNat 2 (fld w 10 2)) (.ofNat 1 (fld w 9 1)) (.ofNat 3 (fld w 6 3))) else none
  | 18 => if fld w 15 1 = 0 then some (.xm (.ofNat 2 (fld w 13 2)) (.ofNat 1 (fld w 12 1)) (.ofNat 1 (fld w 11 1)) (.ofNat 1 (fld w 10 1)) (.ofNat 1 (fld w 9 1)) (.ofNat 1 (fld w 8 1)) (.ofNat 1 (fld w 7 1)) (.ofNat 1 (fld w 6 1))) else none
  | 19 => some (.beat (.ofNat 10 (fld w 6 10)))
  | 25 => some (.brs (.ofNat 10 (fld w 6 10)))
  | 26 => if fld w 14 2 = 0 then some (.waitcParcel (.ofNat 6 (fld w 8 6)) (.ofNat 2 (fld w 6 2))) else none
  | 27 => some (.sleep (.ofNat 10 (fld w 6 10)))
  | 16 => if fld w 6 10 = 0 then some .nop else none
  | 20 => if fld w 6 10 = 0 then some .yield else none
  | 21 => if fld w 6 10 = 0 then some .tfence else none
  | 22 => if fld w 6 10 = 0 then some .exit else none
  | 23 => if fld w 6 10 = 0 then some .ret else none
  | 24 => if fld w 6 10 = 0 then some .join else none
  | _ => none

/-- Why bytes are no instruction. -/
inductive DecodeError where
  /-- Fewer bytes than the instruction needs. -/
  | tooShort
  /-- A reserved encoding, or a bit that must be zero and is not (R5, R359). -/
  | reservedEncoding
  /-- An encoding of the map that holds a reserved field value (R5, R359). -/
  | reservedValue
  deriving DecidableEq, Repr

/-- A 32-bit instruction from its number, first parcel in the low half (R115, R121). -/
def decode32 (w : Nat) : Except DecodeError Instr :=
  match decodeRaw32 w with
  | none => .error .reservedEncoding
  | some i => if i.wf then .ok i else .error .reservedValue

/-- A parcel from its number (R126, R127). -/
def decode16 (w : Nat) : Except DecodeError Instr :=
  match decodeRaw16 w with
  | none => .error .reservedEncoding
  | some i => if i.wf then .ok i else .error .reservedValue

/-- One parcel from its two bytes, little-endian (R2, R115). -/
def parcelOf (b0 b1 : Byte) : Nat := b0.toNat + 256 * b1.toNat

/-- Decode the instruction at the head of a list of bytes, giving it with the bytes after it. Bit 0
of the first parcel decides the length (R115). -/
def decode : List Byte → Except DecodeError (Instr × List Byte)
  | b0 :: b1 :: rest =>
    let p := parcelOf b0 b1
    if p % 2 = 0 then (decode16 p).map fun i => (i, rest)
    else
      match rest with
      | b2 :: b3 :: rest' => (decode32 (p + 65536 * parcelOf b2 b3)).map fun i => (i, rest')
      | _ => .error .tooShort
  | _ => .error .tooShort

/-- The code of an instruction: how many bits it has and their value as a number. -/
structure Code where
  bits : Nat
  value : Nat
  deriving DecidableEq, Repr

/-- The words of an instruction (R121, R126, R127, R144, R179, R192, R205, R209, R225): its code as
a number and how many bits it has; a step of the device has none. -/
def encode : Instr → Option Code
  | .iadd b a d => some ⟨32, 1 + b.toNat * 2097152 + a.toNat * 8192 + d.toNat * 64⟩
  | .isub b a d => some ⟨32, 536870913 + b.toNat * 2097152 + a.toNat * 8192 + d.toNat * 64⟩
  | .imul b a d => some ⟨32, 1073741825 + b.toNat * 2097152 + a.toNat * 8192 + d.toNat * 64⟩
  | .imulhS b a d => some ⟨32, 1610612737 + b.toNat * 2097152 + a.toNat * 8192 + d.toNat * 64⟩
  | .imulhU b a d => some ⟨32, 2147483649 + b.toNat * 2097152 + a.toNat * 8192 + d.toNat * 64⟩
  | .imad b a d => some ⟨32, 2684354561 + b.toNat * 2097152 + a.toNat * 8192 + d.toNat * 64⟩
  | .iaddc b a d => some ⟨32, 3221225473 + b.toNat * 2097152 + a.toNat * 8192 + d.toNat * 64⟩
  | .isubb b a d => some ⟨32, 3758096385 + b.toNat * 2097152 + a.toNat * 8192 + d.toNat * 64⟩
  | .and b a d => some ⟨32, 3 + b.toNat * 2097152 + a.toNat * 8192 + d.toNat * 64⟩
  | .or b a d => some ⟨32, 536870915 + b.toNat * 2097152 + a.toNat * 8192 + d.toNat * 64⟩
  | .xor b a d => some ⟨32, 1073741827 + b.toNat * 2097152 + a.toNat * 8192 + d.toNat * 64⟩
  | .andn b a d => some ⟨32, 1610612739 + b.toNat * 2097152 + a.toNat * 8192 + d.toNat * 64⟩
  | .shl b a d => some ⟨32, 2147483651 + b.toNat * 2097152 + a.toNat * 8192 + d.toNat * 64⟩
  | .shr b a d => some ⟨32, 2684354563 + b.toNat * 2097152 + a.toNat * 8192 + d.toNat * 64⟩
  | .sar b a d => some ⟨32, 3221225475 + b.toNat * 2097152 + a.toNat * 8192 + d.toNat * 64⟩
  | .rotl b a d => some ⟨32, 3758096387 + b.toNat * 2097152 + a.toNat * 8192 + d.toNat * 64⟩
  | .iminS b a d => some ⟨32, 5 + b.toNat * 2097152 + a.toNat * 8192 + d.toNat * 64⟩
  | .imaxS b a d => some ⟨32, 536870917 + b.toNat * 2097152 + a.toNat * 8192 + d.toNat * 64⟩
  | .iminU b a d => some ⟨32, 1073741829 + b.toNat * 2097152 + a.toNat * 8192 + d.toNat * 64⟩
  | .imaxU b a d => some ⟨32, 1610612741 + b.toNat * 2097152 + a.toNat * 8192 + d.toNat * 64⟩
  | .popc a d => some ⟨32, 2147483653 + a.toNat * 8192 + d.toNat * 64⟩
  | .clz a d => some ⟨32, 2684354565 + a.toNat * 8192 + d.toNat * 64⟩
  | .brev a d => some ⟨32, 3221225477 + a.toNat * 8192 + d.toNat * 64⟩
  | .iabs a d => some ⟨32, 3758096389 + a.toNat * 8192 + d.toNat * 64⟩
  | .bfxU b a d => some ⟨32, 7 + b.toNat * 2097152 + a.toNat * 8192 + d.toNat * 64⟩
  | .bfxS b a d => some ⟨32, 536870919 + b.toNat * 2097152 + a.toNat * 8192 + d.toNat * 64⟩
  | .bfi b a d => some ⟨32, 1073741831 + b.toNat * 2097152 + a.toNat * 8192 + d.toNat * 64⟩
  | .bshuf b a d => some ⟨32, 1610612743 + b.toNat * 2097152 + a.toNat * 8192 + d.toNat * 64⟩
  | .shld b a d => some ⟨32, 2147483655 + b.toNat * 2097152 + a.toNat * 8192 + d.toNat * 64⟩
  | .shrd b a d => some ⟨32, 2684354567 + b.toNat * 2097152 + a.toNat * 8192 + d.toNat * 64⟩
  | .iaddi i a d => some ⟨32, 9 + i.toNat * 16777216 + a.toNat * 8192 + d.toNat * 64⟩
  | .andi i a d => some ⟨32, 2097161 + i.toNat * 16777216 + a.toNat * 8192 + d.toNat * 64⟩
  | .ori i a d => some ⟨32, 4194313 + i.toNat * 16777216 + a.toNat * 8192 + d.toNat * 64⟩
  | .xori i a d => some ⟨32, 6291465 + i.toNat * 16777216 + a.toNat * 8192 + d.toNat * 64⟩
  | .shli i a d => some ⟨32, 8388617 + i.toNat * 16777216 + a.toNat * 8192 + d.toNat * 64⟩
  | .shri i a d => some ⟨32, 10485769 + i.toNat * 16777216 + a.toNat * 8192 + d.toNat * 64⟩
  | .sari i a d => some ⟨32, 12582921 + i.toNat * 16777216 + a.toNat * 8192 + d.toNat * 64⟩
  | .imuli i a d => some ⟨32, 14680073 + i.toNat * 16777216 + a.toNat * 8192 + d.toNat * 64⟩
  | .fadd b a d => some ⟨32, 11 + b.toNat * 2097152 + a.toNat * 8192 + d.toNat * 64⟩
  | .fsub b a d => some ⟨32, 536870923 + b.toNat * 2097152 + a.toNat * 8192 + d.toNat * 64⟩
  | .fmul b a d => some ⟨32, 1073741835 + b.toNat * 2097152 + a.toNat * 8192 + d.toNat * 64⟩
  | .ffma b a d => some ⟨32, 1610612747 + b.toNat * 2097152 + a.toNat * 8192 + d.toNat * 64⟩
  | .ffms b a d => some ⟨32, 2147483659 + b.toNat * 2097152 + a.toNat * 8192 + d.toNat * 64⟩
  | .fmin b a d => some ⟨32, 2684354571 + b.toNat * 2097152 + a.toNat * 8192 + d.toNat * 64⟩
  | .fmax b a d => some ⟨32, 3221225483 + b.toNat * 2097152 + a.toNat * 8192 + d.toNat * 64⟩
  | .fnma b a d => some ⟨32, 3758096395 + b.toNat * 2097152 + a.toNat * 8192 + d.toNat * 64⟩
  | .dadd b a d => some ⟨32, 13 + b.toNat * 2097152 + a.toNat * 8192 + d.toNat * 64⟩
  | .dsub b a d => some ⟨32, 536870925 + b.toNat * 2097152 + a.toNat * 8192 + d.toNat * 64⟩
  | .dmul b a d => some ⟨32, 1073741837 + b.toNat * 2097152 + a.toNat * 8192 + d.toNat * 64⟩
  | .dfma b a d => some ⟨32, 1610612749 + b.toNat * 2097152 + a.toNat * 8192 + d.toNat * 64⟩
  | .dfms b a d => some ⟨32, 2147483661 + b.toNat * 2097152 + a.toNat * 8192 + d.toNat * 64⟩
  | .dmin b a d => some ⟨32, 2684354573 + b.toNat * 2097152 + a.toNat * 8192 + d.toNat * 64⟩
  | .dmax b a d => some ⟨32, 3221225485 + b.toNat * 2097152 + a.toNat * 8192 + d.toNat * 64⟩
  | .dnma b a d => some ⟨32, 3758096397 + b.toNat * 2097152 + a.toNat * 8192 + d.toNat * 64⟩
  | .hadd2F16 b a d => some ⟨32, 15 + b.toNat * 2097152 + a.toNat * 8192 + d.toNat * 64⟩
  | .hmul2F16 b a d => some ⟨32, 536870927 + b.toNat * 2097152 + a.toNat * 8192 + d.toNat * 64⟩
  | .hfma2F16 b a d => some ⟨32, 1073741839 + b.toNat * 2097152 + a.toNat * 8192 + d.toNat * 64⟩
  | .hmin2F16 b a d => some ⟨32, 1610612751 + b.toNat * 2097152 + a.toNat * 8192 + d.toNat * 64⟩
  | .hadd2Bf16 b a d => some ⟨32, 2147483663 + b.toNat * 2097152 + a.toNat * 8192 + d.toNat * 64⟩
  | .hmul2Bf16 b a d => some ⟨32, 2684354575 + b.toNat * 2097152 + a.toNat * 8192 + d.toNat * 64⟩
  | .hfma2Bf16 b a d => some ⟨32, 3221225487 + b.toNat * 2097152 + a.toNat * 8192 + d.toNat * 64⟩
  | .hmin2Bf16 b a d => some ⟨32, 3758096399 + b.toNat * 2097152 + a.toNat * 8192 + d.toNat * 64⟩
  | .frcp a d => some ⟨32, 17 + a.toNat * 8192 + d.toNat * 64⟩
  | .frsq a d => some ⟨32, 536870929 + a.toNat * 8192 + d.toNat * 64⟩
  | .fsqrt a d => some ⟨32, 1073741841 + a.toNat * 8192 + d.toNat * 64⟩
  | .fex2 a d => some ⟨32, 1610612753 + a.toNat * 8192 + d.toNat * 64⟩
  | .flg2 a d => some ⟨32, 2147483665 + a.toNat * 8192 + d.toNat * 64⟩
  | .fsinr a d => some ⟨32, 2684354577 + a.toNat * 8192 + d.toNat * 64⟩
  | .fcosr a d => some ⟨32, 3221225489 + a.toNat * 8192 + d.toNat * 64⟩
  | .dsqrt a d => some ⟨32, 3758096401 + a.toNat * 8192 + d.toNat * 64⟩
  | .icmpS b a c p => some ⟨32, 19 + b.toNat * 2097152 + a.toNat * 8192 + c.toNat * 512 + p.toNat * 64⟩
  | .icmpU b a c p => some ⟨32, 536870931 + b.toNat * 2097152 + a.toNat * 8192 + c.toNat * 512 + p.toNat * 64⟩
  | .fcmp b a c p => some ⟨32, 1073741843 + b.toNat * 2097152 + a.toNat * 8192 + c.toNat * 512 + p.toNat * 64⟩
  | .dcmp b a c p => some ⟨32, 1610612755 + b.toNat * 2097152 + a.toNat * 8192 + c.toNat * 512 + p.toNat * 64⟩
  | .hcmp2F16 b a c p => some ⟨32, 2147483667 + b.toNat * 2097152 + a.toNat * 8192 + c.toNat * 512 + p.toNat * 64⟩
  | .hcmp2Bf16 b a c p => some ⟨32, 2684354579 + b.toNat * 2097152 + a.toNat * 8192 + c.toNat * 512 + p.toNat * 64⟩
  | .plop l b a d => some ⟨32, 3221225491 + l.toNat * 2097152 + b.toNat * 65536 + a.toNat * 8192 + d.toNat * 64⟩
  | .sel p b a d => some ⟨32, 21 + p.toNat * 536870912 + b.toNat * 2097152 + a.toNat * 8192 + d.toNat * 64⟩
  | .cvt m t s e a d => some ⟨32, 23 + m.toNat * 536870912 + t.toNat * 268435456 + s.toNat * 33554432 + e.toNat * 2097152 + a.toNat * 8192 + d.toNat * 64⟩
  | .shflIdx b a d => some ⟨32, 25 + b.toNat * 2097152 + a.toNat * 8192 + d.toNat * 64⟩
  | .shflUp b a d => some ⟨32, 536870937 + b.toNat * 2097152 + a.toNat * 8192 + d.toNat * 64⟩
  | .shflDn b a d => some ⟨32, 1073741849 + b.toNat * 2097152 + a.toNat * 8192 + d.toNat * 64⟩
  | .shflXor b a d => some ⟨32, 1610612761 + b.toNat * 2097152 + a.toNat * 8192 + d.toNat * 64⟩
  | .voteAny s p d => some ⟨32, 2147483673 + s.toNat * 16777216 + p.toNat * 2097152 + d.toNat * 64⟩
  | .voteAll s p d => some ⟨32, 2684354585 + s.toNat * 16777216 + p.toNat * 2097152 + d.toNat * 64⟩
  | .ballot s p d => some ⟨32, 3221225497 + s.toNat * 16777216 + p.toNat * 2097152 + d.toNat * 64⟩
  | .matchL a d => some ⟨32, 3758096409 + a.toNat * 8192 + d.toNat * 64⟩
  | .rdaddF32 a d => some ⟨32, 27 + a.toNat * 8192 + d.toNat * 64⟩
  | .rdaddF64 a d => some ⟨32, 536870939 + a.toNat * 8192 + d.toNat * 64⟩
  | .rdaddI32 a d => some ⟨32, 1073741851 + a.toNat * 8192 + d.toNat * 64⟩
  | .rdminF32 a d => some ⟨32, 1610612763 + a.toNat * 8192 + d.toNat * 64⟩
  | .rdmaxF32 a d => some ⟨32, 2147483675 + a.toNat * 8192 + d.toNat * 64⟩
  | .rdminI32 a d => some ⟨32, 2684354587 + a.toNat * 8192 + d.toNat * 64⟩
  | .rdmaxI32 a d => some ⟨32, 3221225499 + a.toNat * 8192 + d.toNat * 64⟩
  | .scanI32 e a d => some ⟨32, 3758096411 + e.toNat * 2097152 + a.toNat * 8192 + d.toNat * 64⟩
  | .ldk i d => some ⟨32, 29 + i.toNat * 8192 + d.toNat * 64⟩
  | .ldkh i d => some ⟨32, 31 + i.toNat * 8192 + d.toNat * 64⟩
  | .ldB h x r d => some ⟨32, 33 + h.toNat * 536870912 + x.toNat * 262144 + r.toNat * 8192 + d.toNat * 64⟩
  | .ldBs h x r d => some ⟨32, 67108897 + h.toNat * 536870912 + x.toNat * 262144 + r.toNat * 8192 + d.toNat * 64⟩
  | .ldH h x r d => some ⟨32, 134217761 + h.toNat * 536870912 + x.toNat * 262144 + r.toNat * 8192 + d.toNat * 64⟩
  | .ldHs h x r d => some ⟨32, 201326625 + h.toNat * 536870912 + x.toNat * 262144 + r.toNat * 8192 + d.toNat * 64⟩
  | .ldW h x r d => some ⟨32, 268435489 + h.toNat * 536870912 + x.toNat * 262144 + r.toNat * 8192 + d.toNat * 64⟩
  | .ldD h x r d => some ⟨32, 335544353 + h.toNat * 536870912 + x.toNat * 262144 + r.toNat * 8192 + d.toNat * 64⟩
  | .ldQ h x r d => some ⟨32, 402653217 + h.toNat * 536870912 + x.toNat * 262144 + r.toNat * 8192 + d.toNat * 64⟩
  | .ldpW h x d => some ⟨32, 469762081 + h.toNat * 536870912 + x.toNat * 262144 + d.toNat * 64⟩
  | .stB h x r d => some ⟨32, 35 + h.toNat * 536870912 + x.toNat * 262144 + r.toNat * 8192 + d.toNat * 64⟩
  | .stH h x r d => some ⟨32, 67108899 + h.toNat * 536870912 + x.toNat * 262144 + r.toNat * 8192 + d.toNat * 64⟩
  | .stW h x r d => some ⟨32, 134217763 + h.toNat * 536870912 + x.toNat * 262144 + r.toNat * 8192 + d.toNat * 64⟩
  | .stD h x r d => some ⟨32, 201326627 + h.toNat * 536870912 + x.toNat * 262144 + r.toNat * 8192 + d.toNat * 64⟩
  | .stQ h x r d => some ⟨32, 268435491 + h.toNat * 536870912 + x.toNat * 262144 + r.toNat * 8192 + d.toNat * 64⟩
  | .stpW h x d => some ⟨32, 335544355 + h.toNat * 536870912 + x.toNat * 262144 + d.toNat * 64⟩
  | .pref h x r => some ⟨32, 402653219 + h.toNat * 536870912 + x.toNat * 262144 + r.toNat * 8192⟩
  | .ldsW x d => some ⟨32, 37 + x.toNat * 262144 + d.toNat * 64⟩
  | .ldsD x d => some ⟨32, 67108901 + x.toNat * 262144 + d.toNat * 64⟩
  | .ldsQ x d => some ⟨32, 134217765 + x.toNat * 262144 + d.toNat * 64⟩
  | .stsW x d => some ⟨32, 201326629 + x.toNat * 262144 + d.toNat * 64⟩
  | .stsD x d => some ⟨32, 268435493 + x.toNat * 262144 + d.toNat * 64⟩
  | .stsQ x d => some ⟨32, 335544357 + x.toNat * 262144 + d.toNat * 64⟩
  | .ldsB x d => some ⟨32, 402653221 + x.toNat * 262144 + d.toNat * 64⟩
  | .stsB x d => some ⟨32, 469762085 + x.toNat * 262144 + d.toNat * 64⟩
  | .atomAdd s x r d => some ⟨32, 39 + s.toNat * 1073741824 + x.toNat * 262144 + r.toNat * 8192 + d.toNat * 64⟩
  | .atomMinS s x r d => some ⟨32, 67108903 + s.toNat * 1073741824 + x.toNat * 262144 + r.toNat * 8192 + d.toNat * 64⟩
  | .atomMaxS s x r d => some ⟨32, 134217767 + s.toNat * 1073741824 + x.toNat * 262144 + r.toNat * 8192 + d.toNat * 64⟩
  | .atomAnd s x r d => some ⟨32, 201326631 + s.toNat * 1073741824 + x.toNat * 262144 + r.toNat * 8192 + d.toNat * 64⟩
  | .atomOr s x r d => some ⟨32, 268435495 + s.toNat * 1073741824 + x.toNat * 262144 + r.toNat * 8192 + d.toNat * 64⟩
  | .atomXor s x r d => some ⟨32, 335544359 + s.toNat * 1073741824 + x.toNat * 262144 + r.toNat * 8192 + d.toNat * 64⟩
  | .atomExch s x r d => some ⟨32, 402653223 + s.toNat * 1073741824 + x.toNat * 262144 + r.toNat * 8192 + d.toNat * 64⟩
  | .atomCas s x r d => some ⟨32, 469762087 + s.toNat * 1073741824 + x.toNat * 262144 + r.toNat * 8192 + d.toNat * 64⟩
  | .redAdd s x r d => some ⟨32, 536870951 + s.toNat * 1073741824 + x.toNat * 262144 + r.toNat * 8192 + d.toNat * 64⟩
  | .redMinS s x r d => some ⟨32, 603979815 + s.toNat * 1073741824 + x.toNat * 262144 + r.toNat * 8192 + d.toNat * 64⟩
  | .redMaxS s x r d => some ⟨32, 671088679 + s.toNat * 1073741824 + x.toNat * 262144 + r.toNat * 8192 + d.toNat * 64⟩
  | .redAnd s x r d => some ⟨32, 738197543 + s.toNat * 1073741824 + x.toNat * 262144 + r.toNat * 8192 + d.toNat * 64⟩
  | .redOr s x r d => some ⟨32, 805306407 + s.toNat * 1073741824 + x.toNat * 262144 + r.toNat * 8192 + d.toNat * 64⟩
  | .redXor s x r d => some ⟨32, 872415271 + s.toNat * 1073741824 + x.toNat * 262144 + r.toNat * 8192 + d.toNat * 64⟩
  | .redExch s x r d => some ⟨32, 939524135 + s.toNat * 1073741824 + x.toNat * 262144 + r.toNat * 8192 + d.toNat * 64⟩
  | .atomAddF32 s x r d => some ⟨32, 41 + s.toNat * 1073741824 + x.toNat * 262144 + r.toNat * 8192 + d.toNat * 64⟩
  | .atomAddD s x r d => some ⟨32, 67108905 + s.toNat * 1073741824 + x.toNat * 262144 + r.toNat * 8192 + d.toNat * 64⟩
  | .atomCasD s x r d => some ⟨32, 134217769 + s.toNat * 1073741824 + x.toNat * 262144 + r.toNat * 8192 + d.toNat * 64⟩
  | .atomExchD s x r d => some ⟨32, 201326633 + s.toNat * 1073741824 + x.toNat * 262144 + r.toNat * 8192 + d.toNat * 64⟩
  | .atomMinU s x r d => some ⟨32, 268435497 + s.toNat * 1073741824 + x.toNat * 262144 + r.toNat * 8192 + d.toNat * 64⟩
  | .atomMaxU s x r d => some ⟨32, 335544361 + s.toNat * 1073741824 + x.toNat * 262144 + r.toNat * 8192 + d.toNat * 64⟩
  | .atomIncWrap s x r d => some ⟨32, 402653225 + s.toNat * 1073741824 + x.toNat * 262144 + r.toNat * 8192 + d.toNat * 64⟩
  | .atomAddF64 s x r d => some ⟨32, 469762089 + s.toNat * 1073741824 + x.toNat * 262144 + r.toNat * 8192 + d.toNat * 64⟩
  | .redAddF32 s x r d => some ⟨32, 536870953 + s.toNat * 1073741824 + x.toNat * 262144 + r.toNat * 8192 + d.toNat * 64⟩
  | .redAddD s x r d => some ⟨32, 603979817 + s.toNat * 1073741824 + x.toNat * 262144 + r.toNat * 8192 + d.toNat * 64⟩
  | .redExchD s x r d => some ⟨32, 738197545 + s.toNat * 1073741824 + x.toNat * 262144 + r.toNat * 8192 + d.toNat * 64⟩
  | .redMinU s x r d => some ⟨32, 805306409 + s.toNat * 1073741824 + x.toNat * 262144 + r.toNat * 8192 + d.toNat * 64⟩
  | .redMaxU s x r d => some ⟨32, 872415273 + s.toNat * 1073741824 + x.toNat * 262144 + r.toNat * 8192 + d.toNat * 64⟩
  | .redIncWrap s x r d => some ⟨32, 939524137 + s.toNat * 1073741824 + x.toNat * 262144 + r.toNat * 8192 + d.toNat * 64⟩
  | .redAddF64 s x r d => some ⟨32, 1006633001 + s.toNat * 1073741824 + x.toNat * 262144 + r.toNat * 8192 + d.toNat * 64⟩
  | .ldv x r d => some ⟨32, 43 + x.toNat * 262144 + r.toNat * 8192 + d.toNat * 64⟩
  | .ldvsW x r d => some ⟨32, 67108907 + x.toNat * 262144 + r.toNat * 8192 + d.toNat * 64⟩
  | .ldvsD x r d => some ⟨32, 134217771 + x.toNat * 262144 + r.toNat * 8192 + d.toNat * 64⟩
  | .vrd x r d => some ⟨32, 201326635 + x.toNat * 262144 + r.toNat * 8192 + d.toNat * 64⟩
  | .casvW x r d => some ⟨32, 268435499 + x.toNat * 262144 + r.toNat * 8192 + d.toNat * 64⟩
  | .casvD x r d => some ⟨32, 335544363 + x.toNat * 262144 + r.toNat * 8192 + d.toNat * 64⟩
  | .vchk p => some ⟨32, 402653227 + p.toNat * 64⟩
  | .waitc c n => some ⟨32, 8388653 + c.toNat * 1073741824 + n.toNat * 16777216⟩
  | .sleept a => some ⟨32, 10485805 + a.toNat * 8192⟩
  | .cpoll r a d => some ⟨32, 12582957 + r.toNat * 16777216 + a.toNat * 8192 + d.toNat * 64⟩
  | .cpy b a d => some ⟨32, 47 + b.toNat * 2097152 + a.toNat * 8192 + d.toNat * 64⟩
  | .cpy2d b a d => some ⟨32, 536870959 + b.toNat * 2097152 + a.toNat * 8192 + d.toNat * 64⟩
  | .gath b a d => some ⟨32, 1073741871 + b.toNat * 2097152 + a.toNat * 8192 + d.toNat * 64⟩
  | .scat b a d => some ⟨32, 1610612783 + b.toNat * 2097152 + a.toNat * 8192 + d.toNat * 64⟩
  | .abarInit b a => some ⟨32, 2147483695 + b.toNat * 2097152 + a.toNat * 8192⟩
  | .abarArv b a d => some ⟨32, 2684354607 + b.toNat * 2097152 + a.toNat * 8192 + d.toNat * 64⟩
  | .abarWait b a => some ⟨32, 3221225519 + b.toNat * 2097152 + a.toNat * 8192⟩
  | .abarTry b a d => some ⟨32, 3758096431 + b.toNat * 2097152 + a.toNat * 8192 + d.toNat * 64⟩
  | .qinit b a => some ⟨32, 49 + b.toNat * 2097152 + a.toNat * 8192⟩
  | .qpush b a => some ⟨32, 536870961 + b.toNat * 2097152 + a.toNat * 8192⟩
  | .qpop a d => some ⟨32, 1073741873 + a.toNat * 8192 + d.toNat * 64⟩
  | .qpushTry b a d => some ⟨32, 1610612785 + b.toNat * 2097152 + a.toNat * 8192 + d.toNat * 64⟩
  | .qtpop a d => some ⟨32, 2147483697 + a.toNat * 8192 + d.toNat * 64⟩
  | .qallow b a => some ⟨32, 2684354609 + b.toNat * 2097152 + a.toNat * 8192⟩
  | .qclose a => some ⟨32, 3221225521 + a.toNat * 8192⟩
  | .qstat a d => some ⟨32, 3758096433 + a.toNat * 8192 + d.toNat * 64⟩
  | .ores b a d => some ⟨32, 51 + b.toNat * 2097152 + a.toNat * 8192 + d.toNat * 64⟩
  | .orel d => some ⟨32, 536870963 + d.toNat * 64⟩
  | .allock a d => some ⟨32, 1073741875 + a.toNat * 8192 + d.toNat * 64⟩
  | .freek b a => some ⟨32, 1610612787 + b.toNat * 2097152 + a.toNat * 8192⟩
  | .mld a d => some ⟨32, 2147483699 + a.toNat * 8192 + d.toNat * 64⟩
  | .mlds b a d => some ⟨32, 2684354611 + b.toNat * 2097152 + a.toNat * 8192 + d.toNat * 64⟩
  | .mlease a => some ⟨32, 3221225523 + a.toNat * 8192⟩
  | .mma b a d => some ⟨32, 53 + b.toNat * 2097152 + a.toNat * 8192 + d.toNat * 64⟩
  | .mmap b a d => some ⟨32, 536870965 + b.toNat * 2097152 + a.toNat * 8192 + d.toNat * 64⟩
  | .mzero a => some ⟨32, 1073741877 + a.toNat * 8192⟩
  | .maccr a d => some ⟨32, 1610612789 + a.toNat * 8192 + d.toNat * 64⟩
  | .maccw b a => some ⟨32, 2147483701 + b.toNat * 2097152 + a.toNat * 8192⟩
  | .mst a => some ⟨32, 2684354613 + a.toNat * 8192⟩
  | .accsave a => some ⟨32, 3221225525 + a.toNat * 8192⟩
  | .accload a => some ⟨32, 3758096437 + a.toNat * 8192⟩
  | .bra o s p => some ⟨32, 55 + o.toNat * 8192 + s.toNat * 4096 + p.toNat * 512⟩
  | .brc o s p => some ⟨32, 119 + o.toNat * 8192 + s.toNat * 4096 + p.toNat * 512⟩
  | .call o s p => some ⟨32, 183 + o.toNat * 8192 + s.toNat * 4096 + p.toNat * 512⟩
  | .brx r s p => some ⟨32, 247 + r.toNat * 8192 + s.toNat * 4096 + p.toNat * 512⟩
  | .callx r s p => some ⟨32, 311 + r.toNat * 8192 + s.toNat * 4096 + p.toNat * 512⟩
  | .jset o => some ⟨32, 3959 + o.toNat * 8192⟩
  | .loop o n => some ⟨32, 439 + o.toNat * 8192 + n.toNat * 512⟩
  | .trapi i => some ⟨32, 57 + i.toNat * 16777216⟩
  | .signal i a => some ⟨32, 2097209 + i.toNat * 16777216 + a.toNat * 8192⟩
  | .rdsr i d => some ⟨32, 4194361 + i.toNat * 16777216 + d.toNat * 64⟩
  | .wrsr i a => some ⟨32, 6291513 + i.toNat * 16777216 + a.toNat * 8192⟩
  | .brec o a n => some ⟨32, 8388665 + o.toNat * 16777216 + a.toNat * 8192 + n.toNat * 64⟩
  | .vstat i a d => some ⟨32, 10485817 + i.toNat * 16777216 + a.toNat * 8192 + d.toNat * 64⟩
  | .rlaunch a => some ⟨32, 12582969 + a.toNat * 8192⟩
  | .tlbfill l a => some ⟨32, 59 + l.toNat * 16777216 + a.toNat * 8192⟩
  | .tlbinv s a => some ⟨32, 2097211 + s.toNat * 16777216 + a.toNat * 8192⟩
  | .plogrd p k d => some ⟨32, 6291515 + p.toNat * 33554432 + k.toNat * 16777216 + d.toNat * 64⟩
  | .actset a => some ⟨32, 8388667 + a.toNat * 8192⟩
  | .philox b a d => some ⟨32, 61 + b.toNat * 2097152 + a.toNat * 8192 + d.toNat * 64⟩
  | .coll b a t => some ⟨32, 536870973 + b.toNat * 2097152 + a.toNat * 8192 + t.toNat * 64⟩
  | .add b d => some ⟨16, 0 + b.toNat * 2048 + d.toNat * 64⟩
  | .sub b d => some ⟨16, 2 + b.toNat * 2048 + d.toNat * 64⟩
  | .andParcel b d => some ⟨16, 4 + b.toNat * 2048 + d.toNat * 64⟩
  | .orParcel b d => some ⟨16, 6 + b.toNat * 2048 + d.toNat * 64⟩
  | .xorParcel b d => some ⟨16, 8 + b.toNat * 2048 + d.toNat * 64⟩
  | .shlParcel b d => some ⟨16, 10 + b.toNat * 2048 + d.toNat * 64⟩
  | .shrParcel b d => some ⟨16, 12 + b.toNat * 2048 + d.toNat * 64⟩
  | .mov b d => some ⟨16, 14 + b.toNat * 2048 + d.toNat * 64⟩
  | .faddParcel b d => some ⟨16, 16 + b.toNat * 2048 + d.toNat * 64⟩
  | .fsubParcel b d => some ⟨16, 18 + b.toNat * 2048 + d.toNat * 64⟩
  | .fmulParcel b d => some ⟨16, 20 + b.toNat * 2048 + d.toNat * 64⟩
  | .fminParcel b d => some ⟨16, 22 + b.toNat * 2048 + d.toNat * 64⟩
  | .fmaxParcel b d => some ⟨16, 24 + b.toNat * 2048 + d.toNat * 64⟩
  | .imulParcel b d => some ⟨16, 26 + b.toNat * 2048 + d.toNat * 64⟩
  | .addi i d => some ⟨16, 28 + i.toNat * 2048 + d.toNat * 64⟩
  | .movi i d => some ⟨16, 30 + i.toNat * 2048 + d.toNat * 64⟩
  | .grd c s p => some ⟨16, 34 + c.toNat * 1024 + s.toNat * 512 + p.toNat * 64⟩
  | .xm d e s r b m a n => some ⟨16, 36 + d.toNat * 8192 + e.toNat * 4096 + s.toNat * 2048 + r.toNat * 1024 + b.toNat * 512 + m.toNat * 256 + a.toNat * 128 + n.toNat * 64⟩
  | .beat i => some ⟨16, 38 + i.toNat * 64⟩
  | .brs o => some ⟨16, 50 + o.toNat * 64⟩
  | .waitcParcel n c => some ⟨16, 52 + n.toNat * 256 + c.toNat * 64⟩
  | .sleep n => some ⟨16, 54 + n.toNat * 64⟩
  | .vclr => some ⟨32, 469762091⟩
  | .acq => some ⟨32, 45⟩
  | .rel => some ⟨32, 2097197⟩
  | .acqrel => some ⟨32, 4194349⟩
  | .fenceEng => some ⟨32, 6291501⟩
  | .mrel => some ⟨32, 3758096435⟩
  | .rtt => some ⟨32, 4194363⟩
  | .nop => some ⟨16, 32⟩
  | .yield => some ⟨16, 40⟩
  | .tfence => some ⟨16, 42⟩
  | .exit => some ⟨16, 44⟩
  | .ret => some ⟨16, 46⟩
  | .join => some ⟨16, 48⟩
  | .longLatencyFill => none
  | .accessPerformed => none
  | .requestRetire => none
  | .engineRequestStop => none
  | .deferredReportTrap => none
  | .copyPromiseMiss => none
  | .sleeptWake => none
  | .sleepWake => none
  | .yieldEnd => none
  | .groupEnd => none
  | .activityWindow => none
  | .boostCeiling => none
  | .arbiterPass => none
  | .leaseIdleEnd => none
  | .collectiveChunkSend => none
  | .chunkCreditReturn => none
  | .collectiveResume => none
  | .collectiveComplete => none
  | .pageWalk => none
  | .pageRequestRewalk => none
  | .pantryReplay => none
  | .remoteRequest => none
  | .remoteRetry => none
  | .peerRequest => none
  | .bar2Access => none
  | .railFlitReceive => none
  | .flitResend => none
  | .railRetrain => none
  | .railPortFailed => none
  | .qnotify => none
  | .vfDoorbell => none
  | .frontEndTurn => none
  | .noOperation => none
  | .launch => none
  | .queueIdleUnmap => none
  | .notifyWaitExpiry => none
  | .tokenRefill => none
  | .bucketDry => none
  | .budgetReached => none
  | .placementDecision => none
  | .blockReserving => none
  | .clusterGate => none
  | .preemptDrain => none
  | .preemptFreeze => none
  | .preemptResume => none
  | .drainHandler => none
  | .drainDeadline => none
  | .blockFreeze => none
  | .periodBoundary => none
  | .mergedBeats => none
  | .mergeWindowExpiry => none
  | .geyserStep => none
  | .poolWayChangeDone => none
  | .poolWayChangeSlow => none
  | .gloopBind => none
  | .gloopUnbind => none
  | .clockStepSwitch => none
  | .sensorSample => none
  | .refreshCommand => none
  | .currentCapWindow => none
  | .currentCapRise => none
  | .powerCapWindow => none
  | .scrub => none
  | .partActivate => none
  | .partDeactivate => none
  | .vdbindEnable => none
  | .queueEnable => none
  | .queueDisable => none
  | .vdlogTailWrite => none
  | .registerWrite => none
  | .recoveryGo => none
  | .startUp => none
  | .railRetrainComplete => none
  | .clusterWakeComplete => none
  | .partitionKeyLoad => none

/-- n bytes of a number, least significant first (R2). -/
def bytesLE : Nat → Nat → List Byte
  | 0, _ => []
  | n + 1, w => BitVec.ofNat 8 w :: bytesLE n (w / 256)

/-- The bytes of a code in memory: the parcel at the lower address first, each little-endian (R2, R115). -/
def Code.bytes (c : Code) : List Byte := bytesLE (c.bits / 8) c.value

/-- An instruction's bits as the trap frame shows them, a parcel zero-extended (R353). -/
def Instr.raw (i : Instr) : Word :=
  match encode i with
  | some c => BitVec.ofNat 32 c.value
  | none => 0

/-- How many bytes an instruction occupies (R115). -/
def Instr.size (i : Instr) : Nat :=
  match i.head with
  | .w32 _ _ => 4
  | .p16 _ => 2
  | .event => 0

/-- What the decoder reads from an instruction whose bits are w: its bytes laid out as the device
stores them, every bit above the given ones 0. -/
def decodeTableWord (nbits w : Nat) : Option Instr :=
  match decode (bytesLE 4 (w % 2 ^ nbits)) with
  | .ok (i, _) => some i
  | .error _ => none

end Sys2Proof
end

