-- ==== Sys2Proof/Machine/State.lean ====
section
/-! DEFINITION. The state of the whole device as plain data: groups and their splits, blocks and
launches, cores, clusters, memories, engines, queues, partitions, loops, heat, fabric and the
management core; the outcomes a step can stop with; and the state after reset. -/

namespace Sys2Proof.Machine

/-- A sparse table: keys strictly rising, no entry equal to the table's default value. -/
abbrev Smap (α : Type) := List (Nat × α)

/-- Memory in canonical form: addresses strictly rising, no entry equal to the byte 0, which is what
an unlisted address reads as. (Log entry 1.) -/
abbrev Memory := List Host.Cell

/-- An entry of a join stack (R27). After the halves switch (R30) deferred is false and whole keeps
the split's whole mask; a JSET entry has deferred false and whole 0. -/
structure JoinEntry where
  join : Option Addr
  deferred : Bool
  resume : Addr
  pending : Mask
  whole : Mask
  deriving DecidableEq, Repr

/-- A trap frame ready to be taken: TRAPCAUSE's parts, the masks, the h words and the resume PC
(R292, R295, R353). -/
structure Frame where
  cause : Nat
  code : Nat
  write : Bool
  pc : Addr
  mask : Mask
  done : Mask
  h0 : Word
  h1 : Word
  h2 : Word
  h3 : Word
  deriving DecidableEq, Repr

/-- What keeps a split from issuing (R34), beside its registers. -/
inductive Wait where
  /-- nothing -/
  | none
  /-- a register it names is empty (R55); tried says that nothing has happened since it was last tried -/
  | empty (tried : Bool)
  /-- a b register it names is still being loaded (R184) -/
  | record (tried : Bool)
  /-- it issued an instruction that waits (R34's second list) and will issue it again -/
  | blocked (tried : Bool)
  /-- SLEEP until the cluster's cycle count reaches the value (R175) -/
  | sleep (cycle : Nat)
  /-- SLEEPT until the global timer reaches the value (R207) -/
  | sleept (time : Nat)
  /-- YIELD: the groups of its issue partition still to issue, and the number of the partition's slot that is the
  last of the 64 it sits out at most (R175) -/
  | yielded (groups : List Nat) (last : Nat)
  /-- lanes of the flight are held for a translation (R371), or for a pantry entry (R375) -/
  | held (flight : Nat)
  /-- a trap is taken once the flight's done lanes are written (R355) -/
  | trapAfter (flight : Nat) (frame : Frame)
  /-- VCHK: the split issues nothing until the flight completes (R204) -/
  | check (flight : Nat)
  /-- its fetch holds for the absent page of this number (R371) -/
  | fetch (page : Nat)
  deriving DecidableEq, Repr

/-- A split of a group (R27, R129, R172). (Log entry 11.) -/
structure Split where
  pc : Addr
  mask : Mask
  age : Nat
  /-- top entry first, at most four -/
  joins : List JoinEntry
  /-- top entry first, at most eight -/
  calls : List Addr
  guardLeft : Nat
  guardPass : Mask
  wait : Wait
  /-- the payload of an XM whose instruction is still to issue (R131) -/
  xm : Option (BitVec 10)
  /-- the split runs trap-mode code (R292) -/
  trap : Bool
  /-- a pending re-issue after RTT, with the lanes it skips (R189) -/
  reissue : Option Mask
  /-- the ages of the splits it descends from, itself included (R73) -/
  anc : List Nat
  deriving DecidableEq, Repr

/-- What a trap keeps of its split for RTT (R292). -/
structure PreTrap where
  pc : Addr
  mask : Mask
  joins : List JoinEntry
  calls : List Addr
  guardLeft : Nat
  guardPass : Mask
  deriving DecidableEq, Repr

/-- A snapshot entry (R201, R305). -/
structure Snap where
  lane : Nat
  line : Nat
  version : BitVec 32
  stamp : Nat
  deriving DecidableEq, Repr

/-- A report of an asynchronous request that waits for the group's next issue (R387). -/
structure Report where
  req : Nat
  frame : Frame
  /-- the split by whose access it arose, when it tells of that instruction and those lanes (R378, R398) -/
  split : Option Nat := none
  deriving DecidableEq, Repr

/-- A resident group (R25, R49), with the split that is issuing and the others. -/
structure Group where
  /-- the slot holds a group -/
  live : Bool
  /-- device core and group slot it occupies (R14, R34) -/
  core : Nat
  slot : Nat
  /-- it is the core's service slot (R258) -/
  service : Bool
  /-- its block, and its launch (the sub-launch of a bundle) by RCB address -/
  block : Nat
  launch : Nat
  groupix : Nat
  /-- the producer number of R218 -/
  producer : Nat
  age : Nat
  waitCount : Nat
  v : Vector Row 96
  s : Vector Word 16
  o : Vector Row 8
  q : Vector Row 4
  p : Vector Mask 7
  b : Vector (BitVec 128) 32
  /-- bit n: a BREC of bn is outstanding (R184) -/
  bPend : BitVec 32
  d : Vector (BitVec 64) 16
  h : Vector Word 4
  /-- full/empty bits, 1 is full (R54) -/
  feV : BitVec 96
  feO : BitVec 8
  feS : BitVec 16
  arithFlags : BitVec 6
  /-- outstanding-operation counters: copy, gather, matrix, collective (R81) -/
  counters : Vector Nat 4
  snaps : List Snap
  trapCause : Word
  /-- TRAPPC, TRAPMASK and DONEMASK, as the save area keeps them, one set per group (R303): only one
  split is in trap mode at a time (R293) -/
  trapPc : Addr
  trapMask : Mask
  doneMask : Mask
  pre : Option PreTrap
  reports : List Report
  /-- the request whose report the trap in progress carries (R389) -/
  curReport : Option Nat
  /-- lanes launched, and lanes that have exited for good (R25, R33) -/
  launched : Mask
  exited : Mask
  nextAge : Nat
  /-- the launch is being frozen or its block ended by a fault: the group's splits stop (R298, R361) -/
  stopped : Bool
  /-- the splits, by age, whose issue slot at which a freeze stops them has still to come (R298, R300) -/
  halting : List Nat
  sp : Split
  rest : List Split
  deriving DecidableEq, Repr

/-- What a checked and translated lane access reaches (R70). -/
inductive Target where
  | dev (pa : Nat)
  | host (port : Nat) (ha : Nat)
  | peer (dev : Nat) (pa : Nat)
  | spm (core : Nat) (off : Nat)
  deriving DecidableEq, Repr

/-- One lane's part of a request: the lane, where it goes, its operand and compare value. -/
structure LaneAcc where
  lane : Nat
  tgt : Target
  v : Nat
  c : Nat
  /-- the virtual address -/
  va : Nat := 0
  deriving DecidableEq, Repr

/-- What a lane memory request does (R193 to R204, R208, R184, R217, R219). -/
inductive Access where
  | load (width : Nat) (signed : Bool) (hint : Nat)
  | loadOwn (hint : Nat)
  | store (width : Nat) (hint : Nat)
  | storeOwn (hint : Nat)
  /-- major, minor of the atomic, width in bytes, site, and whether it returns -/
  | atomic (major minor width site : Nat) (ret : Bool)
  | ldv
  | ldvs (width : Nat)
  | vrd
  | casv (width : Nat)
  | vchk (pd : Nat)
  | cpoll
  | brec (n : Nat)
  | pref (hint : Nat)
  /-- a value made ready at issue that only has still to be written: QPOP, ABAR.ARV, MACCR, CPY's
  promise and the like -/
  | ready
  deriving DecidableEq, Repr

/-- A lane that waits for its page (R371) or for room in the pantry (R375). -/
structure HeldLane where
  lane : Nat
  va : Nat
  v : Nat
  c : Nat
  /-- false: waits for a translation; true: waits for a free pantry entry -/
  pantry : Bool
  /-- all page requests of the core were in use, so that its page is looked up at multiples of 2^16 only (R370) -/
  late : Bool := false
  deriving DecidableEq, Repr

/-- A lane request in flight: who issued it, what it does, and how far it has come (R72, R54). (Log entry 7.) -/
structure Flight where
  id : Nat
  core : Nat
  slot : Nat
  split : Nat
  anc : List Nat
  /-- the instruction's address and its lanes, for a trap of held lanes (R371) -/
  pc : Addr
  mask : Mask
  acc : Access
  part : Nat
  /-- issued in trap mode, where 0x6C to 0x6F name h0 to h3 (R294) -/
  trap : Bool
  lanes : List LaneAcc
  held : List HeldLane
  /-- lanes performed, and the values read by them: lane, value -/
  results : List (Nat × Nat)
  performed : Bool
  done : Mask
  /-- destination: a 7-bit selector (0x7C writes nothing), how many registers, and the stride that
  CASV.D and CAS leave between them is in the words list: offsets written -/
  dst : BitVec 7
  words : List Nat
  /-- the raw bits for a trap frame's index word: lane, index value -/
  idx : List (Nat × Word)
  deriving DecidableEq, Repr

/-- Whose lane-interleaved memory a line held in that mode is (R62, R63): partition, virtual line
address, and the group slot and GROUPIX of the group. -/
structure OwnLine where
  part : Nat
  vline : Nat
  slot : Nat
  groupix : Nat
  deriving DecidableEq, Repr

/-- One line of a core's L1 (R63, R64, R72): which words are valid, their values, and for a line held
write-back whose it is and which words are dirty. -/
structure L1Line where
  line : Nat
  valid : BitVec 32
  data : Row
  own : Option OwnLine
  dirty : BitVec 32
  hint : Nat
  /-- the core's acquires when its words were last read at the home slice (R63, R78) -/
  since : Nat := 0
  deriving DecidableEq, Repr

/-- Words of a line that was held write-back and whose data an error has taken: the group whose they are, by block and
producer, the virtual line, and the words of lanes that have still to hear of it (R401, R402). -/
structure LostLine where
  block : Nat
  producer : Nat
  vline : Nat
  words : BitVec 32
  deriving DecidableEq, Repr

/-- A TLB entry: partition, page address, size code, and the leaf's rights and target (R306, R309). -/
structure TlbEntry where
  part : Nat
  va : Nat
  size : Nat
  write : Bool
  exec : Bool
  reach : Nat
  peer : Nat
  pa : Nat
  deriving DecidableEq, Repr

/-- A pantry entry with its data slot (R374). -/
structure PantryEntry where
  /-- its place in the order of issue -/
  id : Nat
  core : Nat
  slot : Nat
  split : Nat
  anc : List Nat
  part : Nat
  vline : Nat
  kind : Nat
  op : Nat
  site : Nat
  unmappable : Bool
  reported : Bool
  /-- the trap of R376 for this entry has been taken -/
  trapped : Bool
  lanes : Mask
  groupix : Nat
  reason : Nat
  stamp : Nat
  bytemask : BitVec 128
  word : BitVec 160
  data : List Byte
  /-- the line of memory for which words of a lane's own memory were held (R74, R375) -/
  phys : Option Nat := none
  deriving DecidableEq, Repr

/-- A standing page request of a core (R370). -/
structure PageReq where
  part : Nat
  page : Nat
  write : Bool
  fetch : Bool
  /-- it was made for a request from outside, and no walk of a core of the cluster has joined it (R378, R382) -/
  remote : Bool := false
  /-- the fault domain of what asked first, for the events about its walks (R362, R369, R370) -/
  domain : Nat := 0
  deriving DecidableEq, Repr

/-- One core (R14, R34, R64, R191, R257, R259, R306, R366, R370, R374). -/
structure Core where
  l1 : List L1Line
  /-- acquires of the core so far (R75) -/
  acquires : Nat
  tlb : List TlbEntry
  pantry : List PantryEntry
  /-- the pantry has been full since event 0x4B (R375) -/
  pantryFull : Bool
  pageReqs : List PageReq
  /-- the scratchpad's bytes by offset -/
  scratch : Memory
  actBudget : Nat
  /-- a budget that applies from the next window -/
  actNext : Option Nat
  actWindow : Nat
  actCount : Nat
  actClosed : Bool
  /-- the placement sequence number of the next group -/
  nextAge : Nat
  /-- the clock whose issue slots are being given, and how many of its 25 are past: the service slot's, then two of each
  issue partition (R257, R260) -/
  round : Nat
  place : Nat
  /-- who took the first of the two slots when the second comes next: group slot, split age, and the flags that the
  instruction raised (R106, R257) -/
  first : Option (Nat × Nat × BitVec 6)
  /-- the service slot runs a routine -/
  serviceBusy : Bool
  /-- counter selectors and counters (R366); the counters whose selector was written since the last clock of their scope,
  each with the selector still in effect (R422) -/
  sel : Vector Nat 8
  cnt : Vector Nat 8
  held : List (Nat × Nat)
  deriving DecidableEq, Repr

/-- Who waits: core, group slot and split age (or quarter), in arrival order. -/
structure Waiter where
  core : Nat
  slot : Nat
  split : Nat
  obj : Nat
  deriving DecidableEq, Repr

/-- An entry of the reservation table: one quarter-operation, or a waiting MLEASE (R262). -/
structure QuarterOp where
  core : Nat
  slot : Nat
  /-- the split that a waiting MLEASE holds -/
  split : Nat
  block : Nat
  /-- the engine request that carries the quarter-operation -/
  req : Nat
  prio : Nat
  age : Nat
  /-- a waiting MLEASE, for this many passes -/
  lease : Option Nat
  passed : Nat
  deriving DecidableEq, Repr

/-- The lease of a matrix engine (R239). -/
structure Lease where
  block : Nat
  left : Nat
  /-- the cluster cycle at which the block last had an entry -/
  lastEntry : Nat
  deriving DecidableEq, Repr

/-- One cluster with its matrix engine (R15, R67, R231, R239, R262, R306). -/
structure Cluster where
  tlb : List TlbEntry
  /-- cluster clocks counted, in thousandths -/
  clock : Nat
  /-- what of the running tick the count is ahead of the timer: a clock's issue slots come at its edge, within the tick -/
  early : Nat
  /-- operand-buffer bytes written since their range was reserved, each 1 + the byte, by 16384 unit +
  offset, and the number under which the undefined bytes of a unit stand (R229) -/
  opBuf : Smap Nat
  opFresh : Smap Nat
  /-- operand-buffer units in use: unit to the slot key of its group -/
  unitOwner : Smap Nat
  /-- banks in use: bank to 1 + the slot key of its group -/
  bankOwner : Smap Nat
  /-- bank words written since the bank was handed out, by 1024 bank + 128 row + column -/
  banks : Smap (Option Word)
  /-- the number under which the unspecified contents of a bank stand (R231) -/
  bankFresh : Smap Nat
  oresQ : List Waiter
  allockQ : List Waiter
  table : List QuarterOp
  tableAge : Nat
  lease : Option Lease
  gated : Bool
  /-- gating has begun, and waits until no access is in flight (R399) -/
  gating : Bool
  waking : Bool
  idleSince : Nat
  deriving DecidableEq, Repr

/-- One side of a copy (R211): scratchpad, or a record with an element index. -/
structure Side where
  scr : Bool
  rcd : BitVec 128
  idx : Nat
  deriving DecidableEq, Repr

/-- What an engine request does (R210 to R213, R222, R232, R233, R235, R240 to R243). Records are kept as
they stood at issue. -/
inductive ReqKind where
  | copy (src dst : Side) (rows rowlen spitch dpitch : Nat)
  | gather (rcd : BitVec 128) (idx : List (Nat × Word)) (base : Nat)
  | scatter (rcd : BitVec 128) (idx : List (Nat × Word)) (base : Nat)
  | mld (d : BitVec 64) (va pitch first rows : Nat)
  | mlds (d : BitVec 64) (zero : Bool) (va pitch first rows : Nat)
  | mma (integer : Bool) (da db : BitVec 64) (a0 bank b0 : Nat)
  | maccr (bank row chunk flight : Nat)
  | maccw (bank row chunk : Nat) (vals : List (Nat × Word))
  | mzero (first count : Nat)
  | mst (va pitch first count conv : Nat) (sat : Bool)
  | accSave (kind va operand : Nat)
  | accLoad (kind va operand : Nat)
  | coll (comm : Nat)
  deriving DecidableEq, Repr

/-- Why an engine request is stopped, and at which address (R388, R390). -/
structure Stop where
  cause : Nat
  code : Nat
  write : Bool
  addr : Nat
  deriving DecidableEq, Repr

/-- An engine request (R81 to R85, R214, R390): its issuer, its class, how far it has come. -/
structure EngReq where
  id : Nat
  core : Nat
  slot : Nat
  /-- the group slot for which it acts: another than its issuer's in the service slot (R243) -/
  owner : Nat
  block : Nat
  split : Nat
  anc : List Nat
  cls : Nat
  part : Nat
  kind : ReqKind
  /-- the units done: bytes of a copy, lanes of a gather or scatter, rows of a matrix request,
  quarter-operations granted -/
  pos : Nat
  stopped : Option Stop
  /-- it waits for an absent page -/
  waiting : Bool
  /-- every write of the request itself is done -/
  done : Bool
  /-- the completion object: record, index, sequence value; none when there is none or it is written -/
  compl : Option (BitVec 128 × Nat × Nat)
  /-- copy and gather class: the promise, and the engine that serves the request -/
  promise : Nat
  engine : Nat
  /-- it retired while its group was frozen (R85) -/
  retired : Bool
  deriving DecidableEq, Repr

/-- One overlaid immediate (R135, R136): parcel offset, kind, and the value read at acceptance. -/
structure Patch where
  parcel : Nat
  kind : Nat
  value : Nat
  deriving DecidableEq, Repr

/-- The code of a kernel or of a trap handler (R134, R294). -/
structure Kernel where
  entry : Addr
  size : Nat
  patches : List Patch
  deriving DecidableEq, Repr

/-- A launch's effective inheritable fields, as resolved at acceptance (R38, R39). -/
structure Eff where
  priority : Nat
  faultDomain : Nat
  shedClass : Nat
  arithClass : Nat
  trapHandler : Nat
  trapEnable : BitVec 6
  leasePasses : Nat
  heatClass : Nat
  refreshAllowance : Nat
  coreSet : BitVec 256
  notifyWait : Nat
  drainDeadline : Nat
  deriving DecidableEq, Repr

/-- A drain in progress (R297): when it began, and whether dryness or throttling began it. (Log entry 21.) -/
structure Drain where
  since : Nat
  self : Bool
  deriving DecidableEq, Repr

/-- What the device keeps of a frozen group beside its record (R189, R207, R387): its reports, and by split rank
the lanes that a pending re-issue skips and the end of a SLEEPT. -/
structure GroupKeep where
  producer : Nat
  reports : List Report
  curReport : Option Nat
  reissues : List (Nat × Mask)
  /-- by split rank, the timer value at which a SLEEPT ends (R207) -/
  sleeps : List (Nat × Nat)
  deriving DecidableEq, Repr

/-- A block written to the save area (R299): its number and linear index, its record's address and size,
its spread, the producer and number of each saved pantry entry in their order, and what is kept of its
groups. -/
structure FrozenBlk where
  id : Nat
  index : Nat
  addr : Nat
  size : Nat
  spread : Nat
  pantry : List (Nat × Nat)
  keep : List GroupKeep
  deriving DecidableEq, Repr

/-- A placed block that comes back from its record (R299): the record as read and where its engine images begin, the
groups, by producer, whose banks are claimed, and the ranges reserved so far, by producer, register and record. -/
structure Restore where
  fb : FrozenBlk
  rec_ : Nat
  off : Nat
  banks : List Nat
  ranges : List (Nat × Nat × BitVec 64)
  deriving DecidableEq, Repr

/-- An accepted launch: a single launch or one sub-launch of a bundle (R37 to R43, R252). -/
structure Launch where
  /-- the address of its RCB + 2^56 × its partition; blocks and groups name it so too -/
  rcb : Nat
  part : Nat
  queue : Nat
  vd : Option Nat
  /-- the nodes of its path, the launch first, the partition node last -/
  path : List Nat
  ctx : Nat
  eff : Eff
  created : Nat
  ctxCreated : Nat
  state : Nat
  /-- RCB of sub-launch 0, its place, and how many sub-launches there are -/
  head : Nat
  bundleIndex : Nat
  bundleSize : Nat
  code : Kernel
  handler : Option Kernel
  gridX : Nat
  gridY : Nat
  gridZ : Nat
  lanes : Nat
  ownWords : Nat
  privBase : Nat
  scratchBytes : Nat
  regs : Nat
  accBanks : Nat
  maxCores : Nat
  idempotent : Bool
  /-- the lease length in force, and the kernel header's, 0 for none (R134, R239) -/
  leaseLen : Nat
  codeLease : Nat
  completion : Nat
  completionReach : Nat
  completionValue : Nat
  saveArea : Nat
  gridPos : Nat
  ended : Nat
  failed : Bool
  frozen : List FrozenBlk
  /-- blocks to be placed again from their start (R361), with how often each was relaunched -/
  relaunch : List Nat
  relaunched : Smap Nat
  drain : Option Drain
  /-- it was frozen by a deadline of a drain begun by dryness or throttling (R297) -/
  selfResume : Bool
  freezing : Bool
  /-- since when its candidate has been refused at check 4 only (R255) -/
  waitSince : Option Nat
  reserving : Bool
  warned : Bool
  deriving DecidableEq, Repr

/-- A block on its cores (R26, R42, R60, R221, R287). -/
structure Block where
  id : Nat
  head : Nat
  part : Nat
  ctx : Nat
  index : Nat
  groups : Nat
  /-- the cores it is spread over, ascending, with the base of its share on each -/
  cores : List Nat
  bases : List Nat
  share : Nat
  regs : Nat
  tiles : Vector (BitVec 64) 8
  charge : Nat
  /-- cause and code with which it is being ended (R361), whether by a double fault, and the address
  that its event reports -/
  ending : Option (Nat × Nat × Bool × Nat)
  /-- a gated cluster is being woken for it (R399) -/
  waking : Bool
  /-- its record has still to come back (R299) -/
  restoring : Option Restore
  deriving DecidableEq, Repr

/-- A hardware queue slot (R247, R252). (Log entry 55.) -/
structure QSlot where
  queue : Nat
  woken : Nat
  /-- it was mapped or notified, and no turn since then has found its ring empty (R247, R249) -/
  awake : Bool
  /-- since when the queue has held no launch in states 1 to 3 -/
  idleSince : Nat
  /-- it waits for the absent page that holds this address: of its ring, or of what a launch needs -/
  held : Option Nat
  /-- a command taken and not yet acted on: op, rcb, and the issuer's context when it is an RLAUNCH -/
  command : Option (Nat × Nat × Option Nat)
  deriving DecidableEq, Repr

/-- An RLAUNCH that its queue has still to take (R186): the RCB it names, and the issuer's context. -/
structure RLaunch where
  queue : Nat
  rcb : Nat
  ctx : Nat
  deriving DecidableEq, Repr

/-- What the device last read of an RCB node and has written to it since (R425). -/
structure Node where
  part : Nat
  va : Nat
  image : BitVec 2048
  deriving DecidableEq, Repr

/-- A completion store that waits for its page or for its dirty-log entry (R43, R44, R324). -/
structure Completion where
  part : Nat
  vd : Option Nat
  reach : Nat
  addr : Nat
  value : Nat
  deriving DecidableEq, Repr

/-- A pending notify (R247, R250). -/
structure Pending where
  queue : Nat
  since : Nat
  reported : Bool
  deriving DecidableEq, Repr

/-- The bit-10 fields as read at a boundary, with the usable cores of the partition then, and whether they
are a valid loop configuration (R37, R268, R272, R412). -/
structure LoopCfg where
  target : Nat
  kp : Nat
  ki : Nat
  ilim : Nat
  log2 : Nat
  order : Nat
  limits : Nat
  usable : Nat
  valid : Bool
  deriving DecidableEq, Repr

/-- A context's beats (R177, R268), kept for every context. -/
structure Beats where
  part : Nat
  ctx : Nat
  /-- the fields that governed the period that ended last, and those that govern the running one -/
  cfg : LoopCfg
  nextCfg : LoopCfg
  /-- the current period's first and last instant, and its count -/
  start : Nat
  stop : Nat
  count : Nat
  /-- the count of the period that ended last, and whether the context held no slot in it -/
  last : Nat
  lastIdle : Bool
  idle : Bool
  /-- placed without a controller: event 0x5C posted (R412) -/
  noted : Bool
  deriving DecidableEq, Repr

/-- What a loop controller knows of another member device (R270, R413): the count it delivered last, its
report for the open window (count, idle, sat_up, sat_down), the late counts that arrived in the period of that window and those
that arrived since, and the windows it has missed in a row. -/
structure Member where
  /-- its number; none while nothing has been heard of it -/
  dev : Option Nat
  last : Option Nat
  report : Option (Nat × Bool × Bool × Bool)
  due : Nat
  late : Nat
  missed : Nat
  excluded : Bool
  deriving DecidableEq, Repr

/-- An open merge window (R270): the period, when it closes, and this device's own report. -/
structure Window where
  period : Nat
  close : Nat
  count : Nat
  idle : Bool
  up : Bool
  dn : Bool
  deriving DecidableEq, Repr

/-- A step that is due (R268, R271): its period index afterwards, the merged count (none when the period was
idle on every member), and the merged sat bits where there are such. -/
structure DueStep where
  index : Nat
  count : Option Nat
  sats : Option (Bool × Bool)
  deriving DecidableEq, Repr

/-- A loop controller's own state while bound (R266 to R276). -/
structure Loop where
  /-- the context it serves, by partition and RCB address, with the device's member count -/
  serves : Option (Nat × Nat)
  members : Nat
  integrator : Int
  lastError : Int
  lastBeats : Nat
  position : Nat
  /-- effective minimums under which the request was made; request, grant, and the clock grant of R275 -/
  mins : Vector Nat 5
  request : Vector Nat 5
  granted : Vector Nat 5
  clock : Nat
  periodIndex : Nat
  satUp : Bool
  satDown : Bool
  clampUp : Bool
  clampDown : Bool
  /-- the period in which the bind took effect is still running (R279) -/
  fresh : Bool
  /-- when the first whole period began: what is reported of an earlier one is discarded -/
  since : Nat
  window : Option Window
  step : Option DueStep
  others : List Member
  /-- this device as a member, and whether its own report has missed the open window (R270) -/
  own : Member
  ownMissed : Bool
  /-- merged values came in the open window; windows without any, in a row; every other was excluded -/
  heard : Bool
  noMerge : Nat
  alone : Bool
  /-- event 0x57 was posted for this run of invalid boundaries -/
  invalid : Bool
  /-- the limit at which the integrator stands (0 none, 1 upper, 2 lower), and for how many steps -/
  limitSign : Nat
  limitRun : Nat
  deriving DecidableEq, Repr

/-- A pool way of a partition (R66, R277, R408): its owner (0 none), the owners that wait for it, and
since when a change runs. -/
structure PoolWay where
  part : Nat
  way : Nat
  owner : Nat
  next : List Nat
  since : Nat
  slow : Bool
  deriving DecidableEq, Repr

/-- A line that a home slice holds, with its way, and whether the vault's copy is older (R65, R66). (Log entry 50.) -/
structure SliceLine where
  line : Nat
  way : Nat
  dirty : Bool
  deriving DecidableEq, Repr

/-- A pending temperature increment of a vault (R284, R285), in units of 1/1,280,000 °C, with the samples
still to be taken before it is dropped. -/
structure HeatInc where
  vault : Nat
  amount : Nat
  samples : Nat
  deriving DecidableEq, Repr

/-- One vault (R65, R281, R282, R402, R403, R405, R407). -/
structure Vault where
  /-- temperature at the last sample, in 1/256 °C -/
  temp : Int
  band : Nat
  /-- the timer value of the sample; none before the first -/
  sampled : Option Nat
  clearStamp : Nat
  below : Bool
  /-- it holds its cluster's clock stopped (R406) -/
  hot : Bool
  fenced : Bool
  /-- corrected errors by 64 KiB page since the interval began -/
  corrected : Smap Nat
  scrubbed : Nat
  /-- the refresh interval in half ticks that its next command uses, and when that is due, in half ticks -/
  interval : Nat
  refreshAt : Nat
  /-- its lines, by vault-local number, that were written under a key that has been discarded: 1 + the code of their
  poison, or 1 (R69, R318, R402) -/
  stale : Smap Nat
  deriving DecidableEq, Repr

/-- A flit in a replay store (R328). -/
structure Replay where
  chan : Nat
  seq : Nat
  deriving DecidableEq, Repr

/-- A rail port (R328, R333, R334, R398). -/
structure Rail where
  rate : Nat
  retraining : Option Nat
  failed : Bool
  sendSeq : Nat
  recvSeq : Nat
  resends : Nat
  store : List Replay
  lastChan : Nat
  /-- the communicator last served of each channel, 63 where none is listed (R333) -/
  lastComm : Smap Nat
  /-- chunk buffers of the receiver in use, by communicator (R334) -/
  buffers : Smap Nat
  deriving DecidableEq, Repr

/-- One die (R17, R69, R264, R289, R366, R409). -/
structure Die where
  step : Nat
  /-- a rise of the step decided and not yet switched: target, decision time -/
  rising : Option (Nat × Nat)
  caldera : Nat
  ceiling : Nat
  currentCap : Nat
  powerCap : Nat
  capped : Bool
  /-- when the last current window above 560 A ended -/
  quietSince : Nat
  weight : Nat
  matrix : Nat
  /-- when the last measured current window ended -/
  measured : Nat
  /-- clocks of the domain since the ceiling was last set, in thousandths (R264) -/
  window : Nat
  fenced : Bool
  /-- bit p: the key slot of partition p is loaded -/
  keys : BitVec 16
  rail : Rail
  sel : Vector Nat 32
  cnt : Vector Nat 32
  held : List (Nat × Nat)
  deriving DecidableEq, Repr

/-- A group's COLL as issued (R224, R396). -/
structure CollArg where
  /-- the group's number in its block (R218) -/
  producer : Nat
  req : Nat
  /-- the number of the tile register -/
  treg : Nat
  desc : Word
  obj : Word
  deriving DecidableEq, Repr

/-- A collective of a block: the n-th COLL of each of its groups (R222 to R224, R331, R396, R397). -/
structure CollRun where
  block : Nat
  /-- its place among all collectives, in the order of their first COLL -/
  order : Nat
  args : List CollArg
  /-- every group has issued; then the die, the communicator, and the tile as last read -/
  started : Bool
  die : Nat
  comm : Nat
  tile : BitVec 64
  /-- it stopped on this member's bytes (R397), or was saved so by a freeze -/
  stopped : Bool
  /-- groups that have still to return from the report of the stop -/
  owing : Nat
  /-- scratchpad bytes that groups have written by accesses behind their COLL: core and offset (R224) -/
  touched : List (Nat × Nat)
  deriving DecidableEq, Repr

/-- A request from outside (R321, R329, R378, R399): when it may come again and how often it was refused with
a hint, and its answer, with the value of a load. (Log entry 43.) -/
structure Remote where
  id : Nat
  cl : Nat
  part : Nat
  va : Nat
  write : Bool
  again : Nat
  refused : Nat
  answered : Option Bool
  value : Nat
  /-- the values of an atomic's further lanes -/
  more : List Nat := []
  deriving DecidableEq, Repr

/-- An event record (R362). -/
structure Event where
  stamp : Nat
  code : Nat
  part : Nat
  host : Bool
  domain : Nat
  core : Nat
  die : Nat
  detail : Nat
  launch : Nat
  addr : Nat
  deriving DecidableEq, Repr

/-- Where start-up stands (R418, R420). -/
inductive Power where
  /-- the list has still to run -/
  | starting
  /-- at recovery: only BAR4 is exposed -/
  | recovery
  /-- stopped at a step without an alternative until the next device reset -/
  | halted
  /-- start-up has finished -/
  | up
  deriving DecidableEq, Repr

/-- A host port (R20, R21, R418): the die it attaches to, the rate it trained at in tenths of GT/s, its width, and whether
start-up left it in use. -/
structure HostPort where
  die : Nat
  rate : Nat
  width : Nat
  enabled : Bool
  deriving DecidableEq, Repr

/-- A virtual device's page already logged and not yet consumed (R324): index and entry. -/
structure Logged where
  vd : Nat
  index : Nat
  entry : Nat
  deriving DecidableEq, Repr

/-- The records of the two register spaces, raw as software reads and writes them (R312 to R330, R421
to R424). -/
structure Regs where
  part : Vector (BitVec 1024) 16
  vdsched : Vector (BitVec 128) 32
  vdbind : Vector (BitVec 64) 32
  vdlog : Vector (BitVec 256) 32
  gloop : Vector (BitVec 128) 128
  comm : Vector (BitVec 256) 64
  preempt : BitVec 64
  devnum : BitVec 64
  root : BitVec 2048
  qdesc : Smap (BitVec 128)
  steprec : Vector (BitVec 32) 16
  evtring : BitVec 256
  recovery : BitVec 64
  image : Memory
  devSel : Vector Nat 16
  devCnt : Vector Nat 16
  devHeld : List (Nat × Nat)
  /-- the wake register of the management core (R181) -/
  wake : Word
  deriving DecidableEq, Repr

/-- What comes next when the environment, or an order among agents that the spec leaves free, decides
it: a device step with its arguments, the core that issues next (with the split that R34 and R257 choose there), or
the passing of time. (Log entry 5.) -/
inductive Turn where
  | event (i : Instr) (a : EvArgs)
  | issue (core slot split : Nat)
  | time (ticks : Nat)
  deriving DecidableEq, Repr

/-- What the world outside the device supplies: how far the global timer moves when nothing is left to do, the
temperatures the sensors will find, and the ranges of host addresses (first, last) whose access the
host refuses in translation or completes with an error status (R379). (Log entries 6 and 30.) -/
structure Env where
  gap : Nat
  temps : List VaultTemp
  hostDenied : List (Nat × Nat)
  hostErrors : List (Nat × Nat)
  /-- errors that an access of the next step finds (R401 to R404): lines that cannot be corrected, with the
  code of their storage and, for an L1, its core; blocks whose own storage cannot be, with its code; lines that were corrected -/
  lineErrors : List (Nat × Nat × Nat)
  blockErrors : List (Nat × Nat)
  corrected : List Nat
  /-- errors in a core's walker state that serves no single block: core and storage code (R404) -/
  walkErrors : List (Nat × Nat)
  /-- errors in vaults that no access has reached: what the next reading of each line by its vault's controller finds there,
  2 for what can be corrected and 3 for what cannot (R401, R403) -/
  latent : List (Nat × Nat) := []
  /-- the other member devices of a controller's context, by controller and device number, as the pod knows them (R265, R413) -/
  members : List (Nat × Nat) := []
  /-- the COMM records of the other member devices, by this device's communicator (R331, R396) -/
  comms : List (Nat × BitVec 256) := []
  deriving DecidableEq, Repr

/-- A pod peer as this device meets it (R329): its number, its memory by physical address, and the
windows of its active partitions with their pod tags. (Log entry 52.) -/
structure Peer where
  num : Nat
  mem : Memory
  windows : List (Nat × Nat × Nat)
  deriving DecidableEq, Repr

/-- The whole device. -/
structure State where
  /-- the group that is issuing, with its issuing split; the other resident groups -/
  g : Group
  others : List Group
  blocks : List Block
  launches : List Launch
  cores : Vector Core 256
  clusters : Vector Cluster 64
  dies : Vector Die 8
  vaults : Vector Vault 256
  /-- device memory by physical address, host memory, and the pod peers -/
  dev : Memory
  /-- host memory behind both ports, at the places that hostAt gives (R20) -/
  host : Memory
  peers : List Peer
  /-- versions of lines, poisoned lines with the code of the storage (R401), and the owning core + 1
  of words, at the home slices -/
  versions : Smap (BitVec 32)
  poison : Smap Nat
  /-- poisoned lines that only a vault's own reading has found, whose event 0x50 an access will bring (R401, R402) -/
  hushed : List Nat
  /-- lines that count as written though their version is 0: a full-line store has cleared their poison (R402), or what they
  hold was written under an earlier key (R69) -/
  rewritten : List Nat
  owners : Smap Nat
  /-- the lines in the home slices, in the order in which they came there (R65, R66) -/
  slices : List SliceLine
  /-- write-back data that errors have taken (R402) -/
  lost : List LostLine
  flights : List Flight
  reqs : List EngReq
  nextId : Nat
  /-- splits waiting at a queue's header, in arrival order (R220) -/
  popWait : List Waiter
  timer : Nat
  slots : List (Nat × QSlot)
  pending : List Pending
  rlaunches : List RLaunch
  nodes : List Node
  completions : List Completion
  nextSlot : Nat
  beats : List Beats
  loops : Vector Loop 128
  /-- partitions for which the caldera owes a pass at this timer value (R274) -/
  passDue : List Nat
  ways : List PoolWay
  heat : List HeatInc
  colls : List CollRun
  collSeq : Nat
  remotes : List Remote
  /-- residence charged to virtual devices, in group-slot-ticks not yet a whole token (R251), and that charged to nodes,
  by nodeKey, not yet a whole unit (R41) -/
  residue : Smap Nat
  nodeTicks : Smap Nat
  /-- the timer value of the last refill of the buckets (R251) -/
  refilled : Nat
  logged : List Logged
  logFull : List Nat
  cellar : List Event
  cellarHead : Nat
  /-- a placement decision is due (R255) -/
  placing : Bool
  power : Power
  /-- when the last measured window of module power ended (R409) -/
  powerAt : Nat
  /-- the firmware image of the module's image store (R419), and the units that a failed start-up step took
  out of use, by step and unit (R418) -/
  imageStore : Memory
  down : List (Nat × Nat)
  /-- those of them whose alternative failed too -/
  altDown : List (Nat × Nat)
  links : Vector Nat 10
  ports : Vector HostPort 2
  /-- the last start-up ran on without the pod's time (R418) -/
  unsynced : Bool
  regs : Regs
  /-- the number of free values used so far: the model's own -/
  free : Nat
  /-- the order of what comes next, and the arguments of the device step that runs: the model's own -/
  agenda : List Turn
  ev : EvArgs
  env : Env
  deriving DecidableEq, Repr

/-- Why the machine stops. (Log entry 51.) -/
inductive Fault where
  /-- A physical address outside the memory that the device has (R12, R317) is reached by the device
  itself. Raised by no instruction on a state that the register rules allow. Safe: the model stops. -/
  | noSuchMemory
  deriving DecidableEq, Repr

/-- Why the model gives no next state. -/
inductive Refusal where
  /-- The instruction of this mnemonic has no meaning in the model yet. Safe. -/
  | notModelled (mnemonic : String)
  deriving DecidableEq, Repr

/-- A split that holds no lane. -/
def Split.empty : Split :=
  { pc := 0, mask := 0, age := 0, joins := [], calls := [], guardLeft := 0, guardPass := 0
    wait := .none, xm := none, trap := false, reissue := none, anc := [0] }

/-- A group's registers as they stand when it starts (R49, R54, R106, R295): every register 0 and
full, h0 to h3 not defined; here of no group. (Log entry 2.) -/
def Group.empty : Group :=
  { live := false, core := 0, slot := 0, service := false, block := 0, launch := 0, groupix := 0
    producer := 0, age := 0, waitCount := 0
    v := Vector.replicate 96 Row.zero, s := Vector.replicate 16 0, o := Vector.replicate 8 Row.zero
    q := Vector.replicate 4 Row.zero, p := Vector.replicate 7 0, b := Vector.replicate 32 0, bPend := 0
    d := Vector.replicate 16 0, h := Vector.replicate 4 0
    feV := BitVec.allOnes 96, feO := BitVec.allOnes 8, feS := BitVec.allOnes 16
    arithFlags := 0, counters := Vector.replicate 4 0, snaps := [], trapCause := 0, trapPc := 0
    trapMask := 0, doneMask := 0, pre := none, reports := [], curReport := none, launched := 0, exited := 0
    nextAge := 1, stopped := false, halting := [], sp := Split.empty, rest := [] }

/-- A core after reset (R191: a budget of 384). (Log entry 2.) -/
def Core.reset : Core :=
  { l1 := [], acquires := 0, tlb := [], pantry := [], pantryFull := false, pageReqs := [], scratch := []
    actBudget := Config.budgetReset, actNext := none, actWindow := 0, actCount := 0, actClosed := false
    nextAge := 0, round := 0, place := 0, first := none, serviceBusy := false, sel := Vector.replicate 8 0, cnt := Vector.replicate 8 0, held := [] }

/-- A cluster after reset (R291: CYCLE starts at 0). (Log entry 2.) -/
def Cluster.reset : Cluster :=
  { tlb := [], clock := 0, early := 0, opBuf := [], unitOwner := [], bankOwner := [], banks := [], bankFresh := []
    opFresh := [], oresQ := [], allockQ := [], table := [], tableAge := 0, lease := none, gated := false, gating := false
    waking := false, idleSince := 0 }

/-- A rail port after reset, at 224 Gb/s (R22), its rounds before channel 2 and communicator 0. (Log entry 2.) -/
def Rail.reset : Rail :=
  { rate := 224, retraining := none, failed := false, sendSeq := 0, recvSeq := 0, resends := 0
    store := [], lastChan := 7, lastComm := [], buffers := [] }

/-- A die after reset, at step 16 (R418) under the ceiling 30 (R264) and no cap (R409). -/
def Die.reset : Die :=
  { step := 16, rising := none, caldera := 16, ceiling := 30, currentCap := 30, powerCap := 30
    capped := false, quietSince := 0, measured := 0, weight := 0, matrix := 0, window := 0, fenced := false
    keys := 0, rail := Rail.reset, sel := Vector.replicate 32 0, cnt := Vector.replicate 32 0, held := [] }

/-- A vault after reset: band 0, clear stamp 0 (R402, R418). (Log entry 2.) -/
def Vault.reset : Vault :=
  { temp := 0, band := 0, sampled := none, clearStamp := 0, below := false, hot := false, fenced := false
    corrected := [], scrubbed := 0, interval := 7800, refreshAt := 7800, stale := [] }

/-- The default bit-10 fields (R37). -/
def LoopCfg.default : LoopCfg :=
  { target := 0, kp := 0x1000, ki := 0x0400, ilim := 0x7FFFFFFF, log2 := 20, order := 0x4688
    limits := 0, usable := 0, valid := true }

/-- An unbound loop controller. -/
def Loop.reset : Loop :=
  { serves := none, members := 1, integrator := 0, lastError := 0, lastBeats := 0, position := 0
    mins := Vector.replicate 5 0, request := Vector.replicate 5 0, granted := Vector.replicate 5 0, clock := 0
    periodIndex := 0, satUp := false, satDown := false, clampUp := false, clampDown := false, fresh := false, since := 0
    window := none, step := none, others := [], own := ⟨none, none, none, 0, 0, 0, false⟩, ownMissed := false, heard := false, noMerge := 0, alone := false, invalid := false
    limitSign := 0, limitRun := 0 }

/-- The registers after device reset (R5, R248, R251, R265, R315, R316, R321 to R325, R330, R422 to
R424): 0, but for VDSCHED.depth and the root's core set, which read all ones. (Log entry 48.) -/
def Regs.reset : Regs :=
  { part := Vector.replicate 16 0
    vdsched := Vector.replicate 32 (0xFFFFFFFF#128 <<< 32)
    vdbind := Vector.replicate 32 0, vdlog := Vector.replicate 32 0, gloop := Vector.replicate 128 0
    comm := Vector.replicate 64 0, preempt := 0, devnum := 0
    root := (BitVec.allOnes 256).zeroExtend 2048 <<< 1536
    qdesc := [], steprec := Vector.replicate 16 0, evtring := 0, recovery := 0, image := []
    devSel := Vector.replicate 16 0, devCnt := Vector.replicate 16 0, devHeld := [], wake := 0 }

/-- The machine right after reset: start-up has still to run (R418), no group is resident, no
partition exists, memory lists nothing. (Log entries 1, 2 and 48.) -/
def State.reset : State :=
  { g := Group.empty, others := [], blocks := [], launches := []
    cores := Vector.replicate 256 Core.reset, clusters := Vector.replicate 64 Cluster.reset
    dies := Vector.replicate 8 Die.reset, vaults := Vector.replicate 256 Vault.reset
    dev := [], host := [], peers := [], versions := [], poison := [], hushed := [], rewritten := [], owners := [], slices := [], lost := [], flights := []
    reqs := [], nextId := 0, popWait := [], timer := 0, slots := [], pending := []
    rlaunches := [], nodes := [], completions := [], nextSlot := 0
    beats := [], loops := Vector.replicate 128 Loop.reset, passDue := [], ways := [], heat := [], colls := []
    collSeq := 0, remotes := [], residue := [], nodeTicks := [], refilled := 0, logged := [], logFull := [], cellar := []
    cellarHead := 0, placing := false, power := .starting, powerAt := 0, imageStore := [], down := [], altDown := [], links := Vector.replicate 10 32
    ports := #v[{ die := 0, rate := 640, width := 16, enabled := true }, { die := 7, rate := 640, width := 16, enabled := true }]
    unsynced := false, regs := Regs.reset, free := 0, agenda := [], ev := {}
    env := { gap := 1, temps := [], hostDenied := [], hostErrors := [], lineErrors := [], blockErrors := []
             corrected := [], walkErrors := [] } }

end Sys2Proof.Machine
end

