-- ==== Sys2Proof/Machine/Mem.lean ====
section
/-! DEFINITION. Sparse tables and memories in canonical form, little-endian values in them (R2),
fields of records, and the vectors of cores, clusters, dies and vaults by number. -/

namespace Sys2Proof.Machine

/-- The entry at key k, or the default d. -/
def Smap.get {α : Type} (d : α) : Smap α → Nat → α
  | [], _ => d
  | (k', x) :: r, k => if k = k' then x else if k < k' then d else Smap.get d r k

/-- The table with x at key k: an entry equal to the default is not listed. -/
def Smap.set {α : Type} [DecidableEq α] (d : α) : Smap α → Nat → α → Smap α
  | [], k, x => if x = d then [] else [(k, x)]
  | (k', y) :: r, k, x =>
    if k = k' then (if x = d then r else (k, x) :: r)
    else if k < k' then (if x = d then (k', y) :: r else (k, x) :: (k', y) :: r)
    else (k', y) :: Smap.set d r k x

/-- Every key of the table lies at or above lo, keys rise, and no entry equals the default. -/
def Smap.wfFrom {α : Type} [DecidableEq α] (d : α) : Nat → Smap α → Bool
  | _, [] => true
  | lo, (k, x) :: r => decide (lo ≤ k) && !decide (x = d) && Smap.wfFrom d (k + 1) r

/-- The canonical form: keys strictly rising, no entry equal to the default. -/
def Smap.wf {α : Type} [DecidableEq α] (d : α) (m : Smap α) : Bool := Smap.wfFrom d 0 m

/-- The entries of a sparse table whose keys lie outside a range. -/
def Smap.without {α : Type} (m : Smap α) (lo hi : Nat) : Smap α := m.filter fun x => decide (x.1 < lo) || decide (hi ≤ x.1)

/-- What a byte of memory that nothing has written reads as. -/
def Memory.blank : Byte := 0

/-- The byte at an address. (Log entry 1.) -/
def Memory.read (m : Memory) (a : Nat) : Byte := Smap.get Memory.blank m a

/-- The memory with byte x at address a. -/
def Memory.write (m : Memory) (a : Nat) (x : Byte) : Memory := Smap.set Memory.blank m a x

/-- The canonical form of a memory. -/
def Memory.wf (m : Memory) : Bool := Smap.wf Memory.blank m

/-- n bytes from address a as an unsigned number, little-endian (R2). -/
def Memory.readLE (m : Memory) (a : Nat) : Nat → Nat
  | 0 => 0
  | n + 1 => (Memory.read m a).toNat + 256 * Memory.readLE m (a + 1) n

/-- Write a list of bytes from address a on. -/
def Memory.writeBytes (m : Memory) (a : Nat) : List Byte → Memory
  | [] => m
  | x :: r => Memory.writeBytes (Memory.write m a x) (a + 1) r

/-- Write the low n bytes of a number from address a on, little-endian (R2). -/
def Memory.writeLE (m : Memory) (a n v : Nat) : Memory := Memory.writeBytes m a (bytesLE n v)

/-- The n bytes from address a on. -/
def Memory.readBytes (m : Memory) (a n : Nat) : List Byte :=
  (List.range n).map fun i => Memory.read m (a + i)

/-- A list of bytes as an unsigned number, little-endian (R2). -/
def ofBytes : List Byte → Nat
  | [] => 0
  | b :: r => b.toNat + 256 * ofBytes r

/-- Some of the fields, by lowest bit and width, is not zero. -/
def anySet (x : Nat) (l : List (Nat × Nat)) : Bool := l.any fun r => fld x r.1 r.2 != 0

/-- The field of w bits of a record whose lowest bit is lo (R4). -/
def bget {n : Nat} (x : BitVec n) (lo w : Nat) : Nat := fld x.toNat lo w

/-- The record with that field replaced. -/
def bset {n : Nat} (x : BitVec n) (lo w v : Nat) : BitVec n :=
  BitVec.ofNat n (x.toNat - fld x.toNat lo w * 2 ^ lo + v % 2 ^ w * 2 ^ lo)

/-- Bit i of a record. -/
def bbit {n : Nat} (x : BitVec n) (i : Nat) : Bool := x.getLsbD i

/-- A Bool as a number. -/
def b2n (b : Bool) : Nat := if b then 1 else 0

/-- The element of a vector at a number, or d outside it. -/
def vget {α : Type} {n : Nat} (v : Vector α n) (i : Nat) (d : α) : α := if h : i < n then v[i] else d

/-- The vector with element i replaced; unchanged when i lies outside it. -/
def vset {α : Type} {n : Nat} (v : Vector α n) (i : Nat) (x : α) : Vector α n := v.setIfInBounds i x

/-- The first element of a list that satisfies p, replaced by f of it. -/
def modFirst {α : Type} (p : α → Bool) (f : α → α) : List α → List α
  | [] => []
  | x :: r => if p x then f x :: r else x :: modFirst p f r

/-- A list in the order of a key, equals as they stood. -/
def sortBy {α : Type} (k : α → Nat) : List α → List α
  | [] => []
  | x :: r =>
    let l := sortBy k r
    (l.takeWhile fun y => decide (k y < k x)) ++ x :: l.dropWhile fun y => decide (k y < k x)

/-- The first element that satisfies p. -/
def findOr {α : Type} (p : α → Bool) (l : List α) (d : α) : α := (l.find? p).getD d

/-- A signed reading of the low n bits of a number. -/
def toSigned (n x : Nat) : Int :=
  let y := x % 2 ^ n
  if 2 * y < 2 ^ n then (y : Int) else (y : Int) - (2 ^ n : Nat)

/-- The n-bit two's-complement pattern of an integer. -/
def ofSigned (n : Nat) (x : Int) : Nat := (x % ((2 ^ n : Nat) : Int)).toNat

/-- An integer held between two bounds. -/
def clampInt (x lo hi : Int) : Int := if x < lo then lo else if hi < x then hi else x

/-- Core c of the device. -/
def State.coreAt (s : State) (c : Nat) : Core := vget s.cores c Core.reset

/-- The device with core c changed. -/
def State.modCore (s : State) (c : Nat) (f : Core → Core) : State :=
  { s with cores := vset s.cores c (f (s.coreAt c)) }

/-- Cluster c of the device. -/
def State.clusterAt (s : State) (c : Nat) : Cluster := vget s.clusters c Cluster.reset

/-- The device with cluster c changed. -/
def State.modCluster (s : State) (c : Nat) (f : Cluster → Cluster) : State :=
  { s with clusters := vset s.clusters c (f (s.clusterAt c)) }

/-- Die d of the device. -/
def State.dieAt (s : State) (d : Nat) : Die := vget s.dies d Die.reset

/-- The device with die d changed. -/
def State.modDie (s : State) (d : Nat) (f : Die → Die) : State :=
  { s with dies := vset s.dies d (f (s.dieAt d)) }

/-- Vault v of the device. -/
def State.vaultAt (s : State) (v : Nat) : Vault := vget s.vaults v Vault.reset

/-- The device with vault v changed. -/
def State.modVault (s : State) (v : Nat) (f : Vault → Vault) : State :=
  { s with vaults := vset s.vaults v (f (s.vaultAt v)) }

/-- The die of a device core (R14). -/
def coreDie (c : Nat) : Nat := c / 32

/-- The device cluster of a device core (R14). -/
def coreCluster (c : Nat) : Nat :=
  let x := c % 8
  let y := c % 32 / 8
  8 * (c / 32) + (x / 2 + 4 * (y / 2))

/-- The core-within-cluster number of a device core (R14). -/
def coreInCluster (c : Nat) : Nat := c % 2 + 2 * (c % 32 / 8 % 2)

/-- The device core with core-within-cluster number k of a device cluster (R14, R15). -/
def clusterCore (cl k : Nat) : Nat :=
  let lc := cl % 8
  32 * (cl / 8) + (2 * (lc % 4) + k % 2) + 8 * (2 * (lc / 4) + k / 2 % 2)

/-- The tiles of the same die that share an edge with the tile of a core (R15). -/
def gridNeighbours (c : Nat) : List Nat :=
  let x := c % 8
  let y := c % 32 / 8
  let d := 32 * (c / 32)
  (if x = 0 then [] else [d + (x - 1) + 8 * y]) ++ (if x = 7 then [] else [d + (x + 1) + 8 * y]) ++
  (if y = 0 then [] else [d + x + 8 * (y - 1)]) ++ (if y = 3 then [] else [d + x + 8 * (y + 1)])

/-- The cluster clocks counted: CYCLE (R291). -/
def Cluster.cycle (c : Cluster) : Nat := c.clock / 1000

/-- The frequency of a clock step in MHz (R17). -/
def stepMHz (s : Nat) : Nat := 700 + 25 * s

end Sys2Proof.Machine
end

