-- ==== Sys2Proof/Machine/Flags.lean ====
section
/-! DEFINITION. The arithmetic flags (R105, R106) and the saturating integer forms (R97, R131, R145). -/

namespace Sys2Proof.Machine

/-- The conditions of R105 in the bit order of ARITHFLAGS (R106). -/
def flInvalid : BitVec 6 := 0b000001#6
def flDivZero : BitVec 6 := 0b000010#6
def flOverflow : BitVec 6 := 0b000100#6
def flUnderflow : BitVec 6 := 0b001000#6
def flInexact : BitVec 6 := 0b010000#6
def flIntOverflow : BitVec 6 := 0b100000#6

/-- The flag when the condition holds. -/
def flagIf (c : Bool) (f : BitVec 6) : BitVec 6 := if c then f else 0

/-- An exact integer wrapped to 32 bits (R97). -/
def wrap32 (x : Int) : Word := BitVec.ofInt 32 x

/-- An exact integer saturated to signed 32 bits, with the integer-overflow flag when it is replaced
(R97, R145). -/
def sat32 (x : Int) : Word × BitVec 6 :=
  let y := clampInt x (-2147483648) 2147483647
  (BitVec.ofInt 32 y, flagIf (x != y) flIntOverflow)

/-- An exact result, wrapped, or saturated when sat is requested (R131, R145). -/
def intResult (sat : Bool) (signedX wrapX : Int) : Word × BitVec 6 :=
  if sat then sat32 signedX else (wrap32 wrapX, 0)

end Sys2Proof.Machine
end

