-- ==== Sys2Proof/Machine/Float.lean ====
section
/-! DEFINITION. Floating-point values, exact arithmetic on them, rounding, comparison, conversion and
the correctly rounded functions (R93 to R95, R99 to R108, R152 to R161). -/

namespace Sys2Proof.Machine

/-- A format (R93, R95): widths of exponent and fraction, bias, and whether it is E4M3, which has no
infinities. -/
structure Format where
  e : Nat
  m : Nat
  bias : Nat
  finite : Bool
  deriving DecidableEq, Repr

def fp64 : Format := ⟨11, 52, 1023, false⟩
def fp32 : Format := ⟨8, 23, 127, false⟩
def fp16 : Format := ⟨5, 10, 15, false⟩
def bf16 : Format := ⟨8, 7, 127, false⟩
def e4m3 : Format := ⟨4, 3, 7, true⟩
def e5m2 : Format := ⟨5, 2, 15, false⟩

/-- The rounding modes by their codes (R100). -/
inductive Mode where
  | rne
  | rtz
  | rup
  | rdn
  deriving DecidableEq, Repr

/-- The mode of a code (R100). -/
def modeOf (c : Nat) : Mode := if c = 0 then .rne else if c = 1 then .rtz else if c = 2 then .rup else .rdn

/-- exact of R99: a NaN, an infinity, or (-1)^neg × m × 2^e. -/
inductive FVal where
  | nan (signalling : Bool)
  | inf (neg : Bool)
  | fin (neg : Bool) (m : Nat) (e : Int)
  deriving DecidableEq, Repr

/-- The value of an encoding (R93 to R95, R99). -/
def decodeF (F : Format) (x : Nat) : FVal :=
  let f := fld x 0 F.m
  let e := fld x F.m F.e
  let neg := fld x (F.m + F.e) 1 = 1
  let top := 2 ^ F.e - 1
  if F.finite then
    if e = top ∧ f = 2 ^ F.m - 1 then .nan false
    else if e = 0 then .fin neg f (1 - (F.bias : Int) - F.m)
    else .fin neg (2 ^ F.m + f) ((e : Int) - F.bias - F.m)
  else if e = top then (if f = 0 then .inf neg else .nan (fld f (F.m - 1) 1 = 0))
  else if e = 0 then .fin neg f (1 - (F.bias : Int) - F.m)
  else .fin neg (2 ^ F.m + f) ((e : Int) - F.bias - F.m)

/-- The canonical NaN (R93, R95). -/
def nanOf (F : Format) : Nat :=
  if F.finite then 2 ^ (F.m + F.e) - 1 else (2 ^ F.e - 1) * 2 ^ F.m + 2 ^ (F.m - 1)

/-- The sign bit in place. -/
def signBit (F : Format) (neg : Bool) : Nat := if neg then 2 ^ (F.m + F.e) else 0

/-- An infinity. -/
def infOf (F : Format) (neg : Bool) : Nat := signBit F neg + (2 ^ F.e - 1) * 2 ^ F.m

/-- The largest finite value (R93, R95). -/
def maxOf (F : Format) (neg : Bool) : Nat :=
  signBit F neg + (if F.finite then 2 ^ (F.m + F.e) - 2 else (2 ^ F.e - 1) * 2 ^ F.m - 1)

/-- A result's encoding with the conditions it raises. -/
abbrev Rounded := Nat × BitVec 6

/-- What a finite value beyond the largest gives (R102). -/
def overflowOf (F : Format) (m : Mode) (sat neg : Bool) : Rounded :=
  let fl := flOverflow ||| flInexact
  let outside := if F.finite then nanOf F else infOf F neg
  if sat then (maxOf F neg, fl)
  else match m with
    | .rne => (outside, fl)
    | .rtz => (maxOf F neg, fl)
    | .rup => (if neg then maxOf F neg else outside, fl)
    | .rdn => (if neg then outside else maxOf F neg, fl)

/-- Whether a magnitude with a remainder is rounded away from zero: odd says that the last kept bit is
1, half and above compare the remainder with half a unit (R100). -/
def roundsUp (m : Mode) (neg odd exactHalf aboveHalf inexact : Bool) : Bool :=
  match m with
  | .rne => aboveHalf || (exactHalf && odd)
  | .rtz => false
  | .rup => inexact && !neg
  | .rdn => inexact && neg

/-- round of R100 for a nonzero magnitude: m × 2^e when sticky is false, and a value strictly between
m × 2^e and (m + 1) × 2^e when it is true, where m then has more bits than the format keeps. -/
def roundMag (F : Format) (mode : Mode) (sat neg : Bool) (m : Nat) (e : Int) (sticky : Bool) : Rounded :=
  let msb : Int := e + Nat.log2 m
  let qmin : Int := 1 - (F.bias : Int) - F.m
  let q : Int := max (msb - F.m) qmin
  let sh : Int := q - e
  let k := sh.toNat
  let kept := if sh ≤ 0 then m * 2 ^ (-sh).toNat else m / 2 ^ k
  let rem := if sh ≤ 0 then 0 else m % 2 ^ k
  let inexact := sticky || rem != 0
  let half := if k = 0 then 0 else 2 ^ (k - 1)
  let above := if sh ≤ 0 then false else decide (half < rem) || (rem = half && sticky)
  let exactHalf := if sh ≤ 0 then false else rem = half && !sticky
  let r := kept + (if roundsUp mode neg (kept % 2 = 1) exactHalf above inexact then 1 else 0)
  let carry := r = 2 ^ (F.m + 1)
  let frac := if carry then 2 ^ F.m else r
  let qe : Int := if carry then q + 1 else q
  let field : Int := qe + F.m + F.bias
  let top : Int := (2 ^ F.e - 1 : Nat)
  let tooBig := if F.finite then decide (top < field) || (field = top && frac = 2 ^ (F.m + 1) - 1)
    else decide (top ≤ field)
  if frac < 2 ^ F.m then
    (signBit F neg + frac, flagIf inexact flInexact ||| flagIf (inexact && frac != 0) flUnderflow)
  else if tooBig then overflowOf F mode sat neg
  else (signBit F neg + (field.toNat * 2 ^ F.m + (frac - 2 ^ F.m)), flagIf inexact flInexact)

/-- round of R100 and R102 for a value of R99. -/
def roundF (F : Format) (mode : Mode) (sat : Bool) : FVal → Rounded
  | .nan _ => (nanOf F, 0)
  | .inf neg =>
    if sat then (maxOf F neg, flOverflow ||| flInexact)
    else if F.finite then (nanOf F, flInvalid)
    else (infOf F neg, 0)
  | .fin neg 0 _ => (signBit F neg, 0)
  | .fin neg m e => roundMag F mode sat neg m e false

/-- Opposite sign. -/
def FVal.neg : FVal → FVal
  | .nan s => .nan s
  | .inf n => .inf !n
  | .fin n m e => .fin (!n) m e

/-- The flag of a signalling operand (R105). -/
def FVal.sig : FVal → BitVec 6
  | .nan true => flInvalid
  | _ => 0

def FVal.isNan : FVal → Bool
  | .nan _ => true
  | _ => false

/-- The exact sum, with the sign R100 gives an exact zero, and the invalid case ∞ − ∞ (R99). -/
def FVal.add (mode : Mode) : FVal → FVal → FVal × BitVec 6
  | .nan _, _ => (.nan false, 0)
  | _, .nan _ => (.nan false, 0)
  | .inf n, .inf n' => if n = n' then (.inf n, 0) else (.nan false, flInvalid)
  | .inf n, _ => (.inf n, 0)
  | _, .inf n => (.inf n, 0)
  | .fin n m e, .fin n' m' e' =>
    let lo := min e e'
    let x : Int := (if n then -1 else 1) * (m * 2 ^ (e - lo).toNat : Nat)
    let y : Int := (if n' then -1 else 1) * (m' * 2 ^ (e' - lo).toNat : Nat)
    let z := x + y
    if z = 0 then
      if n = n' then (.fin n 0 0, 0) else (.fin (mode = .rdn) 0 0, 0)
    else (.fin (z < 0) z.natAbs lo, 0)

/-- The exact product, and the invalid case 0 × ∞ (R99). -/
def FVal.mul : FVal → FVal → FVal × BitVec 6
  | .nan _, _ => (.nan false, 0)
  | _, .nan _ => (.nan false, 0)
  | .inf n, .inf n' => (.inf (n != n'), 0)
  | .inf n, .fin n' m _ => if m = 0 then (.nan false, flInvalid) else (.inf (n != n'), 0)
  | .fin n m _, .inf n' => if m = 0 then (.nan false, flInvalid) else (.inf (n != n'), 0)
  | .fin n m e, .fin n' m' e' => (.fin (n != n') (m * m') (e + e'), 0)

/-- FADD's value: RNE(a + b) of R101, R152. -/
def addF (F : Format) (mode : Mode) (a b : Nat) : Rounded :=
  let x := decodeF F a
  let y := decodeF F b
  let s := x.add mode y
  let r := roundF F mode false s.1
  (r.1, x.sig ||| y.sig ||| s.2 ||| r.2)

/-- FMUL's value. -/
def mulF (F : Format) (mode : Mode) (a b : Nat) : Rounded :=
  let x := decodeF F a
  let y := decodeF F b
  let s := x.mul y
  let r := roundF F mode false s.1
  (r.1, x.sig ||| y.sig ||| s.2 ||| r.2)

/-- The fused forms: the product, negated when negP is set, plus d, negated when negD is set, rounded
once (R152). -/
def fmaF (F : Format) (mode : Mode) (negP negD : Bool) (a b d : Nat) : Rounded :=
  let x := decodeF F a
  let y := decodeF F b
  let z := decodeF F d
  let p := x.mul y
  let s := (if negP then p.1.neg else p.1).add mode (if negD then z.neg else z)
  let r := roundF F mode false s.1
  (r.1, x.sig ||| y.sig ||| z.sig ||| p.2 ||| s.2 ||| r.2)

/-- The order of two values: none when one is NaN; −0 equals +0 (R156). -/
def FVal.cmp : FVal → FVal → Option Ordering
  | .nan _, _ => none
  | _, .nan _ => none
  | .inf n, .inf n' => some (if n = n' then .eq else if n then .lt else .gt)
  | .inf n, _ => some (if n then .lt else .gt)
  | _, .inf n => some (if n then .gt else .lt)
  | .fin n m e, .fin n' m' e' =>
    let lo := min e e'
    let x : Int := (if n then -1 else 1) * (m * 2 ^ (e - lo).toNat : Nat)
    let y : Int := (if n' then -1 else 1) * (m' * 2 ^ (e' - lo).toNat : Nat)
    some (compare x y)

/-- The sign bit of an encoding. -/
def isNeg (F : Format) (x : Nat) : Bool := fld x (F.m + F.e) 1 = 1

/-- FMIN, or FMAX when greater is set (R104): −0 is below +0, and one NaN gives the other operand. -/
def minmaxF (F : Format) (greater : Bool) (a b : Nat) : Rounded :=
  let x := decodeF F a
  let y := decodeF F b
  let fl := x.sig ||| y.sig
  match x.isNan, y.isNan with
  | true, true => (nanOf F, fl)
  | true, false => (b, fl)
  | false, true => (a, fl)
  | false, false =>
    match x.cmp y with
    | some .lt => (if greater then b else a, fl)
    | some .gt => (if greater then a else b, fl)
    | _ =>
      -- equal values: they differ at most in a zero's sign
      let aLess := isNeg F a
      (if greater then (if aLess then b else a) else (if aLess then a else b), fl)

/-- The truth of a condition code on two values (R156). -/
def condF (c : Nat) (x y : FVal) : Bool :=
  match x.cmp y with
  | none => c = 1 || c = 7
  | some o =>
    if c = 0 then o = .eq else if c = 1 then o != .eq else if c = 2 then o = .lt
    else if c = 3 then o != .gt else if c = 4 then o = .gt else if c = 5 then o != .lt else c = 6

/-- A magnitude m × 2^e rounded to an integer in a mode, with whether it was inexact (R103, R161). -/
def roundInt (mode : Mode) (neg : Bool) (m : Nat) (e : Int) : Nat × Bool :=
  if 0 ≤ e then (m * 2 ^ e.toNat, false)
  else
    let k := (-e).toNat
    let q := m / 2 ^ k
    let rem := m % 2 ^ k
    let half := 2 ^ (k - 1)
    let inexact := rem != 0
    (q + (if roundsUp mode neg (q % 2 = 1) (rem = half) (decide (half < rem)) inexact then 1 else 0), inexact)

/-- Floating-point to an integer of n bits (R103). -/
def toIntF (mode : Mode) (n : Nat) (signed : Bool) (v : FVal) : Nat × BitVec 6 :=
  let lo : Int := if signed then -(2 ^ (n - 1) : Nat) else 0
  let hi : Int := if signed then (2 ^ (n - 1) : Nat) - 1 else (2 ^ n : Nat) - 1
  match v with
  | .nan _ => (0, flInvalid)
  | .inf neg => (ofSigned n (if neg then lo else hi), flInvalid)
  | .fin neg m e =>
    let r := roundInt mode neg m e
    let x : Int := if neg then -(r.1 : Int) else r.1
    if x < lo then (ofSigned n lo, flInvalid)
    else if hi < x then (ofSigned n hi, flInvalid)
    else (ofSigned n x, flagIf r.2 flInexact)

/-- Rounding to an integral value kept in the format (R161). -/
def integralF (F : Format) (mode : Mode) (x : Nat) : Rounded :=
  match decodeF F x with
  | .nan s => (nanOf F, if s then flInvalid else 0)
  | .inf neg => (infOf F neg, 0)
  | .fin neg m e =>
    let r := roundInt mode neg m e
    if r.1 = 0 then (signBit F neg, flagIf r.2 flInexact)
    else ((roundMag F mode false neg r.1 0 false).1, flagIf r.2 flInexact)

/-- An exact integer to a floating-point format (R103, R161). -/
def ofIntF (F : Format) (mode : Mode) (sat : Bool) (x : Int) : Rounded :=
  roundF F mode sat (.fin (x < 0) x.natAbs 0)

/-! ### The correctly rounded functions (R107, R108) -/

/-- The integer square root of n, rounded down, by bits from bit k down. -/
def isqrtFrom (n : Nat) : Nat → Nat → Nat
  | 0, r => r
  | k + 1, r => let t := r + 2 ^ k; isqrtFrom n k (if t * t ≤ n then t else r)

/-- The integer square root, rounded down. -/
def isqrt (n : Nat) : Nat := isqrtFrom n (Nat.log2 n / 2 + 1) 0

/-- FRCP of a finite nonzero operand: 1 / (m × 2^e). -/
def rcpMag (F : Format) (mode : Mode) (neg : Bool) (m : Nat) (e : Int) : Rounded :=
  let k := Nat.log2 m + 64
  roundMag F mode false neg (2 ^ k / m) (-e - k) (2 ^ k % m != 0)

/-- √(m × 2^e), correctly rounded. -/
def sqrtMag (F : Format) (mode : Mode) (m : Nat) (e : Int) : Rounded :=
  let odd := e % 2 = 1
  let m1 := (if odd then 2 * m else m) * 2 ^ 256
  let e1 := (if odd then e - 1 else e) - 256
  let r := isqrt m1
  roundMag F mode false false r (e1 / 2) (r * r != m1)

/-- 1 / √(m × 2^e), correctly rounded. -/
def rsqMag (F : Format) (mode : Mode) (m : Nat) (e : Int) : Rounded :=
  let odd := e % 2 = 1
  let m1 := if odd then 2 * m else m
  let e1 := if odd then e - 1 else e
  let q := 2 ^ 256 / m1
  let r := isqrt q
  roundMag F mode false false r (-(e1 / 2) - 128) (r * r * m1 != 2 ^ 256)

/-- Bits kept behind the point in the series below. -/
def fix : Nat := 320

/-- floor(π × 2^320). (Log entry 17.) -/
def piFix : Nat := 0x3243f6a8885a308d313198a2e03707344a4093822299f31d0082efa98ec4e6c89452821e638d01377

/-- floor((ln 2) × 2^320). (Log entry 17.) -/
def ln2Fix : Nat := 0xb17217f7d1cf79abc9e3b39803f2f6af40f343267298b62d8a0d175b8baafa2be7b876206debac98

/-- The sum of x^k / k! from term k on, in fixed point, every term rounded down. -/
def expFrom (x : Nat) : Nat → Nat → Nat → Nat
  | 0, _, _ => 0
  | fuel + 1, k, term => term + expFrom x fuel (k + 1) (term * x / 2 ^ fix / (k + 1))

/-- The alternating sum of θ^(2j+1) / (2j+1)! from a term on, in fixed point. -/
def sinFrom (sq : Nat) : Nat → Nat → Nat → Int
  | 0, _, _ => 0
  | fuel + 1, k, term => (term : Int) - sinFrom sq fuel (k + 2) (term * sq / 2 ^ fix / ((k + 1) * (k + 2)))

/-- The sum of t^(2j+1) / (2j+1) from a power on, in fixed point. -/
def atanhFrom (sq : Nat) : Nat → Nat → Nat → Nat
  | 0, _, _ => 0
  | fuel + 1, k, pow => pow / k + atanhFrom sq fuel (k + 2) (pow * sq / 2 ^ fix)

/-- A bound on the error of each series above, in units of 2^−320: the true value lies above the value
less this bound, and below the value plus it. (Log entry 17.) -/
def fixErr : Nat := 2 ^ 12

/-- FEX2 of a finite nonzero operand: 2^(m × 2^e). An integral exponent is exact; every other result
is irrational, so it lies strictly between neighbours. A magnitude beyond any exponent's range is
taken at the range's edge, where R102 or underflow gives the same result. (Log entry 17.) -/
def exp2Mag (F : Format) (mode : Mode) (neg : Bool) (m : Nat) (e : Int) : Rounded :=
  let big : Int := 4096
  if 0 ≤ e ∨ big < e + Nat.log2 m then
    let x : Int := if big < e + Nat.log2 m then big else min big (m * 2 ^ e.toNat : Nat)
    roundMag F mode false false 1 (if neg then -x else x) false
  else
    let k := (-e).toNat
    let whole := m / 2 ^ k
    let frac := m % 2 ^ k
    if frac = 0 then roundMag F mode false false 1 (if neg then -(whole : Int) else whole) false
    else
      -- the exponent is n + f with 0 < f < 1
      let n : Int := if neg then -(whole : Int) - 1 else whole
      let f := if neg then 2 ^ k - frac else frac
      let x := f * ln2Fix / 2 ^ k
      let y := expFrom x 80 0 (2 ^ fix)
      -- the true value lies strictly above 1 and below 2
      let lo := max (2 ^ fix) (y - fixErr)
      roundMag F mode false false lo (n - fix) true

/-- FLG2 of a finite positive operand m × 2^e. (Log entry 17.) -/
def log2Mag (F : Format) (mode : Mode) (m : Nat) (e : Int) : Rounded :=
  let b := Nat.log2 m
  let n : Int := e + b
  let r := m - 2 ^ b
  if r = 0 then
    if n = 0 then (0, 0) else roundMag F mode false (n < 0) n.natAbs 0 false
  else
    -- log2 of 1 + r / 2^b, by 2 atanh(t) / ln 2 with t = r / (m + 2^b)
    let t := r * 2 ^ fix / (m + 2 ^ b)
    let ln := 2 * atanhFrom (t * t / 2 ^ fix) 110 1 t
    let l := ln * 2 ^ fix / ln2Fix
    let v : Int := n * (2 ^ fix : Nat) + l
    if v < 0 then roundMag F mode false true (v.natAbs - fixErr) (-(fix : Int)) true
    else roundMag F mode false false (v.natAbs - fixErr) (-(fix : Int)) true

/-- sin of 2π × num / 2^k for 0 ≤ num < 2^k, with the sign flip neg, correctly rounded; zeros are given
by the caller. (Log entry 17.) -/
def sinTurn (F : Format) (mode : Mode) (neg : Bool) (num k : Nat) : Rounded :=
  let half := 2 ^ (k - 1)
  let neg1 := neg != decide (half ≤ num)
  let h := if half ≤ num then num - half else num
  if 2 * h = half then roundMag F mode false neg1 1 0 false
  else
    let a := if 2 * h < half then h else half - h
    let th := 2 * a * piFix / 2 ^ k
    let y := (sinFrom (th * th / 2 ^ fix) 60 1 th).toNat
    roundMag F mode false neg1 (y - fixErr) (-(fix : Int)) true

/-- FSINR of a finite nonzero operand (R107, R108). -/
def sinrMag (F : Format) (mode : Mode) (neg : Bool) (m : Nat) (e : Int) : Rounded :=
  if 0 ≤ e then (signBit F neg, 0)
  else
    let k := (-e).toNat + 1
    let num := 2 * m % 2 ^ k
    if num = 0 ∨ 2 * num = 2 ^ k then (signBit F neg, 0) else sinTurn F mode neg num k

/-- FCOSR of a finite operand (R107, R108). -/
def cosrMag (F : Format) (mode : Mode) (m : Nat) (e : Int) : Rounded :=
  if 0 ≤ e then roundMag F mode false false 1 0 false
  else
    -- cos(2πx) is sin(2π(x + 1/4)); k leaves room for the quarter
    let k := (-e).toNat + 2
    let num := (4 * m + 2 ^ (k - 2)) % 2 ^ k
    if num = 0 ∨ 2 * num = 2 ^ k then (0, 0) else sinTurn F mode false num k

/-- The special functions by their minor (R107, R108, R154). -/
def sfu (minor : Nat) (mode : Mode) (x : Nat) : Rounded :=
  let F := if minor = 7 then fp64 else fp32
  match decodeF F x with
  | .nan s => (nanOf F, if s then flInvalid else 0)
  | .inf neg =>
    if minor = 0 then (signBit F neg, 0)
    else if minor = 3 then (if neg then 0 else infOf F false, 0)
    else if minor = 5 ∨ minor = 6 ∨ neg = true then (nanOf F, flInvalid)
    else if minor = 1 then (0, 0)
    else (infOf F false, 0)
  | .fin neg m e =>
    if m = 0 then
      if minor = 0 ∨ minor = 1 then (infOf F neg, flDivZero)
      else if minor = 3 ∨ minor = 6 then roundMag F mode false false 1 0 false
      else if minor = 4 then (infOf F true, flDivZero)
      else (signBit F neg, 0)
    else if minor = 0 then rcpMag F mode neg m e
    else if minor = 3 then exp2Mag F mode neg m e
    else if minor = 5 then sinrMag F mode neg m e
    else if minor = 6 then cosrMag F mode m e
    else if neg then (nanOf F, flInvalid)
    else if minor = 1 then rsqMag F mode m e
    else if minor = 4 then log2Mag F mode m e
    else sqrtMag F mode m e

end Sys2Proof.Machine
end

