-- ==== Sys2Proof/Machine/Home.lean ====
section
/-! DEFINITION. Partitions and their windows (R316 to R318), and the home slices: words, owners,
versions, poison (R65, R72, R88, R402). -/

namespace Sys2Proof.Machine

/-- The PART record of partition p (R316). -/
def State.partRec (s : State) (p : Nat) : BitVec 1024 := vget s.regs.part p 0

/-- PART.active. -/
def State.partActive (s : State) (p : Nat) : Bool := bbit (s.partRec p) 618

/-- PART.host_en (R322). -/
def State.hostEn (s : State) (p : Nat) : Bool := bbit (s.partRec p) 617

/-- PART.host_port. -/
def State.hostPort (s : State) (p : Nat) : Nat := bget (s.partRec p) 616 1

/-- A partition's accesses reach the host: host_en is 1 and start-up has left the port in use (R322, R418).
(Log entry 48.) -/
def State.hostLive (s : State) (p : Nat) : Bool := s.hostEn p && (s.ports.toList[s.hostPort p]?).any fun x => x.enabled

/-- The place of an address in State.host, which holds the memory behind both ports: each port has a host of its own (R20).
(Log entry 52.) -/
def hostAt (port a : Nat) : Nat := port * 2 ^ 65 + a

/-- PART.troot (R307). -/
def State.troot (s : State) (p : Nat) : Nat := bget (s.partRec p) 560 52

/-- PART.podtag (R329). -/
def State.podtag (s : State) (p : Nat) : Nat := bget (s.partRec p) 632 16

/-- PART.prcb (R315). -/
def State.prcb (s : State) (p : Nat) : Nat := bget (s.partRec p) 656 56

/-- PART.floor (R283). -/
def State.partFloor (s : State) (p : Nat) : Nat := bget (s.partRec p) 528 18

/-- The bits of a 256-bit mask, ascending. -/
def bits256 (m : Nat) : List Nat := (List.range 256).filter fun i => m / 2 ^ i % 2 = 1

/-- The partition's vault mask and core mask. -/
def State.partVaults (s : State) (p : Nat) : Nat := bget (s.partRec p) 0 256
def State.partCores (s : State) (p : Nat) : Nat := bget (s.partRec p) 256 256

/-- How many bits below n are set. -/
def popBelow (m : Nat) : Nat → Nat
  | 0 => 0
  | n + 1 => m / 2 ^ n % 2 + popBelow m n

/-- One GiB. -/
def gib : Nat := 2 ^ 30

/-- The first byte of a partition's window, and the first byte behind it (R317). -/
def State.windowLo (s : State) (p : Nat) : Nat := bget (s.partRec p) 512 10 * gib
def State.windowHi (s : State) (p : Nat) : Nat :=
  s.windowLo p + 3 * popBelow (s.partVaults p) 256 * gib

/-- A physical address lies in the partition's window (R317, R368). -/
def State.inWindow (s : State) (p pa : Nat) : Bool :=
  decide (s.windowLo p ≤ pa) && decide (pa < s.windowHi p)

/-- The active partition whose window holds a physical address. -/
def State.partOfPa (s : State) (pa : Nat) : Option Nat :=
  (List.range 16).find? fun p => s.partActive p && s.inWindow p pa

/-- The device vault that holds the line of a physical address (R318). -/
def State.vaultOf (s : State) (pa : Nat) : Nat :=
  match s.partOfPa pa with
  | none => 0
  | some p =>
    let ws := bits256 (s.partVaults p)
    let n := (pa - s.windowLo p) / Config.lineBytes
    ws.getD (n % ws.length) 0

/-- The active partition that owns a vault, if any. -/
def State.vaultOwner (s : State) (v : Nat) : Option Nat :=
  (List.range 16).find? fun p => s.partActive p && decide (s.partVaults p / 2 ^ v % 2 = 1)

/-- The number of a line in its vault (R318). (Log entry 47.) -/
def State.localLine (s : State) (line : Nat) : Nat :=
  match s.partOfPa (line * Config.lineBytes) with
  | none => 0
  | some p => (line - s.windowLo p / Config.lineBytes) / (bits256 (s.partVaults p)).length

/-- A line is poisoned (R402). -/
def State.poisoned (s : State) (line : Nat) : Bool := Smap.get 0 s.poison line != 0

/-- The version of a line at its home slice; a poisoned line's is a free value (R402). (Log entry 4.) -/
def State.versionOf (s : State) (line : Nat) : BitVec 32 :=
  if s.poisoned line then Config.freeVersion s.free else Smap.get 0 s.versions line

/-- The clear stamp of the vault that holds a line (R402): clear of R137. -/
def State.clearOf (s : State) (line : Nat) : Nat :=
  (s.vaultAt (s.vaultOf (line * Config.lineBytes))).clearStamp

/-- The core that owns a word, if any (R72). -/
def State.ownerOf (s : State) (word : Nat) : Option Nat :=
  match Smap.get 0 s.owners word with
  | 0 => none
  | c + 1 => some c

/-- A core's L1 drops its copy of a word (R72, R74). -/
def Core.dropWord (c : Core) (word : Nat) : Core :=
  { c with l1 := c.l1.map fun x =>
      if x.line = word / 32 then { x with valid := x.valid &&& ~~~(1#32 <<< (word % 32)) } else x }

/-- The home slice enters a new owner of a word, or none, and tells the previous owner's L1 when the
owner changes (R72). -/
def State.setOwner (s : State) (word : Nat) (owner : Option Nat) : State :=
  let s1 := match s.ownerOf word with
    | none => s
    | some c => if owner = some c then s else s.modCore c fun k => k.dropWord word
  { s1 with owners := Smap.set 0 s1.owners word (match owner with | none => 0 | some c => c + 1) }

/-- All resident groups, the issuing one first. -/
def State.groups (s : State) : List Group :=
  (if s.g.live then [s.g] else []) ++ s.others

/-- The group of a core and slot. -/
def State.groupAt (s : State) (core slot : Nat) : Option Group :=
  s.groups.find? fun g => g.core = core && g.slot = slot

/-- An acquire: the core's L1 drops every word that the core does not own, but for lines held in their
own mode (R63, R75). Acquires are counted, so that what those lines hold of other cores' words is known to be older. -/
def State.acquire (s : State) (core : Nat) : State :=
  s.modCore core fun c =>
    { c with
      acquires := c.acquires + 1
      l1 := (c.l1.map fun x =>
        if x.own.isSome then x
        else { x with valid := x.valid &&& (maskOf fun w => decide (s.ownerOf (32 * x.line + w.val) = some core)) }).filter (fun x => x.own.isSome || x.valid != 0) }

/-- The distinct words of a line that a list of byte offsets touches, ascending. -/
def wordsTouched (offs : List Nat) : List Nat := (List.range 32).filter fun w => offs.any fun o => o / 4 = w

/-- A core's own L1 follows its store: the words it then owns are current there, whole as the home slice holds
them (R71, R72). The other half of a doubleword that the store touched stays only where the core owns it, so that no
doubleword is read half from before another core's store and half from behind it (R71). -/
def Core.mergeL1 (c : Core) (line : Nat) (words : List Nat) (owned : Nat → Bool) (home : Nat → Word) : Core :=
  let other := fun (w : Nat) => if w % 2 = 0 then w + 1 else w - 1
  { c with l1 := c.l1.map fun x =>
      if x.line = line then
        { x with data := Vector.ofFn fun w => if words.contains w.val then home w.val else x.data[w]
                 valid := x.valid &&& maskOf fun w => words.contains w.val || !words.contains (other w.val) || owned w.val }
      else x }

/-- The source that counter i counts: its selector, or the one that a write has replaced until the next clock of its
scope (R366, R422). -/
def sourceOf {k : Nat} (held : List (Nat × Nat)) (sel : Vector Nat k) (i : Fin k) : Nat :=
  match held.find? fun x => x.1 = i.val with
  | some x => x.2
  | none => sel[i]

/-- The event counters of a block whose source is src count n more (R366). -/
def bump {k : Nat} (held : List (Nat × Nat)) (sel cnt : Vector Nat k) (src n : Nat) : Vector Nat k :=
  Vector.ofFn fun i => if sourceOf held sel i = src then (cnt[i] + n) % 2 ^ 48 else cnt[i]

/-- Count n events of a source at a core, its die and the device, in the scopes R366 gives it. -/
def State.tally (s : State) (src n : Nat) (core : Option Nat) (die : Nat) : State :=
  let coreOk := src ≤ 5 || src = 7 || src = 8 || src = 10
  let devOk := src = 2 || src = 6 || src = 7 || src = 9 || src = 11 || src = 12
  let s1 := match core with
    | some c => if coreOk then s.modCore c fun k => { k with cnt := bump k.held k.sel k.cnt src n } else s
    | none => s
  let s2 := s1.modDie die fun d => { d with cnt := bump d.held d.sel d.cnt src n }
  if devOk then { s2 with regs := { s2.regs with devCnt := bump s2.regs.devHeld s2.regs.devSel s2.regs.devCnt src n } }
  else s2

/-- A controller, and the device with one changed. -/
def State.loopAt (s : State) (c : Nat) : Loop := vget s.loops c Loop.reset
def State.modLoop (s : State) (c : Nat) (f : Loop → Loop) : State := { s with loops := vset s.loops c (f (s.loopAt c)) }

/-- The controller that serves a context, if any. -/
def State.server (s : State) (part ctx : Nat) : Option Nat :=
  (List.range 128).find? fun c => (s.loopAt c).serves = some (part, ctx)

/-- The number of a context among the owners of pool ways: 0 when no controller serves it (R66, R277). -/
def State.wayOwner (s : State) (part ctx : Nat) : Nat := (s.server part ctx).elim 0 fun c => c + 1

/-- Pool ways by owner: what a way will have when its changes are over (R408). -/
def PoolWay.last (w : PoolWay) : Nat := w.next.getLast?.getD w.owner

/-- The pool way of a partition. -/
def State.poolWay (s : State) (part way : Nat) : PoolWay :=
  (s.ways.find? fun w => w.part = part && w.way = way).getD { part := part, way := way, owner := 0, next := [], since := 0, slow := false }

/-- The ways into which a context with that number among the owners (0: none) may bring a line: the common ones, and the
pool ways that are its own or nobody's and not about to change (R66, R277). (Log entry 50.) -/
def State.allocWays (s : State) (part owner : Nat) : List Nat :=
  List.range 8 ++ (List.range' 8 8).filter fun w =>
    let x := s.poolWay part w
    x.next = [] && (x.owner = 0 || x.owner = owner)

/-- Sets of a home slice: 32 MiB in 16 ways of lines (R65). (Log entry 50.) -/
def sliceSets : Nat := 16384

/-- A line comes into its home slice, or is found there in any way; when no allowed way of its set is free, the line
that came first into one leaves for the vault, a dirty one with its version (R65, R66). What its bytes and its version
are does not depend on where they stand. (Log entry 50.) -/
def State.slicePut (s : State) (line owner : Nat) (dirty : Bool) : State :=
  if s.slices.any fun x => x.line = line then
    { s with slices := s.slices.map fun x => if x.line = line then { x with dirty := x.dirty || dirty } else x }
  else match s.partOfPa (line * Config.lineBytes) with
    | none => s
    | some p =>
      let home := fun (l : Nat) => (s.vaultOf (l * Config.lineBytes), s.localLine l % sliceSets)
      let set := s.slices.filter fun x => home x.line = home line
      let ways := s.allocWays p owner
      match ways.find? fun w => set.all fun x => x.way ≠ w with
      | some w => { s with slices := s.slices ++ [⟨line, w, dirty⟩] }
      | none => match set.find? fun x => ways.contains x.way with
        | none => s
        | some x => { s with slices := s.slices.filter (fun y => y.line ≠ x.line) ++ [⟨line, x.way, dirty⟩] }

/-- One registering write at a home slice (R72, R88, R402): the bytes, given by their offset in the
line, are entered; the words they touch take the owner; the version rises by one, or becomes 0 when
a full-line write clears poison. -/
def State.lineWrite (s : State) (line : Nat) (bytes : List (Nat × Byte)) (owner : Option Nat) : State :=
  let base := line * Config.lineBytes
  let s1 := { s with dev := bytes.foldl (fun m (b : Nat × Byte) => Memory.write m (base + b.1) b.2) s.dev }
  let s2 := (wordsTouched (bytes.map Prod.fst)).foldl (fun t w => t.setOwner (32 * line + w) owner) s1
  let s3 := match owner with
    | some c => s2.modCore c fun k =>
        k.mergeL1 line (wordsTouched (bytes.map Prod.fst)) (fun w => s2.ownerOf (32 * line + w) = some c) fun w => BitVec.ofNat 32 (Memory.readLE s1.dev (base + 4 * w) 4)
    | none => s2
  let v := s.vaultOf base
  let s4 :=
    if s.poisoned line then
      if (List.range 128).all fun o => bytes.any fun b => b.1 = o then
        ({ s3 with poison := Smap.set 0 s3.poison line 0, versions := Smap.set 0 s3.versions line 0
                   rewritten := line :: s3.rewritten.filter fun l => l ≠ line }).modVault
          v fun x => { x with clearStamp := s.timer }
      else s3
    else { s3 with versions := Smap.set 0 s3.versions line (Smap.get 0 s3.versions line + 1) }
  (s4.slicePut line 0 true).tally 6 1 none (v / 32)

/-- Write bytes at consecutive physical addresses, one registering write for each line they reach, in
ascending line order (R59, R88). -/
def State.homeWrite (s : State) (bytes : List (Nat × Byte)) (owner : Option Nat) : State :=
  let ls := (bytes.map fun b => b.1 / Config.lineBytes).eraseDups
  ls.foldl (fun t l =>
    t.lineWrite l ((bytes.filter fun b => b.1 / Config.lineBytes = l).map fun b => (b.1 % Config.lineBytes, b.2)) owner) s

/-- The bytes of a value of n bytes at address a. -/
def bytesAt (a n v : Nat) : List (Nat × Byte) :=
  (List.range n).map fun i => (a + i, BitVec.ofNat 8 (v / 256 ^ i))

/-- A vault's lines of a partition pass to no key (R69, R402): what was written, and which of it is poisoned, is kept
by vault-local number; versions become 0. (Log entries 1 and 47.) -/
def State.discard (s : State) (part : Nat) : State :=
  let lo := s.windowLo part
  let hi := s.windowHi part
  let inside := fun (line : Nat) => decide (lo ≤ line * 128) && decide (line * 128 < hi)
  let lines : List Nat := ((s.dev.map fun (x : Nat × Byte) => x.1 / 128) ++ (s.versions.map fun (x : Nat × BitVec 32) => x.1) ++
    (s.poison.map fun (x : Nat × Nat) => x.1) ++ s.rewritten).eraseDups.filter inside
  let s1 := lines.foldl (fun (t : State) l => t.modVault (s.vaultOf (l * 128)) fun v =>
    { v with stale := Smap.set 0 v.stale (s.localLine l) (1 + Smap.get 0 s.poison l) }) s
  { s1 with
    dev := Smap.without s1.dev lo hi, versions := Smap.without s1.versions (lo / 128) (hi / 128)
    poison := Smap.without s1.poison (lo / 128) (hi / 128), owners := Smap.without s1.owners (lo / 4) (hi / 4)
    slices := s1.slices.filter fun x => !inside x.line, rewritten := s1.rewritten.filter fun l => !inside l }

/-- The lines of a partition's vaults that were written under an earlier key, as they read under the new one: bytes that
nothing fixes, poisoned where they were (R69, R318, R402). (Log entries 4 and 47.) -/
def State.inherit (s : State) (part : Nat) : State :=
  let ws := bits256 (s.partVaults part)
  let lo := s.windowLo part / 128
  ws.zipIdx.foldl (fun t x =>
    let t1 := (s.vaultAt x.1).stale.foldl (fun (u : State) (y : Nat × Nat) =>
      let l := lo + y.1 * ws.length + x.2
      { u with dev := Memory.writeBytes u.dev (l * 128) ((List.range 128).map fun k => Config.freeByte (u.free + k))
               free := u.free + 128, poison := Smap.set 0 u.poison l (y.2 - 1), rewritten := l :: u.rewritten }) t
    t1.modVault x.1 fun v => { v with stale := [] }) s

/-- A value of n bytes in a core's scratchpad. -/
def State.scratchStore (s : State) (core off n v : Nat) : State :=
  s.modCore core fun k => { k with scratch := Memory.writeLE k.scratch off n v }

/-- An access of a group, by the place of the group and the access's number, writes scratchpad bytes: each collective whose
COLL the group issued before it notes them (R224). -/
def State.noteTile (s : State) (core slot id : Nat) (l : List (Nat × Nat)) : State :=
  let behind := fun (r : CollRun) => r.args.any fun a => s.reqs.any fun q =>
    q.id = a.req && q.core = core && q.slot = slot && decide (q.id < id)
  { s with colls := s.colls.map fun r => if behind r then { r with touched := r.touched ++ l } else r }

/-! ### Rails -/

/-- Flits that a port's replay store of 4 MiB holds (R328). -/
def replayFlits : Nat := 16384

/-- A port's channels carry flits, and its replay store has room for so many (R328, R398). -/
def Rail.takes (r : Rail) (n : Nat) : Bool :=
  !r.failed && r.retraining.isNone && decide (r.store.length + n ≤ replayFlits)

/-- 16 resends did not deliver the oldest flit, and the link neither retrains nor is failed (R398). -/
def Rail.spent (r : Rail) : Bool := decide (16 ≤ r.resends) && !r.failed && r.retraining.isNone

/-- Flits of a channel leave the port: they enter the replay store (R328). -/
def Rail.send (r : Rail) (chan n : Nat) : Rail :=
  { r with
    store := r.store ++ (List.range n).map fun j => { chan := chan, seq := (r.sendSeq + j) % 2 ^ 32 }
    sendSeq := (r.sendSeq + n) % 2 ^ 32 }

/-- The receiver has acknowledged every flit up to a number, which leave the store (R328). -/
def Rail.acknowledge (r : Rail) (seq : Nat) : Rail :=
  if r.store.any fun x => x.seq = seq then
    { r with store := (r.store.dropWhile fun x => x.seq ≠ seq).drop 1, resends := 0 }
  else r

/-- The rail of a die holds a peer request: the link retrains, or the replay store has no room (R328, R398). -/
def State.railHolds (s : State) (die : Nat) : Bool := !(s.dieAt die).rail.takes 1

/-- A request to a peer leaves on the rail of a die as a flit of channel 0, and its response says that the peer has received
it (R328, R329). (Log entry 52.) -/
def State.railDie (s : State) (die : Nat) (l : List Target) : State :=
  if l.any fun t => match t with
      | .peer _ _ => true
      | _ => false then
    s.modDie die fun d => { d with rail := (d.rail.send 0 1).acknowledge d.rail.sendSeq }
  else s

/-- A core's request to a peer leaves on the rail of its die (R329). (Log entry 52.) -/
def State.railTurn (s : State) (core : Nat) (l : List Target) : State := s.railDie (coreDie core) l

/-- The die on whose rail the device's own requests for a partition leave: the lowest that holds a core of it.
(Log entry 52.) -/
def State.partDie (s : State) (p : Nat) : Nat :=
  coreDie (((List.range 256).find? fun c => (s.partCores p).testBit c).getD 0)

/-- The peer of a device number, if the pod has it. (Log entry 52.) -/
def State.peer (s : State) (d : Nat) : Option Peer := s.peers.find? fun p => p.num = d

/-- The device with a peer's memory changed. (Log entry 52.) -/
def State.modPeer (s : State) (d : Nat) (f : Memory → Memory) : State :=
  { s with peers := s.peers.map fun p => if p.num = d then { p with mem := f p.mem } else p }

end Sys2Proof.Machine
end

