-- ==== Sys2Proof/Machine/Translate.lean ====
section
/-! DEFINITION. Address translation: the walk, the TLBs, page requests, the checks on a leaf (R306 to
R311, R368 to R372); event records and their routes (R362 to R365, R424). -/

namespace Sys2Proof.Machine

/-- How a walk ends (R369). -/
inductive WalkRes where
  | leaf (e : TlbEntry)
  | absent
  | denied
  | malformed (entry : Nat)
  | error (code : Nat)
  deriving DecidableEq, Repr

/-- The page size of a size code (R309). -/
def pageSize (size : Nat) : Nat := if size = 0 then 2 ^ 16 else if size = 1 then 2 ^ 21 else 2 ^ 30

/-- What one table entry says at its level (R309, R369): nothing when the walk continues, at the
address given. -/
def readEntry (s : State) (part level va pa e : Nat) : WalkRes ⊕ Nat :=
  let valid := fld e 0 1
  let leaf := fld e 1 1
  let addr := fld e 16 44 * 256
  let nextSize := if level = 1 then 256 else 4096
  if valid = 0 then (if leaf = 0 then .inl .absent else .inl .denied)
  else if fld e 60 4 ≠ 0 then .inl (.malformed pa)
  else if leaf = 1 then
    if level ≤ 2 ∧ fld e 6 2 = level ∧ fld e 4 2 ≠ 3 ∧ (fld e 4 2 = 2 ∨ fld e 8 8 = 0) ∧
        addr % pageSize level = 0 then
      .inl (.leaf { part := part, va := va / pageSize level * pageSize level, size := level
                    write := fld e 2 1 = 1, exec := fld e 3 1 = 1, reach := fld e 4 2
                    peer := fld e 8 8, pa := addr })
    else .inl (.malformed pa)
  else if fld e 2 6 = 0 ∧ fld e 8 8 = 0 ∧ level ≠ 0 ∧ addr % nextSize = 0 ∧ s.inWindow part addr then .inr addr
  else .inl (.malformed pa)

/-- Walk from a table at a level down, over the list of levels with the lowest address bit and the
number of bits that index each table (R307, R308). -/
def walkFrom (s : State) (part va table : Nat) : List (Nat × Nat × Nat) → WalkRes
  | [] => .absent
  | (level, lo, n) :: rest =>
    let pa := table + 8 * fld va lo n
    if s.poisoned (pa / Config.lineBytes) then .error (Smap.get 0 s.poison (pa / Config.lineBytes))
    else match readEntry s part level va pa (Memory.readLE s.dev pa 8) with
      | .inl r => r
      | .inr t => walkFrom s part va t rest

/-- The levels of a walk: number, lowest address bit, index bits (R308). -/
def walkLevels : List (Nat × Nat × Nat) := [(4, 48, 8), (3, 39, 9), (2, 30, 9), (1, 21, 9), (0, 16, 5)]

/-- The walk of an address in a partition's tables (R307, R308). -/
def State.walk (s : State) (part va : Nat) : WalkRes := walkFrom s part va (s.troot part) walkLevels

/-- The entry that a walk reads last. -/
def walkEnd (s : State) (part va table : Nat) : List (Nat × Nat × Nat) → Nat
  | [] => table
  | (level, lo, n) :: rest =>
    let pa := table + 8 * fld va lo n
    if s.poisoned (pa / Config.lineBytes) then pa
    else match readEntry s part level va pa (Memory.readLE s.dev pa 8) with
      | .inl _ => pa
      | .inr t => walkEnd s part va t rest

/-- An address of the host behind a port lies in one of some ranges that the world outside gives, by their places in
State.host. (Log entry 52.) -/
def hostIn (port a : Nat) (l : List (Nat × Nat)) : Bool := l.any fun r => decide (r.1 ≤ hostAt port a) && decide (hostAt port a ≤ r.2)

/-- A record of an event as bits (R362). -/
def Event.bits (e : Event) : Nat :=
  e.stamp + e.code * 2 ^ 64 + e.part % 16 * 2 ^ 72 + b2n e.host * 2 ^ 76 + e.domain % 2 ^ 16 * 2 ^ 80 +
  e.core % 256 * 2 ^ 96 + e.die % 256 * 2 ^ 104 + e.detail % 2 ^ 16 * 2 ^ 112 +
  e.launch % 2 ^ 56 * 2 ^ 128 + e.addr % 2 ^ 56 * 2 ^ 192

/-- An event with no part of the device named (R362). (Log entry 29.) -/
def Event.of (code detail addr : Nat) : Event :=
  { stamp := 0, code := code, part := 0, host := false, domain := 0, core := 0xFF, die := 0xFF
    detail := detail, launch := 0, addr := addr }

/-- The event enters the cellar record, the newest 8,192 of which are kept (R365). -/
def State.toCellar (s : State) (e : Event) : State :=
  { s with cellar := (e :: s.cellar).take 8192, cellarHead := (s.cellarHead + 1) % 8192 }

/-- EVTRING's ring takes a record now (R424). -/
def State.hostRingOpen (s : State) : Bool :=
  let r := s.regs.evtring
  bbit r 69 && decide ((bget r 96 32 + 2 ^ 32 - bget r 128 32) % 2 ^ 32 < 2 ^ bget r 64 5)

/-- Post to the host event ring (R424), which is behind port 0, and the cellar record. (Log entry 52.) -/
def State.postHost (s : State) (e : Event) : State :=
  let r := s.regs.evtring
  if e.code ≠ 0x42 ∧ s.hostRingOpen = true then
    let e1 := { e with stamp := s.timer, host := true }
    let a := hostAt 0 (bget r 0 64 + 32 * (bget r 96 32 % 2 ^ bget r 64 5))
    { s.toCellar e1 with
      host := Memory.writeLE s.host a 32 e1.bits
      regs := { s.regs with evtring := bset r 96 32 (bget r 96 32 + 1) } }
  else s.toCellar { e with stamp := s.timer, host := false }

/-- The leaf through which the device's own accesses reach a partition's address, when it is present,
writable as asked, of reach 0 and inside the partition's window (R425); otherwise the detail that
event 0x60 carries. -/
def State.deviceLeaf (s : State) (part va : Nat) (write : Bool) : Nat ⊕ Nat :=
  match s.walk part va with
  | .leaf e =>
    if e.reach ≠ 0 || (write && !e.write) then .inl 0x0C
    else if !s.inWindow part e.pa then .inl 0x0D
    else
      let pa := e.pa + va % pageSize e.size
      if s.poisoned (pa / Config.lineBytes) then .inl 0x0E else .inr pa
  | .error _ => .inl 0x0E
  | _ => .inl 0x0D

/-- What a refused walk or page of an access of the device itself has to tell: event 0x49 for a malformed entry (R369), event
0x4C for a leaf outside the partition's windows or the peer's (R368). -/
def State.refusalEvent (s : State) (part va : Nat) : Option Event :=
  match s.walk part va with
  | .malformed a => some { Event.of 0x49 0 a with part := part }
  | .leaf e =>
    let a := e.pa + va % pageSize e.size
    let out := if e.reach = 0 then !s.inWindow part e.pa
      else e.reach = 2 && bbit s.regs.devnum 8 && bget s.regs.devnum 0 8 != e.peer && (s.peers.find? fun p => p.num = e.peer).any fun p =>
        !(p.windows.any fun x => decide (x.1 ≤ a) && decide (a < x.2.1) && x.2.2 = s.podtag part)
    if out then some { Event.of 0x4C 0 va with part := part } else none
  | _ => none

/-- Post an event on every route (R363, R364): the cellar record, the host ring, and the fault-domain
ring of the partition when the record names a domain and the partition has a ring (R316); a ring that cannot be written
is switched off with event 0x5F. -/
def State.post (s : State) (e : Event) : State :=
  let s1 := s.postHost e
  let rec_ := s1.partRec e.part
  let head := bget rec_ 800 32
  let sz := bget rec_ 776 5
  if e.domain = 0 ∨ bbit rec_ 781 = false ∨ bget rec_ 720 56 = 0 ∨
      2 ^ sz ≤ (head + 2 ^ 32 - bget rec_ 832 32) % 2 ^ 32 then s1
  else
    let va := bget rec_ 720 56 + 32 * (head % 2 ^ sz)
    match s1.deviceLeaf e.part va true with
    | .inl _ =>
      let s2 := ({ s1 with regs := { s1.regs with part := vset s1.regs.part e.part (bset rec_ 781 1 0) } }).postHost
        { Event.of 0x5F 0 (bget rec_ 720 56) with part := e.part }
      match s1.refusalEvent e.part va with
      | some x => s2.postHost x
      | none => s2
    | .inr pa =>
      let s2 := s1.homeWrite (bytesAt pa 32 ({ e with stamp := s.timer, host := e.code != 0x42 && s.hostRingOpen }).bits) none
      { s2 with regs := { s2.regs with part := vset s2.regs.part e.part (bset rec_ 800 32 (head + 1)) } }

/-- An access reaches a line whose poison only its vault's own reading had found: event 0x50 is posted (R401, R402).
(Log entry 30.) -/
def State.revealAt (s : State) : Target → State
  | .dev pa =>
    if s.poisoned (pa / 128) && s.hushed.contains (pa / 128) then
      { s with hushed := s.hushed.filter fun x => x ≠ pa / 128 }.post
        { Event.of 0x50 (Smap.get 0 s.poison (pa / 128)) (pa / 128 * 128) with
          part := (s.partOfPa pa).getD 0, die := s.vaultOf pa / 32 }
    else s
  | _ => s

/-- A walk that an uncorrectable error stopped has reached that line (R369, R402). (Log entry 30.) -/
def State.revealWalk (s : State) (part va : Nat) : State :=
  match s.walk part va with
  | .error _ => s.revealAt (.dev (walkEnd s part va (s.troot part) walkLevels))
  | _ => s

/-- An access of the device itself was refused at an address: what its walk and its page have to tell, and a poisoned line that
it reached (R368, R369, R402). -/
def State.walkNote (s : State) (part va : Nat) : State :=
  let s1 := (s.refusalEvent part va).elim s s.post
  match s.walk part va with
  | .error _ => s1.revealWalk part va
  | .leaf e => if e.reach = 0 && s.inWindow part e.pa then s1.revealAt (.dev (e.pa + va % pageSize e.size)) else s1
  | _ => s1

/-- The launch of an RCB address that the device has accepted. -/
def State.launchOf (s : State) (rcb : Nat) : Option Launch := s.launches.find? fun l => l.rcb = rcb

/-- The fault domain that a launch's events name, or 0. -/
def State.domainOf (s : State) (rcb : Nat) : Nat :=
  match s.launchOf rcb with
  | some l => l.eff.faultDomain
  | none => 0

/-- The partition of the issuing group (R8). -/
def State.partOf (s : State) (g : Group) : Nat :=
  match s.launchOf g.launch with
  | some l => l.part
  | none => 0

/-- An entry covers an address of a partition (R306). -/
def TlbEntry.covers (e : TlbEntry) (part va : Nat) : Bool :=
  e.part = part && decide (va / pageSize e.size = e.va / pageSize e.size)

/-- An entry enters a TLB of n entries, ahead of the others; an older entry of the page leaves. (Log entry 50.) -/
def tlbPut (n : Nat) (l : List TlbEntry) (e : TlbEntry) : List TlbEntry :=
  (e :: l.filter fun x => !(x.part = e.part && x.va = e.va && x.size = e.size)).take n

/-- Fill a leaf into the L1 TLB of a core, into its cluster's TLB, or both (R188, R306). -/
def State.tlbFill (s : State) (core level : Nat) (e : TlbEntry) : State :=
  let s1 := if level = 1 then s else s.modCore core fun c => { c with tlb := tlbPut 128 c.tlb e }
  if level = 0 then s1
  else s1.modCluster (coreCluster core) fun c => { c with tlb := tlbPut 4096 c.tlb e }

/-- A page request is for the page of that number. -/
def PageReq.on (r : PageReq) (part page : Nat) : Bool := r.part = part && r.page = page

/-- No request of a core stands for the page of an address, all being in use (R370). -/
def State.unasked (s : State) (core part va : Nat) : Bool := !((s.coreAt core).pageReqs.any fun r => r.on part (va / 2 ^ 16))

/-- A page request of a core for the absent page of an address (R370): a standing one is joined, a
33rd is not made. One that a request from outside made in the cluster is taken over (R382). (Log entry 43.) -/
def State.pageRequest (s : State) (core part va : Nat) (w f : Bool) (domain : Nat) : State :=
  let page := va / 2 ^ 16
  let c := s.coreAt core
  let first := clusterCore (coreCluster core) 0
  if c.pageReqs.any (fun r => r.on part page && !r.remote) then s
  else match (s.coreAt first).pageReqs.find? fun r => r.remote && r.on part page with
  | some r =>
    if core ≠ first ∧ 32 ≤ c.pageReqs.length then s
    else (s.modCore first fun k => { k with pageReqs := k.pageReqs.filter fun x => x ≠ r }).modCore core fun k =>
      { k with pageReqs := k.pageReqs ++ [{ r with remote := false }] }
  | none =>
    if 32 ≤ c.pageReqs.length then s
    else (s.modCore core fun k => { k with pageReqs := k.pageReqs ++ [{ part := part, page := page, write := w, fetch := f, domain := domain }] }).post
      { Event.of 0x48 (b2n w + 2 * b2n f) (page * 2 ^ 16) with
        part := part, domain := domain, core := core, die := coreDie core }

/-- A TLBFILL for a core names a page: the standing requests and the pantry entries of the cluster's cores
on it are tried again next (R311, R370). -/
def State.announce (s : State) (core : Nat) (e : TlbEntry) : State :=
  let mine := (List.range 4).map fun k => clusterCore (coreCluster core) k
  let asks := fun (c : Nat) => (s.coreAt c).pageReqs.filter fun r => e.covers r.part (r.page * 2 ^ 16)
  let held := fun (c : Nat) => (((s.coreAt c).pantry.filter fun x => !x.unmappable && e.covers x.part (x.vline * 128)).map
    fun x => x.vline * 128 / 2 ^ 16).eraseDups
  { s with agenda := mine.flatMap (fun c =>
      (asks c).map (fun r => Turn.event .pageRequestRewalk { core := c, part := e.part, va := r.page * 2 ^ 16, ok := true }) ++
      (held c).map (fun p => Turn.event .pantryReplay { core := c, part := e.part, va := p * 2 ^ 16 })) ++ s.agenda }

/-- Event 0x4A for an entry that becomes unmappable (R376). -/
def State.unmappableEvent (s : State) (e : PantryEntry) (reason : Nat) : State :=
  let dom := match s.groupAt e.core e.slot with
    | some g => s.domainOf g.launch
    | none => 0
  s.post { Event.of 0x4A reason (e.vline * 128) with
    part := e.part, domain := dom, core := e.core, die := coreDie e.core }

/-- The entries of a core's pantry on a refused page become unmappable, each with event 0x4A (R376). -/
def State.refusePage (s : State) (core part page reason : Nat) : State :=
  let hit := fun (e : PantryEntry) => e.part = part && e.vline * 128 / 2 ^ 16 = page && !e.unmappable
  let es := (s.coreAt core).pantry.filter hit
  let s1 := s.modCore core fun c =>
    { c with pantry := c.pantry.map fun e => if hit e then { e with unmappable := true, reason := reason } else e }
  es.foldl (fun t e => t.unmappableEvent e reason) s1

/-- One walk for a core (R307, R369, R376): it begins as ACQ; a leaf fills both TLBs, an absent page is requested, a
malformed entry posts event 0x49, a poisoned one is reported, and a page that is refused makes the core's pantry entries on it unmappable. -/
def State.runWalk (s : State) (core part va : Nat) (w f : Bool) (domain : Nat) : WalkRes × State :=
  let s0 := (s.acquire core).tally 10 1 (some core) (coreDie core)
  match s0.walk part va with
  | .leaf e => (.leaf e, (s0.tlbFill core 2 e).announce core e)
  | .absent => (.absent, s0.pageRequest core part va w f domain)
  | .malformed a =>
    (.malformed a, (s0.post { Event.of 0x49 0 a with part := part, domain := domain, core := core, die := coreDie core }).refusePage
      core part (va / 2 ^ 16) 2)
  | r => (r, (s0.revealWalk part va).refusePage core part (va / 2 ^ 16) 1)

/-- A look-up in the core's TLB, then in its cluster's (R306), then a walk. -/
def State.lookup (s : State) (core part va : Nat) (w f : Bool) (domain : Nat) : WalkRes × State :=
  match (s.coreAt core).tlb.find? fun e => e.covers part va with
  | some e => (.leaf e, s)
  | none =>
    match (s.clusterAt (coreCluster core)).tlb.find? fun e => e.covers part va with
    | some e => (.leaf e, s.tlbFill core 0 e)
    | none => s.runWalk core part va w f domain

/-- How an address is reached, or why not: a target, an absent page, or a cause with its code and the
reason a pantry entry would record (R368, R372, R374). -/
inductive Xlat where
  | ok (t : Target)
  | absent
  | refused (cause code reason : Nat)
  deriving DecidableEq, Repr

/-- A partition-boundary refusal posts event 0x4C (R368). -/
def State.boundary (s : State) (core part va : Nat) : State :=
  s.post { Event.of 0x4C 0 va with part := part, core := core, die := coreDie core }

/-- What a leaf grants (R310, R317, R322, R329, R368, R378, R379). -/
def State.checkLeaf (s : State) (core part va : Nat) (e : TlbEntry) (w f posted : Bool) : Xlat × State :=
  let a := e.pa + va % pageSize e.size
  if w && !e.write then (.refused 0x0C 1 5, s)
  else if f && !e.exec then (.refused 0x0C 2 0, s)
  else if e.reach = 0 then
    if s.inWindow part e.pa then (.ok (.dev a), s) else (.refused 0x0C 3 3, s.boundary core part va)
  else if e.reach = 1 then
    if !s.hostLive part then (.refused 0x0C 4 4, s)
    else if hostIn (s.hostPort part) a s.env.hostDenied then (.refused 0x0D 0 4, s)
    else if !posted && hostIn (s.hostPort part) a s.env.hostErrors then
      (.refused 0x0C 4 4, s)
    else (.ok (.host (s.hostPort part) a), s)
  else
    let d := s.regs.devnum
    if bbit d 8 = false ∨ bget d 0 8 = e.peer ∨ (s.dieAt (coreDie core)).rail.failed = true then
      (.refused 0x0D 0 1, s)
    else match s.peer e.peer with
      | none => (.refused 0x0D 0 1, s)
      | some p =>
        if p.windows.any fun x => decide (x.1 ≤ a) && decide (a < x.2.1) && x.2.2 = s.podtag part then
          (.ok (.peer e.peer a), s)
        else (.refused 0x0C 3 3, s.boundary core part va)

/-- Translate an address for an access of a core (R310): posted says that the access is a plain store,
whose error at the host never returns (R379). -/
def State.translate (s : State) (core part va : Nat) (w f posted : Bool) (domain : Nat) : Xlat × State :=
  match s.lookup core part va w f domain with
  | (.leaf e, s1) => s1.checkLeaf core part va e w f posted
  | (.absent, s1) => (.absent, s1)
  | (.denied, s1) => (.refused 0x0D 0 1, s1)
  | (.malformed _, s1) => (.refused 0x0D 2 2, s1)
  | (.error c, s1) => (.refused 0x0E c 1, s1)

end Sys2Proof.Machine
end

