-- ==== Sys2Proof/Machine/Operands.lean ====
section
/-! DEFINITION. Which registers each instruction reads and writes, in which fields and how many words
(R49, R50, R118 to R120, R126), and which buffer record it names (R184). -/

namespace Sys2Proof.Machine

/-- How a field names a register: a source field with its empty-read action, a register read through
a 7-bit field or by a parcel, or a destination (R55, R118). -/
inductive UseKind where
  | source
  | read
  | write
  deriving DecidableEq, Repr

/-- One operand: the 7-bit selector, whether an empty register traps, which field it stands in (0 A,
1 B, 2 index), how it is used, how many words it occupies, and how many of them are read or written. -/
structure Use where
  sel : Nat
  trap : Bool
  field : Nat
  kind : UseKind
  words : Nat
  live : Nat
  deriving DecidableEq, Repr

/-- A source field of 8 bits (R118). -/
def srcUse (f : BitVec 8) (field words : Nat) : Use :=
  ⟨f.toNat % 128, f.getLsbD 7, field, .source, words, words⟩

/-- A register read through a 7-bit field, or by a parcel (R118). -/
def readUse (sel words : Nat) : Use := ⟨sel, false, 0, .read, words, words⟩

/-- A destination (R118). -/
def writeUse (sel words : Nat) : Use := ⟨sel, false, 0, .write, words, words⟩

/-- CASV.D's quad, whose last word is neither read nor written (R203). -/
def quadUse (sel : Nat) : Use := ⟨sel, false, 0, .write, 4, 3⟩

/-- The register a 5-bit parcel selector names (R119). -/
def parcelSel (p : BitVec 5) : Nat :=
  let n := p.toNat
  if n < 16 then n else if n < 24 then 0x70 + (n - 16) else if n < 28 then 0x78 + (n - 24) else 0x60 + (n - 28)

/-- How many registers a value of a CVT format code occupies (R160). -/
def cvtWords (code : Nat) : Nat := if code = 1 ∨ code = 6 ∨ code = 7 then 2 else 1

/-- How many registers a special register occupies (R182). -/
def srWords (id : Nat) : Nat := if id = 0x10 ∨ id = 0x12 ∨ id = 0x22 then 2 else 1

/-- The operands of every instruction, in the order A, B or index, read registers, destinations. -/
def uses : Instr → List Use
  | .iadd b a d => [srcUse a 0 1, srcUse b 1 1, writeUse d.toNat 1]
  | .isub b a d => [srcUse a 0 1, srcUse b 1 1, writeUse d.toNat 1]
  | .imul b a d => [srcUse a 0 1, srcUse b 1 1, writeUse d.toNat 1]
  | .imulhS b a d => [srcUse a 0 1, srcUse b 1 1, writeUse d.toNat 1]
  | .imulhU b a d => [srcUse a 0 1, srcUse b 1 1, writeUse d.toNat 1]
  | .imad b a d => [srcUse a 0 1, srcUse b 1 1, readUse d.toNat 1, writeUse d.toNat 1]
  | .iaddc b a d => [srcUse a 0 1, srcUse b 1 1, writeUse d.toNat 1]
  | .isubb b a d => [srcUse a 0 1, srcUse b 1 1, writeUse d.toNat 1]
  | .and b a d => [srcUse a 0 1, srcUse b 1 1, writeUse d.toNat 1]
  | .or b a d => [srcUse a 0 1, srcUse b 1 1, writeUse d.toNat 1]
  | .xor b a d => [srcUse a 0 1, srcUse b 1 1, writeUse d.toNat 1]
  | .andn b a d => [srcUse a 0 1, srcUse b 1 1, writeUse d.toNat 1]
  | .shl b a d => [srcUse a 0 1, srcUse b 1 1, writeUse d.toNat 1]
  | .shr b a d => [srcUse a 0 1, srcUse b 1 1, writeUse d.toNat 1]
  | .sar b a d => [srcUse a 0 1, srcUse b 1 1, writeUse d.toNat 1]
  | .rotl b a d => [srcUse a 0 1, srcUse b 1 1, writeUse d.toNat 1]
  | .iminS b a d => [srcUse a 0 1, srcUse b 1 1, writeUse d.toNat 1]
  | .imaxS b a d => [srcUse a 0 1, srcUse b 1 1, writeUse d.toNat 1]
  | .iminU b a d => [srcUse a 0 1, srcUse b 1 1, writeUse d.toNat 1]
  | .imaxU b a d => [srcUse a 0 1, srcUse b 1 1, writeUse d.toNat 1]
  | .popc a d => [srcUse a 0 1, writeUse d.toNat 1]
  | .clz a d => [srcUse a 0 1, writeUse d.toNat 1]
  | .brev a d => [srcUse a 0 1, writeUse d.toNat 1]
  | .iabs a d => [srcUse a 0 1, writeUse d.toNat 1]
  | .bfxU b a d => [srcUse a 0 1, srcUse b 1 1, writeUse d.toNat 1]
  | .bfxS b a d => [srcUse a 0 1, srcUse b 1 1, writeUse d.toNat 1]
  | .bfi b a d => [srcUse a 0 1, srcUse b 1 1, readUse d.toNat 1, writeUse d.toNat 1]
  | .bshuf b a d => [srcUse a 0 1, srcUse b 1 1, readUse d.toNat 1, writeUse d.toNat 1]
  | .shld b a d => [srcUse a 0 1, srcUse b 1 1, readUse d.toNat 1, writeUse d.toNat 1]
  | .shrd b a d => [srcUse a 0 1, srcUse b 1 1, readUse d.toNat 1, writeUse d.toNat 1]
  | .iaddi _ a d => [srcUse a 0 1, writeUse d.toNat 1]
  | .andi _ a d => [srcUse a 0 1, writeUse d.toNat 1]
  | .ori _ a d => [srcUse a 0 1, writeUse d.toNat 1]
  | .xori _ a d => [srcUse a 0 1, writeUse d.toNat 1]
  | .shli _ a d => [srcUse a 0 1, writeUse d.toNat 1]
  | .shri _ a d => [srcUse a 0 1, writeUse d.toNat 1]
  | .sari _ a d => [srcUse a 0 1, writeUse d.toNat 1]
  | .imuli _ a d => [srcUse a 0 1, writeUse d.toNat 1]
  | .fadd b a d => [srcUse a 0 1, srcUse b 1 1, writeUse d.toNat 1]
  | .fsub b a d => [srcUse a 0 1, srcUse b 1 1, writeUse d.toNat 1]
  | .fmul b a d => [srcUse a 0 1, srcUse b 1 1, writeUse d.toNat 1]
  | .ffma b a d => [srcUse a 0 1, srcUse b 1 1, readUse d.toNat 1, writeUse d.toNat 1]
  | .ffms b a d => [srcUse a 0 1, srcUse b 1 1, readUse d.toNat 1, writeUse d.toNat 1]
  | .fmin b a d => [srcUse a 0 1, srcUse b 1 1, writeUse d.toNat 1]
  | .fmax b a d => [srcUse a 0 1, srcUse b 1 1, writeUse d.toNat 1]
  | .fnma b a d => [srcUse a 0 1, srcUse b 1 1, readUse d.toNat 1, writeUse d.toNat 1]
  | .dadd b a d => [srcUse a 0 2, srcUse b 1 2, writeUse d.toNat 2]
  | .dsub b a d => [srcUse a 0 2, srcUse b 1 2, writeUse d.toNat 2]
  | .dmul b a d => [srcUse a 0 2, srcUse b 1 2, writeUse d.toNat 2]
  | .dfma b a d => [srcUse a 0 2, srcUse b 1 2, readUse d.toNat 2, writeUse d.toNat 2]
  | .dfms b a d => [srcUse a 0 2, srcUse b 1 2, readUse d.toNat 2, writeUse d.toNat 2]
  | .dmin b a d => [srcUse a 0 2, srcUse b 1 2, writeUse d.toNat 2]
  | .dmax b a d => [srcUse a 0 2, srcUse b 1 2, writeUse d.toNat 2]
  | .dnma b a d => [srcUse a 0 2, srcUse b 1 2, readUse d.toNat 2, writeUse d.toNat 2]
  | .hadd2F16 b a d => [srcUse a 0 1, srcUse b 1 1, writeUse d.toNat 1]
  | .hmul2F16 b a d => [srcUse a 0 1, srcUse b 1 1, writeUse d.toNat 1]
  | .hfma2F16 b a d => [srcUse a 0 1, srcUse b 1 1, readUse d.toNat 1, writeUse d.toNat 1]
  | .hmin2F16 b a d => [srcUse a 0 1, srcUse b 1 1, writeUse d.toNat 1]
  | .hadd2Bf16 b a d => [srcUse a 0 1, srcUse b 1 1, writeUse d.toNat 1]
  | .hmul2Bf16 b a d => [srcUse a 0 1, srcUse b 1 1, writeUse d.toNat 1]
  | .hfma2Bf16 b a d => [srcUse a 0 1, srcUse b 1 1, readUse d.toNat 1, writeUse d.toNat 1]
  | .hmin2Bf16 b a d => [srcUse a 0 1, srcUse b 1 1, writeUse d.toNat 1]
  | .frcp a d => [srcUse a 0 1, writeUse d.toNat 1]
  | .frsq a d => [srcUse a 0 1, writeUse d.toNat 1]
  | .fsqrt a d => [srcUse a 0 1, writeUse d.toNat 1]
  | .fex2 a d => [srcUse a 0 1, writeUse d.toNat 1]
  | .flg2 a d => [srcUse a 0 1, writeUse d.toNat 1]
  | .fsinr a d => [srcUse a 0 1, writeUse d.toNat 1]
  | .fcosr a d => [srcUse a 0 1, writeUse d.toNat 1]
  | .dsqrt a d => [srcUse a 0 2, writeUse d.toNat 2]
  | .icmpS b a _ _ => [srcUse a 0 1, srcUse b 1 1]
  | .icmpU b a _ _ => [srcUse a 0 1, srcUse b 1 1]
  | .fcmp b a _ _ => [srcUse a 0 1, srcUse b 1 1]
  | .dcmp b a _ _ => [srcUse a 0 2, srcUse b 1 2]
  | .hcmp2F16 b a _ _ => [srcUse a 0 1, srcUse b 1 1]
  | .hcmp2Bf16 b a _ _ => [srcUse a 0 1, srcUse b 1 1]
  | .plop _ _ _ _ => []
  | .sel _ b a d => [srcUse a 0 1, srcUse b 1 1, writeUse d.toNat 1]
  | .cvt _ _ s e a d => [srcUse a 0 (cvtWords s.toNat), writeUse d.toNat (cvtWords e.toNat)]
  | .shflIdx b a d => [srcUse a 0 1, srcUse b 1 1, writeUse d.toNat 1]
  | .shflUp b a d => [srcUse a 0 1, srcUse b 1 1, writeUse d.toNat 1]
  | .shflDn b a d => [srcUse a 0 1, srcUse b 1 1, writeUse d.toNat 1]
  | .shflXor b a d => [srcUse a 0 1, srcUse b 1 1, writeUse d.toNat 1]
  | .voteAny _ _ d => [writeUse d.toNat 1]
  | .voteAll _ _ d => [writeUse d.toNat 1]
  | .ballot _ _ d => [writeUse d.toNat 1]
  | .matchL a d => [srcUse a 0 1, writeUse d.toNat 1]
  | .rdaddF32 a d => [srcUse a 0 1, writeUse d.toNat 1]
  | .rdaddF64 a d => [srcUse a 0 2, writeUse d.toNat 2]
  | .rdaddI32 a d => [srcUse a 0 1, writeUse d.toNat 1]
  | .rdminF32 a d => [srcUse a 0 1, writeUse d.toNat 1]
  | .rdmaxF32 a d => [srcUse a 0 1, writeUse d.toNat 1]
  | .rdminI32 a d => [srcUse a 0 1, writeUse d.toNat 1]
  | .rdmaxI32 a d => [srcUse a 0 1, writeUse d.toNat 1]
  | .scanI32 _ a d => [srcUse a 0 1, writeUse d.toNat 1]
  | .ldk _ d => [writeUse d.toNat 1]
  | .ldkh _ d => [readUse d.toNat 1, writeUse d.toNat 1]
  | .ldB _ x _ d => [srcUse x 2 1, writeUse d.toNat 1]
  | .ldBs _ x _ d => [srcUse x 2 1, writeUse d.toNat 1]
  | .ldH _ x _ d => [srcUse x 2 1, writeUse d.toNat 1]
  | .ldHs _ x _ d => [srcUse x 2 1, writeUse d.toNat 1]
  | .ldW _ x _ d => [srcUse x 2 1, writeUse d.toNat 1]
  | .ldD _ x _ d => [srcUse x 2 1, writeUse d.toNat 2]
  | .ldQ _ x _ d => [srcUse x 2 1, writeUse d.toNat 4]
  | .ldpW _ x d => [srcUse x 2 1, writeUse d.toNat 1]
  | .stB _ x _ d => [srcUse x 2 1, readUse d.toNat 1]
  | .stH _ x _ d => [srcUse x 2 1, readUse d.toNat 1]
  | .stW _ x _ d => [srcUse x 2 1, readUse d.toNat 1]
  | .stD _ x _ d => [srcUse x 2 1, readUse d.toNat 2]
  | .stQ _ x _ d => [srcUse x 2 1, readUse d.toNat 4]
  | .stpW _ x d => [srcUse x 2 1, readUse d.toNat 1]
  | .pref _ x _ => [srcUse x 2 1]
  | .ldsW x d => [srcUse x 2 1, writeUse d.toNat 1]
  | .ldsD x d => [srcUse x 2 1, writeUse d.toNat 2]
  | .ldsQ x d => [srcUse x 2 1, writeUse d.toNat 4]
  | .stsW x d => [srcUse x 2 1, readUse d.toNat 1]
  | .stsD x d => [srcUse x 2 1, readUse d.toNat 2]
  | .stsQ x d => [srcUse x 2 1, readUse d.toNat 4]
  | .ldsB x d => [srcUse x 2 1, writeUse d.toNat 1]
  | .stsB x d => [srcUse x 2 1, readUse d.toNat 1]
  | .atomAdd _ x _ d => [srcUse x 2 1, readUse d.toNat 1, writeUse d.toNat 1]
  | .atomMinS _ x _ d => [srcUse x 2 1, readUse d.toNat 1, writeUse d.toNat 1]
  | .atomMaxS _ x _ d => [srcUse x 2 1, readUse d.toNat 1, writeUse d.toNat 1]
  | .atomAnd _ x _ d => [srcUse x 2 1, readUse d.toNat 1, writeUse d.toNat 1]
  | .atomOr _ x _ d => [srcUse x 2 1, readUse d.toNat 1, writeUse d.toNat 1]
  | .atomXor _ x _ d => [srcUse x 2 1, readUse d.toNat 1, writeUse d.toNat 1]
  | .atomExch _ x _ d => [srcUse x 2 1, readUse d.toNat 1, writeUse d.toNat 1]
  | .atomCas _ x _ d => [srcUse x 2 1, readUse d.toNat 2, writeUse d.toNat 2]
  | .redAdd _ x _ d => [srcUse x 2 1, readUse d.toNat 1]
  | .redMinS _ x _ d => [srcUse x 2 1, readUse d.toNat 1]
  | .redMaxS _ x _ d => [srcUse x 2 1, readUse d.toNat 1]
  | .redAnd _ x _ d => [srcUse x 2 1, readUse d.toNat 1]
  | .redOr _ x _ d => [srcUse x 2 1, readUse d.toNat 1]
  | .redXor _ x _ d => [srcUse x 2 1, readUse d.toNat 1]
  | .redExch _ x _ d => [srcUse x 2 1, readUse d.toNat 1]
  | .atomAddF32 _ x _ d => [srcUse x 2 1, readUse d.toNat 1, writeUse d.toNat 1]
  | .atomAddD _ x _ d => [srcUse x 2 1, readUse d.toNat 2, writeUse d.toNat 2]
  | .atomCasD _ x _ d => [srcUse x 2 1, readUse d.toNat 4, writeUse d.toNat 4]
  | .atomExchD _ x _ d => [srcUse x 2 1, readUse d.toNat 2, writeUse d.toNat 2]
  | .atomMinU _ x _ d => [srcUse x 2 1, readUse d.toNat 1, writeUse d.toNat 1]
  | .atomMaxU _ x _ d => [srcUse x 2 1, readUse d.toNat 1, writeUse d.toNat 1]
  | .atomIncWrap _ x _ d => [srcUse x 2 1, readUse d.toNat 1, writeUse d.toNat 1]
  | .atomAddF64 _ x _ d => [srcUse x 2 1, readUse d.toNat 2, writeUse d.toNat 2]
  | .redAddF32 _ x _ d => [srcUse x 2 1, readUse d.toNat 1]
  | .redAddD _ x _ d => [srcUse x 2 1, readUse d.toNat 2]
  | .redExchD _ x _ d => [srcUse x 2 1, readUse d.toNat 2]
  | .redMinU _ x _ d => [srcUse x 2 1, readUse d.toNat 1]
  | .redMaxU _ x _ d => [srcUse x 2 1, readUse d.toNat 1]
  | .redIncWrap _ x _ d => [srcUse x 2 1, readUse d.toNat 1]
  | .redAddF64 _ x _ d => [srcUse x 2 1, readUse d.toNat 2]
  | .ldv x _ d => [srcUse x 2 1, writeUse d.toNat 2]
  | .ldvsW x _ d => [srcUse x 2 1, writeUse d.toNat 1]
  | .ldvsD x _ d => [srcUse x 2 1, writeUse d.toNat 2]
  | .vrd x _ d => [srcUse x 2 1, writeUse d.toNat 1]
  | .casvW x _ d => [srcUse x 2 1, readUse d.toNat 2, writeUse d.toNat 2]
  | .casvD x _ d => [srcUse x 2 1, quadUse d.toNat]
  | .vchk _ => []
  | .waitc _ _ => []
  | .sleept a => [srcUse a 0 2]
  | .cpoll _ a d => [srcUse a 0 1, writeUse d.toNat 2]
  | .cpy b a d => [writeUse d.toNat 2, srcUse a 0 4, srcUse b 1 2]
  | .cpy2d b a d => [writeUse d.toNat 2, srcUse a 0 8, srcUse b 1 2]
  | .gath b a d => [writeUse d.toNat 2, srcUse a 0 1, srcUse b 1 4]
  | .scat b a d => [writeUse d.toNat 2, srcUse a 0 1, srcUse b 1 4]
  | .abarInit b a => [srcUse a 0 1, srcUse b 1 1]
  | .abarArv b a d => [writeUse d.toNat 1, srcUse a 0 1, srcUse b 1 1]
  | .abarWait b a => [srcUse a 0 1, srcUse b 1 1]
  | .abarTry b a d => [writeUse d.toNat 1, srcUse a 0 1, srcUse b 1 1]
  | .qinit b a => [srcUse a 0 1, srcUse b 1 1]
  | .qpush b a => [srcUse a 0 1, srcUse b 1 1]
  | .qpop a d => [writeUse d.toNat 1, srcUse a 0 1]
  | .qpushTry b a d => [writeUse d.toNat 1, srcUse a 0 1, srcUse b 1 1]
  | .qtpop a d => [writeUse d.toNat 2, srcUse a 0 1]
  | .qallow b a => [srcUse a 0 1, srcUse b 1 1]
  | .qclose a => [srcUse a 0 1]
  | .qstat a d => [writeUse d.toNat 1, srcUse a 0 1]
  | .ores b a _ => [srcUse a 0 1, srcUse b 1 1]
  | .orel _ => []
  | .allock a d => [writeUse d.toNat 1, srcUse a 0 1]
  | .freek b a => [srcUse a 0 1, srcUse b 1 1]
  | .mld a _ => [srcUse a 0 4]
  | .mlds b a _ => [srcUse a 0 4, srcUse b 1 1]
  | .mlease a => [srcUse a 0 1]
  | .mma _ _ d => [readUse d.toNat 2]
  | .mmap _ _ d => [readUse d.toNat 2]
  | .mzero a => [srcUse a 0 1]
  | .maccr a d => [writeUse d.toNat 1, srcUse a 0 1]
  | .maccw b a => [srcUse a 0 1, srcUse b 1 1]
  | .mst a => [srcUse a 0 4]
  | .accsave a => [srcUse a 0 4]
  | .accload a => [srcUse a 0 4]
  | .bra _ _ _ => []
  | .brc _ _ _ => []
  | .call _ _ _ => []
  | .brx r _ _ => [readUse r.toNat 1]
  | .callx r _ _ => [readUse r.toNat 1]
  | .jset _ => []
  | .loop _ n => [readUse (96 + n.toNat) 1, writeUse (96 + n.toNat) 1]
  | .trapi _ => []
  | .signal _ a => [srcUse a 0 1]
  | .rdsr i d => [writeUse d.toNat (srWords i.toNat)]
  | .wrsr i a => [srcUse a 0 (srWords i.toNat)]
  | .brec _ a _ => [srcUse a 0 2]
  | .vstat _ a d => [srcUse a 0 1, writeUse d.toNat 1]
  | .rlaunch a => [srcUse a 0 2]
  | .tlbfill _ a => [srcUse a 0 4]
  | .tlbinv s a => [srcUse a 0 (if s = 1#2 then 0 else 2)]
  | .plogrd _ _ d => [writeUse d.toNat 4]
  | .actset a => [srcUse a 0 1]
  | .philox b a d => [srcUse a 0 4, srcUse b 1 2, writeUse d.toNat 4]
  | .coll b a _ => [srcUse a 0 1, srcUse b 1 1]
  | .add b d => [readUse (parcelSel d) 1, readUse (parcelSel b) 1, writeUse (parcelSel d) 1]
  | .sub b d => [readUse (parcelSel d) 1, readUse (parcelSel b) 1, writeUse (parcelSel d) 1]
  | .andParcel b d => [readUse (parcelSel d) 1, readUse (parcelSel b) 1, writeUse (parcelSel d) 1]
  | .orParcel b d => [readUse (parcelSel d) 1, readUse (parcelSel b) 1, writeUse (parcelSel d) 1]
  | .xorParcel b d => [readUse (parcelSel d) 1, readUse (parcelSel b) 1, writeUse (parcelSel d) 1]
  | .shlParcel b d => [readUse (parcelSel d) 1, readUse (parcelSel b) 1, writeUse (parcelSel d) 1]
  | .shrParcel b d => [readUse (parcelSel d) 1, readUse (parcelSel b) 1, writeUse (parcelSel d) 1]
  | .mov b d => [readUse (parcelSel b) 1, writeUse (parcelSel d) 1]
  | .faddParcel b d => [readUse (parcelSel d) 1, readUse (parcelSel b) 1, writeUse (parcelSel d) 1]
  | .fsubParcel b d => [readUse (parcelSel d) 1, readUse (parcelSel b) 1, writeUse (parcelSel d) 1]
  | .fmulParcel b d => [readUse (parcelSel d) 1, readUse (parcelSel b) 1, writeUse (parcelSel d) 1]
  | .fminParcel b d => [readUse (parcelSel d) 1, readUse (parcelSel b) 1, writeUse (parcelSel d) 1]
  | .fmaxParcel b d => [readUse (parcelSel d) 1, readUse (parcelSel b) 1, writeUse (parcelSel d) 1]
  | .imulParcel b d => [readUse (parcelSel d) 1, readUse (parcelSel b) 1, writeUse (parcelSel d) 1]
  | .addi _ d => [readUse (parcelSel d) 1, writeUse (parcelSel d) 1]
  | .movi _ d => [writeUse (parcelSel d) 1]
  | .grd _ _ _ => []
  | .xm _ _ _ _ _ _ _ _ => []
  | .beat _ => []
  | .brs _ => []
  | .waitcParcel _ _ => []
  | .sleep _ => []
  | .vclr => []
  | .acq => []
  | .rel => []
  | .acqrel => []
  | .fenceEng => []
  | .mrel => []
  | .rtt => []
  | .nop => []
  | .yield => []
  | .tfence => []
  | .exit => []
  | .ret => []
  | .join => []
  | .longLatencyFill => []
  | .accessPerformed => []
  | .requestRetire => []
  | .engineRequestStop => []
  | .deferredReportTrap => []
  | .copyPromiseMiss => []
  | .sleeptWake => []
  | .sleepWake => []
  | .yieldEnd => []
  | .groupEnd => []
  | .activityWindow => []
  | .boostCeiling => []
  | .arbiterPass => []
  | .leaseIdleEnd => []
  | .collectiveChunkSend => []
  | .chunkCreditReturn => []
  | .collectiveResume => []
  | .collectiveComplete => []
  | .pageWalk => []
  | .pageRequestRewalk => []
  | .pantryReplay => []
  | .remoteRequest => []
  | .remoteRetry => []
  | .peerRequest => []
  | .bar2Access => []
  | .railFlitReceive => []
  | .flitResend => []
  | .railRetrain => []
  | .railPortFailed => []
  | .qnotify => []
  | .vfDoorbell => []
  | .frontEndTurn => []
  | .noOperation => []
  | .launch => []
  | .queueIdleUnmap => []
  | .notifyWaitExpiry => []
  | .tokenRefill => []
  | .bucketDry => []
  | .budgetReached => []
  | .placementDecision => []
  | .blockReserving => []
  | .clusterGate => []
  | .preemptDrain => []
  | .preemptFreeze => []
  | .preemptResume => []
  | .drainHandler => []
  | .drainDeadline => []
  | .blockFreeze => []
  | .periodBoundary => []
  | .mergedBeats => []
  | .mergeWindowExpiry => []
  | .geyserStep => []
  | .poolWayChangeDone => []
  | .poolWayChangeSlow => []
  | .gloopBind => []
  | .gloopUnbind => []
  | .clockStepSwitch => []
  | .sensorSample => []
  | .refreshCommand => []
  | .currentCapWindow => []
  | .currentCapRise => []
  | .powerCapWindow => []
  | .scrub => []
  | .partActivate => []
  | .partDeactivate => []
  | .vdbindEnable => []
  | .queueEnable => []
  | .queueDisable => []
  | .vdlogTailWrite => []
  | .registerWrite => []
  | .recoveryGo => []
  | .startUp => []
  | .railRetrainComplete => []
  | .clusterWakeComplete => []
  | .partitionKeyLoad => []

/-- The buffer record an instruction names in a field of its own: it waits while a BREC of that record
is outstanding (R184). -/
def recordOf : Instr → Option Nat
  | .iadd _ _ _ => none
  | .isub _ _ _ => none
  | .imul _ _ _ => none
  | .imulhS _ _ _ => none
  | .imulhU _ _ _ => none
  | .imad _ _ _ => none
  | .iaddc _ _ _ => none
  | .isubb _ _ _ => none
  | .and _ _ _ => none
  | .or _ _ _ => none
  | .xor _ _ _ => none
  | .andn _ _ _ => none
  | .shl _ _ _ => none
  | .shr _ _ _ => none
  | .sar _ _ _ => none
  | .rotl _ _ _ => none
  | .iminS _ _ _ => none
  | .imaxS _ _ _ => none
  | .iminU _ _ _ => none
  | .imaxU _ _ _ => none
  | .popc _ _ => none
  | .clz _ _ => none
  | .brev _ _ => none
  | .iabs _ _ => none
  | .bfxU _ _ _ => none
  | .bfxS _ _ _ => none
  | .bfi _ _ _ => none
  | .bshuf _ _ _ => none
  | .shld _ _ _ => none
  | .shrd _ _ _ => none
  | .iaddi _ _ _ => none
  | .andi _ _ _ => none
  | .ori _ _ _ => none
  | .xori _ _ _ => none
  | .shli _ _ _ => none
  | .shri _ _ _ => none
  | .sari _ _ _ => none
  | .imuli _ _ _ => none
  | .fadd _ _ _ => none
  | .fsub _ _ _ => none
  | .fmul _ _ _ => none
  | .ffma _ _ _ => none
  | .ffms _ _ _ => none
  | .fmin _ _ _ => none
  | .fmax _ _ _ => none
  | .fnma _ _ _ => none
  | .dadd _ _ _ => none
  | .dsub _ _ _ => none
  | .dmul _ _ _ => none
  | .dfma _ _ _ => none
  | .dfms _ _ _ => none
  | .dmin _ _ _ => none
  | .dmax _ _ _ => none
  | .dnma _ _ _ => none
  | .hadd2F16 _ _ _ => none
  | .hmul2F16 _ _ _ => none
  | .hfma2F16 _ _ _ => none
  | .hmin2F16 _ _ _ => none
  | .hadd2Bf16 _ _ _ => none
  | .hmul2Bf16 _ _ _ => none
  | .hfma2Bf16 _ _ _ => none
  | .hmin2Bf16 _ _ _ => none
  | .frcp _ _ => none
  | .frsq _ _ => none
  | .fsqrt _ _ => none
  | .fex2 _ _ => none
  | .flg2 _ _ => none
  | .fsinr _ _ => none
  | .fcosr _ _ => none
  | .dsqrt _ _ => none
  | .icmpS _ _ _ _ => none
  | .icmpU _ _ _ _ => none
  | .fcmp _ _ _ _ => none
  | .dcmp _ _ _ _ => none
  | .hcmp2F16 _ _ _ _ => none
  | .hcmp2Bf16 _ _ _ _ => none
  | .plop _ _ _ _ => none
  | .sel _ _ _ _ => none
  | .cvt _ _ _ _ _ _ => none
  | .shflIdx _ _ _ => none
  | .shflUp _ _ _ => none
  | .shflDn _ _ _ => none
  | .shflXor _ _ _ => none
  | .voteAny _ _ _ => none
  | .voteAll _ _ _ => none
  | .ballot _ _ _ => none
  | .matchL _ _ => none
  | .rdaddF32 _ _ => none
  | .rdaddF64 _ _ => none
  | .rdaddI32 _ _ => none
  | .rdminF32 _ _ => none
  | .rdmaxF32 _ _ => none
  | .rdminI32 _ _ => none
  | .rdmaxI32 _ _ => none
  | .scanI32 _ _ _ => none
  | .ldk _ _ => none
  | .ldkh _ _ => none
  | .ldB _ _ r _ => some r.toNat
  | .ldBs _ _ r _ => some r.toNat
  | .ldH _ _ r _ => some r.toNat
  | .ldHs _ _ r _ => some r.toNat
  | .ldW _ _ r _ => some r.toNat
  | .ldD _ _ r _ => some r.toNat
  | .ldQ _ _ r _ => some r.toNat
  | .ldpW _ _ _ => none
  | .stB _ _ r _ => some r.toNat
  | .stH _ _ r _ => some r.toNat
  | .stW _ _ r _ => some r.toNat
  | .stD _ _ r _ => some r.toNat
  | .stQ _ _ r _ => some r.toNat
  | .stpW _ _ _ => none
  | .pref _ _ r => some r.toNat
  | .ldsW _ _ => none
  | .ldsD _ _ => none
  | .ldsQ _ _ => none
  | .stsW _ _ => none
  | .stsD _ _ => none
  | .stsQ _ _ => none
  | .ldsB _ _ => none
  | .stsB _ _ => none
  | .atomAdd s _ r _ => (if 2 ≤ s.toNat then some r.toNat else none)
  | .atomMinS s _ r _ => (if 2 ≤ s.toNat then some r.toNat else none)
  | .atomMaxS s _ r _ => (if 2 ≤ s.toNat then some r.toNat else none)
  | .atomAnd s _ r _ => (if 2 ≤ s.toNat then some r.toNat else none)
  | .atomOr s _ r _ => (if 2 ≤ s.toNat then some r.toNat else none)
  | .atomXor s _ r _ => (if 2 ≤ s.toNat then some r.toNat else none)
  | .atomExch s _ r _ => (if 2 ≤ s.toNat then some r.toNat else none)
  | .atomCas s _ r _ => (if 2 ≤ s.toNat then some r.toNat else none)
  | .redAdd s _ r _ => (if 2 ≤ s.toNat then some r.toNat else none)
  | .redMinS s _ r _ => (if 2 ≤ s.toNat then some r.toNat else none)
  | .redMaxS s _ r _ => (if 2 ≤ s.toNat then some r.toNat else none)
  | .redAnd s _ r _ => (if 2 ≤ s.toNat then some r.toNat else none)
  | .redOr s _ r _ => (if 2 ≤ s.toNat then some r.toNat else none)
  | .redXor s _ r _ => (if 2 ≤ s.toNat then some r.toNat else none)
  | .redExch s _ r _ => (if 2 ≤ s.toNat then some r.toNat else none)
  | .atomAddF32 s _ r _ => (if 2 ≤ s.toNat then some r.toNat else none)
  | .atomAddD s _ r _ => (if 2 ≤ s.toNat then some r.toNat else none)
  | .atomCasD s _ r _ => (if 2 ≤ s.toNat then some r.toNat else none)
  | .atomExchD s _ r _ => (if 2 ≤ s.toNat then some r.toNat else none)
  | .atomMinU s _ r _ => (if 2 ≤ s.toNat then some r.toNat else none)
  | .atomMaxU s _ r _ => (if 2 ≤ s.toNat then some r.toNat else none)
  | .atomIncWrap s _ r _ => (if 2 ≤ s.toNat then some r.toNat else none)
  | .atomAddF64 s _ r _ => (if 2 ≤ s.toNat then some r.toNat else none)
  | .redAddF32 s _ r _ => (if 2 ≤ s.toNat then some r.toNat else none)
  | .redAddD s _ r _ => (if 2 ≤ s.toNat then some r.toNat else none)
  | .redExchD s _ r _ => (if 2 ≤ s.toNat then some r.toNat else none)
  | .redMinU s _ r _ => (if 2 ≤ s.toNat then some r.toNat else none)
  | .redMaxU s _ r _ => (if 2 ≤ s.toNat then some r.toNat else none)
  | .redIncWrap s _ r _ => (if 2 ≤ s.toNat then some r.toNat else none)
  | .redAddF64 s _ r _ => (if 2 ≤ s.toNat then some r.toNat else none)
  | .ldv _ r _ => some r.toNat
  | .ldvsW _ r _ => some r.toNat
  | .ldvsD _ r _ => some r.toNat
  | .vrd _ r _ => some r.toNat
  | .casvW _ r _ => some r.toNat
  | .casvD _ r _ => some r.toNat
  | .vchk _ => none
  | .waitc _ _ => none
  | .sleept _ => none
  | .cpoll r _ _ => some r.toNat
  | .cpy _ _ _ => none
  | .cpy2d _ _ _ => none
  | .gath _ _ _ => none
  | .scat _ _ _ => none
  | .abarInit _ _ => none
  | .abarArv _ _ _ => none
  | .abarWait _ _ => none
  | .abarTry _ _ _ => none
  | .qinit _ _ => none
  | .qpush _ _ => none
  | .qpop _ _ => none
  | .qpushTry _ _ _ => none
  | .qtpop _ _ => none
  | .qallow _ _ => none
  | .qclose _ => none
  | .qstat _ _ => none
  | .ores _ _ _ => none
  | .orel _ => none
  | .allock _ _ => none
  | .freek _ _ => none
  | .mld _ _ => none
  | .mlds _ _ _ => none
  | .mlease _ => none
  | .mma _ _ _ => none
  | .mmap _ _ _ => none
  | .mzero _ => none
  | .maccr _ _ => none
  | .maccw _ _ => none
  | .mst _ => none
  | .accsave _ => none
  | .accload _ => none
  | .bra _ _ _ => none
  | .brc _ _ _ => none
  | .call _ _ _ => none
  | .brx _ _ _ => none
  | .callx _ _ _ => none
  | .jset _ => none
  | .loop _ _ => none
  | .trapi _ => none
  | .signal _ _ => none
  | .rdsr _ _ => none
  | .wrsr _ _ => none
  | .brec _ _ n => some n.toNat
  | .vstat _ _ _ => none
  | .rlaunch _ => none
  | .tlbfill _ _ => none
  | .tlbinv _ _ => none
  | .plogrd _ _ _ => none
  | .actset _ => none
  | .philox _ _ _ => none
  | .coll _ _ _ => none
  | .add _ _ => none
  | .sub _ _ => none
  | .andParcel _ _ => none
  | .orParcel _ _ => none
  | .xorParcel _ _ => none
  | .shlParcel _ _ => none
  | .shrParcel _ _ => none
  | .mov _ _ => none
  | .faddParcel _ _ => none
  | .fsubParcel _ _ => none
  | .fmulParcel _ _ => none
  | .fminParcel _ _ => none
  | .fmaxParcel _ _ => none
  | .imulParcel _ _ => none
  | .addi _ _ => none
  | .movi _ _ => none
  | .grd _ _ _ => none
  | .xm _ _ _ _ _ _ _ _ => none
  | .beat _ => none
  | .brs _ => none
  | .waitcParcel _ _ => none
  | .sleep _ => none
  | .vclr => none
  | .acq => none
  | .rel => none
  | .acqrel => none
  | .fenceEng => none
  | .mrel => none
  | .rtt => none
  | .nop => none
  | .yield => none
  | .tfence => none
  | .exit => none
  | .ret => none
  | .join => none
  | .longLatencyFill => none
  | .accessPerformed => none
  | .requestRetire => none
  | .engineRequestStop => none
  | .deferredReportTrap => none
  | .copyPromiseMiss => none
  | .sleeptWake => none
  | .sleepWake => none
  | .yieldEnd => none
  | .groupEnd => none
  | .activityWindow => none
  | .boostCeiling => none
  | .arbiterPass => none
  | .leaseIdleEnd => none
  | .collectiveChunkSend => none
  | .chunkCreditReturn => none
  | .collectiveResume => none
  | .collectiveComplete => none
  | .pageWalk => none
  | .pageRequestRewalk => none
  | .pantryReplay => none
  | .remoteRequest => none
  | .remoteRetry => none
  | .peerRequest => none
  | .bar2Access => none
  | .railFlitReceive => none
  | .flitResend => none
  | .railRetrain => none
  | .railPortFailed => none
  | .qnotify => none
  | .vfDoorbell => none
  | .frontEndTurn => none
  | .noOperation => none
  | .launch => none
  | .queueIdleUnmap => none
  | .notifyWaitExpiry => none
  | .tokenRefill => none
  | .bucketDry => none
  | .budgetReached => none
  | .placementDecision => none
  | .blockReserving => none
  | .clusterGate => none
  | .preemptDrain => none
  | .preemptFreeze => none
  | .preemptResume => none
  | .drainHandler => none
  | .drainDeadline => none
  | .blockFreeze => none
  | .periodBoundary => none
  | .mergedBeats => none
  | .mergeWindowExpiry => none
  | .geyserStep => none
  | .poolWayChangeDone => none
  | .poolWayChangeSlow => none
  | .gloopBind => none
  | .gloopUnbind => none
  | .clockStepSwitch => none
  | .sensorSample => none
  | .refreshCommand => none
  | .currentCapWindow => none
  | .currentCapRise => none
  | .powerCapWindow => none
  | .scrub => none
  | .partActivate => none
  | .partDeactivate => none
  | .vdbindEnable => none
  | .queueEnable => none
  | .queueDisable => none
  | .vdlogTailWrite => none
  | .registerWrite => none
  | .recoveryGo => none
  | .startUp => none
  | .railRetrainComplete => none
  | .clusterWakeComplete => none
  | .partitionKeyLoad => none

end Sys2Proof.Machine
end

