-- ==== Sys2Proof/Machine/Ops.lean ====
section
/-! DEFINITION. The named operations over registers, predicates, full/empty bits and the issuing split
(R49 to R55, R128, R137); ending a block (R361); taking a trap and returning from one (R189, R292 to
R296). -/

namespace Sys2Proof.Machine

/-- What a step answers. -/
abbrev Out := Host.Outcome State Fault Refusal

/-- The key of a group slot: 256 slots are counted for each core. -/
def slotKey (core slot : Nat) : Nat := 256 * core + slot

/-- A group's slot key. -/
def Group.key (g : Group) : Nat := slotKey g.core g.slot

/-- The machine with the issuing group changed. -/
def State.modG (s : State) (f : Group → Group) : State := { s with g := f s.g }

/-- The machine with the issuing split changed. -/
def State.modSp (s : State) (f : Split → Split) : State := { s with g := { s.g with sp := f s.g.sp } }

/-- The machine with the group of a core and slot changed. -/
def State.modGroup (s : State) (core slot : Nat) (f : Group → Group) : State :=
  if s.g.live = true ∧ s.g.core = core ∧ s.g.slot = slot then { s with g := f s.g }
  else { s with others := modFirst (fun g => g.core = core && g.slot = slot) f s.others }

/-- All splits of a group, the issuing one first. -/
def Group.splits (g : Group) : List Split := g.sp :: g.rest

/-- A group with each of its splits changed. -/
def Group.mapSplits (g : Group) (f : Split → Split) : Group :=
  { g with sp := f g.sp, rest := g.rest.map f }

/-- A group with its split of an age changed. -/
def Group.modSplit (g : Group) (age : Nat) (f : Split → Split) : Group :=
  g.mapSplits fun x => if x.age = age then f x else x

/-- The block of an id. -/
def State.block (s : State) (id : Nat) : Option Block := s.blocks.find? fun b => b.id = id

/-- The machine with a block changed. -/
def State.modBlock (s : State) (id : Nat) (f : Block → Block) : State :=
  { s with blocks := modFirst (fun b => b.id = id) f s.blocks }

/-- The machine with a launch changed. -/
def State.modLaunch (s : State) (rcb : Nat) (f : Launch → Launch) : State :=
  { s with launches := modFirst (fun l => l.rcb = rcb) f s.launches }

/-- The issuing group's launch. -/
def State.launch (s : State) : Option Launch := s.launchOf s.g.launch

/-! ### Registers -/

/-- The value of a register in a lane (R49). In trap mode 0x6C to 0x6F name h0 to h3 (R294). -/
def Group.read (g : Group) (sel : Nat) (l : Lane) : Word :=
  if sel < 96 then (vget g.v sel Row.zero)[l]
  else if sel < 112 then
    if 108 ≤ sel ∧ g.sp.trap = true then vget g.h (sel - 108) 0 else vget g.s (sel - 96) 0
  else if sel < 120 then (vget g.o (sel - 112) Row.zero)[l]
  else if sel < 124 then (vget g.q (sel - 120) Row.zero)[l]
  else if sel = 125 then BitVec.ofNat 32 l.val
  else 0

/-- The k-th register of an operand of several words; nul as a pair or quad reads 0 (R120). -/
def Group.readWord (g : Group) (sel k : Nat) (l : Lane) : Word :=
  if sel = 124 then 0 else g.read (sel + k) l

/-- A 64-bit operand, low word in the named register (R50, R137). -/
def Group.read64 (g : Group) (sel : Nat) (l : Lane) : BitVec 64 :=
  (g.readWord sel 1 l) ++ (g.readWord sel 0 l)

/-- Write a register in the lanes of m: nul, LANE and the q file are not written; an s register takes
the lowest lane's value, and keeps its own when no lane is active (R49, R51, R137). -/
def Group.writeReg (g : Group) (sel : Nat) (m : Mask) (f : Lane → Word) : Group :=
  if sel < 96 then { g with v := vset g.v sel ((vget g.v sel Row.zero).update m f) }
  else if sel < 112 then
    match lowest m with
    | none => g
    | some l =>
      if 108 ≤ sel ∧ g.sp.trap = true then { g with h := vset g.h (sel - 108) (f l) }
      else { g with s := vset g.s (sel - 96) (f l) }
  else if sel < 120 then { g with o := vset g.o (sel - 112) ((vget g.o (sel - 112) Row.zero).update m f) }
  else g

/-- Write the k-th register of a destination of several words. -/
def Group.writeWord (g : Group) (sel k : Nat) (m : Mask) (f : Lane → Word) : Group :=
  if sel = 124 then g else g.writeReg (sel + k) m f

/-- One shift of the q file in the lanes of m (R53). -/
def Group.shiftQ (g : Group) (m : Mask) (f : Lane → Word) : Group :=
  { g with q := #v[(g.q[0]).update m f, (g.q[1]).update m (fun l => (g.q[0])[l]),
                   (g.q[2]).update m (fun l => (g.q[1])[l]), (g.q[3]).update m (fun l => (g.q[2])[l])] }

/-- put of R137: the register is written and the q file shifts. -/
def Group.put (g : Group) (sel : Nat) (m : Mask) (f : Lane → Word) : Group :=
  (g.writeReg sel m f).shiftQ m f

/-- put64 of R137: low word to the register, high word to the next, two shifts. -/
def Group.put64 (g : Group) (sel : Nat) (m : Mask) (f : Lane → BitVec 64) : Group :=
  let lo := fun l => (f l).extractLsb' 0 32
  let hi := fun l => (f l).extractLsb' 32 32
  (((g.writeWord sel 0 m lo).writeWord sel 1 m hi).shiftQ m lo).shiftQ m hi

/-- A register's full/empty bit; q, nul, LANE and the h registers are always full (R54, R55). -/
def Group.full (g : Group) (sel : Nat) : Bool :=
  if sel < 96 then g.feV.getLsbD sel
  else if sel < 112 then (if 108 ≤ sel ∧ g.sp.trap = true then true else g.feS.getLsbD (sel - 96))
  else if sel < 120 then g.feO.getLsbD (sel - 112)
  else true

/-- Mark a register empty or full (R54); nul marks nothing. -/
def Group.setFull (g : Group) (sel : Nat) (x : Bool) : Group :=
  if sel < 96 then
    { g with feV := if x then g.feV ||| (1#96 <<< sel) else g.feV &&& ~~~(1#96 <<< sel) }
  else if sel < 112 then
    if 108 ≤ sel ∧ g.sp.trap = true then g
    else { g with feS := if x then g.feS ||| (1#16 <<< (sel - 96)) else g.feS &&& ~~~(1#16 <<< (sel - 96)) }
  else if sel < 120 then
    { g with feO := if x then g.feO ||| (1#8 <<< (sel - 112)) else g.feO &&& ~~~(1#8 <<< (sel - 112)) }
  else g

/-- Mark the registers at the given offsets from a selector. -/
def Group.setFulls (g : Group) (sel : Nat) (offs : List Nat) (x : Bool) : Group :=
  if sel = 124 then g else offs.foldl (fun t k => t.setFull (sel + k) x) g

/-- pred of R137: p7 reads true (R52). -/
def Group.pred (g : Group) (n : Nat) (l : Lane) : Bool := if n = 7 then true else laneIn (vget g.p n 0) l

/-- setpred of R137 in the lanes of m: a write to p7 is discarded (R52). -/
def Group.setPred (g : Group) (n : Nat) (m : Mask) (f : Lane → Bool) : Group :=
  { g with p := vset g.p n ((vget g.p n 0 &&& ~~~m) ||| (maskOf f &&& m)) }

/-- OR conditions into ARITHFLAGS (R105). -/
def Group.flag (g : Group) (x : BitVec 6) : Group := { g with arithFlags := g.arithFlags ||| x }

/-! ### The issuing split -/

/-- The active lanes: the split's lanes that pass an open guard window, less those a re-issue skips
(R128, R137, R189). -/
def Split.active (sp : Split) : Mask :=
  let m := if sp.guardLeft = 0 then sp.mask else sp.mask &&& sp.guardPass
  match sp.reissue with
  | none => m
  | some d => m &&& ~~~d

/-- The active lanes of the issuing split. -/
def State.act (s : State) : Mask := s.g.sp.active

/-- The address a trap of this instruction reports: the XM's when one precedes it (R132, R353). (Log entry 11.) -/
def State.issuePc (s : State) : Addr := if s.g.sp.xm.isSome then s.g.sp.pc - 2 else s.g.sp.pc

/-- The modifiers of the XM in force, none of them set when there is none (R130, R131). -/
def State.xm (s : State) : BitVec 10 := s.g.sp.xm.getD 0

/-- The instruction is complete: the pc moves past it, it counts in an open guard window, and an XM or
a re-issue is used up (R128, R131, R189). (Log entry 12.) -/
def Split.finish (sp : Split) (size : Nat) : Split :=
  { sp with pc := sp.pc + BitVec.ofNat 56 size, guardLeft := sp.guardLeft - 1, wait := .none
            xm := none, reissue := none }

/-- The machine with the issuing split past its instruction. -/
def State.finish (s : State) (i : Instr) : State := s.modSp fun sp => sp.finish i.size

/-- The split goes to an address instead. -/
def State.jump (s : State) (a : Addr) : State :=
  s.modSp fun sp => { sp.finish 0 with pc := a }

/-- The value of a register in the lowest active lane; 0 when no lane is active (R179, R205, R209). (Log entry 22.) -/
def State.scalar (s : State) (sel : Nat) : Word :=
  match lowest s.act with
  | none => 0
  | some l => s.g.read sel l

/-- The k-th word of an operand in the lowest active lane. (Log entry 22.) -/
def State.scalarWord (s : State) (sel k : Nat) : Word :=
  match lowest s.act with
  | none => 0
  | some l => s.g.readWord sel k l

/-- A 64-bit operand in the lowest active lane, as a number. -/
def State.scalar64 (s : State) (sel : Nat) : Nat :=
  (s.scalarWord sel 0).toNat + 2 ^ 32 * (s.scalarWord sel 1).toNat

/-- The selector of an 8-bit source field. -/
def selOf (f : BitVec 8) : Nat := f.toNat % 128

/-! ### Ending a block, taking a trap, and returning -/

/-- A block begins to end by a fault: its groups stop at their next issue slot, and the cause is kept
(R361). The first cause stands. -/
def State.endBlock (s : State) (id cause code : Nat) (double : Bool) : State :=
  let stop := fun (g : Group) => if g.block = id then { g with stopped := true, halting := [] } else g
  let pc := if s.g.live = true ∧ s.g.block = id then s.issuePc.toNat else 0
  let s1 := s.modBlock id fun b => if b.ending.isSome then b else { b with ending := some (cause, code, double, pc) }
  { s1 with g := stop s1.g, others := s1.others.map stop }

/-- The trap handler of the issuing group's launch (R294). -/
def State.handler (s : State) : Option Kernel :=
  match s.launch with
  | some l => l.handler
  | none => none

/-- TRAPCAUSE as a frame writes it (R295). -/
def Frame.causeWord (f : Frame) : Word :=
  BitVec.ofNat 32 (f.cause % 256 + f.code % 256 * 2 ^ 8 + b2n f.write * 2 ^ 16)

/-- Event 0x47, posted for a trap while EVTRING.trace is 1 (R364). -/
def State.traceTrap (s : State) (f : Frame) : State :=
  if bbit s.regs.evtring 70 then
    s.post { Event.of 0x47 (f.cause % 256 + popcount f.mask * 256) f.pc.toNat with
      part := s.partOf s.g, domain := s.domainOf s.g.launch, core := s.g.core, die := coreDie s.g.core
      launch := s.g.launch }
  else s

/-- The trap frame and the handler's state of the split, written in one step (R292): the pre-trap
state is kept, TRAPCAUSE, TRAPPC, TRAPMASK, DONEMASK and h0 to h3 are written, and the split goes to
the handler's entry with empty stacks and no guard window. Lanes that a re-issue skips stay in DONEMASK (R355), but not where
TRAPPC lies behind the instruction (R178, R180). (Log entry 14.) -/
def Group.enterTrap (g : Group) (f : Frame) (entry : Addr) : Group :=
  let skipped := if f.cause = 0x10 ∨ f.cause = 0x11 then 0 else g.sp.reissue.getD 0
  { g with
    pre := some { pc := f.pc, mask := g.sp.mask, joins := g.sp.joins, calls := g.sp.calls
                  guardLeft := g.sp.guardLeft, guardPass := g.sp.guardPass }
    trapCause := f.causeWord, trapPc := f.pc, trapMask := f.mask, doneMask := f.done ||| skipped
    h := #v[f.h0, f.h1, f.h2, f.h3]
    sp := { g.sp with pc := entry, joins := [], calls := [], guardLeft := 0, guardPass := 0
                      wait := .none, xm := none, trap := true, reissue := none } }

/-- The issuing split leaves the orders of arrival in which it waits; a lease that it waits for is not wanted now
(R220, R239, R292). -/
def State.leaveQueues (s : State) : State :=
  let mine := fun (w : Waiter) => w.core = s.g.core && w.slot = s.g.slot && w.split = s.g.sp.age
  { s with popWait := s.popWait.filter fun w => !mine w }.modCluster (coreCluster s.g.core) fun c =>
    { c with oresQ := c.oresQ.filter fun w => !mine w, allockQ := c.allockQ.filter fun w => !mine w
             table := c.table.filter fun e =>
               !(e.lease.isSome && e.core = s.g.core && e.slot = s.g.slot && e.split = s.g.sp.age) }

/-- Taking a trap on the issuing split (R292). In trap mode, or with no handler, the fault ends the
block instead (R358). -/
def State.takeTrap (s : State) (f : Frame) : State :=
  let s0 := s.tally 7 1 (some s.g.core) (coreDie s.g.core)
  if s.g.sp.trap = true then s0.endBlock s.g.block f.cause f.code true
  else match s.handler with
    | none => s0.endBlock s.g.block f.cause f.code false
    | some k => (s0.traceTrap f).leaveQueues.modG fun g => g.enterTrap f k.entry

/-- Return from trap mode (R189, R296): the mask, stacks and guard window are as they stood at entry,
and the instruction at TRAPPC is issued again for the lanes outside DONEMASK. When the handler has
moved TRAPPC and DONEMASK covers every lane, the split goes on at TRAPPC with its whole mask. (Log entry 14.) -/
def Group.returnTrap (g : Group) : Group :=
  match g.pre with
  | none => g
  | some k =>
    let skip := g.doneMask &&& k.mask
    let again := if skip = k.mask ∧ g.trapPc ≠ k.pc then none else some skip
    { g with
      pre := none, curReport := none
      sp := { g.sp with pc := g.trapPc, mask := k.mask &&& ~~~g.exited, joins := k.joins, calls := k.calls
                        guardLeft := k.guardLeft, guardPass := k.guardPass, trap := false
                        wait := .none, xm := none, reissue := again } }

end Sys2Proof.Machine
end

