-- ==== Sys2Proof/Machine/Values.lean ====
section
/-! DEFINITION. What the words that instructions take say (R60, R209, R210, R218, R227 to R230, R241 to R243), as far as the
checks at issue need it. -/

namespace Sys2Proof.Machine

/-! ### Formats and ranges -/

/-- Slice width in bytes (R227). -/
def sliceBytes (fmt : Nat) : Nat := if fmt = 2 ∨ fmt = 3 then 256 else if fmt = 6 then 64 else 128

/-- Group length G of a glen code (R228). -/
def groupLen (glen : Nat) : Nat := 32 * 2 ^ glen

/-- Scale bytes of one slice (R230). -/
def scaleBytes (fmt glen : Nat) : Nat := if fmt ≤ 1 then 4 else if 4 ≤ fmt then 256 / groupLen glen else 0

/-- Zero-point bytes of one slice (R230). -/
def zpBytes (fmt glen : Nat) : Nat := if fmt = 4 ∨ fmt = 6 then 128 / groupLen glen else 0

/-- A format code with a group length that an operand reservation may have (R227, R228). -/
def formatOk (fmt glen : Nat) : Bool := decide (fmt ≤ 6) && glen != 3 && (decide (4 ≤ fmt) || glen = 0)

/-- The fields of a reservation record (R228). -/
def resBase (d : BitVec 64) : Nat := bget d 0 8
def resUnits (d : BitVec 64) : Nat := bget d 8 9
def resFmt (d : BitVec 64) : Nat := bget d 17 4
def resGlen (d : BitVec 64) : Nat := bget d 21 2
def resStrided (d : BitVec 64) : Bool := bbit d 23
def resScale (d : BitVec 64) : Nat := bget d 32 16 * 64
def resZp (d : BitVec 64) : Nat := bget d 48 16 * 64

/-- Bytes of a unit (R67). -/
def unitBytes : Nat := 16384

/-- Bytes of one memory row of MLD or MLDS (R232, R233). -/
def rowLen (k : ReqKind) : Nat :=
  match k with
  | .mld d _ _ _ _ => sliceBytes (resFmt d)
  | .mlds d zero _ _ _ _ =>
    if zero then
      if resFmt d = 6 then max 1 (64 / groupLen (resGlen d)) else zpBytes (resFmt d) (resGlen d)
    else scaleBytes (resFmt d) (resGlen d)
  | _ => 0

/-- Bytes of a stored element by its conversion code (R242). -/
def convBytes (c : Nat) : Nat := if c = 1 ∨ c = 2 then 2 else if c = 3 ∨ c = 4 then 1 else 4

/-- The bytes of an engine image. -/
def imageLen (kind operand : Nat) : Nat :=
  if kind = 0 then 4096 * fld operand 6 7
  else if kind = 1 then 64 + resUnits (BitVec.ofNat 64 operand) * unitBytes
  else 64

/-! ### Control words -/

/-- The fields of a control word (R210). -/
structure Control where
  srec : Nat
  sscr : Bool
  drec : Nat
  dscr : Bool
  crec : Nat
  cen : Bool
  deriving DecidableEq, Repr

/-- A control word's fields. -/
def controlOf (w : Nat) : Control :=
  { srec := fld w 0 5, sscr := fld w 5 1 = 1, drec := fld w 6 5, dscr := fld w 11 1 = 1
    crec := fld w 12 5, cen := fld w 17 1 = 1 }

/-- What every control word obeys (R210). -/
def controlBad (w : Nat) : Bool :=
  let c := controlOf w
  fld w 18 14 != 0 || (c.sscr && c.dscr) || (c.sscr && c.srec != 0) || (c.dscr && c.drec != 0) ||
  (!c.cen && c.crec != 0)

/-- What a gather's, and a scatter's, control word obeys beside (R210). -/
def gatherBad (w : Nat) (scatter : Bool) : Bool :=
  let c := controlOf w
  controlBad w || c.sscr || c.dscr || (if scatter then c.srec != 0 else c.drec != 0)

/-! ### Ranges, banks and images -/

/-- The area of n slices from one on, of so many bytes each from an offset on, lies in the range; one without a byte
reaches nothing (R226, R230). (Log entry 23.) -/
def areaFits (d : BitVec 64) (off first n bytes : Nat) : Bool :=
  n = 0 || bytes = 0 || decide (off + (first + n) * bytes ≤ resUnits d * unitBytes)

/-- A core's cluster. -/
def State.engine (s : State) (core : Nat) : Cluster := s.clusterAt (coreCluster core)

/-- Banks first to first + n − 1 belong to a group. -/
def Cluster.owns (c : Cluster) (owner first n : Nat) : Bool :=
  decide (first + n ≤ 64) && (List.range n).all fun k => Smap.get 0 c.bankOwner (first + k) = owner

/-- The owner number of a group slot. -/
def ownerKey (core slot : Nat) : Nat := 1 + slotKey core slot

/-- The quarters of a split with an active lane: their lowest active lanes (R235). -/
def quarterLanes (m : Mask) : List Lane :=
  (List.range 4).filterMap fun q => (lanesOf m).find? fun l => l.val / 8 = q

/-- The group that PLOGRD serves (R190): the issuing group, or in the service slot the group whose freeze
or restoration the handler performs. -/
def State.served (s : State) : Nat × Nat :=
  if s.g.service then
    match s.others.find? fun x => x.block = s.g.block && x.producer = s.g.producer && !x.service with
    | some x => (x.core, x.slot)
    | none => (s.g.core, s.g.slot)
  else (s.g.core, s.g.slot)

/-! ### Scratchpad addresses, objects and queues -/

/-- The core and the offset in its scratchpad that a block's scratchpad address names, for a block on the
cluster of a core, when all n bytes lie in the block's share (R60). -/
def State.spmIn (s : State) (core blk a n : Nat) : Option (Nat × Nat) :=
  let c := clusterCore (coreCluster core) (a / 2 ^ 19 % 4)
  let off := a % 2 ^ 19
  if 2 ^ 21 ≤ a then none
  else match s.block blk with
    | none => none
    | some b =>
      match (b.cores.zip b.bases).find? fun x => x.1 = c with
      | some x => if off + n ≤ b.share then some (c, x.2 + off) else none
      | none => none

/-- The same for the block of a group. -/
def State.spmAt (s : State) (g : Group) (a n : Nat) : Option (Nat × Nat) := s.spmIn g.core g.block a n

/-- An object's place, when its bytes lie in the block's shares, at a 16-byte boundary (R209, R393 code 7): each of its
16-byte pieces lies in one share, and a share that is followed by the next one fills its bank. -/
def State.object (s : State) (a : Word) (n : Nat) : Option (Nat × Nat) :=
  let piece := fun (k : Nat) => s.spmAt s.g (a.toNat + 16 * k) (min 16 (n - 16 * k))
  if a.toNat % 16 ≠ 0 ∨ (List.range ((n + 15) / 16)).all (fun k => (piece k).isSome) = false then none else piece 0

/-- A place so many bytes behind the start of a bank: what lies beyond its end is in the cluster's next bank (R60). -/
def spmPlace (o : Nat × Nat) : Nat × Nat :=
  if o.2 < 2 ^ 19 then o
  else (clusterCore (coreCluster o.1) (coreInCluster o.1 + o.2 / 2 ^ 19), o.2 % 2 ^ 19)

/-- n bytes of a scratchpad, as a number. -/
def State.spmRead (s : State) (o : Nat × Nat) (n : Nat) : Nat :=
  let p := spmPlace o
  Memory.readLE (s.coreAt p.1).scratch p.2 n
/-- A queue object's header fields (R218). -/
def qDepth (x : Nat) : Nat := fld x 0 8 + 1
def qSize (x : Nat) : Nat := if fld x 8 1 = 1 then 8 else 4
def qClosed (x : Nat) : Bool := fld x 9 1 = 1
def qHead (x : Nat) : Nat := fld x 16 8
def qTail (x : Nat) : Nat := fld x 24 8
def qCount (x : Nat) : Nat := fld x 32 9

/-- The element a push takes from B (R209, R219). -/
def pushUse (b : BitVec 8) (x : Nat) : Option Use := if qSize x = 8 then some (srcUse b 1 2) else none

end Sys2Proof.Machine
end

