-- ==== Sys2Proof/Machine/Gate.lean ====
section
/-! DEFINITION. What every instruction checks before it acts (R34, R55, R353, R357, R359), and the shape of an instruction
behind those checks. -/

namespace Sys2Proof.Machine

/-! ### What is checked at issue -/

/-- The frame of an instruction-scope cause: TRAPMASK the active lanes, DONEMASK zero (R353, R355). -/
def State.frame (s : State) (cause code : Nat) (h0 h1 h2 h3 : Word) : Frame :=
  { cause := cause, code := code, write := false, pc := s.issuePc, mask := s.act, done := 0
    h0 := h0, h1 := h1, h2 := h2, h3 := h3 }

/-- The frame of causes 0x02, 0x03 and 0x04: h0 holds the instruction's bits (R353). -/
def State.illegal (s : State) (i : Instr) (cause : Nat) : Frame := s.frame cause 0 i.raw 0 0 0

/-- Lane instructions, which may stand in a guard window (R129). -/
def guardable (i : Instr) : Bool :=
  match i.head with
  | .w32 major minor => decide (major ≤ 21) || (major = 30 && minor = 0)
  | .p16 op => decide (op ≤ 16) || op = 18
  | .event => false

/-- The XM bits an instruction accepts (R131): bit k stands for payload bit 6 + k. -/
def xmAccepted (i : Instr) : BitVec 10 :=
  match i.head with
  | .w32 major minor =>
    if major = 5 ∨ major = 6 ∨ major = 7 ∨ major = 8 then 0b0111011111#10
    else if major = 9 ∧ 2 ≤ minor ∧ minor ≤ 5 then 0b0000001111#10
    else if major = 13 ∧ minor ≤ 1 then 0b0111000011#10
    else if (major = 0 ∧ (minor = 0 ∨ minor = 1 ∨ minor = 2 ∨ minor = 5)) ∨
        (major = 4 ∧ (minor = 0 ∨ minor = 7)) ∨ (major = 2 ∧ minor = 7) then 0b0000100000#10
    else 0
  | _ => 0

/-- An XM is in force that the instruction does not accept; a parcel accepts none (R131). -/
def State.xmBad (s : State) (i : Instr) : Bool :=
  match s.g.sp.xm with
  | none => false
  | some x =>
    match i.head with
    | .w32 _ _ => x &&& ~~~(xmAccepted i) != 0
    | _ => true

/-- The encoding causes (R359): a reserved value, an XM that is not accepted, or an instruction that
may not stand in the open guard window. -/
def State.encodingBad (s : State) (i : Instr) : Bool :=
  !i.wf || s.xmBad i || (decide (s.g.sp.guardLeft ≠ 0) && !guardable i)

/-- The registers of one lane a group may name: RCB.regs of them, the service slot's 48 (R50, R258). -/
def State.regLimit (s : State) : Nat :=
  if s.g.service then 48
  else match s.launch with
    | some l => l.regs
    | none => 96

/-- An operand that R50 and R120 allow. -/
def Use.ok (u : Use) (limit : Nat) : Bool :=
  if u.words = 0 then true
  else if u.sel < 96 then u.sel % u.words = 0 && decide (u.sel + u.words ≤ limit)
  else if u.sel < 112 then (u.sel - 96) % u.words = 0 && decide (u.sel - 96 + u.words ≤ 16)
  else if u.sel < 120 then u.words = 1
  else if u.sel < 124 then u.words = 1 && u.kind != .write
  else if u.sel = 124 then u.words = 1 || u.kind != .write
  else if u.sel = 125 then u.words = 1 && u.kind != .write
  else false

/-- A packed compare names an even predicate (R157). -/
def predOk : Instr → Bool
  | .hcmp2F16 _ _ _ d => d.toNat % 2 = 0
  | .hcmp2Bf16 _ _ _ d => d.toNat % 2 = 0
  | _ => true

/-- Where an instruction of major 29 is permitted (R187). -/
def State.privileged (s : State) (i : Instr) : Bool :=
  match i.head with
  | .w32 29 minor => s.g.service || (decide (2 ≤ minor) && s.g.sp.trap)
  | _ => true

/-- One of an operand's registers is empty. -/
def State.useEmpty (s : State) (u : Use) : Bool :=
  u.sel != 124 && (List.range u.live).any fun k => !s.g.full (u.sel + k)

/-- A register that makes the instruction block (R55, R118): an empty source with action 0, an empty
register read through a 7-bit field, an empty destination, or a record being loaded (R184). (Log entry 8.) -/
def State.blocksOn (s : State) (i : Instr) : Bool :=
  ((uses i).any fun u => !u.trap && s.useEmpty u) ||
  match recordOf i with
  | none => false
  | some n => s.g.bPend.getLsbD n

/-- How it waits: for an empty register, or for a record that a BREC still loads, which no merge carries (R32, R34). -/
def State.registerWait (s : State) (i : Instr) : Wait :=
  if (recordOf i).any fun n => s.g.bPend.getLsbD n then .record true else .empty true

/-- The first empty register whose field carries action 1 (R55, R357). (Log entry 8.) -/
def State.trapsOn (s : State) (i : Instr) : Option (Nat × Nat) :=
  (uses i).findSome? fun u =>
    if u.trap && s.useEmpty u then
      ((List.range u.live).find? fun k => !s.g.full (u.sel + k)).map fun k => (u.sel + k, u.field)
    else none

/-- The identifiers that are tile register words. -/
def srTile (id : Nat) : Bool := decide (0x40 ≤ id) && decide (id ≤ 0x4F)

/-- The trap-mode identifiers (R182). -/
def srTrap (id : Nat) : Bool := id = 0x20 || id = 0x22 || id = 0x24 || id = 0x25

/-- Special registers that RDSR may read, and that WRSR may write, in a mode (R182). -/
def srReadable (id : Nat) (trap : Bool) : Bool :=
  decide (id ≤ 8) || id = 0x10 || id = 0x12 || id = 0x14 || id = 0x18 || (srTrap id && trap) || id = 0x28 ||
  (decide (0x30 ≤ id) && decide (id ≤ 0x33)) || id = 0x38 || srTile id
def srWritable (id : Nat) (trap : Bool) : Bool := id = 0x18 || ((srTrap id || id = 0x38) && trap) || srTile id

/-- A d register holds a reservation (R228). -/
def resValid (d : BitVec 64) : Bool := bbit d 24

/-- An ACCLOAD of kind 1 into a d register is outstanding, and the register is not yet written (R243). -/
def State.dPending (s : State) (core owner n : Nat) : Bool :=
  s.reqs.any fun r => r.core = core && r.owner = owner && !r.done && match r.kind with
    | .accLoad 1 _ operand => operand = n
    | _ => false

/-- Operand uses that are illegal whatever the registers hold (R182, R226, R229, R353): a special register that may not
be read or written, and a d register that holds no reservation, or one where none may be. -/
def State.useBad (s : State) (i : Instr) : Bool :=
  let lacks := fun (n : Nat) => !s.dPending s.g.core s.g.slot n && !resValid (vget s.g.d n 0)
  match i with
  | .rdsr id _ => !srReadable id.toNat s.g.sp.trap
  | .wrsr id _ => !srWritable id.toNat s.g.sp.trap
  | .mld _ d => lacks d.toNat
  | .mlds _ _ d => lacks d.toNat
  | .orel d => lacks d.toNat
  | .mma b a _ => lacks a.toNat || lacks b.toNat
  | .mmap b a _ => lacks a.toNat || lacks b.toNat
  | .ores _ _ d => !s.dPending s.g.core s.g.slot d.toNat && resValid (vget s.g.d d.toNat 0)
  | _ => false

/-- A select word of MACCR and MACCW (R241): bank, row and chunk, or none when it is illegal. -/
def State.selectOf (t : State) (w : Nat) : Option (Nat × Nat × Nat) :=
  if fld w 11 21 = 0 ∧ (t.engine t.g.core).owns (ownerKey t.g.core t.g.slot) (fld w 0 6) 1 = true then
    some (fld w 0 6, fld w 6 3, fld w 9 2)
  else none

/-- What ACCSAVE and ACCLOAD act on (R243): the operand of the request, or none for an illegal use; the
inner none says that the instruction must wait. -/
def State.imageOperand (t : State) (load : Bool) (kind w : Nat) : Option (Option Nat) :=
  let slot := t.served.2
  let g := (t.groupAt t.served.1 slot).getD t.g
  if kind = 0 then
    let n := fld w 6 7
    if fld w 13 19 != 0 || n = 0 || decide (64 < n) || !(t.engine t.g.core).owns (ownerKey t.g.core slot) (fld w 0 6) n then none
    else some (some w)
  else if kind = 1 then
    if 16 ≤ w then none
    else if t.dPending t.g.core slot w then some none
    else
      let r := vget g.d w 0
      if load then (if resValid r then none else some (some w)) else (if resValid r then some (some r.toNat) else none)
  else if kind = 2 then (if w = 0 then some (some 0) else none)
  else none

/-- The k-th word of an operand in the lowest active lane, when its register is full. -/
def State.known (s : State) (f : BitVec 8) (k : Nat) : Option Nat :=
  if selOf f = 124 ∨ s.g.full (selOf f + k) = true then some (s.scalarWord (selOf f) k).toNat else none

/-- Two words that are both known. -/
def both (a b : Option Nat) (p : Nat → Nat → Bool) : Bool := a.any fun x => b.any (p x)

/-- What the words of a descriptor quad obey (R232, R233, R242, R243): the address' alignment, the pitch's, and the top of the
address. -/
def State.quadBad (s : State) (a : BitVec 8) (align : Nat) : Bool :=
  (s.known a 0).any (fun x => x % align != 0) || (s.known a 1).any fun x => decide (2 ^ 24 ≤ x)

/-- An illegal use that shows in the value of a register of which another register of the instruction, still empty, knows
nothing (R353): only instructions with several source registers have such. (Log entry 8.) -/
def State.valueBad (s : State) (i : Instr) : Bool :=
  let pend := fun (n : Nat) => s.dPending s.g.core s.g.slot n
  match i with
  | .cpy _ a _ => (s.known a 3).any controlBad
  | .cpy2d _ a _ => (s.known a 3).any controlBad || (s.known a 7).any fun x => x != 0
  | .gath b _ _ => (s.known b 3).any fun x => gatherBad x false
  | .scat b _ _ => (s.known b 3).any fun x => gatherBad x true
  | .ores _ a _ => (s.known a 0).any fun w =>
      fld w 16 16 != 0 || fld w 0 9 = 0 || decide (256 < fld w 0 9) || !formatOk (fld w 9 4) (fld w 13 2)
  | .freek b a => (s.known a 0).any (fun x => decide (64 ≤ x)) || (s.known b 0).any fun x => x = 0 || decide (64 < x)
  | .mld a d =>
    let r := vget s.g.d d.toNat 0
    !pend d.toNat && (s.quadBad a 16 || (s.known a 2).any (fun x => x % 16 != 0) || (s.known a 3).any fun w =>
      (resStrided r && decide (128 < fld w 16 16)) ||
      !areaFits r 0 (fld w 0 16) (if resStrided r then (if fld w 16 16 = 0 then 0 else 128) else fld w 16 16)
        (sliceBytes (resFmt r)))
  | .mlds b a d =>
    let r := vget s.g.d d.toNat 0
    let bytes := fun (k : Nat) => if k = 1 then zpBytes (resFmt r) (resGlen r) else scaleBytes (resFmt r) (resGlen r)
    !pend d.toNat && (s.quadBad a 16 || (s.known a 2).any (fun x => x % 16 != 0) ||
      (s.known b 0).any (fun k => decide (1 < k) || bytes k = 0) ||
      both (s.known a 3) (s.known b 0) fun w k =>
        !areaFits r (if k = 1 then resZp r else resScale r) (fld w 0 16) (fld w 16 16) (bytes k))
  | .maccw b _ => (s.known b 0).any fun w => (s.selectOf w).isNone
  | .mst a =>
    s.quadBad a 1 || (s.known a 2).any (fun x => x % 16 != 0) ||
    (s.known a 3).any (fun w =>
      fld w 13 19 != 0 || decide (5 < fld w 8 4) || (fld w 12 1 = 1 && fld w 8 4 != 3 && fld w 8 4 != 4) ||
      !(s.engine s.g.core).owns (ownerKey s.g.core s.g.slot) (fld w 0 6) (fld w 6 2 + 1)) ||
    both (s.known a 0) (s.known a 3) fun x w => x % convBytes (fld w 8 4) != 0
  | .accsave a => s.quadBad a 128 || (s.known a 2).any (fun x => decide (4 ≤ x)) ||
      both (s.known a 2) (s.known a 3) fun k w => (s.imageOperand false k w).isNone
  | .accload a => s.quadBad a 128 || (s.known a 2).any (fun x => decide (4 ≤ x)) ||
      both (s.known a 2) (s.known a 3) fun k w => (s.imageOperand true k w).isNone
  | .wrsr id a => id = 0x22#8 && ((s.known a 0).any (fun x => x % 2 = 1) || (s.known a 1).any fun x => decide (2 ^ 24 ≤ x))
  | .qpush b a => (s.known a 0).any fun x => (s.object (BitVec.ofNat 32 x) 400).any fun o =>
      (pushUse b (s.spmRead o 16)).any fun u => !u.ok s.regLimit
  | .qpushTry b a _ => (s.known a 0).any fun x => (s.object (BitVec.ofNat 32 x) 400).any fun o =>
      (pushUse b (s.spmRead o 16)).any fun u => !u.ok s.regLimit
  | _ => false

/-- What an instruction meets at issue, before it acts. -/
inductive Gate where
  | go
  | trap (f : Frame)
  | block
  deriving DecidableEq, Repr

/-- The checks at issue, in ascending cause number (R353), with the blocking of R34 before the
empty-read trap, and before that an illegal use that a full register's value shows. (Log entry 8.) -/
def gate (i : Instr) (s : State) : Gate :=
  if s.encodingBad i then .trap (s.illegal i 0x02)
  else if !((uses i).all fun u => u.ok s.regLimit) || !predOk i || s.useBad i then .trap (s.illegal i 0x03)
  else if !s.privileged i then .trap (s.illegal i 0x04)
  else if s.blocksOn i then .block
  else match s.trapsOn i with
    | some (sel, field) =>
      .trap (if s.valueBad i then s.illegal i 0x03 else s.frame 0x05 field (BitVec.ofNat 32 sel) 0 0 0)
    | none => .go

/-- The split waits with its instruction not issued (R34). (Log entry 9.) -/
def State.park (s : State) (w : Wait) : State := s.modSp fun sp => { sp with wait := w }

/-- A pending re-issue has no lane left to issue for (R189, R384). (Log entry 14.) -/
def State.noLane (s : State) : Bool :=
  match s.g.sp.reissue with
  | none => false
  | some d => s.g.sp.mask &&& ~~~d = 0

/-- An instruction's effect behind the checks at issue. A re-issue for no lane performs nothing and
goes on behind the instruction (R384). (Log entry 14.) -/
def run (i : Instr) (s : State) (body : State → Out) : Out :=
  if s.noLane then .next (s.finish i)
  else match gate i s with
    | .go => body s
    | .trap f => .next (s.takeTrap f)
    | .block => .next (s.park (s.registerWait i))

/-- An instruction whose effect always completes: it acts, and the split moves past it. -/
def complete (i : Instr) (s : State) (eff : State → State) : Out :=
  run i s fun t => .next ((eff t).finish i)

/-- An illegal operand use found by the instruction itself (R359). -/
def operandTrap (i : Instr) (s : State) : Out := .next (s.takeTrap (s.illegal i 0x03))

/-- The instruction waits and will issue again in full (R34, R220). (Log entry 9.) -/
def waits (s : State) : Out := .next (s.park (.blocked true))

/-- A fixed-latency lane instruction with a 32-bit result: flags, then the register and the q file
(R53, R137, R143). -/
def laneOp (i : Instr) (s : State) (d : Nat) (f : State → Lane → Word × BitVec 6) : Out :=
  complete i s fun t =>
    let m := t.act
    let fl := (lanesOf m).foldl (fun acc l => acc ||| (f t l).2) 0
    t.modG fun g => (g.put d m fun l => (f t l).1).flag fl

/-- The same with a 64-bit result. -/
def laneOp64 (i : Instr) (s : State) (d : Nat) (f : State → Lane → BitVec 64 × BitVec 6) : Out :=
  complete i s fun t =>
    let m := t.act
    let fl := (lanesOf m).foldl (fun acc l => acc ||| (f t l).2) 0
    t.modG fun g => (g.put64 d m fun l => (f t l).1).flag fl

end Sys2Proof.Machine
end

