-- ==== Sys2Proof/Machine/Splits.lean ====
section
/-! DEFINITION. How splits divide, serialise, arrive, join, merge and dissolve (R27 to R33, R172). -/

namespace Sys2Proof.Machine

/-- One arrival at the top entry's join PC (R30): the halves switch, or the whole mask comes back. Lanes that a merge has
added to a half arrive with it and are part of the whole (R32, R33). An instruction behind an XM issues with it at the XM's
address, and so does not arrive (R131). (Log entry 13.) -/
def Split.arrive1 (sp : Split) (exited : Mask) : Split :=
  if sp.xm.isSome then sp else
  match sp.joins with
  | [] => sp
  | e :: r =>
    if e.join = some sp.pc then
      if e.deferred then
        { sp with mask := e.pending &&& ~~~exited, pc := e.resume, reissue := none
                  joins := { e with deferred := false, pending := 0, whole := e.whole ||| sp.mask } :: r }
      else if e.whole ≠ 0 then { sp with mask := (e.whole ||| sp.mask) &&& ~~~exited, joins := r, reissue := none }
      else sp
    else sp

/-- Arrivals until none is left to make: a stack holds at most four entries. -/
def Split.arrive (sp : Split) (exited : Mask) : Nat → Split
  | 0 => sp
  | n + 1 =>
    if sp.reissue = none ∨ sp.reissue = some 0 then (sp.arrive1 exited).arrive exited n else sp

/-- A split without lanes runs the deferrals it still holds (R30, R33): the pending half, then the lanes
that wait at the join PC. (Log entry 13.) -/
def Split.settle (sp : Split) (exited : Mask) : Nat → Split
  | 0 => sp
  | n + 1 =>
    if sp.mask ≠ 0 then sp
    else match sp.joins with
      | [] => sp
      | e :: r =>
        if e.deferred then
          ({ sp with mask := e.pending &&& ~~~exited, pc := e.resume
                     joins := { e with deferred := false, pending := 0 } :: r }).settle exited n
        else
          ({ sp with mask := e.whole &&& ~~~exited, pc := e.join.getD sp.pc, joins := r }).settle exited n

/-- The issuing split dissolves when it holds no lane: another split of the group takes its place. -/
def Group.dissolve (g : Group) : Group :=
  if g.sp.mask ≠ 0 then g
  else match g.rest with
    | [] => g
    | x :: r => { g with sp := x, rest := r }

/-- EXIT of the lanes of m (R33). -/
def Group.exitLanes (g : Group) (m : Mask) (next : Addr) : Group :=
  let ex := g.exited ||| m
  let left := g.sp.mask &&& ~~~m
  let sp := { g.sp with mask := left, pc := next, wait := .none, xm := none, reissue := none }
  ({ g with exited := ex, sp := sp.settle ex 9 }).dissolve

/-- How many splits a group holds. -/
def Group.splitCount (g : Group) : Nat := (g.splits.filter fun x => x.mask ≠ 0).length

/-- A split divides (R28): the taken lanes form the youngest split at the target, with copies of the
join stack and the call stack. (Log entry 13.) -/
def Group.divide (g : Group) (taken : Mask) (target fall : Addr) : Group :=
  let sp := { g.sp.finish 0 with pc := fall, mask := g.sp.mask &&& ~~~taken }
  let new := { g.sp.finish 0 with pc := target, mask := taken, age := g.nextAge, anc := g.nextAge :: g.sp.anc }
  { g with sp := sp, rest := g.rest ++ [new], nextAge := g.nextAge + 1 }

/-- A split serialises (R29): the not-taken lanes are deferred under the current join PC. -/
def Group.serialise (g : Group) (taken : Mask) (target fall : Addr) : Group :=
  let e : JoinEntry :=
    { join := match g.sp.joins with
        | [] => none
        | t :: _ => t.join
      deferred := true, resume := fall, pending := g.sp.mask &&& ~~~taken, whole := g.sp.mask }
  { g with sp := { g.sp.finish 0 with pc := target, mask := taken, joins := e :: g.sp.joins } }

/-- A split that a JOIN at J concerns (R31, R172): its top entry's join PC is J with an empty deferral,
and its call stack equals the issuing split's. (Log entry 13.) -/
def joiner (j : Addr) (calls : List Addr) (x : Split) : Bool :=
  match x.joins with
  | [] => false
  | e :: _ => e.join = some j && !e.deferred && x.calls = calls

/-- A concerned split stands at J with its arrivals made, in no wait but that of its JOIN: one that sleeps or yields in front
of J has not come to it (R31, R175, R207). -/
def standsAt (j : Addr) (x : Split) : Bool :=
  x.pc = j && x.xm = none && (match x.wait with
    | .none => true
    | .blocked _ => true
    | _ => false) && match x.joins with
    | [] => true
    | e :: _ => e.whole = 0

/-- The oldest of some splits. -/
def oldest (d : Split) (l : List Split) : Split :=
  l.foldl (fun a x => if x.age < a.age then x else a) d

/-- The union of the masks, and of the splits descended from. -/
def unionMask (l : List Split) : Mask := l.foldl (fun m x => m ||| x.mask) 0
def unionAnc (l : List Split) : List Nat := (l.flatMap fun x => x.anc).eraseDups

/-- What a merge gives to the splits that descend from the merged one: its ancestors precede theirs too, since program
order is transitive (R73). (Log entry 13.) -/
def passAnc (a x : Split) : Split :=
  if x.age ≠ a.age ∧ x.anc.contains a.age then { x with anc := (x.anc ++ a.anc).eraseDups } else x

/-- The splits of a JOIN become one: the oldest of them, with its guard window, goes on for all (R31).
(Log entries 12 and 13.) -/
def Group.joinAt (g : Group) (j : Addr) (next : Addr) : Group :=
  let js := g.splits.filter fun x => x.mask != 0 && joiner j g.sp.calls x
  let old := oldest g.sp js
  let sp := { old with pc := next, mask := unionMask js, joins := old.joins.tail, wait := .none, xm := none
                       reissue := none, anc := unionAnc js }
  { g with sp := sp, rest := (g.rest.filter fun x => !joiner j g.sp.calls x).map (passAnc sp) }

/-- A split that may take part in an automatic merge (R32, R129, R172): it is in no wait but that for
an empty register, is not among those that something else holds, and holds no guard window, no XM, no trap and no pending
re-issue. (Log entry 12.) -/
def Split.mergeable (held : List Nat) (x : Split) : Bool :=
  (match x.wait with
    | .none => true
    | .empty _ => true
    | _ => false) && !held.contains x.age && x.guardLeft = 0 && x.xm = none && !x.trap && x.reissue = none && x.mask != 0

/-- Two splits merge, the first the older (R32, R172). -/
def mayMerge (held : List Nat) (a b : Split) : Bool :=
  a.pc = b.pc && a.mergeable held && b.mergeable held && a.calls = b.calls && decide (a.age < b.age) &&
  b.joins.all fun e => !e.deferred

/-- The merged split (R32): blocked when either was. -/
def merged (a b : Split) : Split :=
  { a with mask := a.mask ||| b.mask, anc := (a.anc ++ b.anc).eraseDups
           wait := if a.wait = .none ∧ b.wait = .none then .none else .empty false }

/-- Merge into a the first split of a list that it may merge with, or that may merge with it. -/
def mergeInto (held : List Nat) (a : Split) : List Split → Split × List Split
  | [] => (a, [])
  | b :: r =>
    if mayMerge held a b then (merged a b, r)
    else if mayMerge held b a then (merged b a, r)
    else
      let t := mergeInto held a r
      (t.1, b :: t.2)

/-- One automatic merge among some splits, the first that there is. -/
def mergeOnce (held : List Nat) : List Split → List Split
  | [] => []
  | a :: r =>
    let t := mergeInto held a r
    if t.2.length < r.length then t.1 :: t.2 else a :: mergeOnce held r

/-- Every split of a group after a merge, with what its ancestors gained (R73). -/
def passAll (l : List Split) : List Split := l.map fun x => l.foldl (fun z a => passAnc a z) x

/-- The automatic merges of one issue slot of a group (R32): splits at equal PCs become one, the issuing split first; of
four splits at most three merge away. Splits of the listed ages are held, and do not merge. (Log entry 54.) -/
def Group.autoMerge (g : Group) (held : List Nat) : Nat → Group
  | 0 => g
  | n + 1 =>
    let l := mergeOnce held (g.sp :: g.rest)
    (match if l.length ≤ g.rest.length then passAll l else l with
      | [] => g
      | x :: r => { g with sp := x, rest := r }).autoMerge held n

end Sys2Proof.Machine
end

