-- ==== Sys2Proof/Machine/Issue.lean ====
section
/-! DEFINITION. Fetching the instruction that a split issues next (R115, R116, R134, R136, R294, R368,
R371), the weights of the activity budget (R259), and which splits and groups are ready (R34). -/

namespace Sys2Proof.Machine

/-- The bytes behind a translated address, little-endian: device memory, host memory or a peer's. -/
def State.peek (s : State) (t : Target) (n : Nat) : Nat :=
  match t with
  | .dev a => Memory.readLE s.dev a n
  | .host p a => Memory.readLE s.host (hostAt p a) n
  | .peer d a => (s.peer d).elim 0 fun p => Memory.readLE p.mem a n
  | .spm c o => Memory.readLE (s.coreAt c).scratch o n

/-- The code that a split of a group runs: its launch's kernel, or in trap mode the handler (R294). -/
def State.codeOf (s : State) (g : Group) (sp : Split) : Option Kernel :=
  match s.launchOf g.launch with
  | none => none
  | some l => if sp.trap then l.handler else some l.code

/-- What a fetch finds. -/
inductive Fetched where
  | instr (i : Instr)
  /-- no instruction: its 32 bits, a parcel zero-extended -/
  | undef (w : Nat)
  | trap (f : Frame)
  /-- the page is absent -/
  | held (page : Nat)
  deriving DecidableEq, Repr

/-- A frame for a fetch at an address: the cause, its code, and the h words of R356. (Log entry 10.) -/
def fetchFrame (sp : Split) (cause code : Nat) (pc a : Addr) : Frame :=
  let h := decide (cause ≠ 0x01)
  { cause := cause, code := code, write := false, pc := pc, mask := sp.active, done := 0
    h0 := if h then a.extractLsb' 0 32 else 0
    h1 := if h then (a.extractLsb' 32 24).zeroExtend 32 else 0, h2 := 0
    h3 := if h then (lowest sp.active).elim 0 (fun l => BitVec.ofNat 32 l.val) else 0 }

/-- One parcel of code, as memory holds it now, with what the translation leaves behind: a poisoned line reveals itself, and a
parcel of a peer is a request on the rail, which may hold (R116, R329, R398). (Log entry 10.) -/
def State.fetchParcel (s : State) (g : Group) (sp : Split) (k : Kernel) (a : Addr) :
    (Fetched ⊕ Nat) × State :=
  let off := a.toNat - k.entry.toNat
  if a.toNat < k.entry.toNat ∨ k.size < off + 2 then (.inl (.trap (fetchFrame sp 0x01 0 a a)), s)
  else
    match s.translate g.core (s.partOf g) a.toNat false true false (s.domainOf g.launch) with
    | (.ok t, s1) =>
      match t with
      | .dev pa =>
        let line := pa / Config.lineBytes
        if s1.poisoned line then (.inl (.trap (fetchFrame sp 0x0E (Smap.get 0 s1.poison line) sp.pc a)), s1.revealAt t)
        else (.inr (s1.peek t 2), s1)
      | .peer _ _ =>
        if s1.railHolds (coreDie g.core) then (.inl (.held (a.toNat / 2 ^ 16)), s1)
        else (.inr (s1.peek t 2), s1.railTurn g.core [t])
      | _ => (.inr (s1.peek t 2), s1)
    | (.absent, s1) => (.inl (.held (a.toNat / 2 ^ 16)), s1)
    | (.refused cause code _, s1) => (.inl (.trap (fetchFrame sp cause code sp.pc a)), s1)

/-- An instruction word with the value of a patch in its field (R121, R136). -/
def Patch.overlay (p : Patch) (w : Nat) : Nat :=
  if p.kind = 0 then w % 2 ^ 24 + p.value % 2 ^ 8 * 2 ^ 24
  else if p.kind = 1 then w % 2 ^ 13 + p.value % 2 ^ 19 * 2 ^ 13
  else w % 2 ^ 13 + p.value % 2 ^ 13 * 2 ^ 13 + fld w 26 6 * 2 ^ 26

/-- The instruction at a split's pc (R115, R116, R136). (Log entry 10.) -/
def State.fetch (s : State) (g : Group) (sp : Split) : Fetched × State :=
  match s.codeOf g sp with
  | none => (.trap (fetchFrame sp 0x01 0 sp.pc sp.pc), s)
  | some k =>
    match s.fetchParcel g sp k sp.pc with
    | (.inl r, s1) => (r, s1)
    | (.inr lo, s1) =>
      if lo % 2 = 0 then
        (match decode16 lo with
          | .ok i => .instr i
          | .error _ => .undef lo, s1)
      else
        match s1.fetchParcel g sp k (sp.pc + 2) with
        | (.inl r, s2) => (r, s2)
        | (.inr hi, s2) =>
          let w0 := lo + 2 ^ 16 * hi
          let off := (sp.pc.toNat - k.entry.toNat) / 2
          let w := match k.patches.find? fun p => p.parcel = off with
            | some p => p.overlay w0
            | none => w0
          (match decode32 w with
            | .ok i => .instr i
            | .error _ => .undef w, s2)

/-- The weight of an instruction in the activity budget (R259); quarters is the number of
quarter-operations an MMA or MMAP would enter, wide says that its operands are BF16 or FP16. -/
def weight (i : Instr) (quarters : Nat) (wide : Bool) : Nat :=
  match i.head with
  | .event => 0
  | .p16 op => if 8 ≤ op ∧ op ≤ 12 then 1 else 0
  | .w32 major minor =>
    if major = 5 ∨ major = 7 ∨ major = 11 ∨ (16 ≤ major ∧ major ≤ 21) then 1
    else if major = 6 ∨ major = 8 then 2
    else if major = 13 then (if minor = 1 then 2 else if minor = 0 ∨ minor = 3 ∨ minor = 4 then 1 else 0)
    else if major = 23 then (if minor ≤ 3 then 1 else 0)
    else if major = 25 then (if minor = 4 ∨ minor = 5 then 2 else 0)
    else if major = 26 then
      (if minor ≤ 1 then quarters * (if wide then 8 else 4) else if minor = 5 then 2 else 0)
    else if major = 30 then (if minor = 0 then 2 else 1)
    else 0

/-- A wait that has ended, or none. -/
def Split.tryable (sp : Split) : Bool :=
  sp.mask != 0 && match sp.wait with
    | .none => true
    | .empty tried => !tried
    | .record tried => !tried
    | .blocked tried => !tried
    | _ => false

/-- Some split of the group is in trap mode. -/
def Group.trapMode (g : Group) : Bool := g.splits.any fun x => x.trap

/-- A split of a group that may be tried at an issue slot (R34, R292). -/
def Group.mayIssue (g : Group) (sp : Split) : Bool :=
  g.live && !g.stopped && sp.tryable && (sp.trap || !g.trapMode)

/-- The group with a split of it brought to the front. -/
def Group.focus (g : Group) (age : Nat) : Group :=
  if g.sp.age = age then g
  else match g.rest.find? fun x => x.age = age with
    | none => g
    | some x => { g with sp := x, rest := g.sp :: g.rest.filter fun y => y.age ≠ age }

/-- The device with a resident group, and a split of it, brought to the front. -/
def State.focus (s : State) (core slot age : Nat) : State :=
  if s.g.live = true ∧ s.g.core = core ∧ s.g.slot = slot then { s with g := s.g.focus age }
  else match s.others.find? fun x => x.core = core && x.slot = slot with
    | none => s
    | some x =>
      { s with g := x.focus age
               others := (if s.g.live then [s.g] else []) ++
                 s.others.filter fun y => !(y.core = core && y.slot = slot) }

/-- The clock of a cluster stands still: it is gated, or one of its vaults is hot (R399, R406). -/
def State.clockStopped (s : State) (cl : Nat) : Bool :=
  (s.clusterAt cl).gated || (List.range 4).any fun k => (s.vaultAt (clusterCore cl k)).hot

/-- A group's block waits for its cluster to wake, or for its banks and ranges (R299, R399). -/
def State.asleep (s : State) (g : Group) : Bool :=
  match s.block g.block with
  | some b => b.waking || b.restoring.isSome
  | none => false

/-- Nothing outside its splits keeps a group from issuing. -/
def State.mayRun (s : State) (g : Group) : Bool :=
  g.live && (!g.stopped || !g.halting.isEmpty) && !s.clockStopped (coreCluster g.core) && !s.asleep g

/-- The weighted count of a core in the window of a clock: a window begins at every 32nd (R191, R259). -/
def Core.windowed (c : Core) (clock : Nat) : Core :=
  if c.actWindow = clock / 32 then c
  else { c with actWindow := clock / 32, actCount := 0, actClosed := false, actBudget := c.actNext.getD c.actBudget, actNext := none }

/-- A core with its activity window as it stands now, and the device with such a core changed. -/
def State.actNow (s : State) (core : Nat) : Core := (s.coreAt core).windowed (s.clusterAt (coreCluster core)).cycle
def State.modAct (s : State) (core : Nat) (f : Core → Core) : State := s.modCore core fun _ => f (s.actNow core)

/-- What follows an XM of the issuing split, which issues with it in one slot (R131). -/
def State.behindXm (s : State) (i : Instr) : Option (Fetched × State) :=
  if i.head = .p16 18 then
    let t := s.modSp fun sp => { sp with pc := sp.pc + 2, xm := some 0 }
    some (t.fetch t.g t.g.sp)
  else none

/-- The weight of an instruction of the issuing split, and how much of it is quarter-operations; an XM counts with the
instruction that it modifies (R259, R264). -/
def State.weightOf (s : State) (i : Instr) : Nat × Nat :=
  let quarters := fun (a : BitVec 4) =>
    let f := resFmt (vget s.g.d a.toNat 0)
    let w := weight i (quarterLanes s.act).length (f = 2 || f = 3)
    (w, w)
  match i with
  | .mma _ a _ => quarters a
  | .mmap _ a _ => quarters a
  | _ => match s.behindXm i with
    | some (.instr j, _) => (weight j 0 false, 0)
    | _ => (weight i 0 false, 0)

/-- The activity budget holds an instruction of that weight (R260, R261). -/
def State.budgetHolds (s : State) (w : Nat) : Bool :=
  let c := s.actNow s.g.core
  decide (0 < w) && !s.g.sp.trap && !s.g.service && (c.actClosed || decide (c.actBudget < c.actCount + w))

/-- The split's next instruction waits for a register, or for what an XM would modify (R34, R131). -/
def State.lacks (s : State) (i : Instr) : Bool :=
  s.blocksOn i || match s.behindXm i with
    | some (.instr j, t) => t.blocksOn j
    | _ => false

/-- The split's next instruction, or what an XM of it would modify, names a record that a BREC still loads (R34, R131,
R184). -/
def State.recordHeld (s : State) (g : Group) (sp : Split) : Bool :=
  let pend := fun (i : Instr) => (recordOf i).any fun n => g.bPend.getLsbD n
  match (s.fetch g sp).1 with
  | .instr i => pend i || match ({ s with g := g.focus sp.age }).behindXm i with
    | some (.instr j, _) => pend j
    | _ => false
  | _ => false

/-- The activity budget has closed the window, and holds the split's next instruction (R34, R260). -/
def State.heldSplit (s : State) (g : Group) (sp : Split) : Bool :=
  match (s.fetch g sp).1 with
  | .instr i =>
    let t := { s with g := g.focus sp.age }
    (s.actNow g.core).actClosed && t.budgetHolds (t.weightOf i).1
  | _ => false

/-- The split waits for nothing but the budget: it needs no register that keeps its next instruction from issuing, and does
not hold for a translation (R34's first points). -/
def State.splitOpen (s : State) (g : Group) (sp : Split) : Bool :=
  g.mayIssue sp &&
  match (s.fetch g sp).1 with
  | .instr i => !({ s with g := g.focus sp.age }).lacks i
  | _ => true

/-- A split is ready (R34). -/
def State.splitReady (s : State) (g : Group) (sp : Split) : Bool := s.splitOpen g sp && !s.heldSplit g sp

/-- A group is ready when at least one of its splits is (R34). -/
def State.groupReady (s : State) (g : Group) : Bool := s.mayRun g && g.splits.any fun sp => s.splitReady g sp

/-- Issue partition of a slot (R34). -/
def issuePart (slot : Nat) : Nat := slot % 12

/-- The service slot is part 0 of its core, issue partition n is part 1 + n (R258, R260). -/
def Group.partNo (g : Group) : Nat := if g.service then 0 else 1 + issuePart g.slot

/-- The next slot of a part of a core: the clock, and the place among that clock's 25 slots (R257, R260). -/
def Core.slotOf (c : Core) (part : Nat) : Nat × Nat :=
  let a := if part = 0 then 0 else 2 * part - 1
  let b := if part = 0 then 0 else 2 * part
  if c.place ≤ a then (c.round, a) else if c.place ≤ b then (c.round, b) else (c.round + 1, a)

/-- The number of the next slot of a part, two to a clock. -/
def Core.slotNo (c : Core) (part : Nat) : Nat :=
  let k := c.slotOf part
  2 * k.1 + (if 0 < k.2 ∧ k.2 % 2 = 0 then 1 else 0)

/-- Who took the first slot of the clock, when a place is the second of its partition. -/
def Core.takenAt (c : Core) (k : Nat × Nat) : Option (Nat × Nat) :=
  if k.1 = c.round ∧ 0 < k.2 ∧ k.2 % 2 = 0 then c.first.map fun x => (x.1, x.2.1) else none

/-- The flags that the first slot of a clock raised, for another split of the group in the second (R106). -/
def State.raisedFirst (s : State) : BitVec 6 :=
  let c := s.coreAt s.g.core
  match c.takenAt (c.slotOf s.g.partNo), c.first with
  | some (slot, age), some x => if slot = s.g.slot ∧ age ≠ s.g.sp.age then x.2.2 else 0
  | _, _ => 0

/-- A SLEEP, SLEEPT or YIELD of a split is over (R175, R207). (Log entry 54.) -/
def State.waitOver (s : State) (g : Group) (sp : Split) : Bool :=
  match sp.wait with
  | .sleep n => decide (n ≤ (s.clusterAt (coreCluster g.core)).cycle)
  | .sleept n => decide (n ≤ s.timer)
  | .yielded gs n => gs.isEmpty || decide (n < (s.coreAt g.core).slotNo g.partNo)
  | _ => false

end Sys2Proof.Machine
end

