-- ==== Sys2Proof/Machine/Access.lean ====
section
/-! DEFINITION. Performing accesses: the L1 (R63, R64, R72, R74), the dirty log (R323, R324, R417), the
pantry (R311, R374 to R376), atomics (R199, R200), versioned accesses (R89, R201 to R204), and the
order in which a split's accesses may be performed (R73 to R75). -/

namespace Sys2Proof.Machine

/-! ### The dirty log -/

/-- The VDLOG record of a virtual device (R323). -/
def State.vdlog (s : State) (v : Nat) : BitVec 256 := vget s.regs.vdlog v 0

/-- Free entries at or below the margin (R324). -/
def vdlogThrottled (r : BitVec 256) : Bool :=
  decide (2 ^ bget r 64 5 ≤ (bget r 96 32 + 2 ^ 32 - bget r 128 32) % 2 ^ 32 + bget r 160 32)

/-- The ring of a dirty log has no free entry (R417). -/
def vdlogFull (r : BitVec 256) : Bool := decide (2 ^ bget r 64 5 ≤ (bget r 96 32 + 2 ^ 32 - bget r 128 32) % 2 ^ 32)

/-- A write to a page of a launch of a virtual device has its entry in the ring, or gets it now; none when the ring has
no free entry, or its partition may not reach host memory, and the write must wait (R322, R324, R417).
(Log entry 56.) -/
def State.logPage (s : State) (vd : Option Nat) (host : Bool) (addr : Nat) : Option State :=
  match vd with
  | none => some s
  | some v =>
    let r := s.vdlog v
    let entry := addr / 2 ^ 16 * 2 ^ 16 % 2 ^ 64 + b2n host
    let head := bget r 96 32
    if !bbit r 72 || s.logged.any (fun x => x.vd = v && x.entry = entry) then some s
    else if vdlogFull r || !s.hostLive (bget (vget s.regs.vdbind v 0) 0 4) then none
    else
      let r1 := bset r 96 32 (head + 1)
      some { s with
        host := Memory.writeLE s.host
          (hostAt (s.hostPort (bget (vget s.regs.vdbind v 0) 0 4)) (bget r 0 64 + 8 * (head % 2 ^ bget r 64 5))) 8 entry
        logged := s.logged ++ [⟨v, head, entry⟩]
        regs := { s.regs with vdlog := vset s.regs.vdlog v (bset r1 73 1 (b2n (vdlogThrottled r1))) } }

/-- Event 0x58, once per filling (R417). -/
def State.logFullEvent (s : State) (vd : Option Nat) : State :=
  match vd with
  | none => s
  | some v =>
    if s.logFull.contains v || !vdlogFull (s.vdlog v) then s
    else { s with logFull := v :: s.logFull }.post { Event.of 0x58 v 0 with part := bget (vget s.regs.vdbind v 0) 0 4 }

/-- Log every page of a list of targets that a write reaches; none when one must wait. (Log entry 56.) -/
def State.logTargets (s : State) (vd : Option Nat) : List Target → Option State
  | [] => some s
  | .dev pa :: r => (s.logPage vd false pa).bind fun t => t.logTargets vd r
  | .host _ ha :: r => (s.logPage vd true ha).bind fun t => t.logTargets vd r
  | _ :: r => s.logTargets vd r

/-- The virtual device of a launch's queue, if it has one. -/
def State.vdOf (s : State) (rcb : Nat) : Option Nat := (s.launchOf rcb).bind fun l => l.vd

/-! ### The L1 -/

/-- The line of a core's L1, if it holds it. -/
def Core.line (c : Core) (line : Nat) : Option L1Line := c.l1.find? fun x => x.line = line

/-- A line's 128 bytes at the home slice, as 32 words. -/
def State.homeRow (s : State) (line : Nat) : Row :=
  Vector.ofFn fun w => BitVec.ofNat 32 (Memory.readLE s.dev (128 * line + 4 * w.val) 4)

/-- The bytes of the words of a line that a mask names. -/
def rowBytes (m : BitVec 32) (r : Row) : List (Nat × Byte) :=
  (lanesOf m).flatMap fun w => (List.range 4).map fun k => (4 * w.val + k, BitVec.extractLsb' (8 * k) 8 r[w])

/-- A free pantry entry remains (R374). -/
def Core.pantryRoom (c : Core) : Bool := decide (c.pantry.length < Config.pantryEntries)

/-- An entry enters a core's pantry, behind the others (R374). -/
def State.pantryAdd (s : State) (e : PantryEntry) : State :=
  ({ s with nextId := s.nextId + 1 }.modCore e.core fun c => { c with pantry := c.pantry ++ [e] }).tally 8 1
    (some e.core) (coreDie e.core)

/-- The words of a line that an access of n bytes at an address touches. -/
def wordMask (pa n : Nat) : BitVec 32 :=
  maskOf fun w => decide (pa % 128 / 4 ≤ w.val) && decide (w.val ≤ (pa % 128 + n - 1) / 4)

/-- A line of a core's L1 is lost: dirty words that it held write-back are noted for their lanes, and the line is gone
(R401, R402). -/
def State.loseLine (s : State) (core : Nat) (x : L1Line) : State :=
  let out := match x.own with
    | none => []
    | some o => match s.groupAt core o.slot with
      | none => []
      | some g => if x.dirty = 0 then [] else [{ block := g.block, producer := g.producer, vline := o.vline, words := x.dirty : LostLine }]
  { s with lost := s.lost ++ out }.modCore core fun c => { c with l1 := c.l1.filter fun y => y.line ≠ x.line }

/-- A group's lanes have heard that the words of some addresses are lost. -/
def State.heard (s : State) (g : Group) (width : Nat) (vas : List Nat) : State :=
  let told := fun (x : LostLine) => vas.foldl (fun m va => if va / 128 = x.vline then m &&& ~~~(wordMask va width) else m) x.words
  { s with lost := (s.lost.map fun x =>
      if x.block = g.block ∧ x.producer = g.producer then { x with words := told x } else x).filter fun x => x.words != 0 }

/-- The effective fault domain of the group in a slot (R362). -/
def State.slotDomain (s : State) (core slot : Nat) : Nat :=
  match s.groupAt core slot with
  | some g => s.domainOf g.launch
  | none => 0

/-- The dirty words of a line held write-back as a pantry entry (R374, R375). -/
def State.ownEntry (s : State) (core : Nat) (o : OwnLine) (x : L1Line) (bad : Bool) (reason : Nat) : PantryEntry :=
  { id := s.nextId, core := core, slot := o.slot, split := 0
    anc := match s.groupAt core o.slot with
      | some g => g.splits.flatMap fun y => y.anc
      | none => []
    part := o.part, vline := o.vline, kind := 2, op := 0, site := 0, unmappable := bad, reported := false
    trapped := false, lanes := BitVec.allOnes 32, groupix := o.groupix, reason := reason, stamp := s.timer
    bytemask := BitVec.ofNat 128 ((rowBytes x.dirty x.data).map fun b => 2 ^ b.1).sum
    word := 0
    data := (List.range 256).map fun k => ((rowBytes x.dirty x.data).lookup k).getD 0, phys := some x.line }

/-- A line leaves its own mode, clean: a shared copy has no words that are older than an acquire (R63, R78). -/
def Core.shareLine (c : Core) (line : Nat) (owned : Nat → Bool) : Core :=
  { c with l1 := c.l1.map fun y =>
      if y.line = line then
        { y with own := none, dirty := 0
                 valid := if y.since = c.acquires then y.valid ||| y.dirty else (y.valid ||| y.dirty) &&& maskOf fun w => owned w.val }
      else y }

/-- The dirty words of a line held write-back go to the home slice as one registering write, or into
the pantry when its page is absent or refused; the line leaves that mode (R63, R311, R375). On a poisoned
line they are lost, and the next access of the lane reports code 2 (R402). The page is logged first; while the log is
full the words stay in the line, and so they do while their page is absent and no pantry entry is free (R324, R374, R417).
(Log entries 15 and 56.) -/
def State.writeBack (s : State) (core : Nat) (x : L1Line) : State :=
  let clean := fun (t : State) => t.modCore core fun c => c.shareLine x.line fun w => decide (t.ownerOf (32 * x.line + w) = some core)
  match x.own with
  | none => s
  | some o =>
    if x.dirty = 0 then clean s
    else if !(s.coreAt core).pantryRoom && (match s.walk o.part (o.vline * 128) with
        | .leaf _ => false
        | _ => true) then s
    else
      let va := o.vline * 128
      let entry := fun (t : State) (bad : Bool) (reason : Nat) =>
        if !(t.coreAt core).pantryRoom then t
        else
          let e := t.ownEntry core o x bad reason
          let u := t.pantryAdd e
          let v := if bad then u.unmappableEvent e reason else u
          v.modCore core fun c => { c with l1 := c.l1.filter fun y => y.line ≠ x.line }
      match s.translate core o.part va true false false (s.slotDomain core o.slot) with
      | (.ok (.dev pa), t) =>
        if t.poisoned (pa / 128) then (t.revealAt (.dev pa)).loseLine core x
        else
          let vd := (t.groupAt core o.slot).bind fun g => t.vdOf g.launch
          match t.logPage vd false pa with
          | none => t.logFullEvent vd
          | some u => clean (u.lineWrite (pa / 128) (rowBytes x.dirty x.data) (some core))
      | (.ok _, t) => clean t
      | (.absent, t) => entry t false 0
      | (.refused _ _ reason, t) => entry t true reason

/-- The line that leaves a full set: one kept for streaming first, one to be retained last, and among
equals the one used longest ago (R64, R123). (Log entry 50.) -/
def victim (l : List L1Line) : Option L1Line :=
  let r := l.reverse
  match r.find? fun x => x.hint = 1 with
  | some x => some x
  | none => match r.find? fun x => x.hint ≠ 3 with
    | some x => some x
    | none => r.head?

/-- A line of a core's L1 still has dirty words of its own mode. -/
def State.ownDirty (s : State) (core line : Nat) : Bool :=
  ((s.coreAt core).line line).any fun x => x.own.isSome && x.dirty != 0

/-- A line leaves a core's L1, its dirty words being written back first; where they cannot be, it stays (R63, R417). -/
def State.evict (s : State) (core : Nat) (x : L1Line) : State :=
  let t := s.writeBack core x
  if t.ownDirty core x.line then t else t.modCore core fun c => { c with l1 := c.l1.filter fun z => z.line ≠ x.line }

/-- A line of a core's L1 is held dirty in its own mode. -/
def L1Line.ownDirty (x : L1Line) : Bool := x.own.isSome && x.dirty != 0

/-- A line enters a core's L1 as the most recently used; its set holds 12 (R64). Where the line that should leave cannot be
written back now, a clean one leaves in its place; where there is none, the line itself does not stay, but for data of its own
mode, for which an access waits until there is room (settleFor). (Log entry 50.) -/
def State.l1Put (s : State) (core : Nat) (x : L1Line) : State :=
  let s1 := s.modCore core fun c => { c with l1 := x :: c.l1.filter fun y => y.line ≠ x.line }
  let set := (s1.coreAt core).l1.filter fun y => y.line % 128 = x.line % 128
  if set.length ≤ 12 then s1
  else match victim (set.filter fun y => y.line ≠ x.line) with
    | none => s1
    | some y =>
      let s2 := s1.evict core y
      if s2.ownDirty core y.line then
        match victim (set.filter fun z => z.line ≠ x.line && !z.ownDirty) with
        | none => if x.ownDirty then s2 else s2.modCore core fun c => { c with l1 := c.l1.filter fun z => z.line ≠ x.line }
        | some z => s2.evict core z
      else s2

/-- A line that the core holds dirty in its own mode is written back before another kind of access of
the core reaches it (R63). -/
def State.settleLine (s : State) (core line : Nat) : State :=
  match (s.coreAt core).line line with
  | some x => if x.own.isSome && x.dirty != 0 then s.writeBack core x else s
  | none => s

/-- Words of lanes' own memory on a line of a core stand in the pantry, by an entry of the slot's group (R74, R311). -/
def State.ownParked (s : State) (core slot line : Nat) : Bool :=
  (s.coreAt core).pantry.any fun e => e.slot = slot && e.kind = 2 && e.phys = some line && !e.unmappable

/-- n bytes of a row at a byte offset, as a number. -/
def rowRead (r : Row) (off n : Nat) : Nat :=
  ofBytes ((List.range n).map fun k =>
    if h : (off + k) / 4 < 32 then BitVec.extractLsb' (8 * ((off + k) % 4)) 8 (r[(off + k) / 4]) else 0)

/-- Words of a line that a core's L1 holds and that are not older than an acquire (R63, R75, R78). -/
def Core.fresh (c : Core) (x : L1Line) : BitVec 32 := if x.own.isSome ∧ x.since ≠ c.acquires then 0 else x.valid

/-- What a core's L1 holds of a line follows the home slice, but for dirty words: another access has read it there (R78). -/
def State.refreshLine (s : State) (core line : Nat) : State :=
  let row := s.homeRow line
  s.modCore core fun c => { c with l1 := c.l1.map fun x =>
    if x.line = line then { x with data := Vector.ofFn fun w => if x.dirty.getLsbD w.val then x.data[w] else row[w] } else x }

/-- A line of device memory as a load finds it that needs some of its words, through a core's L1 (R64, R72, R123): words
it holds valid are read there, else the whole line comes from the home slice. Hint 2 allocates nothing; what the L1 holds
of the line is then as new as what was read (R78). -/
def State.loadLine (s : State) (core line : Nat) (need : BitVec 32) (hint : Nat) : Row × State :=
  let s1 := s.settleLine core line
  let miss := fun (t : State) =>
    let t1 := t.tally 5 1 (some core) (coreDie core)
    let row := t1.homeRow line
    (row, if hint = 2 then t1.refreshLine core line
        else t1.l1Put core { line := line, valid := BitVec.allOnes 32, data := row, own := none, dirty := 0, hint := hint })
  match (s1.coreAt core).line line with
  | none => miss s1
  | some x =>
    if s1.ownDirty core line then (x.data, s1)
    else if need &&& ~~~((s1.coreAt core).fresh x) = 0 then (x.data, s1.l1Put core { x with hint := hint }) else miss s1

/-- The line of words that the core reads or writes lane-interleaved, held in its own mode (R63). Where words of it are not
valid, or an acquire has passed since they were read, all that are not dirty come from the home slice together (R71, R78);
a poisoned line gives none (R402). Under hint 2 it is held too. (Log entry 50.) -/
def State.ownLine (s : State) (core line hint : Nat) (o : OwnLine) : L1Line × State :=
  let c := s.coreAt core
  let bad := s.poisoned line
  let row := s.homeRow line
  let fetched : L1Line := { line := line, valid := if bad then 0 else BitVec.allOnes 32, data := row, own := some o
                            dirty := 0, hint := hint, since := c.acquires }
  match c.line line with
  | none => (fetched, s.tally 5 1 (some core) (coreDie core))
  | some x =>
    if x.own.isNone then (fetched, s.tally 5 1 (some core) (coreDie core))
    else if bad || (x.since = c.acquires && (x.valid ||| x.dirty) = BitVec.allOnes 32) then ({ x with own := some o, hint := hint }, s)
    else
      ({ fetched with data := Vector.ofFn (fun w => if x.dirty.getLsbD w.val then x.data[w] else row[w]), dirty := x.dirty }, s)

/-- The core's L1 drops its copies of the words of an access, a dirty line of its own mode being
written back first (R63, R74); of a line that leaves that mode, words older than an acquire go too (R78). -/
def State.dropWords (s : State) (core pa n : Nat) : State :=
  let s1 := s.settleLine core (pa / 128)
  let owned : BitVec 32 := maskOf fun w => decide (s1.ownerOf (32 * (pa / 128) + w.val) = some core)
  s1.modCore core fun c =>
    { c with l1 := c.l1.map fun x =>
        if x.line = pa / 128 then
          { x with own := none
                   valid := (if x.own.isSome ∧ x.since ≠ c.acquires then x.valid &&& owned else x.valid) &&& ~~~(wordMask pa n) }
        else x }

/-! ### Stores, atomics and versioned accesses -/

/-- The bytes of some lanes, ascending, so that the highest lane's byte stands last (R59). -/
def laneBytes (width : Nat) (l : List (Nat × LaneAcc)) : List (Nat × Byte) :=
  l.flatMap fun x => bytesAt x.1 width x.2.v

/-- The lanes of a list that reach device memory, with their addresses. -/
def devLanes (l : List LaneAcc) : List (Nat × LaneAcc) :=
  l.filterMap fun a => match a.tgt with
    | .dev pa => some (pa, a)
    | _ => none

/-- The lines that some lanes name by their virtual addresses, each one request (R59). -/
def vlines (l : List (Nat × LaneAcc)) : List Nat := (l.map fun x => x.2.va / 128).eraseDups

/-- A store request of some lanes (R59, R72, R88): one registering write for each line that they name, each byte with the
value of the highest lane that names it; posted writes to the host; stores at a peer and in scratchpads. -/
def State.storeLanes (s : State) (core width : Nat) (l : List LaneAcc) : State :=
  let dv := devLanes l
  let s1 := (dv.map fun x => x.1 / 128).eraseDups.foldl (fun t ln => t.settleLine core ln) s
  let last := (laneBytes width dv).reverse
  let s2 := (vlines dv).foldl (fun t vl =>
    t.homeWrite ((laneBytes width (dv.filter fun x => x.2.va / 128 = vl)).map fun b => (b.1, (last.lookup b.1).getD b.2)) (some core)) s1
  l.foldl (fun t a => match a.tgt with
    | .dev _ => t
    | .host p ha => { t with host := Memory.writeLE t.host (hostAt p ha) width a.v }
    | .peer d pa => t.modPeer d fun m => Memory.writeLE m pa width a.v
    | .spm c o => t.scratchStore c o width a.v) s2

/-- The new value of an atomic by major and minor, with whether it writes (R199). The operand is v, and
c is the compare value. -/
def atomicNew (major minor width m v c : Nat) : Nat × Bool :=
  if major = 19 then
    if minor = 0 then ((m + v) % 2 ^ 32, true)
    else if minor = 1 then (if toSigned 32 m ≤ toSigned 32 v then m else v, true)
    else if minor = 2 then (if toSigned 32 m ≤ toSigned 32 v then v else m, true)
    else if minor = 3 then (m &&& v, true)
    else if minor = 4 then (m ||| v, true)
    else if minor = 5 then (m ^^^ v, true)
    else if minor = 6 then (v, true)
    else if m = c then (v, true) else (m, false)
  else
    if minor = 0 then ((addF fp32 .rne m v).1, true)
    else if minor = 1 then ((m + v) % 2 ^ (8 * width), true)
    else if minor = 2 then (if m = c then (v, true) else (m, false))
    else if minor = 3 then (v, true)
    else if minor = 4 then (min m v, true)
    else if minor = 5 then (max m v, true)
    else if minor = 6 then (if v ≤ m then 0 else m + 1, true)
    else ((addF fp64 .rne m v).1, true)

/-- The memory of a target, and its address there. -/
def State.siteMem (s : State) : Target → Memory × Nat
  | .dev pa => (s.dev, pa)
  | .host p ha => (s.host, hostAt p ha)
  | .peer d pa => ((s.peer d).elim [] fun p => p.mem, pa)
  | .spm c o => ((s.coreAt c).scratch, o)

/-- One lane's step of an atomic whose location lies outside device memory. -/
def State.atomicElsewhere (s : State) (t : Target) (width v : Nat) : State :=
  match t with
  | .dev _ => s
  | .host p ha => { s with host := Memory.writeLE s.host (hostAt p ha) width v }
  | .peer d pa => s.modPeer d fun m => Memory.writeLE m pa width v
  | .spm c o => s.scratchStore c o width v

/-- The lanes of an atomic, ascending, each on what the lanes before it left (R48, R199): the device
memory they leave, the device addresses written with the lines that name them, the results, and the rest of the machine. -/
def atomicFold (major minor width : Nat) :
    List LaneAcc → State → Memory → List (Nat × Nat) × List (Nat × Nat) × State × Memory
  | [], s, m => ([], [], s, m)
  | a :: r, s, m =>
    let src := match a.tgt with
      | .dev pa => (m, pa)
      | t => s.siteMem t
    let old := Memory.readLE src.1 src.2 width
    let n := atomicNew major minor width old a.v a.c
    let m1 := match a.tgt with
      | .dev pa => if n.2 then Memory.writeLE m pa width n.1 else m
      | _ => m
    let s1 := if n.2 then s.atomicElsewhere a.tgt width n.1 else s
    let w := match a.tgt with
      | .dev pa => if n.2 then [(a.va / 128, pa)] else []
      | _ => []
    let rest := atomicFold major minor width r s1 m1
    (w ++ rest.1, (a.lane, old) :: rest.2.1, rest.2.2.1, rest.2.2.2)

/-- An atomic's lanes at their site (R48, R74, R199, R200): the core's L1 drops the words named, the
lanes follow one another, and each line that names words which a lane writes is one registering write (R59). -/
def State.atomicLanes (s : State) (core major minor width : Nat) (l : List LaneAcc) :
    List (Nat × Nat) × State :=
  let s1 := (devLanes l).foldl (fun t x => t.dropWords core x.1 width) s
  let r := atomicFold major minor width l s1 s1.dev
  let bytes := fun (vl : Nat) => (r.1.filter fun x => x.1 = vl).flatMap fun x =>
    (List.range width).map fun k => (x.2 + k, Memory.read r.2.2.2 (x.2 + k))
  (r.2.1, (r.1.map fun x => x.1).eraseDups.foldl (fun t vl => t.homeWrite (bytes vl) (some core)) r.2.2.1)

/-- A lane's snapshot entry for a line. -/
def Group.snap (g : Group) (lane line : Nat) : Option Snap := g.snaps.find? fun e => e.lane = lane && e.line = line

/-- An entry holds (R89, R203, R402): version, age, clear stamp; never on a poisoned line, and never
outside the partition's windows (R381). -/
def State.snapHolds (s : State) (part : Nat) (e : Snap) : Bool :=
  !s.poisoned e.line && s.versionOf e.line = e.version && decide (s.timer < e.stamp + 2 ^ 32) &&
  decide (s.clearOf e.line ≤ e.stamp) && s.inWindow part (e.line * 128)

/-- Enter a lane's snapshot entry for a line when it has none (R201). -/
def State.snapAdd (s : State) (core slot lane line : Nat) : State :=
  s.modGroup core slot fun g =>
    if (g.snap lane line).isSome || decide (Config.snapEntries ≤ g.snaps.length) then g
    else { g with snaps := g.snaps ++ [{ lane := lane, line := line, version := s.versionOf line, stamp := s.timer }] }

/-- One lane of CASV (R203): outcome and version, packed as outcome + 2^64 × version. -/
def State.casvLane (s : State) (core slot width : Nat) (a : LaneAcc) : Nat × State :=
  match a.tgt with
  | .dev pa =>
    let line := pa / 128
    let s1 := s.dropWords core pa width
    let ok := match (s1.groupAt core slot).bind fun g => g.snap a.lane line with
      | none => false
      | some e => decide (s1.timer < e.stamp + 2 ^ 32) && decide (s1.clearOf line ≤ e.stamp) &&
          (s1.versionOf line).toNat = a.c
    if ok then
      let s2 := s1.homeWrite (bytesAt pa width a.v) (some core)
      let v := s2.versionOf line
      (1 + 2 ^ 64 * v.toNat, s2.modGroup core slot fun g =>
        { g with snaps := modFirst (fun e => e.lane = a.lane && e.line = line)
                   (fun e => { e with version := v, stamp := s2.timer }) g.snaps })
    else (2 ^ 64 * (s1.versionOf line).toNat, s1)
  | _ => (0, s)

/-- The lanes of CASV, ascending, each a step of its own (R203). -/
def casvFold (core slot width : Nat) : List LaneAcc → State → List (Nat × Nat) × State
  | [], s => ([], s)
  | a :: r, s =>
    let x := s.casvLane core slot width a
    let rest := casvFold core slot width r x.2
    ((a.lane, x.1) :: rest.1, rest.2)

/-! ### The order of performing -/

/-- Kinds of access as R74 and R75 distinguish them. -/
def Access.isLoad : Access → Bool
  | .load _ _ _ => true
  | .loadOwn _ => true
  | .ldv => true
  | .ldvs _ => true
  | .vrd => true
  | .cpoll => true
  | .brec _ => true
  | _ => false
def Access.isWrite : Access → Bool
  | .store _ _ => true
  | .storeOwn _ => true
  | .atomic _ _ _ _ _ => true
  | .casv _ => true
  | _ => false
/-- An atomic with return. -/
def Access.returns : Access → Bool
  | .atomic _ _ _ _ ret => ret
  | .casv _ => true
  | _ => false
/-- It completes with the effect of ACQ (R76). -/
def Access.acquires : Access → Bool
  | .ldv => true
  | .ldvs _ => true
  | .vrd => true
  | .casv _ => true
  | .vchk _ => true
  | .cpoll => true
  | _ => false
/-- It begins with the effect of REL (R76). -/
def Access.releases : Access → Bool
  | .casv _ => true
  | _ => false

/-- A versioned instruction (R381). -/
def Access.versioned : Access → Bool
  | .ldv => true
  | .ldvs _ => true
  | .vrd => true
  | .casv _ => true
  | _ => false

/-- The access reads what is at its location before it can be performed (R402). -/
def Access.reads (a : Access) : Bool := a.isLoad || a.versioned || match a with
  | .atomic _ _ _ _ _ => true
  | _ => false

/-- Bytes of one lane's access. -/
def Access.width : Access → Nat
  | .load w _ _ => w
  | .store w _ => w
  | .atomic _ _ w _ _ => w
  | .ldvs w => w
  | .casv w => w
  | .cpoll => 8
  | .brec _ => 16
  | _ => 4

/-- A target's space and first word, for comparing locations (R70). -/
def Target.key : Target → Nat × Nat × Nat
  | .dev pa => (0, 0, pa / 4)
  | .host p ha => (1, p, ha / 4)
  | .peer d pa => (2, d, pa / 4)
  | .spm c o => (3, c, o / 4)

/-- How many words n bytes from a target on touch. -/
def Target.words (t : Target) (n : Nat) : Nat :=
  let a := match t with
    | .dev a => a
    | .host _ a => a
    | .peer _ a => a
    | .spm _ a => a
  (a % 4 + n + 3) / 4

/-- Two lanes' accesses touch a common location (R70). -/
def laneOverlap (a : LaneAcc) (wa : Nat) (b : LaneAcc) (wb : Nat) : Bool :=
  let x := a.tgt.key
  let y := b.tgt.key
  x.1 = y.1 && x.2.1 = y.2.1 && decide (x.2.2 < y.2.2 + b.tgt.words wb) && decide (y.2.2 < x.2.2 + a.tgt.words wa)

/-- Two flights touch a common location. -/
def Flight.overlaps (e f : Flight) : Bool :=
  e.lanes.any fun a => f.lanes.any fun b => laneOverlap a e.acc.width b f.acc.width

/-- A flight reaches the issuing core's own scratchpad. -/
def Flight.ownBank (f : Flight) : Bool :=
  f.lanes.any fun a => match a.tgt with
    | .spm c _ => c = f.core
    | _ => false

/-- The flight e precedes f in program order (R73). -/
def Flight.precedes (e f : Flight) : Bool :=
  decide (e.id < f.id) && e.core = f.core && e.slot = f.slot && f.anc.contains e.split

/-- An earlier, unperformed access e keeps f from being performed (R74, R75). (Log entry 7.) -/
def Flight.holdsBack (e f : Flight) : Bool :=
  !e.performed && e.precedes f &&
  (e.overlaps f || (f.acc.isWrite && e.acc.isLoad) || (e.ownBank && f.ownBank) || e.acc.acquires ||
    (f.acc.releases && e.acc.isWrite) || (f.acc.acquires && (e.acc.isLoad || e.acc.returns)))

/-- Entries of the pantry that stand unperformed, by a group and the splits named (R82, R376). -/
def State.pantryOf (s : State) (core slot : Nat) (anc : List Nat) : List PantryEntry :=
  (s.coreAt core).pantry.filter fun e => e.slot = slot && (e.kind = 2 || anc.contains e.split)

/-- Engine requests of a split that have still to read (R75). (Log entry 15.) -/
def State.readsLeft (s : State) (core slot : Nat) (anc : List Nat) : Bool :=
  s.reqs.any fun r => r.core = core && r.slot = slot && anc.contains r.split && !r.done

/-- A flight has lanes that reach a peer. -/
def Flight.toPeer (f : Flight) : Bool :=
  f.lanes.any fun a => match a.tgt with
    | .peer _ _ => true
    | _ => false

/-- A flight may be performed now (R74, R75); one to a peer waits while its rail retrains (R398). (Log entry 7.) -/
def State.mayPerform (s : State) (f : Flight) : Bool :=
  !(f.toPeer && s.railHolds (coreDie f.core)) && !f.performed && f.acc != .ready && !(s.flights.any fun e => e.holdsBack f) &&
  (!f.acc.releases || ((s.pantryOf f.core f.slot f.anc).all (fun e => decide (f.id ≤ e.id)) &&
    !(s.reqs.any fun r => r.core = f.core && r.slot = f.slot && decide (r.id < f.id) && f.anc.contains r.split && !r.done)))

/-! ### Performing a flight -/

/-- The lines of a load, each one request (R59): what each lane finds there. The words needed are given by line. -/
def loadRows (core hint : Nat) (need : Nat → BitVec 32) : List Nat → State → List (Nat × Row) × State
  | [], s => ([], s)
  | ln :: r, s =>
    let x := s.loadLine core ln (need ln) hint
    let rest := loadRows core hint need r x.2
    ((ln, x.1) :: rest.1, rest.2)

/-- Lines that p names come first: an access meets what its core's L1 serves before any line leaves it. -/
def servedFirst (p : Nat → Bool) (l : List Nat) : List Nat := l.filter p ++ l.filter fun x => !p x

/-- The words of a line that the lanes of a load name. -/
def needOf (width : Nat) (l : List (Nat × LaneAcc)) (line : Nat) : BitVec 32 :=
  l.foldl (fun m x => if x.1 / 128 = line then m ||| wordMask x.1 width else m) 0

/-- The lanes of a load, coalesced by line, each its own value (R59, R193, R195, R197). -/
def State.loadLanes (s : State) (core width hint : Nat) (l : List LaneAcc) : List (Nat × Nat) × State :=
  let dv := devLanes l
  let hits := fun (ln : Nat) => ((s.coreAt core).line ln).any fun x => needOf width dv ln &&& ~~~((s.coreAt core).fresh x) = 0
  let r := loadRows core hint (needOf width dv) (servedFirst hits (dv.map fun x => x.1 / 128).eraseDups) s
  (l.map fun a => (a.lane, match a.tgt with
    | .dev pa => rowRead ((r.1.lookup (pa / 128)).getD Row.zero) (pa % 128) width
    | t => s.peek t width), r.2)

/-- Whose a lane-interleaved line is: the flight's group. -/
def State.ownOf (s : State) (f : Flight) (va : Nat) : OwnLine :=
  { part := f.part, vline := va / 128, slot := f.slot
    groupix := match s.groupAt f.core f.slot with
      | some g => g.groupix
      | none => 0 }

/-- The words of a line with the stores of some lanes, ascending, so that the highest lane's stands last. -/
def ownStore (x : L1Line) (l : List (Nat × LaneAcc)) : L1Line :=
  l.foldl (fun y a =>
    let w := a.1 % 128 / 4
    { y with data := y.data.setIfInBounds w (BitVec.ofNat 32 a.2.v), dirty := y.dirty ||| (1#32 <<< w) }) x

/-- The lines of LDP.W, or of STP.W, each one request (R59, R62, R63, R195); c holds the virtual address.
(Log entry 50.) -/
def ownFold (f : Flight) (store : Bool) (hint : Nat) (l : List (Nat × LaneAcc)) : List Nat → State → List (Nat × Nat) × State
  | [], s => ([], s)
  | ln :: r, s =>
    let mine := l.filter fun x => x.1 / 128 = ln
    let y := s.ownLine f.core ln hint (s.ownOf f ((mine.head?.map fun x => x.2.c).getD 0))
    let rest := ownFold f store hint l r (y.2.l1Put f.core (if store then ownStore y.1 mine else y.1))
    ((if store then [] else mine.map fun x => (x.2.lane, rowRead y.1.data (x.1 % 128) 4)) ++ rest.1, rest.2)

/-- The lanes of LDP.W, or of STP.W: those outside device memory are loads and stores of their words. -/
def State.ownLanes (s : State) (f : Flight) (store : Bool) (hint : Nat) (l : List LaneAcc) : List (Nat × Nat) × State :=
  let dv := devLanes l
  let out := l.filter fun a => match a.tgt with
    | .dev _ => false
    | _ => true
  let hits := fun (ln : Nat) => ((s.coreAt f.core).line ln).any fun x => x.own.isSome
  let r := ownFold f store hint dv (servedFirst hits (dv.map fun x => x.1 / 128).eraseDups) s
  if store then (r.1, r.2.storeLanes f.core 4 out) else (r.1 ++ out.map fun a => (a.lane, r.2.peek a.tgt 4), r.2)

/-- The lanes of LDV, LDVS and VRD at the home slice: value + 2^64 × version, each with its snapshot
entry in the same step (R89, R201, R202). -/
def versionFold (f : Flight) (width : Nat) (enter : Bool) : List LaneAcc → State → List (Nat × Nat) × State
  | [], s => ([], s)
  | a :: r, s =>
    let x := match a.tgt with
      | .dev pa =>
        let s0 := s.settleLine f.core (pa / 128)
        let s1 := s0.refreshLine f.core (pa / 128)
        (Memory.readLE s1.dev pa width + 2 ^ 64 * (s1.versionOf (pa / 128)).toNat,
          if enter then s1.snapAdd f.core f.slot a.lane (pa / 128) else s1)
      | _ => (0, s)
    let rest := versionFold f width enter r x.2
    ((a.lane, x.1) :: rest.1, rest.2)

/-- The effect of some lanes of a flight at their sites: their results, and the machine after. -/
def State.performLanes (s : State) (f : Flight) (l : List LaneAcc) : List (Nat × Nat) × State :=
  match f.acc with
  | .load w _ hint => s.loadLanes f.core w hint l
  | .loadOwn hint => s.ownLanes f false hint l
  | .store w _ => ([], s.storeLanes f.core w l)
  | .storeOwn hint => s.ownLanes f true hint l
  | .atomic major minor w _ ret =>
    let r := s.atomicLanes f.core major minor w l
    (if ret then r.1 else [], r.2)
  | .ldv => versionFold f 4 true l s
  | .ldvs w => versionFold f w true l s
  | .vrd => versionFold f 4 false l s
  | .casv w => casvFold f.core f.slot w l s
  | .vchk _ =>
    match s.groupAt f.core f.slot with
    | none => ([], s)
    | some g => (((lanesOf f.mask).map fun x =>
        (x.val, b2n ((g.snaps.filter fun e => e.lane = x.val).all fun e => s.snapHolds f.part e))), s)
  | .cpoll =>
    let s1 := (devLanes l).foldl (fun t x => (t.settleLine f.core (x.1 / 128)).refreshLine f.core (x.1 / 128)) s
    (l.map fun a => (a.lane, s1.peek a.tgt 8), s1)
  | .brec _ => s.loadLanes f.core 16 0 l
  | .pref _ => ([], s)
  | .ready => ([], s)

/-- The targets that a writing flight's lanes reach; lines held write-back are logged when they are written back, and what a
lane's own memory has in the host's at once (R324). -/
def Flight.logged (f : Flight) (l : List LaneAcc) : List Target :=
  match f.acc with
  | .store _ _ => l.map fun a => a.tgt
  | .atomic _ _ _ _ _ => l.map fun a => a.tgt
  | .casv _ => l.map fun a => a.tgt
  | .storeOwn _ => (l.map fun a => a.tgt).filter fun t => match t with
      | .host _ _ => true
      | _ => false
  | _ => []

/-- The machine with a flight changed. -/
def State.modFlight (s : State) (id : Nat) (f : Flight → Flight) : State :=
  { s with flights := modFirst (fun x => x.id = id) f s.flights }

/-- A split that was only tried may be tried again: something has happened. -/
def Split.retry (sp : Split) : Split :=
  { sp with wait := match sp.wait with
      | .empty _ => .empty false
      | .record _ => .record false
      | .blocked _ => .blocked false
      | w => w }

/-- Every split that waits without a time or a flight of its own is tried again. -/
def State.retryAll (s : State) : State :=
  { s with g := s.g.mapSplits Split.retry, others := s.others.map fun g => g.mapSplits Split.retry }

/-- A load or a lane-interleaved access that its core's L1 serves (R63, R64). -/
def State.l1Serves (s : State) (core : Nat) (a : Access) (pa : Nat) : Bool :=
  match a, (s.coreAt core).line (pa / 128) with
  | .load w _ _, some x => wordMask pa w &&& ~~~((s.coreAt core).fresh x) = 0
  | .loadOwn _, some x => x.own.isSome && wordMask pa 4 &&& ~~~(x.valid ||| x.dirty) = 0
  | .storeOwn _, some x => x.own.isSome
  | _, _ => false

/-- Lanes of a flight that were let through to what their core's L1 held of a poisoned line, and that the L1 does not serve any
more (R402). (Log entry 44.) -/
def State.spoilt (s : State) (f : Flight) (l : List LaneAcc) : List LaneAcc :=
  if f.acc.reads then l.filter fun a => match a.tgt with
    | .dev pa => s.poisoned (pa / 128) && !s.l1Serves f.core f.acc pa
    | _ => false
  else []

/-- Lines that a group reaches come into their home slices, into ways that its context may use (R65, R66). -/
def State.bringLines (s : State) (core slot : Nat) (lines : List Nat) : State :=
  let owner := match (s.groupAt core slot).bind fun g => s.launchOf g.launch with
    | some x => s.wayOwner x.part x.ctx
    | none => 0
  lines.eraseDups.foldl (fun t ln => t.slicePut ln owner false) s

/-- The lines that some lanes of a flight reach come into their home slices; what goes to a peer leaves on the rail
(R65, R66, R329). -/
def State.bring (s : State) (f : Flight) (l : List LaneAcc) : State :=
  (s.bringLines f.core f.slot (((devLanes l).filter fun x => !s.l1Serves f.core f.acc x.1).map fun x => x.1 / 128)).railTurn
    f.core (l.map fun a => a.tgt)

/-- The scratchpad bytes that lanes of a writing flight reach are noted where a collective of the block runs (R224). -/
def State.noteLanes (s : State) (f : Flight) (l : List LaneAcc) : State :=
  if f.acc.isWrite then
    s.noteTile f.core f.slot f.id (l.flatMap fun a => match a.tgt with
      | .spm c o => (List.range f.acc.width).map fun k => (c, o + k)
      | _ => [])
  else s

/-- The set of a line in a core's L1 can take it in beside the others of some lines that one access reaches: what is held dirty
in its own mode there and cannot be written back now leaves room (R64). (Log entry 50.) -/
def State.l1Room (s : State) (core : Nat) (lines : List Nat) (line : Nat) : Bool :=
  let here := fun (n : Nat) => decide (n % 128 = line % 128)
  let stuck := (s.coreAt core).l1.filter fun x => here x.line && x.ownDirty && !lines.contains x.line
  decide ((lines.filter here).length + stuck.length ≤ 12)

/-- Lines of the set that are held dirty in their own mode are written back, where the set must make room (R63, R64).
(Log entry 50.) -/
def State.makeRoom (s : State) (core : Nat) (lines : List Nat) (line : Nat) : State :=
  if s.l1Room core lines line then s
  else ((s.coreAt core).l1.filter fun x => x.line % 128 = line % 128 && x.ownDirty && !lines.contains x.line).foldl
    (fun t x => t.writeBack core x) s

/-- What is held dirty in its own mode on the lines that some lanes reach is written back first, but for accesses of that
kind, whose sets make room; and whether something of it has still to be written (R63, R64, R74). (Log entry 56.) -/
def State.settleFor (s : State) (f : Flight) (l : List LaneAcc) : State × Bool :=
  let lines := ((devLanes l).map fun x => x.1 / 128).eraseDups
  let own := match f.acc with
    | .loadOwn _ => true
    | .storeOwn _ => true
    | _ => false
  let t := lines.foldl (fun t ln => if own then t.makeRoom f.core lines ln else t.settleLine f.core ln) s
  (t, lines.any fun ln => (if own then !t.l1Room f.core lines ln else t.ownDirty f.core ln) || t.ownParked f.core f.slot ln)

/-- Some lanes of a flight are performed (R72): pick names them. A write that must wait for its dirty
log entry performs nothing yet (R417), and so does an access behind a write-back that must wait (R74). With its last lane the flight is performed, and an access that
acquires drops what the core does not own. -/
def State.performFlight (s : State) (f : Flight) (pick : LaneAcc → Bool) : State :=
  let l := f.lanes.filter pick
  let rcb := match s.groupAt f.core f.slot with
    | some g => g.launch
    | none => 0
  let vd := s.vdOf rcb
  let s0 := s.settleFor f l
  if s0.2 then s0.1
  else match s0.1.logTargets vd (f.logged l) with
  | none => s0.1.logFullEvent vd
  | some s1 =>
    let r := ((s1.bring f l).noteLanes f l).performLanes f l
    let left := f.lanes.filter fun a => !pick a
    let whole := left.isEmpty && f.held.isEmpty
    let s2 := r.2.modFlight f.id fun x =>
      { x with lanes := left, results := x.results ++ r.1, performed := whole
               done := x.done ||| maskOf fun y => l.any fun a => a.lane = y.val }
    let s3 := if whole && f.acc.acquires then s2.acquire f.core else s2
    let s4 := if whole && !(f.acc.isLoad || f.acc.returns || (match f.acc with
        | .vchk _ => true
        | .ready => true
        | _ => false)) then { s3 with flights := s3.flights.filter fun x => x.id ≠ f.id } else s3
    s4.retryAll

end Sys2Proof.Machine
end

