-- ==== Sys2Proof/Machine/Lanes.lean ====
section
/-! DEFINITION. What a lane memory instruction checks and issues: record addresses (R56 to R58), scratchpad
addresses (R60), lane-interleaved words (R62), the lane causes and their ranks (R354 to R356, R367,
R368), lanes that hold (R371) and lanes that enter the pantry (R311, R374, R375). -/

namespace Sys2Proof.Machine

/-! ### Addresses -/

/-- A record is valid (R57). -/
def recordValid (r : BitVec 128) : Bool :=
  let hint := bget r 117 7
  bget r 124 4 = 0 && decide (bget r 108 3 ≤ 4) && decide (bget r 111 4 ≤ 3) &&
  (decide (hint < 32) || hint = 0x7F) &&
  (!(bget r 111 4 = 1 || bget r 111 4 = 2) || (bget r 88 20 % 128 = 0 && bget r 108 3 != 0))

/-- A record's fields (R56). -/
def recBase (r : BitVec 128) : Nat := bget r 0 56
def recExtent (r : BitVec 128) : Nat := bget r 56 32
def recElem (r : BitVec 128) : Nat := 2 ^ bget r 108 3
def recReadOnly (r : BitVec 128) : Bool := bbit r 115
def recHost (r : BitVec 128) : Bool := bbit r 116

/-- The bits of an index at the even places from p on, packed (R58). -/
def packBits (i p : Nat) : Nat := ((List.range 16).map fun k => fld i (2 * k + p) 1 * 2 ^ k).sum

/-- The address of an element (R58), modulo 2^56. -/
def recordEa (r : BitVec 128) (i : Nat) : Nat :=
  let base := recBase r
  let stride := bget r 88 20
  let e := recElem r
  let sw := bget r 111 4
  let w := 128 / e
  let row := i / w
  let byte := i % w * e
  let a :=
    if sw = 1 then base + row * stride + ((byte / 16) ^^^ (row % 8)) * 16 + byte % 16
    else if sw = 2 then base + row * stride + ((byte / 8) ^^^ (row % 16)) * 8 + byte % 8
    else if sw = 3 then base + packBits i 1 * stride + packBits i 0 * e
    else base + i * (if stride = 0 then e else stride)
  a % 2 ^ 56

/-- Every element that an access of a width covers lies below the extent (R58). -/
def recordCovers (r : BitVec 128) (i width : Nat) : Bool :=
  decide (i + max (width / recElem r) 1 ≤ recExtent r)

/-- The address of lane-interleaved word w of a lane (R62). -/
def State.ownWordAt (s : State) (g : Group) (l : Lane) (w : Nat) : Nat :=
  match s.launchOf g.launch, s.block g.block with
  | some x, some b =>
    let grp := b.index * ((x.lanes + 31) / 32) + g.groupix
    (x.privBase + ((grp * x.ownWords + w) * 32 + l.val) * 4) % 2 ^ 56
  | _, _ => 0

/-! ### Checks -/

/-- What becomes of one lane's access at issue. -/
inductive LaneRes where
  | ok (t : Target)
  /-- its page is absent, or a store must queue behind pantry entries of its page -/
  | absent
  /-- a load or atomic holds behind pantry entries of its page (R34, R311) -/
  | behind
  | bad (cause code : Nat)
  deriving DecidableEq, Repr

/-- Its lanes enter the pantry when their page is absent: a store or a RED (R311). -/
def Access.parks : Access → Bool
  | .store _ _ => true
  | .storeOwn _ => true
  | .atomic _ _ _ _ ret => !ret
  | _ => false

/-- The host performs the operation: ADD, EXCH, CAS and their 64-bit forms (R79). (Log entry 52.) -/
def hostAtomic (major minor : Nat) : Bool :=
  if major = 19 then minor = 0 || minor = 6 || minor = 7 else minor = 1 || minor = 2 || minor = 3

/-- The reach of a leaf (3 for a record with the host bit) does not agree with the access (R79, R381). -/
def Access.siteBad (a : Access) (reach : Nat) : Bool :=
  let host := reach = 1 || reach = 3
  match a with
  | .atomic major minor _ site _ =>
    if site = 2 then reach != 0 else reach = 0 || (host && !hostAtomic major minor)
  | _ => a.versioned && reach != 0

/-- An access of a lane to a page that has entries of its group in the pantry (R311, R75). (Log entry 15.) -/
def State.pantryPage (s : State) (g : Group) (va : Nat) (mine : Bool) : Bool :=
  (s.coreAt g.core).pantry.any fun e =>
    e.slot = g.slot && !e.unmappable && e.part = s.partOf g && e.vline * 128 / 2 ^ 16 = va / 2 ^ 16 &&
    (!mine || e.kind = 2 || g.sp.anc.contains e.split)

/-- Data of the group that were written there, held write-back, and not yet reported are lost (R402). -/
def State.lostAt (s : State) (g : Group) (va width : Nat) : Bool :=
  s.lost.any fun x => x.block = g.block && x.producer = g.producer && x.vline = va / 128 && x.words &&& wordMask va width != 0

/-- What lost data and a poisoned line make of a lane that would be performed: one that its core's L1 serves meets no
poison (R401, R402). -/
def State.poisonCheck (s : State) (g : Group) (a : Access) (va : Nat) (r : LaneRes) : LaneRes :=
  match r with
  | .ok (.dev pa) =>
    if s.lostAt g va a.width then .bad 0x0E 2
    else if a.reads && s.poisoned (pa / 128) && !s.l1Serves g.core a pa then .bad 0x0E (Smap.get 0 s.poison (pa / 128))
    else r
  | _ => r

/-- A lane's access to a virtual address behind the checks on its operands (R310, R311, R368, R372). The
service slot's accesses are not translated (R307). -/
def State.laneTranslate (s : State) (g : Group) (a : Access) (ro : Bool) (va : Nat) : LaneRes × State :=
  let part := s.partOf g
  let w := a.isWrite
  if g.service then (if a.siteBad 0 then .bad 0x0B 0 else if ro then .bad 0x0C 0 else .ok (.dev va), s)
  else
    let look := if ro then ((s.lookup g.core part va w false 0).1, s)
      else s.lookup g.core part va w false (s.domainOf g.launch)
    match look with
    | (.leaf e, s1) =>
      if a.siteBad e.reach then (.bad 0x0B 0, s1)
      else if ro then (.bad 0x0C 0, s1)
      else if a.parks && s.pantryPage g va false then (.absent, s1)
      else if !a.parks && s.pantryPage g va true then (.behind, s1)
      else match s1.checkLeaf g.core part va e w false (a.parks && !a.reads) with
        | (.ok t, s2) => (s2.poisonCheck g a va (.ok t), s2.revealAt t)
        | (.absent, s2) => (.absent, s2)
        | (.refused c k _, s2) => (.bad c k, s2)
    | (.absent, s1) =>
      if ro then (.bad 0x0C 0, s1)
      else if !a.parks && s.pantryPage g va true then (.behind, s1)
      else (.absent, s1)
    | (.denied, s1) => (if ro then .bad 0x0C 0 else .bad 0x0D 0, s1)
    | (.malformed _, s1) => (if ro then .bad 0x0C 0 else .bad 0x0D 2, s1)
    | (.error c, s1) => (if ro then .bad 0x0C 0 else .bad 0x0E c, s1)

/-- A lane's access to host memory through a record with the host bit (R56, R322, R379). -/
def State.laneHost (s : State) (g : Group) (a : Access) (ro : Bool) (ha : Nat) : LaneRes :=
  let part := s.partOf g
  let inRange := hostIn (s.hostPort part) ha
  if a.siteBad 3 then .bad 0x0B 0
  else if ro then .bad 0x0C 0
  else if !s.hostLive part then .bad 0x0C 4
  else if inRange s.env.hostDenied then .bad 0x0D 0
  else if (a.isLoad || a.reads) && inRange s.env.hostErrors then .bad 0x0C 4
  else .ok (.host (s.hostPort part) ha)

/-- A lane's access through a record (R56 to R59, R367): what becomes of it, and its address. -/
def State.laneRecord (s : State) (g : Group) (a : Access) (r : BitVec 128) (i width : Nat) :
    (LaneRes × Nat) × State :=
  let va := recordEa r i
  if !recordValid r then ((.bad 0x06 0, va), s)
  else if !recordCovers r i width then ((.bad 0x07 0, va), s)
  else if va % width ≠ 0 then ((.bad 0x09 0, va), s)
  else
    let ro := a.isWrite && recReadOnly r
    if recHost r then ((s.laneHost g a ro va, va), s)
    else
      let x := s.laneTranslate g a ro va
      ((x.1, va), x.2)

/-- A lane's access to the scratchpad (R60, R197, R198, R367). -/
def State.laneSpm (s : State) (g : Group) (i width : Nat) (blk : Bool) : LaneRes × Nat :=
  match s.spmAt g i width with
  | none => (.bad 0x08 0, i % 2 ^ 21)
  | some x =>
    if i % width ≠ 0 then (.bad 0x09 0, i)
    else if blk && x.1 != g.core then (.bad 0x0B 0, i)
    else (.ok (.spm x.1 x.2), i)

/-- A lane's access to its lane-interleaved word w (R62, R195, R367). -/
def State.laneOwn (s : State) (g : Group) (a : Access) (l : Lane) (w : Nat) : (LaneRes × Nat) × State :=
  let va := s.ownWordAt g l w
  let p := match s.launchOf g.launch with
    | some x => x.ownWords
    | none => 0
  if p ≤ w then ((.bad 0x0A 0, va), s)
  else
    let x := s.laneTranslate g a false va
    ((x.1, va), x.2)

/-! ### Issue -/

/-- One lane's outcome. -/
structure LaneOut where
  lane : Lane
  res : LaneRes
  va : Nat
  deriving DecidableEq, Repr

/-- A lane's access went as far as the translation of its line (R59, R354). -/
def LaneRes.reached : LaneRes → Bool
  | .bad c _ => decide (0x0B ≤ c)
  | _ => true

/-- The lanes of an instruction in ascending order; a line that an earlier lane had translated is not walked again, so
that nothing is counted or posted for it twice (R59). -/
def lookLines (look : State → Lane → (LaneRes × Nat) × State) : List Nat → List Lane → State → List LaneOut × State
  | _, [], s => ([], s)
  | seen, l :: r, s =>
    let x := look s l
    let line := x.1.2 / 128
    let rest := lookLines look (if x.1.1.reached then line :: seen else seen) r (if seen.contains line then s else x.2)
    ({ lane := l, res := x.1.1, va := x.1.2 } :: rest.1, rest.2)

/-- The lanes of an instruction in ascending order (R59). -/
def lookLanes (look : State → Lane → (LaneRes × Nat) × State) (l : List Lane) (s : State) : List LaneOut × State :=
  lookLines look [] l s

/-- A lane memory instruction: its access, its destination and the offsets of the words it writes, its
operands v and c, its index value, and how a lane is looked up. -/
structure LaneInstr where
  acc : Access
  dst : BitVec 7
  words : List Nat
  v : Group → Lane → Nat
  c : Group → Lane → Nat
  index : Group → Lane → Word
  look : State → Lane → (LaneRes × Nat) × State

/-- The mask of some lanes. -/
def outMask (l : List LaneOut) : Mask := maskOf fun x => l.any fun o => o.lane = x

/-- The cause reported: the one of the highest rank, which is the lowest number (R353, R354). -/
def worst (l : List LaneOut) : Option Nat :=
  (l.filterMap fun o => match o.res with
    | .bad c _ => some c
    | _ => none).min?

/-- The frame of a lane cause (R354 to R356): TRAPMASK holds the lanes that raised it, and the h words
tell of the lowest. -/
def laneFrame (t : State) (li : LaneInstr) (outs : List LaneOut) (cause : Nat) (done : Mask) : Frame :=
  let hit := outs.filter fun o => match o.res with
    | .bad c _ => c = cause
    | _ => false
  let first := hit.head?
  let va := match first with
    | some o => o.va
    | none => 0
  { cause := cause
    code := match first with
      | some o => match o.res with
        | .bad _ k => k
        | _ => 0
      | none => 0
    write := li.acc.isWrite, pc := t.issuePc, mask := outMask hit, done := done
    h0 := BitVec.ofNat 32 va, h1 := BitVec.ofNat 32 (va / 2 ^ 32 % 2 ^ 24)
    h2 := match first with
      | some o => li.index t.g o.lane
      | none => 0
    h3 := match first with
      | some o => BitVec.ofNat 32 o.lane.val
      | none => 0 }

/-- The pantry entry of the lanes of one line (R374). (Log entry 15.) -/
def pantryEntry (t : State) (a : Access) (vline : Nat) (l : List (Nat × Nat × Nat)) : PantryEntry :=
  let g := t.g
  let red := match a with
    | .atomic _ _ _ _ _ => true
    | _ => false
  let w := a.width
  let bytes := l.flatMap fun x =>
    if red then bytesAt (w * x.1) w x.2.2 else bytesAt (x.2.1 % 128) w x.2.2
  { id := t.nextId, core := g.core, slot := g.slot, split := g.sp.age, anc := g.sp.anc, part := t.partOf g
    vline := vline, kind := if red then 1 else 0
    op := match a with
      | .atomic major minor _ _ _ => if major = 19 then minor else 8 + minor
      | _ => 0
    site := match a with
      | .atomic _ _ _ site _ => site - 2
      | _ => 0
    unmappable := false, reported := false, trapped := false
    lanes := maskOf fun y => l.any fun x => x.1 = y.val
    groupix := g.groupix, reason := 0, stamp := t.timer
    bytemask := if red then 0 else BitVec.ofNat 128 ((bytes.map fun b => b.1).eraseDups.map fun o => 2 ^ o).sum
    word := if red then BitVec.ofNat 160 (l.map fun x => x.2.1 % 128 / 4 * 2 ^ (5 * x.1)).sum else 0
    data := (List.range 256).map fun k => (bytes.reverse.lookup k).getD 0 }

/-- The lanes of a store or RED whose page is absent enter the pantry, one entry for each line, in the
order of their lines' lowest lanes; a line for which no entry is free holds (R311, R375). Each lane is
given with its address and operand. The lanes that did not enter come back. (Log entry 15.) -/
def enterPantry (a : Access) : List Nat → List (Nat × Nat × Nat) → State → List (Nat × Nat × Nat) × State
  | [], _, s => ([], s)
  | vl :: r, l, s =>
    let mine := l.filter fun x => x.2.1 / 128 = vl
    if (s.coreAt s.g.core).pantryRoom then
      enterPantry a r l (s.pantryAdd (pantryEntry s a vl mine))
    else
      let c := s.coreAt s.g.core
      let s1 := if c.pantryFull then s else
        (s.modCore s.g.core fun k => { k with pantryFull := true }).post
          { Event.of 0x4B 0 0 with
            part := s.partOf s.g, domain := s.domainOf s.g.launch, core := s.g.core, die := coreDie s.g.core }
      let x := enterPantry a r l s1
      (mine ++ x.1, x.2)

/-- A flight of some lanes enters the machine; it is numbered in the order of issue. -/
def State.addFlight (t : State) (li : LaneInstr) (lanes : List LaneAcc) (held : List HeldLane) : State :=
  let g := t.g
  { t with
    nextId := t.nextId + 1
    flights := t.flights ++ [{
      id := t.nextId, core := g.core, slot := g.slot, split := g.sp.age, anc := g.sp.anc, pc := t.issuePc
      mask := t.act, acc := li.acc, part := t.partOf g, trap := g.sp.trap, lanes := lanes, held := held
      results := [], performed := false, done := 0, dst := li.dst, words := li.words
      idx := (lanesOf t.act).map fun l => (l.val, li.index g l) }] }

/-- The destination's registers are marked empty (R54). -/
def State.markEmpty (t : State) (li : LaneInstr) : State :=
  t.modG fun g => g.setFulls li.dst.toNat li.words false

/-- Lanes of LDV and LDVS beyond the snapshot set's free entries raise 0x0F (R380); entries that earlier
loads in flight will take count as taken. -/
def snapLimit (g : Group) (pending : List (Nat × Nat)) : Nat → List LaneOut → List LaneOut
  | _, [] => []
  | free, o :: r =>
    match o.res with
    | .ok (.dev pa) =>
      if (g.snap o.lane.val (pa / 128)).isSome || pending.contains (o.lane.val, pa / 128) then o :: snapLimit g pending free r
      else if free = 0 then { o with res := .bad 0x0F 0 } :: snapLimit g pending free r
      else o :: snapLimit g pending (free - 1) r
    | _ => o :: snapLimit g pending free r

/-- It takes snapshot entries (R201). -/
def Access.snaps : Access → Bool
  | .ldv => true
  | .ldvs _ => true
  | _ => false

/-- The snapshot entries that a group's versioned loads in flight will take. -/
def State.snapsPending (s : State) (g : Group) : List (Nat × Nat) :=
  ((s.flights.filter fun f => f.core = g.core && f.slot = g.slot && !f.performed && f.acc.snaps).flatMap fun f => (devLanes f.lanes).map fun x => (x.2.lane, x.1 / 128)).eraseDups.filter
    fun x => (g.snap x.1 x.2).isNone

/-- The outcomes of an instruction's lanes, with the snapshot capacity where it applies. -/
def outcomes (li : LaneInstr) (t : State) : List LaneOut × State :=
  let r := lookLanes li.look (lanesOf t.act) t
  if li.acc.snaps then
    let p := r.2.snapsPending t.g
    (snapLimit t.g p (Config.snapEntries - t.g.snaps.length - p.length) r.1, r.2)
  else r

/-- The report of an unmappable entry (R353, R372, R376): its access writes. -/
def State.pantryFrame (s : State) (e : PantryEntry) : Frame :=
  { s.frame 0x0D 1 (BitVec.ofNat 32 (e.vline * 128)) (BitVec.ofNat 32 (e.vline * 128 / 2 ^ 32 % 2 ^ 24))
      e.lanes 0xFFFFFFFF with write := true }

/-- The flights of the issuing split, and of those it descends from, that are not yet performed (R73). -/
def State.mine (s : State) : List Flight :=
  s.flights.filter fun f => f.core = s.g.core && f.slot = s.g.slot && s.g.sp.anc.contains f.split && !f.performed

/-- The group's entries in its core's pantry. -/
def State.myPantry (s : State) : List PantryEntry :=
  (s.coreAt s.g.core).pantry.filter fun e => e.slot = s.g.slot

/-- What an instruction that begins as REL meets at issue when an entry of its group is unmappable (R376). -/
def LaneInstr.stuck (li : LaneInstr) (t : State) : Option PantryEntry :=
  if li.acc.releases then t.myPantry.find? fun e => e.unmappable else none

/-- A lane memory instruction behind the checks of instruction scope (R192, R354, R355, R371). -/
def issueBody (i : Instr) (li : LaneInstr) (t : State) : Out :=
  if t.act = 0 then .next (t.finish i)
  else match li.stuck t with
  | some e => .next (t.takeTrap (t.pantryFrame e))
  | none =>
    let r := outcomes li t
    let oks := r.1.filterMap fun o => match o.res with
      | .ok tg => some { lane := o.lane.val, tgt := tg, v := li.v t.g o.lane, c := li.c t.g o.lane, va := o.va : LaneAcc }
      | _ => none
    let away := r.1.filterMap fun o => match o.res with
      | .absent => some (o.lane.val, o.va, li.v t.g o.lane)
      | .behind => some (o.lane.val, o.va, li.v t.g o.lane)
      | _ => none
    let parked := if li.acc.parks then
        enterPantry li.acc (away.map fun x => x.2.1 / 128).eraseDups away r.2
      else (away, r.2)
    let okMask := maskOf fun x => oks.any fun a => a.lane = x.val
    let inMask := maskOf fun x => (away.any fun y => y.1 = x.val) && !(parked.1.any fun y => y.1 = x.val)
    match worst r.1 with
    | some cause =>
      let f := laneFrame t li r.1 cause (okMask ||| inMask)
      let u := if cause = 0x0E then parked.2.heard t.g li.acc.width (r.1.filterMap fun o => if o.res = .bad 0x0E 2 then some o.va else none)
        else parked.2
      if oks = [] then .next (u.takeTrap f)
      else if li.words = [] ∨ li.dst = 0x7C#7 then .next ((u.addFlight li oks []).takeTrap f)
      else .next (((u.addFlight li oks []).markEmpty li).park (.trapAfter u.nextId f))
    | none =>
      let u := parked.2
      let held := parked.1.map fun x =>
        { lane := x.1, va := x.2.1, v := x.2.2, pantry := li.acc.parks
          late := !li.acc.parks && (r.1.any fun o => o.lane.val = x.1 && o.res = .absent) && u.unasked t.g.core (t.partOf t.g) x.2.1
          c := (lanes.find? fun l => l.val = x.1).elim 0 (fun l => li.c t.g l) : HeldLane }
      if oks = [] ∧ held = [] then .next (u.finish i)
      else
        let v := (u.addFlight li oks held).markEmpty li
        .next (if held = [] then v.finish i
          else (v.modFlight u.nextId fun x => { x with done := inMask }).park (.held u.nextId))

/-- A lane memory instruction. -/
def laneMemory (i : Instr) (s : State) (li : LaneInstr) : Out := run i s (issueBody i li)

end Sys2Proof.Machine
end

