-- ==== Sys2Proof/Machine/Footprint.lean ====
section
/-! DEFINITION. What an engine request reads and writes (R211 to R213, R215, R227 to R230, R232, R233, R242 to R244),
and the order between a split's requests and its later writes (R70, R74, R82). -/

namespace Sys2Proof.Machine

/-! ### Runs of addresses -/

/-- Contiguous runs of addresses (address, length) of n bytes from element i on (R211): one run when the
elements follow one another, else one for each element. -/
def recordRuns (r : BitVec 128) (i n : Nat) : List (Nat × Nat) :=
  let e := recElem r
  if bget r 111 4 = 0 ∧ (bget r 88 20 = 0 ∨ bget r 88 20 = e) then
    let a := recordEa r i
    (List.range (max 1 ((a % 2 ^ 16 + n + 2 ^ 16 - 1) / 2 ^ 16))).map fun k =>
      let lo := max a ((a / 2 ^ 16 + k) * 2 ^ 16)
      (lo, min (a + n) ((a / 2 ^ 16 + k + 1) * 2 ^ 16) - lo)
  else (List.range (max 1 ((n + e - 1) / e))).map fun k => (recordEa r (i + k), min e (n - k * e))

/-- The parts of a request's reads, or of its writes: a place, and how many bytes from there on. -/
structure Run where
  /-- memory by a record with the host bit, memory by a virtual address, or the block's scratchpad -/
  host : Bool
  spm : Bool
  at_ : Nat
  len : Nat
  deriving DecidableEq, Repr

/-- One side of a copy for one row (R211, R212). -/
def Side.runs (x : Side) (off n : Nat) : List Run :=
  if x.scr then [⟨false, true, (x.idx + off) % 2 ^ 32, n⟩]
  else (recordRuns x.rcd ((x.idx + off) % 2 ^ 32) n).map fun y => ⟨recHost x.rcd, false, y.1, y.2⟩

/-- Rows in memory of one length, a pitch apart (R232, R233, R242). -/
def rowRuns (va pitch rows n : Nat) : List Run := (List.range rows).map fun k => ⟨false, false, (va + k * pitch) % 2 ^ 56, n⟩

/-- The element of each lane (R213), and the lanes' places in the scratchpad. -/
def laneRuns (r : BitVec 128) (idx : List (Nat × Word)) : List Run :=
  idx.map fun x => ⟨recHost r, false, recordEa r x.2.toNat, recElem r⟩
def placeRuns (r : BitVec 128) (idx : List (Nat × Word)) (base : Nat) : List Run :=
  idx.map fun x => ⟨false, true, (base + x.1 * recElem r) % 2 ^ 32, recElem r⟩

/-- What a request reads in memory and in the scratchpad. -/
def ReqKind.reads : ReqKind → List Run
  | .copy src _ rows n sp _ => if n = 0 then [] else (List.range rows).flatMap fun k => src.runs (k * sp) n
  | .gather r idx _ => laneRuns r idx
  | .scatter r idx base => placeRuns r idx base
  | .mld d va pitch first rows => rowRuns va pitch rows (rowLen (.mld d va pitch first rows))
  | .mlds d z va pitch first rows => rowRuns va pitch rows (rowLen (.mlds d z va pitch first rows))
  | .accLoad kind va operand => [⟨false, false, va, if kind = 1 then 64 else imageLen kind operand⟩]
  | _ => []

/-- What a request writes there. -/
def ReqKind.writes : ReqKind → List Run
  | .copy _ dst rows n _ dp => if n = 0 then [] else (List.range rows).flatMap fun k => dst.runs (k * dp) n
  | .gather r idx base => placeRuns r idx base
  | .scatter r idx _ => laneRuns r idx
  | .mst va pitch _ count conv _ => rowRuns va pitch (8 * count) (128 * convBytes conv)
  | .accSave kind va operand => [⟨false, false, va, imageLen kind operand⟩]
  | _ => []

/-- The completion object that a request has still to write (R215). -/
def EngReq.object (r : EngReq) : List Run :=
  match r.compl with
  | some (x, i, _) => [⟨recHost x, false, recordEa x i, 8⟩]
  | none => []

/-- Where a run lies, with its length; a page that no leaf maps is no place yet. -/
def State.runAt (s : State) (r : EngReq) (x : Run) : List (Target × Nat) :=
  if x.spm then
    match s.spmIn r.core r.block x.at_ 1 with
    | some y => [(.spm y.1 y.2, x.len)]
    | none => []
  else if x.host then [(.host (s.hostPort r.part) x.at_, x.len)]
  else match s.walk r.part x.at_ with
    | .leaf e =>
      let o := e.pa + x.at_ % pageSize e.size
      [(if e.reach = 0 then .dev o else if e.reach = 1 then .host (s.hostPort r.part) o else .peer e.peer o, x.len)]
    | _ => []

/-- Two places of so many bytes have a word in common (R70). -/
def meets (x y : Target × Nat) : Bool :=
  let a := x.1.key
  let b := y.1.key
  a.1 = b.1 && a.2.1 = b.2.1 && decide (a.2.2 < b.2.2 + y.1.words y.2) && decide (b.2.2 < a.2.2 + x.1.words x.2)

/-- A request of one group slot that a later access of a split with these ancestors follows in program order (R73, R74):
it still acts. One that is stopped or waits for a page is passed where that is said: by what trap-mode code writes, which it may be
waiting for, and while a freeze stops the group. A collective's tile races with its group's writes (R224).
(Log entry 15.) -/
def EngReq.stands (r : EngReq) (core slot before : Nat) (anc : List Nat) (passes : Bool) : Bool :=
  r.core = core && r.slot = slot && decide (r.id < before) && anc.contains r.split &&
  !(passes && (r.stopped.isSome || r.waiting)) && !(r.done && r.compl.isNone)

/-- A freeze stops the group in a slot. -/
def State.stoppedAt (s : State) (core slot : Nat) : Bool := (s.groupAt core slot).any fun g => g.stopped

/-- Writes to some places must wait for an earlier request of the split that reads or writes there (R74).
(Log entry 15.) -/
def State.writesBehind (s : State) (core slot before : Nat) (anc : List Nat) (passes : Bool) (l : List (Target × Nat)) : Bool :=
  (s.reqs.filter fun r => r.stands core slot before anc passes).any fun r =>
    ((if r.done then [] else r.kind.reads ++ r.kind.writes) ++ r.object).any fun x => (s.runAt r x).any fun y => l.any (meets y)

/-- Reads of some places by a request must wait for an earlier request of the split that writes there (R74). -/
def State.readsBehind (s : State) (core slot before : Nat) (anc : List Nat) (passes : Bool) (l : List (Target × Nat)) : Bool :=
  (s.reqs.filter fun r => r.stands core slot before anc passes).any fun r =>
    ((if r.done then [] else r.kind.writes) ++ r.object).any fun x => (s.runAt r x).any fun y => l.any (meets y)

/-- A writing flight stands behind an earlier request at its place (R74). (Log entry 15.) -/
def State.flightBehind (s : State) (f : Flight) : Bool :=
  f.acc.isWrite && s.writesBehind f.core f.slot f.id f.anc (f.trap || s.stoppedAt f.core f.slot) (f.lanes.map fun a => (a.tgt, f.acc.width))

/-- A request stands behind an earlier one of its split at its place (R74, R82). (Log entry 15.) -/
def State.requestBehind (s : State) (r : EngReq) : Bool :=
  let passes := s.stoppedAt r.core r.slot
  s.reqs.any (fun x => x.stands r.core r.slot r.id r.anc passes) &&
    (s.writesBehind r.core r.slot r.id r.anc passes (r.kind.writes.flatMap (s.runAt r)) ||
     s.readsBehind r.core r.slot r.id r.anc passes (r.kind.reads.flatMap (s.runAt r)))

end Sys2Proof.Machine
end

