-- ==== Sys2Proof/Machine/Fill.lean ====
section
/-! DEFINITION. Writing what an access returned (R54, R193, R202, R203), lanes that held for a page or for
the pantry (R371, R375), and walks of standing page requests (R370, R376). -/

namespace Sys2Proof.Machine

/-- Word off of what a lane receives (R193, R202, R203): a versioned access's value is packed with
2^64 × version, CASV's outcome likewise. -/
def Access.word (a : Access) (off v : Nat) : Word :=
  match a with
  | .load w true _ => BitVec.ofInt 32 (toSigned (8 * w) v)
  | .ldv => BitVec.ofNat 32 (if off = 0 then v else v / 2 ^ 64)
  | .vrd => BitVec.ofNat 32 (v / 2 ^ 64)
  | .casv _ => BitVec.ofNat 32 (if off = 0 then v else v / 2 ^ 64)
  | _ => BitVec.ofNat 32 (v / 2 ^ (32 * off))

/-- CPOLL's one value goes to every active lane (R208). -/
def Flight.single (f : Flight) : Bool := f.acc = .cpoll

/-- The value that a lane receives, or 0. -/
def Flight.value (f : Flight) (l : Lane) : Nat :=
  if f.single then (f.results.map fun r => r.2).headD 0 else (f.results.lookup l.val).getD 0

/-- The lanes that have a value. -/
def Flight.have_ (f : Flight) : Mask :=
  if f.single then f.mask else maskOf fun l => f.results.any fun r => r.1 = l.val

/-- A group changed while its registers bear the names that code of a mode gives them (R294). -/
def Group.underTrap (g : Group) (trap : Bool) (h : Group → Group) : Group :=
  let u := h { g with sp := { g.sp with trap := trap } }
  { u with sp := { u.sp with trap := g.sp.trap } }

/-- A group whose destination takes the values of a flight and becomes full; the registers are named as
they stood at issue (R54, R294). -/
def Group.fill (g : Group) (f : Flight) : Group :=
  match f.acc with
  | .brec n =>
    { g with b := vset g.b n (BitVec.ofNat 128 ((f.results.map fun r => r.2).headD 0))
             bPend := g.bPend &&& ~~~(1#32 <<< n) }
  | .vchk pd => g.setPred pd f.have_ fun l => f.value l != 0
  | _ => g.underTrap f.trap fun x =>
    (f.words.foldl (fun y off => y.writeWord f.dst.toNat off f.have_ fun l => f.acc.word off (f.value l)) x).setFulls
      f.dst.toNat f.words true

/-- A group whose destination is full again with what it held: nothing will be written (R54, R184, R294). -/
def Group.undo (g : Group) (f : Flight) : Group :=
  match f.acc with
  | .brec n => { g with bPend := g.bPend &&& ~~~(1#32 <<< n) }
  | _ => g.underTrap f.trap fun x => x.setFulls f.dst.toNat f.words true

/-- The split that waits for a flight, if any. -/
def Group.waiter (g : Group) (id : Nat) : Option Split :=
  g.splits.find? fun x => match x.wait with
    | .held k => k = id
    | .trapAfter k _ => k = id
    | .check k => k = id
    | _ => false

/-- A trap taken by a split that is not at the front: it is brought there (R292). While another split
of its group is in trap mode its instruction counts as not issued, and is issued again behind that split's RTT, for the lanes
that are not done (R293, R355). -/
def State.trapAt (s : State) (core slot age : Nat) (f : Frame) : State :=
  match s.groupAt core slot with
  | none => s
  | some g =>
    if g.splits.any fun x => x.trap && x.age != age then
      s.modGroup core slot fun x => x.modSplit age fun z =>
        { z with pc := f.pc, wait := .none, xm := none, reissue := some (f.done ||| z.reissue.getD 0) }
    else (s.focus core slot age).takeTrap f

/-- A flight is over: its values are written, its destination is full, and the split that waited for it
goes on, or takes its trap (R54, R204, R355). -/
def State.fillFlight (s : State) (f : Flight) : State :=
  let s1 := { s with flights := s.flights.filter fun x => x.id ≠ f.id }
  match s1.groupAt f.core f.slot with
  | none => s1
  | some g =>
    let s2 := s1.modGroup f.core f.slot fun x => x.fill f
    let s3 := match g.waiter f.id with
      | none => s2
      | some x => match x.wait with
        | .trapAfter _ fr => s2.trapAt f.core f.slot x.age fr
        | .check _ => s2.modGroup f.core f.slot fun y => y.modSplit x.age fun z => { z with wait := .none }
        | _ => s2
    s3.retryAll

/-- Pages that the walks of standing requests have just found refused: partition, page, cause, code (R370). -/
abbrev Refusals := List (Nat × Nat × Nat × Nat)

/-- What becomes of one held lane when its page is looked up again: the walk of a standing request that found the page refused
is the lane's own; while all requests are in use a page without one is walked at multiples of 2^16 only (R370, R371). -/
def State.lookHeld (s : State) (told : Refusals) (f : Flight) (h : HeldLane) : LaneRes × State :=
  if (s.coreAt f.core).pageReqs.any fun r => r.on f.part (h.va / 2 ^ 16) then (.absent, s)
  else match told.find? fun x => x.1 = f.part && x.2.1 = h.va / 2 ^ 16 with
  | some x => (.bad x.2.2.1 x.2.2.2, s)
  | none => if h.late = true ∧ s.timer % 2 ^ 16 ≠ 0 then (.absent, s)
  else match s.groupAt f.core f.slot with
    | none => (.absent, s)
    | some g => s.laneTranslate (g.focus f.split) f.acc false h.va

/-- The held lanes of a flight, each looked up once, and each line walked once (R59): those now translated, those still
held, those refused; the lanes found together keep ascending order (R371). -/
def heldFold (told : Refusals) (f : Flight) :
    List Nat → List HeldLane → State → List LaneAcc × List HeldLane × List (HeldLane × Nat × Nat) × State
  | _, [], s => ([], [], [], s)
  | seen, h :: r, s =>
    let x := s.lookHeld told f h
    let line := h.va / 128
    let rest := heldFold told f (line :: seen) r (if seen.contains line then s else x.2)
    match x.1 with
    | .ok t => ({ lane := h.lane, tgt := t, v := h.v, c := h.c, va := h.va } :: rest.1, rest.2.1, rest.2.2.1, rest.2.2.2)
    | .bad c k => (rest.1, rest.2.1, (h, c, k) :: rest.2.2.1, rest.2.2.2)
    | y => (rest.1, { h with late := y = .absent && !h.pantry && x.2.unasked f.core f.part h.va } :: rest.2.1, rest.2.2.1, rest.2.2.2)

/-- Lanes that come out of their hold for LDV or LDVS, checked for a free snapshot entry in ascending order (R380):
those admitted, and those for which none is left. -/
def capped (g : Group) (pending : List (Nat × Nat)) : Nat → List LaneAcc → List LaneAcc × List LaneAcc
  | _, [] => ([], [])
  | free, a :: r =>
    match a.tgt with
    | .dev pa =>
      if (g.snap a.lane (pa / 128)).isSome || pending.contains (a.lane, pa / 128) then
        let x := capped g pending free r
        (a :: x.1, x.2)
      else if free = 0 then
        let x := capped g pending free r
        (x.1, a :: x.2)
      else
        let x := capped g pending (free - 1) r
        (a :: x.1, x.2)
    | _ =>
      let x := capped g pending free r
      (a :: x.1, x.2)

/-- The same for a flight: only LDV and LDVS take snapshot entries (R201). -/
def State.snapRoom (s : State) (f : Flight) (l : List LaneAcc) : List LaneAcc × List LaneAcc :=
  match s.groupAt f.core f.slot with
  | none => (l, [])
  | some g =>
    let p := s.snapsPending g
    if f.acc.snaps then capped g p (Config.snapEntries - g.snaps.length - p.length) l else (l, [])

/-- The frame of held lanes that are refused, or stopped by a freeze (R356, R371, R373). -/
def Flight.refusal (f : Flight) (bad : List (HeldLane × Nat × Nat)) (done : Mask) : Frame :=
  let cause := ((bad.map fun x => x.2.1).min?).getD 0x0D
  let hit := bad.filter fun x => x.2.1 = cause
  let first := hit.head?
  { cause := cause, code := first.elim 0 (fun x => x.2.2), write := f.acc.isWrite, pc := f.pc
    mask := maskOf fun l => hit.any fun x => x.1.lane = l.val, done := done
    h0 := first.elim 0 (fun x => BitVec.ofNat 32 x.1.va)
    h1 := first.elim 0 (fun x => BitVec.ofNat 32 (x.1.va / 2 ^ 32 % 2 ^ 24))
    h2 := first.elim 0 (fun x => (f.idx.lookup x.1.lane).getD 0)
    h3 := first.elim 0 (fun x => BitVec.ofNat 32 x.1.lane) }

/-- The instruction of a flight whose lanes are refused traps: at once when none of its lanes is on its
way to a register, and else when those have been written (R355, R371). -/
def State.refuseHeld (s : State) (f : Flight) (fr : Frame) : State :=
  let s1 := s.modGroup f.core f.slot fun g => g.modSplit f.split fun z => { z with wait := .trapAfter f.id fr }
  if f.words ≠ [] ∧ (f.lanes ≠ [] ∨ f.results ≠ []) then
    s1.modFlight f.id fun x => { x with held := [], performed := x.lanes.isEmpty }
  else
    let s2 := if f.lanes = [] then { s1 with flights := s1.flights.filter fun x => x.id ≠ f.id }
      else s1.modFlight f.id fun x => { x with held := [] }
    let s3 := s2.modGroup f.core f.slot fun g => g.undo f
    s3.trapAt f.core f.slot f.split fr

/-- The held lanes of one flight are tried again (R371). -/
def State.resumeHeld (told : Refusals) (s : State) (id : Nat) : State :=
  match s.flights.find? fun f => f.id = id with
  | none => s
  | some f =>
    if f.held = [] then s
    else
      let r := heldFold told f [] f.held s
      let ok := r.2.2.2.snapRoom f r.1
      let bad := r.2.2.1 ++ (f.held.filter fun h => ok.2.any fun a => a.lane = h.lane).map fun h => (h, 0x0F, 0)
      let s1 := r.2.2.2.modFlight id fun x => { x with lanes := x.lanes ++ ok.1, held := r.2.1 }
      match s1.flights.find? fun x => x.id = id with
      | none => s1
      | some f1 =>
        if bad ≠ [] then
          (match s1.groupAt f.core f.slot with
            | some g => s1.heard g f.acc.width (bad.filterMap fun (x : HeldLane × Nat × Nat) => if x.2 = (0x0E, 2) then some x.1.va else none)
            | none => s1).refuseHeld f1 (f1.refusal bad (f1.done ||| maskOf fun l => f1.lanes.any fun a => a.lane = l.val))
        else if r.2.1 = [] then
          (s1.modGroup f.core f.slot fun g => g.modSplit f.split fun z => z.finish 4).modFlight id fun x =>
            { x with performed := x.lanes.isEmpty }
        else s1

/-- Lanes that held for room in the pantry enter it, in the order of issue (R375). -/
def State.resumeFull (s : State) (id : Nat) : State :=
  match s.flights.find? fun f => f.id = id with
  | none => s
  | some f =>
    let want := f.held.filter fun h => h.pantry
    if want = [] then s
    else
      let s1 := s.focus f.core f.slot f.split
      let l := want.map fun h => (h.lane, h.va, h.v)
      let r := enterPantry f.acc (l.map fun x => x.2.1 / 128).eraseDups l s1
      let left := f.held.filter fun h => !h.pantry || r.1.any fun x => x.1 = h.lane
      let entered := maskOf fun l => want.any (fun h => h.lane = l.val) && !(r.1.any fun x => x.1 = l.val)
      let s2 := if left = [] ∧ f.lanes = [] then { r.2 with flights := r.2.flights.filter fun x => x.id ≠ id }
        else r.2.modFlight id fun x => { x with held := left, done := x.done ||| entered }
      if left = [] then s2.modGroup f.core f.slot fun g => g.modSplit f.split fun z => z.finish 4 else s2

/-- Every flight of a core with held lanes is tried again: for their pages those of older splits first (R293), and for room in
the pantry in the order of issue (R375). -/
def State.resumeFor (s : State) (told : Refusals) (core : Nat) : State :=
  let fs := s.flights.filter fun f => f.core = core && !f.held.isEmpty
  let s1 := ((sortBy (fun f => f.split) fs).map fun f => f.id).foldl (State.resumeHeld told) s
  (fs.map fun f => f.id).foldl State.resumeFull s1

/-- The same with nothing told of any page. -/
def State.resumeCore (s : State) (core : Nat) : State := s.resumeFor [] core

/-- Fetches of a core that held for a page whose request is over, and at multiples of 2^16 those for a page without one, are
tried again (R370, R371). -/
def State.wakeFetch (s : State) (core part : Nat) (ended : List PageReq) : State :=
  let reqs := (s.coreAt core).pageReqs
  let wake := fun (z : Split) => match z.wait with
    | .fetch p => if (ended.any (fun r => r.on part p) || s.timer % 2 ^ 16 = 0) && !(reqs.any fun r => r.on part p) then { z with wait := .none }
      else z
    | _ => z
  let f := fun (g : Group) => if g.live && g.core = core && s.partOf g = part then g.mapSplits wake else g
  { s with g := f s.g, others := s.others.map f }

/-- One standing page request of a core is walked again, by a walk that begins as ACQ (R307, R370): a present leaf is filled
and ends it, a refusal ends it and refuses the page's pantry entries. -/
def State.rewalk (s : State) (core : Nat) (r : PageReq) : State :=
  let va := r.page * 2 ^ 16
  let drop := fun (t : State) => t.modCore core fun c => { c with pageReqs := c.pageReqs.filter fun x => x ≠ r }
  let s0 := (s.acquire core).tally 10 1 (some core) (coreDie core)
  match s0.walk r.part va with
  | .absent => s0
  | .leaf e => (drop (s0.tlbFill core 2 e)).announce core e
  | .denied => (drop s0).refusePage core r.part r.page 1
  | .malformed a =>
    ((drop s0).post { Event.of 0x49 0 a with part := r.part, domain := r.domain, core := core, die := coreDie core }).refusePage
      core r.part r.page 2
  | .error _ => ((drop s0).revealWalk r.part va).refusePage core r.part r.page 1

/-- The refusal that the walk of a standing request finds, if any (R369, R372). -/
def State.refusalOf (s : State) (r : PageReq) : Refusals :=
  match s.walk r.part (r.page * 2 ^ 16) with
  | .denied => [(r.part, r.page, 0x0D, 0)]
  | .malformed _ => [(r.part, r.page, 0x0D, 2)]
  | .error c => [(r.part, r.page, 0x0E, c)]
  | _ => []

/-- The standing requests of a core that p names are walked again, and what held for them is tried
again (R370, R371). -/
def State.rewalkCore (s : State) (core : Nat) (p : PageReq → Bool) : State :=
  let l := (s.coreAt core).pageReqs.filter p
  let told := l.flatMap s.refusalOf
  let s1 := l.foldl (fun t r => t.rewalk core r) s
  let parts := (s1.groups.filter fun g => g.core = core).map fun g => s1.partOf g
  (parts.eraseDups.foldl (fun t q => t.wakeFetch core q l) (s1.resumeFor told core)).retryAll

/-- Words of a kind 2 entry whose line is poisoned are lost (R402). -/
def State.loseEntry (s : State) (e : PantryEntry) : State :=
  match s.groupAt e.core e.slot with
  | none => s
  | some g => { s with lost := s.lost ++ [{ block := g.block, producer := g.producer, vline := e.vline
                                            words := maskOf fun w => e.bytemask.getLsbD (4 * w.val) : LostLine }] }

/-- A replay's access: a store of the entry's bytes, or the lanes of its RED (R311, R374). -/
def PantryEntry.flight (e : PantryEntry) (at_ : Nat → Target) : Flight :=
  let red := e.kind = 1
  let w := if red ∧ 8 ≤ e.op ∧ ((e.op - 8) = 1 ∨ (e.op - 8) = 3 ∨ (e.op - 8) = 7) then 8 else 4
  let va := e.vline * 128
  { id := e.id, core := e.core, slot := e.slot, split := e.split, anc := e.anc, pc := 0, mask := e.lanes
    acc := if red then .atomic (if e.op < 8 then 19 else 20) (e.op % 8) w (e.site + 2) false else .store 1 0
    part := e.part, trap := false
    lanes := if red then (lanesOf e.lanes).map fun l =>
        { lane := l.val, tgt := at_ (4 * bget e.word (5 * l.val) 5), c := 0, va := va + 4 * bget e.word (5 * l.val) 5
          v := ofBytes ((e.data.drop (w * l.val)).take w) }
      else ((List.range 128).filter fun k => e.bytemask.getLsbD k).map fun k =>
        { lane := 0, tgt := at_ k, v := (e.data.getD k 0).toNat, c := 0, va := va + k }
    held := [], results := [], performed := false, done := 0, dst := 0x7C, words := [], idx := [] }

/-- One entry of the pantry is replayed (R311, R375, R376): it is performed when its page's leaf allows
it, kept while the page is absent, and unmappable otherwise. A RED on a poisoned line becomes unmappable, a write-back there
loses its words (R402). (Log entry 15.) -/
def State.replayEntry (s : State) (e : PantryEntry) : State :=
  let va := e.vline * 128
  let drop := fun (t : State) => t.modCore e.core fun c =>
    { c with pantry := c.pantry.filter (fun x => x.id ≠ e.id)
             pantryFull := c.pantryFull && decide (Config.pantryEntries ≤ (c.pantry.filter fun x => x.id ≠ e.id).length) }
  let bad := fun (t : State) (reason : Nat) =>
    (t.modCore e.core fun c =>
      { c with pantry := c.pantry.map fun x => if x.id = e.id then { x with unmappable := true, reason := reason } else x }).unmappableEvent e reason
  match s.lookup e.core e.part va true false (s.slotDomain e.core e.slot) with
  | (.leaf lf, s0) =>
    let f0 := e.flight fun k => .dev k
    if !lf.write then bad s0 5
    else if e.kind = 1 && f0.acc.siteBad lf.reach then bad s0 6
    else match s0.checkLeaf e.core e.part va lf true false true with
      | (.absent, t) => t
      | (.refused _ _ reason, t) => bad t reason
      | (.ok tg, t0) =>
        let f := e.flight fun k => match tg with
          | .dev pa => Target.dev (pa + k)
          | .host p ha => .host p (ha + k)
          | .peer d pa => .peer d (pa + k)
          | .spm c o => .spm c (o + k)
        let t := t0.revealAt tg
        let lost := match tg with
          | .dev pa => t.poisoned (pa / 128)
          | _ => false
        if lost && e.kind = 1 then bad t 1
        else if lost && e.kind = 2 then drop (t.loseEntry e)
        else if (f.toPeer && t.railHolds (coreDie e.core)) || (t.flights.any fun x => x.holdsBack f) || t.flightBehind f then t
        else
          let u := (devLanes f.lanes).foldl (fun u x => u.settleLine e.core (x.1 / 128)) t
          if (devLanes f.lanes).any fun x => u.ownDirty e.core (x.1 / 128) then u
          else
            let rcb := match u.groupAt e.core e.slot with
              | some g => g.launch
              | none => 0
            match u.logTargets (u.vdOf rcb) (f.logged f.lanes) with
            | none => u.logFullEvent (u.vdOf rcb)
            | some v => drop (((v.bring f f.lanes).performLanes f f.lanes).2)
  | (_, s0) => s0

/-- An entry stands in a core's pantry and may be replayed. -/
def State.mappable (s : State) (core id : Nat) : Bool := (s.coreAt core).pantry.any fun x => x.id = id && !x.unmappable

/-- Entries are replayed in order; behind one that stays, its group's other entries stay too (R75, R311).
(Log entry 15.) -/
def State.replayList (s : State) (core : Nat) (stopped : List Nat) : List PantryEntry → State
  | [] => s
  | e :: r =>
    if stopped.contains e.slot || !s.mappable core e.id then s.replayList core stopped r
    else
      let t := s.replayEntry e
      t.replayList core (if t.mappable core e.id then e.slot :: stopped else stopped) r

/-- The mappable entries of a core on a page are replayed in entry order (R311); splits and lanes that
waited for them are tried again. -/
def State.replayPage (s : State) (core part page : Nat) : State :=
  let es := (s.coreAt core).pantry.filter fun e =>
    e.part = part && e.vline * 128 / 2 ^ 16 = page && !e.unmappable
  ((s.replayList core [] es).resumeCore core).retryAll

end Sys2Proof.Machine
end

