-- ==== Sys2Proof/Machine/LoadStore.lean ====
section
/-! DEFINITION. Loads, stores, prefetch and scratchpad accesses: majors 16 to 18 (R192 to R197). -/

namespace Sys2Proof.Machine

/-- The value of n consecutive registers in a lane, the low word first (R50, R194). -/
def Group.readWords (g : Group) (sel : Nat) (l : Lane) : Nat → Nat
  | 0 => 0
  | n + 1 => g.readWords sel l n + (g.readWord sel n l).toNat * 2 ^ (32 * n)

/-- The record that an M-format field names (R56). -/
def Group.record (g : Group) (r : BitVec 5) : BitVec 128 := vget g.b r.toNat 0

/-- The index of a lane (R192). -/
def Group.index (g : Group) (x : BitVec 8) (l : Lane) : Word := g.read (selOf x) l

/-- How many registers a width takes (R193, R194). -/
def regsOf (width : Nat) : Nat := (width + 3) / 4

/-- A load through a record (R193). -/
def loadRec (i : Instr) (s : State) (h : BitVec 3) (x : BitVec 8) (r : BitVec 5) (d : BitVec 7) (width : Nat)
    (signed : Bool) : Out :=
  let a := Access.load width signed h.toNat
  laneMemory i s
    { acc := a, dst := d, words := List.range (regsOf width), v := fun _ _ => 0, c := fun _ _ => 0
      index := fun g l => g.index x l
      look := fun t l => t.laneRecord s.g a (s.g.record r) (s.g.index x l).toNat width }

/-- A store through a record (R194): the data register's low bytes. -/
def storeRec (i : Instr) (s : State) (h : BitVec 3) (x : BitVec 8) (r : BitVec 5) (d : BitVec 7) (width : Nat) : Out :=
  let a := Access.store width h.toNat
  laneMemory i s
    { acc := a, dst := 0x7C, words := [], v := fun g l => g.readWords d.toNat l (regsOf width) % 2 ^ (8 * width)
      c := fun _ _ => 0, index := fun g l => g.index x l
      look := fun t l => t.laneRecord s.g a (s.g.record r) (s.g.index x l).toNat width }

/-- A lane-interleaved load or store (R195). The flight's c carries the address, by which the line is
known when it is written back. -/
def ownMem (i : Instr) (s : State) (a : Access) (x : BitVec 8) (d : BitVec 7) (load : Bool) : Out :=
  laneMemory i s
    { acc := a, dst := if load then d else 0x7C, words := if load then [0] else []
      v := fun g l => if load then 0 else (g.read d.toNat l).toNat
      c := fun g l => s.ownWordAt g l (g.index x l).toNat
      index := fun g l => g.index x l
      look := fun t l => t.laneOwn s.g a l (s.g.index x l).toNat }

/-- A scratchpad load or store (R197). -/
def spmMem (i : Instr) (s : State) (x : BitVec 8) (d : BitVec 7) (width : Nat) (load : Bool) : Out :=
  let a := if load then Access.load width false 0 else Access.store width 0
  laneMemory i s
    { acc := a, dst := if load then d else 0x7C, words := if load then List.range (regsOf width) else []
      v := fun g l => if load then 0 else g.readWords d.toNat l (regsOf width) % 2 ^ (8 * width)
      c := fun _ _ => 0, index := fun g l => g.index x l
      look := fun t l => (t.laneSpm s.g (s.g.index x l).toNat width false, t) }

/-- LD.B (R193). -/
def execLdB (h : BitVec 3) (x : BitVec 8) (r : BitVec 5) (d : BitVec 7) (s : State) : Out :=
  loadRec (.ldB h x r d) s h x r d 1 false

/-- LD.BS (R193). -/
def execLdBs (h : BitVec 3) (x : BitVec 8) (r : BitVec 5) (d : BitVec 7) (s : State) : Out :=
  loadRec (.ldBs h x r d) s h x r d 1 true

/-- LD.H (R193). -/
def execLdH (h : BitVec 3) (x : BitVec 8) (r : BitVec 5) (d : BitVec 7) (s : State) : Out :=
  loadRec (.ldH h x r d) s h x r d 2 false

/-- LD.HS (R193). -/
def execLdHs (h : BitVec 3) (x : BitVec 8) (r : BitVec 5) (d : BitVec 7) (s : State) : Out :=
  loadRec (.ldHs h x r d) s h x r d 2 true

/-- LD.W (R193). -/
def execLdW (h : BitVec 3) (x : BitVec 8) (r : BitVec 5) (d : BitVec 7) (s : State) : Out :=
  loadRec (.ldW h x r d) s h x r d 4 false

/-- LD.D (R193). -/
def execLdD (h : BitVec 3) (x : BitVec 8) (r : BitVec 5) (d : BitVec 7) (s : State) : Out :=
  loadRec (.ldD h x r d) s h x r d 8 false

/-- LD.Q (R193). -/
def execLdQ (h : BitVec 3) (x : BitVec 8) (r : BitVec 5) (d : BitVec 7) (s : State) : Out :=
  loadRec (.ldQ h x r d) s h x r d 16 false

/-- LDP.W (R195). -/
def execLdpW (h : BitVec 3) (x : BitVec 8) (d : BitVec 7) (s : State) : Out :=
  ownMem (.ldpW h x d) s (.loadOwn h.toNat) x d true

/-- ST.B (R194). -/
def execStB (h : BitVec 3) (x : BitVec 8) (r : BitVec 5) (d : BitVec 7) (s : State) : Out :=
  storeRec (.stB h x r d) s h x r d 1

/-- ST.H (R194). -/
def execStH (h : BitVec 3) (x : BitVec 8) (r : BitVec 5) (d : BitVec 7) (s : State) : Out :=
  storeRec (.stH h x r d) s h x r d 2

/-- ST.W (R194). -/
def execStW (h : BitVec 3) (x : BitVec 8) (r : BitVec 5) (d : BitVec 7) (s : State) : Out :=
  storeRec (.stW h x r d) s h x r d 4

/-- ST.D (R194). -/
def execStD (h : BitVec 3) (x : BitVec 8) (r : BitVec 5) (d : BitVec 7) (s : State) : Out :=
  storeRec (.stD h x r d) s h x r d 8

/-- ST.Q (R194). -/
def execStQ (h : BitVec 3) (x : BitVec 8) (r : BitVec 5) (d : BitVec 7) (s : State) : Out :=
  storeRec (.stQ h x r d) s h x r d 16

/-- STP.W (R195). -/
def execStpW (h : BitVec 3) (x : BitVec 8) (d : BitVec 7) (s : State) : Out :=
  ownMem (.stpW h x d) s (.storeOwn h.toNat) x d false

/-- PREF (R63, R196): the line of each lane whose address passes every check and is translated comes into its home slice,
and under hint 0 into the L1; a dirty line of the core's own mode is written back first. It is no access, and an invalid
record makes it void. -/
def execPref (h : BitVec 3) (x : BitVec 8) (r : BitVec 5) (s : State) : Out :=
  complete (.pref h x r) s fun t =>
    if recordValid (t.g.record r) = false ∨ recHost (t.g.record r) = true then t
    else (lanesOf t.act).foldl (fun u l =>
      let i := (t.g.index x l).toNat
      let va := recordEa (t.g.record r) i
      if !recordCovers (t.g.record r) i 1 then u
      else match (u.lookup t.g.core (u.partOf t.g) va false false 0).1 with
        | .leaf e =>
          if e.reach = 0 && u.inWindow (u.partOf t.g) e.pa && !u.poisoned ((e.pa + va % pageSize e.size) / 128) then
            let line := (e.pa + va % pageSize e.size) / 128
            let v := u.bringLines t.g.core t.g.slot [line]
            if h = 0 then (v.loadLine t.g.core line (BitVec.allOnes 32) 0).2 else v.settleLine t.g.core line
          else u
        | _ => u) t

/-- LDS.W (R197). -/
def execLdsW (x : BitVec 8) (d : BitVec 7) (s : State) : Out :=
  spmMem (.ldsW x d) s x d 4 true

/-- LDS.D (R197). -/
def execLdsD (x : BitVec 8) (d : BitVec 7) (s : State) : Out :=
  spmMem (.ldsD x d) s x d 8 true

/-- LDS.Q (R197). -/
def execLdsQ (x : BitVec 8) (d : BitVec 7) (s : State) : Out :=
  spmMem (.ldsQ x d) s x d 16 true

/-- STS.W (R197). -/
def execStsW (x : BitVec 8) (d : BitVec 7) (s : State) : Out :=
  spmMem (.stsW x d) s x d 4 false

/-- STS.D (R197). -/
def execStsD (x : BitVec 8) (d : BitVec 7) (s : State) : Out :=
  spmMem (.stsD x d) s x d 8 false

/-- STS.Q (R197). -/
def execStsQ (x : BitVec 8) (d : BitVec 7) (s : State) : Out :=
  spmMem (.stsQ x d) s x d 16 false

/-- LDS.B (R197). -/
def execLdsB (x : BitVec 8) (d : BitVec 7) (s : State) : Out :=
  spmMem (.ldsB x d) s x d 1 true

/-- STS.B (R197). -/
def execStsB (x : BitVec 8) (d : BitVec 7) (s : State) : Out :=
  spmMem (.stsB x d) s x d 1 false

end Sys2Proof.Machine
end

