-- ==== Sys2Proof/Machine/Atomics.lean ====
section
/-! DEFINITION. Atomics and reductions: majors 19 and 20 (R48, R79, R198 to R200). -/

namespace Sys2Proof.Machine

/-- Compare-and-swap: the data register holds the compare value, then the new one (R198). -/
def casMinor (major minor : Nat) : Bool := (major = 19 && minor = 7) || (major = 20 && minor = 2)

/-- An atomic, or its no-return form (R198, R199): site 0 .blk, 1 .clu, 2 .dev, 3 .sys. -/
def atomicOp (i : Instr) (s : State) (site : BitVec 2) (x : BitVec 8) (r : BitVec 5) (d : BitVec 7)
    (major minor width : Nat) (ret : Bool) : Out :=
  let a := Access.atomic major minor width site.toNat ret
  let n := regsOf width
  let cas := casMinor major minor
  laneMemory i s
    { acc := a, dst := if ret then d else 0x7C, words := if ret then List.range n else []
      v := fun g l =>
        let z := g.readWords d.toNat l (if cas then 2 * n else n)
        if cas then z / 2 ^ (8 * width) else z
      c := fun g l => if cas then g.readWords d.toNat l n else 0
      index := fun g l => g.index x l
      look := fun t l =>
        let j := (s.g.index x l).toNat
        if site.toNat < 2 then (t.laneSpm s.g j width (site = 0#2), t)
        else t.laneRecord s.g a (s.g.record r) j width }

/-- ATOM.ADD (R198, R199). -/
def execAtomAdd (k : BitVec 2) (x : BitVec 8) (r : BitVec 5) (d : BitVec 7) (s : State) : Out :=
  atomicOp (.atomAdd k x r d) s k x r d 19 0 4 true

/-- ATOM.MIN.S (R198, R199). -/
def execAtomMinS (k : BitVec 2) (x : BitVec 8) (r : BitVec 5) (d : BitVec 7) (s : State) : Out :=
  atomicOp (.atomMinS k x r d) s k x r d 19 1 4 true

/-- ATOM.MAX.S (R198, R199). -/
def execAtomMaxS (k : BitVec 2) (x : BitVec 8) (r : BitVec 5) (d : BitVec 7) (s : State) : Out :=
  atomicOp (.atomMaxS k x r d) s k x r d 19 2 4 true

/-- ATOM.AND (R198, R199). -/
def execAtomAnd (k : BitVec 2) (x : BitVec 8) (r : BitVec 5) (d : BitVec 7) (s : State) : Out :=
  atomicOp (.atomAnd k x r d) s k x r d 19 3 4 true

/-- ATOM.OR (R198, R199). -/
def execAtomOr (k : BitVec 2) (x : BitVec 8) (r : BitVec 5) (d : BitVec 7) (s : State) : Out :=
  atomicOp (.atomOr k x r d) s k x r d 19 4 4 true

/-- ATOM.XOR (R198, R199). -/
def execAtomXor (k : BitVec 2) (x : BitVec 8) (r : BitVec 5) (d : BitVec 7) (s : State) : Out :=
  atomicOp (.atomXor k x r d) s k x r d 19 5 4 true

/-- ATOM.EXCH (R198, R199). -/
def execAtomExch (k : BitVec 2) (x : BitVec 8) (r : BitVec 5) (d : BitVec 7) (s : State) : Out :=
  atomicOp (.atomExch k x r d) s k x r d 19 6 4 true

/-- ATOM.CAS (R198, R199). -/
def execAtomCas (k : BitVec 2) (x : BitVec 8) (r : BitVec 5) (d : BitVec 7) (s : State) : Out :=
  atomicOp (.atomCas k x r d) s k x r d 19 7 4 true

/-- RED.ADD (R198, R199). -/
def execRedAdd (k : BitVec 2) (x : BitVec 8) (r : BitVec 5) (d : BitVec 7) (s : State) : Out :=
  atomicOp (.redAdd k x r d) s k x r d 19 0 4 false

/-- RED.MIN.S (R198, R199). -/
def execRedMinS (k : BitVec 2) (x : BitVec 8) (r : BitVec 5) (d : BitVec 7) (s : State) : Out :=
  atomicOp (.redMinS k x r d) s k x r d 19 1 4 false

/-- RED.MAX.S (R198, R199). -/
def execRedMaxS (k : BitVec 2) (x : BitVec 8) (r : BitVec 5) (d : BitVec 7) (s : State) : Out :=
  atomicOp (.redMaxS k x r d) s k x r d 19 2 4 false

/-- RED.AND (R198, R199). -/
def execRedAnd (k : BitVec 2) (x : BitVec 8) (r : BitVec 5) (d : BitVec 7) (s : State) : Out :=
  atomicOp (.redAnd k x r d) s k x r d 19 3 4 false

/-- RED.OR (R198, R199). -/
def execRedOr (k : BitVec 2) (x : BitVec 8) (r : BitVec 5) (d : BitVec 7) (s : State) : Out :=
  atomicOp (.redOr k x r d) s k x r d 19 4 4 false

/-- RED.XOR (R198, R199). -/
def execRedXor (k : BitVec 2) (x : BitVec 8) (r : BitVec 5) (d : BitVec 7) (s : State) : Out :=
  atomicOp (.redXor k x r d) s k x r d 19 5 4 false

/-- RED.EXCH (R198, R199). -/
def execRedExch (k : BitVec 2) (x : BitVec 8) (r : BitVec 5) (d : BitVec 7) (s : State) : Out :=
  atomicOp (.redExch k x r d) s k x r d 19 6 4 false

/-- ATOM.ADD.F32 (R198, R199). -/
def execAtomAddF32 (k : BitVec 2) (x : BitVec 8) (r : BitVec 5) (d : BitVec 7) (s : State) : Out :=
  atomicOp (.atomAddF32 k x r d) s k x r d 20 0 4 true

/-- ATOM.ADD.D (R198, R199). -/
def execAtomAddD (k : BitVec 2) (x : BitVec 8) (r : BitVec 5) (d : BitVec 7) (s : State) : Out :=
  atomicOp (.atomAddD k x r d) s k x r d 20 1 8 true

/-- ATOM.CAS.D (R198, R199). -/
def execAtomCasD (k : BitVec 2) (x : BitVec 8) (r : BitVec 5) (d : BitVec 7) (s : State) : Out :=
  atomicOp (.atomCasD k x r d) s k x r d 20 2 8 true

/-- ATOM.EXCH.D (R198, R199). -/
def execAtomExchD (k : BitVec 2) (x : BitVec 8) (r : BitVec 5) (d : BitVec 7) (s : State) : Out :=
  atomicOp (.atomExchD k x r d) s k x r d 20 3 8 true

/-- ATOM.MIN.U (R198, R199). -/
def execAtomMinU (k : BitVec 2) (x : BitVec 8) (r : BitVec 5) (d : BitVec 7) (s : State) : Out :=
  atomicOp (.atomMinU k x r d) s k x r d 20 4 4 true

/-- ATOM.MAX.U (R198, R199). -/
def execAtomMaxU (k : BitVec 2) (x : BitVec 8) (r : BitVec 5) (d : BitVec 7) (s : State) : Out :=
  atomicOp (.atomMaxU k x r d) s k x r d 20 5 4 true

/-- ATOM.INC.WRAP (R198, R199). -/
def execAtomIncWrap (k : BitVec 2) (x : BitVec 8) (r : BitVec 5) (d : BitVec 7) (s : State) : Out :=
  atomicOp (.atomIncWrap k x r d) s k x r d 20 6 4 true

/-- ATOM.ADD.F64 (R198, R199). -/
def execAtomAddF64 (k : BitVec 2) (x : BitVec 8) (r : BitVec 5) (d : BitVec 7) (s : State) : Out :=
  atomicOp (.atomAddF64 k x r d) s k x r d 20 7 8 true

/-- RED.ADD.F32 (R198, R199). -/
def execRedAddF32 (k : BitVec 2) (x : BitVec 8) (r : BitVec 5) (d : BitVec 7) (s : State) : Out :=
  atomicOp (.redAddF32 k x r d) s k x r d 20 0 4 false

/-- RED.ADD.D (R198, R199). -/
def execRedAddD (k : BitVec 2) (x : BitVec 8) (r : BitVec 5) (d : BitVec 7) (s : State) : Out :=
  atomicOp (.redAddD k x r d) s k x r d 20 1 8 false

/-- RED.EXCH.D (R198, R199). -/
def execRedExchD (k : BitVec 2) (x : BitVec 8) (r : BitVec 5) (d : BitVec 7) (s : State) : Out :=
  atomicOp (.redExchD k x r d) s k x r d 20 3 8 false

/-- RED.MIN.U (R198, R199). -/
def execRedMinU (k : BitVec 2) (x : BitVec 8) (r : BitVec 5) (d : BitVec 7) (s : State) : Out :=
  atomicOp (.redMinU k x r d) s k x r d 20 4 4 false

/-- RED.MAX.U (R198, R199). -/
def execRedMaxU (k : BitVec 2) (x : BitVec 8) (r : BitVec 5) (d : BitVec 7) (s : State) : Out :=
  atomicOp (.redMaxU k x r d) s k x r d 20 5 4 false

/-- RED.INC.WRAP (R198, R199). -/
def execRedIncWrap (k : BitVec 2) (x : BitVec 8) (r : BitVec 5) (d : BitVec 7) (s : State) : Out :=
  atomicOp (.redIncWrap k x r d) s k x r d 20 6 4 false

/-- RED.ADD.F64 (R198, R199). -/
def execRedAddF64 (k : BitVec 2) (x : BitVec 8) (r : BitVec 5) (d : BitVec 7) (s : State) : Out :=
  atomicOp (.redAddF64 k x r d) s k x r d 20 7 8 false

end Sys2Proof.Machine
end

