-- ==== Sys2Proof/Machine/Integer.lean ====
section
/-! DEFINITION. Integer, logic and bit-field instructions: majors 0 to 4, 14 and 15 (R143 to R151, R162). -/

namespace Sys2Proof.Machine

/-- XM's sat is requested (R130, R131). -/
def State.xmSat (s : State) : Bool := s.xm.getLsbD 5

/-- The high word of an exact product. -/
def mulHigh (x y : Int) : Word := BitVec.ofInt 32 (x * y / (2 ^ 32 : Nat))

/-- The logic and shift results of major 1 by their minor; the count is the whole of b (R146). -/
def shiftLeft32 (a : Word) (n : Nat) : Word := if n < 32 then a <<< n else 0
def shiftRight32 (a : Word) (n : Nat) : Word := if n < 32 then a >>> n else 0
def shiftArith32 (a : Word) (n : Nat) : Word := a.sshiftRight (min n 31)
def rotl32 (a : Word) (n : Nat) : Word := a.rotateLeft (n % 32)

/-- The number of 1 bits (R147). -/
def popc32 (a : Word) : Word := BitVec.ofNat 32 ((List.range 32).filter fun i => a.getLsbD i).length

/-- The number of 0 bits above the highest 1 bit; 32 for zero (R147). -/
def clz32 (a : Word) : Word := if a = 0 then 32 else BitVec.ofNat 32 (31 - Nat.log2 a.toNat)

/-- A pattern of w bits with bit i moved to bit w − 1 − i (R147, R149). -/
def revBits (w : Nat) (a : Nat) : Nat :=
  ((List.range w).map fun i => fld a i 1 * 2 ^ (w - 1 - i)).sum

/-- Position and length of a bit field; length 0 says that the field is empty (R148). -/
def fieldOf (b : Word) : Nat × Nat :=
  let pos := fld b.toNat 0 8
  let len := fld b.toNat 8 8
  if 32 ≤ pos ∨ len = 0 then (0, 0) else (pos, min len (32 - pos))

/-- BFX.U and BFX.S (R148). -/
def bfx (signed : Bool) (a b : Word) : Word :=
  let p := fieldOf b
  let x := fld a.toNat p.1 p.2
  if p.2 = 0 then 0
  else if signed then BitVec.ofInt 32 (toSigned p.2 x) else BitVec.ofNat 32 x

/-- BFI (R148): d with the field replaced by the low bits of a. -/
def bfi (a b d : Word) : Word :=
  let p := fieldOf b
  if p.2 = 0 then d else bset d p.1 p.2 a.toNat

/-- One result byte of BSHUF from its control byte (R149). -/
def bshufByte (a d : Word) (c : Nat) : Nat :=
  let src := if fld c 2 1 = 0 then a else d
  let x := fld src.toNat (8 * fld c 0 2) 8
  let op := fld c 3 2
  let y := if op = 0 then x else if op = 1 then 0 else if op = 2 then 0xFF
    else if fld x 7 1 = 1 then 0xFF else 0
  if fld c 5 1 = 1 then revBits 8 y else y

/-- BSHUF (R149). -/
def bshuf (a b d : Word) : Word :=
  BitVec.ofNat 32 (((List.range 4).map fun i => bshufByte a d (fld b.toNat (8 * i) 8) * 2 ^ (8 * i)).sum)

/-- SHLD and SHRD (R150). -/
def shld (a b d : Word) : Word :=
  BitVec.ofNat 32 ((d.toNat * 2 ^ 32 + a.toNat) * 2 ^ min b.toNat 32 % 2 ^ 64 / 2 ^ 32)
def shrd (a b d : Word) : Word :=
  BitVec.ofNat 32 ((a.toNat * 2 ^ 32 + d.toNat) / 2 ^ min b.toNat 32)

/-- A sign-extended imm8, and a zero-extended one (R122). -/
def immS (i : BitVec 8) : Word := i.signExtend 32
def immU (i : BitVec 8) : Word := i.zeroExtend 32

/-- An R-format lane instruction with two sources (R144). -/
def bin (i : Instr) (s : State) (b a : BitVec 8) (d : BitVec 7) (f : State → Word → Word → Word × BitVec 6) : Out :=
  laneOp i s d.toNat fun t l => f t (t.g.read (selOf a) l) (t.g.read (selOf b) l)

/-- One that also reads D (R144). -/
def tern (i : Instr) (s : State) (b a : BitVec 8) (d : BitVec 7)
    (f : State → Word → Word → Word → Word × BitVec 6) : Out :=
  laneOp i s d.toNat fun t l => f t (t.g.read (selOf a) l) (t.g.read (selOf b) l) (t.g.read d.toNat l)

/-- A unary one, or one with an immediate. -/
def una (i : Instr) (s : State) (a : BitVec 8) (d : BitVec 7) (f : State → Word → Word × BitVec 6) : Out :=
  laneOp i s d.toNat fun t l => f t (t.g.read (selOf a) l)

/-- The exact integer results of major 0 (R145). -/
def addI (t : State) (a b : Word) : Word × BitVec 6 := intResult t.xmSat (a.toInt + b.toInt) (a.toInt + b.toInt)
def subI (t : State) (a b : Word) : Word × BitVec 6 := intResult t.xmSat (a.toInt - b.toInt) (a.toInt - b.toInt)
def mulI (t : State) (a b : Word) : Word × BitVec 6 := intResult t.xmSat (a.toInt * b.toInt) (a.toInt * b.toInt)
def madI (t : State) (a b d : Word) : Word × BitVec 6 :=
  intResult t.xmSat (a.toInt * b.toInt + d.toInt) (a.toInt * b.toInt + d.toInt)
def absI (t : State) (a : Word) : Word × BitVec 6 := intResult t.xmSat a.toInt.natAbs a.toInt.natAbs

/-- IADDC and ISUBB: the result, and p6 as carry or borrow, written even when D is nul (R145). -/
def carryOp (i : Instr) (s : State) (b a : BitVec 8) (d : BitVec 7) (sub : Bool) : Out :=
  complete i s fun t =>
    let x := fun (l : Lane) =>
      let ua : Int := (t.g.read (selOf a) l).toNat
      let ub : Int := (t.g.read (selOf b) l).toNat
      let c : Int := b2n (t.g.pred 6 l)
      if sub then ua - ub - c else ua + ub + c
    let m := t.act
    t.modG fun g => (g.put d.toNat m fun l => wrap32 (x l)).setPred 6 m fun l =>
      if sub then decide (x l < 0) else decide ((2 ^ 32 : Nat) ≤ x l)

/-- IADD (R145): a + b. -/
def execIadd (b a : BitVec 8) (d : BitVec 7) (s : State) : Out :=
  bin (.iadd b a d) s b a d addI

/-- ISUB (R145): a − b. -/
def execIsub (b a : BitVec 8) (d : BitVec 7) (s : State) : Out :=
  bin (.isub b a d) s b a d subI

/-- IMUL (R145): the low word of a × b. -/
def execImul (b a : BitVec 8) (d : BitVec 7) (s : State) : Out :=
  bin (.imul b a d) s b a d mulI

/-- IMULH.S (R145): the high word of the signed product. -/
def execImulhS (b a : BitVec 8) (d : BitVec 7) (s : State) : Out :=
  bin (.imulhS b a d) s b a d fun _ a b => (mulHigh a.toInt b.toInt, 0)

/-- IMULH.U (R145): the high word of the unsigned product. -/
def execImulhU (b a : BitVec 8) (d : BitVec 7) (s : State) : Out :=
  bin (.imulhU b a d) s b a d fun _ a b => (mulHigh a.toNat b.toNat, 0)

/-- IMAD (R145): a × b + d. -/
def execImad (b a : BitVec 8) (d : BitVec 7) (s : State) : Out :=
  tern (.imad b a d) s b a d madI

/-- IADDC (R145): a + b + p6, carry to p6. -/
def execIaddc (b a : BitVec 8) (d : BitVec 7) (s : State) : Out :=
  carryOp (.iaddc b a d) s b a d false

/-- ISUBB (R145): a − b − p6, borrow to p6. -/
def execIsubb (b a : BitVec 8) (d : BitVec 7) (s : State) : Out :=
  carryOp (.isubb b a d) s b a d true

/-- AND (R146). -/
def execAnd (b a : BitVec 8) (d : BitVec 7) (s : State) : Out :=
  bin (.and b a d) s b a d fun _ a b => (a &&& b, 0)

/-- OR (R146). -/
def execOr (b a : BitVec 8) (d : BitVec 7) (s : State) : Out :=
  bin (.or b a d) s b a d fun _ a b => (a ||| b, 0)

/-- XOR (R146). -/
def execXor (b a : BitVec 8) (d : BitVec 7) (s : State) : Out :=
  bin (.xor b a d) s b a d fun _ a b => (a ^^^ b, 0)

/-- ANDN (R146). -/
def execAndn (b a : BitVec 8) (d : BitVec 7) (s : State) : Out :=
  bin (.andn b a d) s b a d fun _ a b => (a &&& ~~~b, 0)

/-- SHL (R146). -/
def execShl (b a : BitVec 8) (d : BitVec 7) (s : State) : Out :=
  bin (.shl b a d) s b a d fun _ a b => (shiftLeft32 a b.toNat, 0)

/-- SHR (R146). -/
def execShr (b a : BitVec 8) (d : BitVec 7) (s : State) : Out :=
  bin (.shr b a d) s b a d fun _ a b => (shiftRight32 a b.toNat, 0)

/-- SAR (R146). -/
def execSar (b a : BitVec 8) (d : BitVec 7) (s : State) : Out :=
  bin (.sar b a d) s b a d fun _ a b => (shiftArith32 a b.toNat, 0)

/-- ROTL (R146). -/
def execRotl (b a : BitVec 8) (d : BitVec 7) (s : State) : Out :=
  bin (.rotl b a d) s b a d fun _ a b => (rotl32 a b.toNat, 0)

/-- IMIN.S (R147). -/
def execIminS (b a : BitVec 8) (d : BitVec 7) (s : State) : Out :=
  bin (.iminS b a d) s b a d fun _ a b => (if a.toInt ≤ b.toInt then a else b, 0)

/-- IMAX.S (R147). -/
def execImaxS (b a : BitVec 8) (d : BitVec 7) (s : State) : Out :=
  bin (.imaxS b a d) s b a d fun _ a b => (if a.toInt ≤ b.toInt then b else a, 0)

/-- IMIN.U (R147). -/
def execIminU (b a : BitVec 8) (d : BitVec 7) (s : State) : Out :=
  bin (.iminU b a d) s b a d fun _ a b => (if a.toNat ≤ b.toNat then a else b, 0)

/-- IMAX.U (R147). -/
def execImaxU (b a : BitVec 8) (d : BitVec 7) (s : State) : Out :=
  bin (.imaxU b a d) s b a d fun _ a b => (if a.toNat ≤ b.toNat then b else a, 0)

/-- POPC (R147). -/
def execPopc (a : BitVec 8) (d : BitVec 7) (s : State) : Out :=
  una (.popc a d) s a d fun _ a => (popc32 a, 0)

/-- CLZ (R147). -/
def execClz (a : BitVec 8) (d : BitVec 7) (s : State) : Out :=
  una (.clz a d) s a d fun _ a => (clz32 a, 0)

/-- BREV (R147). -/
def execBrev (a : BitVec 8) (d : BitVec 7) (s : State) : Out :=
  una (.brev a d) s a d fun _ a => (BitVec.ofNat 32 (revBits 32 a.toNat), 0)

/-- IABS (R147, R131). -/
def execIabs (a : BitVec 8) (d : BitVec 7) (s : State) : Out :=
  una (.iabs a d) s a d absI

/-- BFX.U (R148). -/
def execBfxU (b a : BitVec 8) (d : BitVec 7) (s : State) : Out :=
  bin (.bfxU b a d) s b a d fun _ a b => (bfx false a b, 0)

/-- BFX.S (R148). -/
def execBfxS (b a : BitVec 8) (d : BitVec 7) (s : State) : Out :=
  bin (.bfxS b a d) s b a d fun _ a b => (bfx true a b, 0)

/-- BFI (R148). -/
def execBfi (b a : BitVec 8) (d : BitVec 7) (s : State) : Out :=
  tern (.bfi b a d) s b a d fun _ a b d => (bfi a b d, 0)

/-- BSHUF (R149). -/
def execBshuf (b a : BitVec 8) (d : BitVec 7) (s : State) : Out :=
  tern (.bshuf b a d) s b a d fun _ a b d => (bshuf a b d, 0)

/-- SHLD (R150). -/
def execShld (b a : BitVec 8) (d : BitVec 7) (s : State) : Out :=
  tern (.shld b a d) s b a d fun _ a b d => (shld a b d, 0)

/-- SHRD (R150). -/
def execShrd (b a : BitVec 8) (d : BitVec 7) (s : State) : Out :=
  tern (.shrd b a d) s b a d fun _ a b d => (shrd a b d, 0)

/-- IADDI (R151). -/
def execIaddi (i a : BitVec 8) (d : BitVec 7) (s : State) : Out :=
  una (.iaddi i a d) s a d fun t a => addI t a (immS i)

/-- ANDI (R151). -/
def execAndi (i a : BitVec 8) (d : BitVec 7) (s : State) : Out :=
  una (.andi i a d) s a d fun _ a => (a &&& immS i, 0)

/-- ORI (R151). -/
def execOri (i a : BitVec 8) (d : BitVec 7) (s : State) : Out :=
  una (.ori i a d) s a d fun _ a => (a ||| immS i, 0)

/-- XORI (R151). -/
def execXori (i a : BitVec 8) (d : BitVec 7) (s : State) : Out :=
  una (.xori i a d) s a d fun _ a => (a ^^^ immS i, 0)

/-- SHLI (R151). -/
def execShli (i a : BitVec 8) (d : BitVec 7) (s : State) : Out :=
  una (.shli i a d) s a d fun _ a => (shiftLeft32 a i.toNat, 0)

/-- SHRI (R151). -/
def execShri (i a : BitVec 8) (d : BitVec 7) (s : State) : Out :=
  una (.shri i a d) s a d fun _ a => (shiftRight32 a i.toNat, 0)

/-- SARI (R151). -/
def execSari (i a : BitVec 8) (d : BitVec 7) (s : State) : Out :=
  una (.sari i a d) s a d fun _ a => (shiftArith32 a i.toNat, 0)

/-- IMULI (R151). -/
def execImuli (i a : BitVec 8) (d : BitVec 7) (s : State) : Out :=
  una (.imuli i a d) s a d fun t a => mulI t a (immS i)

/-- LDK (R162): the sign-extended imm19. -/
def execLdk (i : BitVec 19) (d : BitVec 7) (s : State) : Out :=
  laneOp (.ldk i d) s d.toNat fun _ _ => (i.signExtend 32, 0)

/-- LDKH (R162): imm13 above the low 19 bits of d. -/
def execLdkh (i : BitVec 13) (d : BitVec 7) (s : State) : Out :=
  laneOp (.ldkh i d) s d.toNat fun t l => (i ++ (t.g.read d.toNat l).extractLsb' 0 19, 0)

end Sys2Proof.Machine
end

