-- ==== Sys2Proof/Machine/FloatOps.lean ====
section
/-! DEFINITION. Floating-point and packed arithmetic, special functions, compares, select, conversion and PHILOX: majors 5 to 11 and 30 minor 0 (R152 to R161, R164). -/

namespace Sys2Proof.Machine

/-- The effective rounding mode: RNE, unless an XM supplies one (R101, R131). -/
def State.mode (s : State) : Mode :=
  if s.xm.getLsbD 6 then modeOf (fld s.xm.toNat 7 2) else .rne

/-- A source modified bit-wise: the magnitude first, then the negation (R131). -/
def modSign (neg mag : Bool) (top x : Nat) : Nat :=
  let y := if mag && decide (x / top % 2 = 1) then x - top else x
  if neg then (if y / top % 2 = 1 then y - top else y + top) else y

/-- Source A or B of a format as XM leaves it (R131). -/
def State.xmA (s : State) (F : Format) (x : Nat) : Nat :=
  modSign (s.xm.getLsbD 0) (s.xm.getLsbD 1) (2 ^ (F.m + F.e)) x
def State.xmB (s : State) (F : Format) (x : Nat) : Nat :=
  modSign (s.xm.getLsbD 2) (s.xm.getLsbD 3) (2 ^ (F.m + F.e)) x

/-- A result as negr leaves it: the sign bit of a result that is not NaN is inverted (R131). -/
def State.xmR (s : State) (F : Format) (r : Rounded) : Rounded :=
  if s.xm.getLsbD 4 && !(decodeF F r.1).isNan then (modSign true false (2 ^ (F.m + F.e)) r.1, r.2) else r

/-- The eight operations of majors 5 and 6 by their minor (R152). -/
def floatOp (F : Format) (minor : Nat) (mode : Mode) (a b d : Nat) : Rounded :=
  match minor with
  | 0 => addF F mode a b
  | 1 => addF F mode a (modSign true false (2 ^ (F.m + F.e)) b)
  | 2 => mulF F mode a b
  | 3 => fmaF F mode false false a b d
  | 4 => fmaF F mode false true a b d
  | 5 => minmaxF F false a b
  | 6 => minmaxF F true a b
  | _ => fmaF F mode true false a b d

/-- The operation with XM's source and result modifiers; d is never modified (R131, R152). -/
def floatXm (t : State) (F : Format) (minor a b d : Nat) : Rounded :=
  t.xmR F (floatOp F minor t.mode (t.xmA F a) (t.xmB F b) d)

/-- An instruction of major 5 (R152). -/
def single (i : Instr) (s : State) (b a : BitVec 8) (d : BitVec 7) (minor : Nat) : Out :=
  laneOp i s d.toNat fun t l =>
    let r := floatXm t fp32 minor (t.g.read (selOf a) l).toNat (t.g.read (selOf b) l).toNat (t.g.read d.toNat l).toNat
    (BitVec.ofNat 32 r.1, r.2)

/-- An instruction of major 6 (R152). -/
def double (i : Instr) (s : State) (b a : BitVec 8) (d : BitVec 7) (minor : Nat) : Out :=
  laneOp64 i s d.toNat fun t l =>
    let r := floatXm t fp64 minor (t.g.read64 (selOf a) l).toNat (t.g.read64 (selOf b) l).toNat (t.g.read64 d.toNat l).toNat
    (BitVec.ofNat 64 r.1, r.2)

/-- The packed operations of major 7 by bits [1:0] of the minor, as operations of floatOp (R153). -/
def packedMinor (op : Nat) : Nat := if op = 0 then 0 else if op = 1 then 2 else if op = 2 then 3 else 5

/-- An instruction of major 7: each half on its own, the flags together (R94, R153). -/
def packed (i : Instr) (s : State) (b a : BitVec 8) (d : BitVec 7) (F : Format) (op : Nat) : Out :=
  laneOp i s d.toNat fun t l =>
    let x := (t.g.read (selOf a) l).toNat
    let y := (t.g.read (selOf b) l).toNat
    let z := (t.g.read d.toNat l).toNat
    let r0 := floatXm t F (packedMinor op) (fld x 0 16) (fld y 0 16) (fld z 0 16)
    let r1 := floatXm t F (packedMinor op) (fld x 16 16) (fld y 16 16) (fld z 16 16)
    (BitVec.ofNat 32 (r0.1 + r1.1 * 2 ^ 16), r0.2 ||| r1.2)

/-- An FP32 special function (R107, R108, R154). -/
def special (i : Instr) (s : State) (a : BitVec 8) (d : BitVec 7) (minor : Nat) : Out :=
  laneOp i s d.toNat fun t l =>
    let r := t.xmR fp32 (sfu minor t.mode (t.xmA fp32 (t.g.read (selOf a) l).toNat))
    (BitVec.ofNat 32 r.1, r.2)

/-- A compare: each active lane's pd is the truth value, the flags are raised, q does not shift
(R143, R156). -/
def compareOp (i : Instr) (s : State) (pd : BitVec 3) (f : State → Lane → Bool × BitVec 6) : Out :=
  complete i s fun t =>
    let m := t.act
    let fl := (lanesOf m).foldl (fun acc l => acc ||| (f t l).2) 0
    t.modG fun g => (g.setPred pd.toNat m fun l => (f t l).1).flag fl

/-- The truth of a condition code on integers (R156). -/
def condI (c : Nat) (x y : Int) : Bool :=
  if c = 0 then x = y else if c = 1 then x != y else if c = 2 then decide (x < y)
  else if c = 3 then decide (x ≤ y) else if c = 4 then decide (y < x) else decide (y ≤ x)

/-- The truth and flags of a floating-point compare after XM (R131, R156). -/
def condX (t : State) (F : Format) (c a b : Nat) : Bool × BitVec 6 :=
  let x := decodeF F (t.xmA F a)
  let y := decodeF F (t.xmB F b)
  (condF c x y, x.sig ||| y.sig)

/-- A packed compare: element 0 to pd, element 1 to the next predicate (R157). -/
def comparePacked (i : Instr) (s : State) (b a : BitVec 8) (c pd : BitVec 3) (F : Format) : Out :=
  complete i s fun t =>
    let m := t.act
    let h := fun (k : Nat) (l : Lane) =>
      condX t F c.toNat (fld (t.g.read (selOf a) l).toNat (16 * k) 16) (fld (t.g.read (selOf b) l).toNat (16 * k) 16)
    let fl := (lanesOf m).foldl (fun acc l => acc ||| (h 0 l).2 ||| (h 1 l).2) 0
    t.modG fun g => ((g.setPred pd.toNat m fun l => (h 0 l).1).setPred (pd.toNat + 1) m fun l => (h 1 l).1).flag fl

/-- FADD (R152). -/
def execFadd (b a : BitVec 8) (d : BitVec 7) (s : State) : Out :=
  single (.fadd b a d) s b a d 0

/-- FSUB (R152). -/
def execFsub (b a : BitVec 8) (d : BitVec 7) (s : State) : Out :=
  single (.fsub b a d) s b a d 1

/-- FMUL (R152). -/
def execFmul (b a : BitVec 8) (d : BitVec 7) (s : State) : Out :=
  single (.fmul b a d) s b a d 2

/-- FFMA (R152). -/
def execFfma (b a : BitVec 8) (d : BitVec 7) (s : State) : Out :=
  single (.ffma b a d) s b a d 3

/-- FFMS (R152). -/
def execFfms (b a : BitVec 8) (d : BitVec 7) (s : State) : Out :=
  single (.ffms b a d) s b a d 4

/-- FMIN (R152). -/
def execFmin (b a : BitVec 8) (d : BitVec 7) (s : State) : Out :=
  single (.fmin b a d) s b a d 5

/-- FMAX (R152). -/
def execFmax (b a : BitVec 8) (d : BitVec 7) (s : State) : Out :=
  single (.fmax b a d) s b a d 6

/-- FNMA (R152). -/
def execFnma (b a : BitVec 8) (d : BitVec 7) (s : State) : Out :=
  single (.fnma b a d) s b a d 7

/-- DADD (R152). -/
def execDadd (b a : BitVec 8) (d : BitVec 7) (s : State) : Out :=
  double (.dadd b a d) s b a d 0

/-- DSUB (R152). -/
def execDsub (b a : BitVec 8) (d : BitVec 7) (s : State) : Out :=
  double (.dsub b a d) s b a d 1

/-- DMUL (R152). -/
def execDmul (b a : BitVec 8) (d : BitVec 7) (s : State) : Out :=
  double (.dmul b a d) s b a d 2

/-- DFMA (R152). -/
def execDfma (b a : BitVec 8) (d : BitVec 7) (s : State) : Out :=
  double (.dfma b a d) s b a d 3

/-- DFMS (R152). -/
def execDfms (b a : BitVec 8) (d : BitVec 7) (s : State) : Out :=
  double (.dfms b a d) s b a d 4

/-- DMIN (R152). -/
def execDmin (b a : BitVec 8) (d : BitVec 7) (s : State) : Out :=
  double (.dmin b a d) s b a d 5

/-- DMAX (R152). -/
def execDmax (b a : BitVec 8) (d : BitVec 7) (s : State) : Out :=
  double (.dmax b a d) s b a d 6

/-- DNMA (R152). -/
def execDnma (b a : BitVec 8) (d : BitVec 7) (s : State) : Out :=
  double (.dnma b a d) s b a d 7

/-- HADD2.F16 (R153). -/
def execHadd2F16 (b a : BitVec 8) (d : BitVec 7) (s : State) : Out :=
  packed (.hadd2F16 b a d) s b a d fp16 0

/-- HMUL2.F16 (R153). -/
def execHmul2F16 (b a : BitVec 8) (d : BitVec 7) (s : State) : Out :=
  packed (.hmul2F16 b a d) s b a d fp16 1

/-- HFMA2.F16 (R153). -/
def execHfma2F16 (b a : BitVec 8) (d : BitVec 7) (s : State) : Out :=
  packed (.hfma2F16 b a d) s b a d fp16 2

/-- HMIN2.F16 (R153). -/
def execHmin2F16 (b a : BitVec 8) (d : BitVec 7) (s : State) : Out :=
  packed (.hmin2F16 b a d) s b a d fp16 3

/-- HADD2.BF16 (R153). -/
def execHadd2Bf16 (b a : BitVec 8) (d : BitVec 7) (s : State) : Out :=
  packed (.hadd2Bf16 b a d) s b a d bf16 0

/-- HMUL2.BF16 (R153). -/
def execHmul2Bf16 (b a : BitVec 8) (d : BitVec 7) (s : State) : Out :=
  packed (.hmul2Bf16 b a d) s b a d bf16 1

/-- HFMA2.BF16 (R153). -/
def execHfma2Bf16 (b a : BitVec 8) (d : BitVec 7) (s : State) : Out :=
  packed (.hfma2Bf16 b a d) s b a d bf16 2

/-- HMIN2.BF16 (R153). -/
def execHmin2Bf16 (b a : BitVec 8) (d : BitVec 7) (s : State) : Out :=
  packed (.hmin2Bf16 b a d) s b a d bf16 3

/-- FRCP (R107, R108, R154). -/
def execFrcp (a : BitVec 8) (d : BitVec 7) (s : State) : Out :=
  special (.frcp a d) s a d 0

/-- FRSQ (R107, R108, R154). -/
def execFrsq (a : BitVec 8) (d : BitVec 7) (s : State) : Out :=
  special (.frsq a d) s a d 1

/-- FSQRT (R107, R108, R154). -/
def execFsqrt (a : BitVec 8) (d : BitVec 7) (s : State) : Out :=
  special (.fsqrt a d) s a d 2

/-- FEX2 (R107, R108, R154). -/
def execFex2 (a : BitVec 8) (d : BitVec 7) (s : State) : Out :=
  special (.fex2 a d) s a d 3

/-- FLG2 (R107, R108, R154). -/
def execFlg2 (a : BitVec 8) (d : BitVec 7) (s : State) : Out :=
  special (.flg2 a d) s a d 4

/-- FSINR (R107, R108, R154). -/
def execFsinr (a : BitVec 8) (d : BitVec 7) (s : State) : Out :=
  special (.fsinr a d) s a d 5

/-- FCOSR (R107, R108, R154). -/
def execFcosr (a : BitVec 8) (d : BitVec 7) (s : State) : Out :=
  special (.fcosr a d) s a d 6

/-- DSQRT (R107, R108, R154). -/
def execDsqrt (a : BitVec 8) (d : BitVec 7) (s : State) : Out :=
  laneOp64 (.dsqrt a d) s d.toNat fun t l =>
    let r := t.xmR fp64 (sfu 7 t.mode (t.xmA fp64 (t.g.read64 (selOf a) l).toNat))
    (BitVec.ofNat 64 r.1, r.2)

/-- ICMP.S (R155, R156). -/
def execIcmpS (b a : BitVec 8) (c p : BitVec 3) (s : State) : Out :=
  compareOp (.icmpS b a c p) s p fun t l =>
    (condI c.toNat (t.g.read (selOf a) l).toInt (t.g.read (selOf b) l).toInt, 0)

/-- ICMP.U (R155, R156). -/
def execIcmpU (b a : BitVec 8) (c p : BitVec 3) (s : State) : Out :=
  compareOp (.icmpU b a c p) s p fun t l =>
    (condI c.toNat (t.g.read (selOf a) l).toNat (t.g.read (selOf b) l).toNat, 0)

/-- FCMP (R155, R156). -/
def execFcmp (b a : BitVec 8) (c p : BitVec 3) (s : State) : Out :=
  compareOp (.fcmp b a c p) s p fun t l =>
    condX t fp32 c.toNat (t.g.read (selOf a) l).toNat (t.g.read (selOf b) l).toNat

/-- DCMP (R155, R156). -/
def execDcmp (b a : BitVec 8) (c p : BitVec 3) (s : State) : Out :=
  compareOp (.dcmp b a c p) s p fun t l =>
    condX t fp64 c.toNat (t.g.read64 (selOf a) l).toNat (t.g.read64 (selOf b) l).toNat

/-- HCMP2.F16 (R157). -/
def execHcmp2F16 (b a : BitVec 8) (c p : BitVec 3) (s : State) : Out :=
  comparePacked (.hcmp2F16 b a c p) s b a c p fp16

/-- HCMP2.BF16 (R157). -/
def execHcmp2Bf16 (b a : BitVec 8) (c p : BitVec 3) (s : State) : Out :=
  comparePacked (.hcmp2Bf16 b a c p) s b a c p bf16

/-- PLOP (R158): bit pa + 2 pb + 4 pd of the table. -/
def execPlop (x : BitVec 8) (b a d : BitVec 3) (s : State) : Out :=
  complete (.plop x b a d) s fun t =>
    t.modG fun g => g.setPred d.toNat t.act fun l =>
      x.getLsbD (b2n (t.g.pred a.toNat l) + 2 * b2n (t.g.pred b.toNat l) + 4 * b2n (t.g.pred d.toNat l))

/-- SEL (R159). -/
def execSel (p : BitVec 3) (b a : BitVec 8) (d : BitVec 7) (s : State) : Out :=
  laneOp (.sel p b a d) s d.toNat fun t l =>
    (if t.g.pred p.toNat l then t.g.read (selOf a) l else t.g.read (selOf b) l, 0)

/-- The floating format of a CVT code (R160). -/
def cvtFormat (c : Nat) : Format :=
  if c = 0 then fp32 else if c = 1 then fp64 else if c = 2 then fp16 else if c = 3 then bf16
  else if c = 8 then e4m3 else e5m2

/-- Width and signedness of an integer CVT code (R160). -/
def cvtInt (c : Nat) : Nat × Bool :=
  if c = 4 then (32, true) else if c = 5 then (32, false) else if c = 6 then (64, true)
  else if c = 7 then (64, false) else if c = 10 then (8, true) else (8, false)

/-- A code that names a floating format (R160). -/
def cvtFloat (c : Nat) : Bool := decide (c < 4) || c = 8 || c = 9

/-- The value CVT gives for a source pattern (R160, R161). -/
def cvtValue (mode : Mode) (sat : Bool) (src dst x : Nat) : Rounded :=
  if 12 ≤ dst then
    let v := decodeF (if dst = 12 then e4m3 else e5m2) (x % 256)
    let r := roundF fp32 .rne false v
    (r.1, v.sig ||| r.2)
  else if cvtFloat src then
    let F := cvtFormat src
    let y := x % 2 ^ (1 + F.e + F.m)
    let v := decodeF F y
    if cvtFloat dst then
      if src = dst then integralF F mode y
      else
        let r := roundF (cvtFormat dst) mode sat v
        (r.1, v.sig ||| r.2)
    else toIntF mode (cvtInt dst).1 (cvtInt dst).2 v
  else
    let n := (cvtInt src).1
    let v : Int := if (cvtInt src).2 then toSigned n x else (x % 2 ^ n : Nat)
    if cvtFloat dst then ofIntF (cvtFormat dst) mode sat v
    else
      let k := (cvtInt dst).1
      let lo : Int := if (cvtInt dst).2 then -(2 ^ (k - 1) : Nat) else 0
      let hi : Int := if (cvtInt dst).2 then (2 ^ (k - 1) : Nat) - 1 else (2 ^ k : Nat) - 1
      if sat then (ofSigned k (clampInt v lo hi), flagIf (clampInt v lo hi != v) flIntOverflow)
      else (ofSigned k v, 0)

/-- CVT (R160, R161). -/
def execCvt (m : BitVec 2) (t : BitVec 1) (x : BitVec 3) (e : BitVec 4) (a : BitVec 8) (d : BitVec 7)
    (s : State) : Out :=
  let val := fun (u : State) (l : Lane) =>
    let y := if cvtWords x.toNat = 2 then (u.g.read64 (selOf a) l).toNat else (u.g.read (selOf a) l).toNat
    cvtValue (modeOf m.toNat) (t = 1#1) x.toNat e.toNat y
  if cvtWords e.toNat = 2 then
    laneOp64 (.cvt m t x e a d) s d.toNat fun u l => (BitVec.ofNat 64 (val u l).1, (val u l).2)
  else laneOp (.cvt m t x e a d) s d.toNat fun u l => (BitVec.ofNat 32 (val u l).1, (val u l).2)

/-- One round of Philox4x32 on the counter words with the key words in force (R113). -/
def philoxRound (x : Vector Word 4) (k0 k1 : Word) : Vector Word 4 :=
  let pa := 0xD2511F53 * x[0].toNat
  let pb := 0xCD9E8D57 * x[2].toNat
  #v[BitVec.ofNat 32 (pb / 2 ^ 32) ^^^ x[1] ^^^ k0, BitVec.ofNat 32 pb,
     BitVec.ofNat 32 (pa / 2 ^ 32) ^^^ x[3] ^^^ k1, BitVec.ofNat 32 pa]

/-- The rounds from the next on, with the keys in force for it (R113). -/
def philoxFrom : Nat → Vector Word 4 → Word → Word → Vector Word 4
  | 0, c, _, _ => c
  | n + 1, c, k0, k1 => philoxFrom n (philoxRound c k0 k1) (k0 + 0x9E3779B9) (k1 + 0xBB67AE85)

/-- philox of R113: ten rounds. -/
def philox (c : Vector Word 4) (k0 k1 : Word) : Vector Word 4 := philoxFrom 10 c k0 k1

/-- PHILOX (R164): four words, four shifts of q. -/
def execPhilox (b a : BitVec 8) (d : BitVec 7) (s : State) : Out :=
  complete (.philox b a d) s fun t =>
    let m := t.act
    let A := selOf a
    let B := selOf b
    let out := fun (l : Lane) =>
      philox #v[t.g.readWord A 0 l, t.g.readWord A 1 l, t.g.readWord A 2 l, t.g.readWord A 3 l]
        (t.g.readWord B 0 l) (t.g.readWord B 1 l)
    t.modG fun g =>
      let w := fun (g : Group) (k : Fin 4) => (g.writeWord d.toNat k.val m fun l => (out l)[k]).shiftQ m fun l => (out l)[k]
      w (w (w (w g 0) 1) 2) 3

end Sys2Proof.Machine
end

