-- ==== Sys2Proof/Machine/LaneOps.lean ====
section
/-! DEFINITION. Lane exchange, votes, reductions and scan: majors 12 and 13 (R46, R47, R109, R165 to R170). -/

namespace Sys2Proof.Machine

/-- The lane a shuffle names, when it is one of the 32 (R166). -/
def shflLane (minor : Nat) (l : Lane) (b : Word) : Option Lane :=
  let j : Int := if minor = 0 then b.toNat
    else if minor = 1 then (l.val : Int) - b.toNat
    else if minor = 2 then (l.val : Int) + b.toNat
    else ((BitVec.ofNat 32 l.val) ^^^ b).toNat
  if h : 0 ≤ j ∧ j < 32 then some ⟨j.toNat, by omega⟩ else none

/-- A shuffle (R46, R166). -/
def shuffle (i : Instr) (s : State) (b a : BitVec 8) (d : BitVec 7) (minor : Nat) : Out :=
  laneOp i s d.toNat fun t l =>
    let j := (shflLane minor l (t.g.read (selOf b) l)).getD l
    (t.g.read (selOf a) j, 0)

/-- The active lanes whose condition holds (R167). -/
def voteMask (t : State) (p : BitVec 3) (sense : BitVec 1) : Mask :=
  maskOf fun l => laneIn t.act l && (t.g.pred p.toNat l != (sense = 1#1))

/-- A vote: every active lane receives the same result (R47, R167). -/
def vote (i : Instr) (s : State) (d : BitVec 7) (f : State → Word) : Out :=
  laneOp i s d.toNat fun t _ => (f t, 0)

/-- One level of R109's tree: neighbours combined, an empty operand being the identity, with the
conditions raised. -/
def treeLevel {α : Type} (op : α → α → α × BitVec 6) : List (Option α) → List (Option α) × BitVec 6
  | [] => ([], 0)
  | [x] => ([x], 0)
  | x :: y :: r =>
    let rest := treeLevel op r
    match x, y with
    | some u, some v => let z := op u v; (some z.1 :: rest.1, z.2 ||| rest.2)
    | some u, none => (some u :: rest.1, rest.2)
    | none, v => (v :: rest.1, rest.2)

/-- The tree over n levels (R109). -/
def treeFold {α : Type} (op : α → α → α × BitVec 6) : Nat → List (Option α) → Option α × BitVec 6
  | 0, l => (l.head?.join, 0)
  | n + 1, l =>
    let r := treeLevel op l
    let s := treeFold op n r.1
    (s.1, r.2 ||| s.2)

/-- The reduction of the active lanes' values (R109). -/
def reduceLanes {α : Type} (op : α → α → α × BitVec 6) (m : Mask) (x : Lane → α) : Option α × BitVec 6 :=
  treeFold op 5 (lanes.map fun l => if laneIn m l then some (x l) else none)

/-- A floating-point reduction's result: one lane's value unchanged, but a NaN is canonical and a
signalling one raises invalid (R94, R169). -/
def finishReduce (F : Format) (r : Option Nat × BitVec 6) : Nat × BitVec 6 :=
  match r.1 with
  | none => (0, r.2)
  | some x => if (decodeF F x).isNan then (nanOf F, r.2 ||| (decodeF F x).sig) else (x, r.2)

/-- A 32-bit reduction (R169). -/
def reduce32 (i : Instr) (s : State) (a : BitVec 8) (d : BitVec 7) (op : State → Nat → Nat → Nat × BitVec 6)
    (float : Bool) : Out :=
  complete i s fun t =>
    let m := t.act
    let x := fun (l : Lane) =>
      let v := (t.g.read (selOf a) l).toNat
      if float then t.xmA fp32 v else v
    let r := reduceLanes (op t) m x
    let z := if float then finishReduce fp32 r else (r.1.getD 0, r.2)
    t.modG fun g => (g.put d.toNat m fun _ => BitVec.ofNat 32 z.1).flag (if m = 0 then 0 else z.2)

/-- The sum of A over the active lanes up to, or below, a lane (R170). -/
def scanSum (t : State) (sel : Nat) (excl : Bool) (l : Lane) : Word :=
  (lanesOf t.act).foldl (fun acc j =>
    if j.val < l.val ∨ (j.val = l.val ∧ excl = false) then acc + t.g.read sel j else acc) 0

/-- SHFL by its minor 0 (R166). -/
def execShflIdx (b a : BitVec 8) (d : BitVec 7) (s : State) : Out :=
  shuffle (.shflIdx b a d) s b a d 0

/-- SHFL by its minor 1 (R166). -/
def execShflUp (b a : BitVec 8) (d : BitVec 7) (s : State) : Out :=
  shuffle (.shflUp b a d) s b a d 1

/-- SHFL by its minor 2 (R166). -/
def execShflDn (b a : BitVec 8) (d : BitVec 7) (s : State) : Out :=
  shuffle (.shflDn b a d) s b a d 2

/-- SHFL by its minor 3 (R166). -/
def execShflXor (b a : BitVec 8) (d : BitVec 7) (s : State) : Out :=
  shuffle (.shflXor b a d) s b a d 3

/-- VOTE.ANY (R167). -/
def execVoteAny (n : BitVec 1) (p : BitVec 3) (d : BitVec 7) (s : State) : Out :=
  vote (.voteAny n p d) s d fun t => if voteMask t p n = 0 then 0 else 1

/-- VOTE.ALL (R167). -/
def execVoteAll (n : BitVec 1) (p : BitVec 3) (d : BitVec 7) (s : State) : Out :=
  vote (.voteAll n p d) s d fun t => if voteMask t p n = t.act then 1 else 0

/-- BALLOT (R167). -/
def execBallot (n : BitVec 1) (p : BitVec 3) (d : BitVec 7) (s : State) : Out :=
  vote (.ballot n p d) s d fun t => voteMask t p n

/-- MATCH (R168). -/
def execMatchL (a : BitVec 8) (d : BitVec 7) (s : State) : Out :=
  laneOp (.matchL a d) s d.toNat fun t l =>
    (maskOf fun j => laneIn t.act j && t.g.read (selOf a) j = t.g.read (selOf a) l, 0)

/-- RDADD.F32 (R109, R169). -/
def execRdaddF32 (a : BitVec 8) (d : BitVec 7) (s : State) : Out :=
  reduce32 (.rdaddF32 a d) s a d (fun t x y => addF fp32 t.mode x y) true

/-- RDADD.F64 (R109, R169). -/
def execRdaddF64 (a : BitVec 8) (d : BitVec 7) (s : State) : Out :=
  complete (.rdaddF64 a d) s fun t =>
    let m := t.act
    let r := reduceLanes (fun x y => addF fp64 t.mode x y) m fun l => t.xmA fp64 (t.g.read64 (selOf a) l).toNat
    let z := finishReduce fp64 r
    t.modG fun g => (g.put64 d.toNat m fun _ => BitVec.ofNat 64 z.1).flag (if m = 0 then 0 else z.2)

/-- RDADD.I32 (R109, R169). -/
def execRdaddI32 (a : BitVec 8) (d : BitVec 7) (s : State) : Out :=
  reduce32 (.rdaddI32 a d) s a d (fun _ x y => ((x + y) % 2 ^ 32, 0)) false

/-- RDMIN.F32 (R104, R169). -/
def execRdminF32 (a : BitVec 8) (d : BitVec 7) (s : State) : Out :=
  reduce32 (.rdminF32 a d) s a d (fun _ x y => minmaxF fp32 false x y) true

/-- RDMAX.F32 (R104, R169). -/
def execRdmaxF32 (a : BitVec 8) (d : BitVec 7) (s : State) : Out :=
  reduce32 (.rdmaxF32 a d) s a d (fun _ x y => minmaxF fp32 true x y) true

/-- RDMIN.I32 (R169). -/
def execRdminI32 (a : BitVec 8) (d : BitVec 7) (s : State) : Out :=
  reduce32 (.rdminI32 a d) s a d (fun _ x y => (if toSigned 32 x ≤ toSigned 32 y then x else y, 0)) false

/-- RDMAX.I32 (R169). -/
def execRdmaxI32 (a : BitVec 8) (d : BitVec 7) (s : State) : Out :=
  reduce32 (.rdmaxI32 a d) s a d (fun _ x y => (if toSigned 32 x ≤ toSigned 32 y then y else x, 0)) false

/-- SCAN.I32 (R170). -/
def execScanI32 (e : BitVec 1) (a : BitVec 8) (d : BitVec 7) (s : State) : Out :=
  laneOp (.scanI32 e a d) s d.toNat fun t l => (scanSum t (selOf a) (e = 1#1) l, 0)

end Sys2Proof.Machine
end

