-- ==== Sys2Proof/Machine/Rcb.lean ====
section
/-! DEFINITION. RCB nodes, kernel headers and patch entries: how the device reads and writes them, what
makes them unusable, and a launch's effective fields (R36 to R39, R134 to R136, R294, R315, R359, R425). -/

namespace Sys2Proof.Machine

/-- How the device's own accesses reach an address of a partition (R249, R425). -/
inductive Reach where
  | ok (t : Target) (writable : Bool)
  | absent
  /-- a refused page (0x0D) or a poisoned line (0x0E) -/
  | bad (detail : Nat)
  deriving DecidableEq, Repr

/-- Reach an address of a partition through its tables; a peer only once the device has a number, and another one (R314), and
by a rail that works: while the rail holds, the access waits as for an absent page, and a failed one refuses it (R329, R398). What
the host answers with an error status is taken as refused. (Log entry 19.) -/
def State.reach (s : State) (part va : Nat) : Reach :=
  match s.walk part va with
  | .leaf e =>
    let a := e.pa + va % pageSize e.size
    if e.reach = 0 then
      if !s.inWindow part e.pa then .bad 0x0D
      else if s.poisoned (a / Config.lineBytes) then .bad 0x0E
      else .ok (.dev a) e.write
    else if e.reach = 1 then
      if !s.hostLive part || hostIn (s.hostPort part) a (s.env.hostDenied ++ s.env.hostErrors) then .bad 0x0D
      else .ok (.host (s.hostPort part) a) e.write
    else if bbit s.regs.devnum 8 = false ∨ bget s.regs.devnum 0 8 = e.peer ∨ (s.dieAt (s.partDie part)).rail.failed = true then
      .bad 0x0D
    else match s.peer e.peer with
      | some p =>
        if p.windows.any fun x => decide (x.1 ≤ a) && decide (a < x.2.1) && x.2.2 = s.podtag part then
          if s.railHolds (s.partDie part) then .absent else .ok (.peer e.peer a) e.write
        else .bad 0x0D
      | none => .bad 0x0D
  | .absent => .absent
  | .error _ => .bad 0x0E
  | _ => .bad 0x0D

/-- What a read of the device finds. -/
inductive Found where
  | val (v : Nat)
  /-- the address whose page is absent -/
  | absent (va : Nat)
  | bad (detail : Nat)
  deriving DecidableEq, Repr

/-- The page that a read waits for. -/
def Found.page : Found → Option Nat
  | .absent a => some a
  | _ => none

/-- The details of a page or line that could not be read. -/
def Found.detail : Found → List Nat
  | .bad d => [d]
  | _ => []

/-- Read up to so many 8-byte words from an address on, the first at the lowest place. -/
def State.readWordsAt (s : State) (part va : Nat) : Nat → Found
  | 0 => .val 0
  | n + 1 =>
    match s.reach part va with
    | .absent => .absent va
    | .bad d => .bad d
    | .ok t _ =>
      match s.readWordsAt part (va + 8) n with
      | .val v => .val (s.peek t 8 + 2 ^ 64 * v)
      | r => r

/-- Read n bytes inside one 8-byte word of memory. -/
def State.readAt (s : State) (part va n : Nat) : Found :=
  match s.reach part va with
  | .absent => .absent va
  | .bad d => .bad d
  | .ok t _ => .val (s.peek t n)

/-! ### Nodes -/

/-- The key of a launch or node: its address in its partition. -/
def nodeKey (part va : Nat) : Nat := part * 2 ^ 56 + va

/-- Event 0x60 (R425). -/
def State.rcbEvent (s : State) (part va detail : Nat) : State :=
  s.post { Event.of 0x60 detail va with part := part }

/-- The fields of a node that the device writes (R37). -/
def deviceFields : BitVec 2048 :=
  (BitVec.allOnes 258).zeroExtend 2048 <<< 640 ||| (BitVec.allOnes 128).zeroExtend 2048 <<< 1792 |||
  (BitVec.allOnes 3).zeroExtend 2048 <<< 1984 ||| (BitVec.allOnes 56).zeroExtend 2048 <<< 1992

/-- The device's record of a node. -/
def State.node (s : State) (part va : Nat) : Option Node := s.nodes.find? fun n => n.part = part && n.va = va

/-- The device's image of a node: as last read, with what it wrote since; zero when it has read none. -/
def State.image (s : State) (part va : Nat) : BitVec 2048 :=
  match s.node part va with
  | some n => n.image
  | none => 0

/-- The device's record of a node changed, or begun. -/
def State.modNode (s : State) (part va : Nat) (f : Node → Node) : State :=
  if (s.node part va).isSome then
    { s with nodes := modFirst (fun n => n.part = part && n.va = va) f s.nodes }
  else { s with nodes := s.nodes ++ [f { part := part, va := va, image := 0 }] }

/-- What a read of a node finds, before anything is kept: a value, an absent page, or a refusal. A node
needs a leaf with write = 1 and reach 0 (R425); what the leaf lacks is told before a poisoned line. (Log entry 29.) -/
def State.nodeNow (s : State) (part va : Nat) : Found :=
  match s.walk part va with
  | .leaf e =>
    let pa := e.pa + va % pageSize e.size
    if e.reach ≠ 0 ∨ e.write = false then .bad 0x0C
    else if !s.inWindow part e.pa then .bad 0x0D
    else if s.poisoned (pa / Config.lineBytes) || s.poisoned (pa / Config.lineBytes + 1) then .bad 0x0E
    else .val (Memory.readLE s.dev pa 256)
  | .absent => .absent va
  | .error _ => .bad 0x0E
  | _ => .bad 0x0D

/-- The bytes of a launch's RCB; one that cannot be read tells the least of what its node and its bytes lack (R249, R360, R425).
(Log entry 18.) -/
def State.rcbRead (s : State) (part va : Nat) : Found :=
  match s.readWordsAt part va 32 with
  | .bad d => .bad (min d ((s.nodeNow part va).detail.headD d))
  | r => r

/-- A later read of a node (R425): the fields that the device does not write come from memory; when the
node cannot be reached, the values last read stand and event 0x60 is posted. -/
def State.readNode (s : State) (part va : Nat) : BitVec 2048 × State :=
  match s.nodeNow part va with
  | .val v =>
    let old := s.node part va
    let x := match old with
      | none => BitVec.ofNat 2048 v
      | some n => (BitVec.ofNat 2048 v &&& ~~~deviceFields) ||| (n.image &&& deviceFields)
    (x, s.modNode part va fun n => { n with image := x })
  | .absent _ => (s.image part va, s.rcbEvent part va 0x0D)
  | .bad d => (s.image part va, (s.rcbEvent part va d).walkNote part va)

/-- The device writes a field of a node: its own copy, and the 64-bit words of memory that hold it, each
a registering write; a node that cannot be written posts event 0x60 (R37, R425). -/
def State.writeNode (s : State) (part va lo w v : Nat) : State :=
  let s1 := s.modNode part va fun n => { n with image := bset n.image lo w v }
  let x := s1.image part va
  let first := lo / 64
  let count := (lo + w - 1) / 64 - first + 1
  match s1.deviceLeaf part (va + 8 * first) true with
  | .inl d => (s1.rcbEvent part va d).walkNote part (va + 8 * first)
  | .inr pa =>
    s1.homeWrite ((List.range count).flatMap fun k =>
      let m := Memory.readLE s1.dev (pa + 8 * k) 8
      let a := 64 * (first + k)
      let l := max lo a
      let h := min (lo + w) (a + 64)
      bytesAt (pa + 8 * k) 8 (m - fld m (l - a) (h - l) * 2 ^ (l - a) + bget x l (h - l) * 2 ^ (l - a))) none

/-- The fields of the table of R37 by their places. -/
def rcbKind (x : BitVec 2048) : Nat := bget x 0 3
def rcbIdempotent (x : BitVec 2048) : Bool := bbit x 3
def rcbGeyser (x : BitVec 2048) : Bool := bbit x 4
def rcbColl (x : BitVec 2048) : Bool := bbit x 5
def rcbPart (x : BitVec 2048) : Nat := bget x 8 4
def rcbLiteral (x : BitVec 2048) : Bool := bbit x 54
def rcbParent (x : BitVec 2048) : Nat := bget x 64 56
def rcbBudget (x : BitVec 2048) : Nat := bget x 128 64
def rcbSaveArea (x : BitVec 2048) : Nat := bget x 256 56
def rcbCompletion (x : BitVec 2048) : Nat := bget x 960 56
def rcbReach (x : BitVec 2048) : Nat := bget x 1016 2
def rcbValue (x : BitVec 2048) : Nat := bget x 1024 64
def rcbKernel (x : BitVec 2048) : Nat := bget x 1088 56
def rcbParams (x : BitVec 2048) : Nat := bget x 1152 56
def rcbLanes (x : BitVec 2048) : Nat := bget x 1280 12
def rcbOwnWords (x : BitVec 2048) : Nat := bget x 1312 16
def rcbScratch (x : BitVec 2048) : Nat := bget x 1328 16
def rcbRegs (x : BitVec 2048) : Nat := bget x 1344 7
def rcbBundleCount (x : BitVec 2048) : Nat := bget x 1360 2
def rcbBundleIndex (x : BitVec 2048) : Nat := bget x 1362 2
def rcbBundleNext (x : BitVec 2048) : Nat := bget x 1408 56
def rcbCoreSet (x : BitVec 2048) : BitVec 256 := x.extractLsb' 1536 256
def rcbCreated (x : BitVec 2048) : Nat := bget x 1792 64
def rcbConsumed (x : BitVec 2048) : Nat := bget x 1992 56

/-- A node claims a group of inheritable fields (R38). -/
def rcbClaims (x : BitVec 2048) (k : Nat) : Bool := bbit x (16 + k)

/-- An E field with its default (R37). -/
def rcbE (x : BitVec 2048) (lo w dflt : Nat) : Nat :=
  let v := bget x lo w
  if v = 0 ∧ rcbLiteral x = false then dflt else v

/-- The reserved fields of R37: lowest bit and width; the reserved bits of the override mask among them. -/
def rcbReserved : List (Nat × Nat) :=
  [(6, 2), (12, 4), (28, 4), (55, 1), (120, 8), (248, 8), (312, 8), (431, 1), (528, 48), (630, 10), (808, 24)] ++
  [(898, 62), (1018, 6), (1144, 8), (1208, 8), (1292, 4), (1298, 14), (1351, 1), (1359, 1), (1364, 44)] ++
  [(1464, 8), (1528, 8), (1987, 5)]

/-- The fields that a node of a kind does not use are zero (R37): the launch fields outside launches,
the loop words, the save area and geyser_en outside contexts, coll_en outside partitions. -/
def rcbUnused (x : BitVec 2048) : Bool :=
  (rcbKind x != 4 && (bget x 960 576 != 0 || rcbIdempotent x || bget x 1856 64 != 0)) ||
  (rcbKind x != 2 && (bget x 640 258 != 0 || rcbSaveArea x != 0 || rcbGeyser x)) ||
  (rcbKind x != 1 && rcbColl x)

/-- A node breaks R37 in a reserved or out-of-range value (R359): detail 0x02. -/
def rcbBad (x : BitVec 2048) : Bool :=
  decide (4 < rcbKind x) || rcbReserved.any (fun r => bget x r.1 r.2 != 0) || rcbUnused x ||
  rcbParent x % 256 != 0 || rcbSaveArea x % 128 != 0 || bget x 1984 3 = 7

/-- A launch node's own values are out of range (R37, R359). -/
def launchBad (x : BitVec 2048) : Bool :=
  rcbReach x = 3 || bget x 1216 32 = 0 || bget x 1248 16 = 0 || bget x 1264 16 = 0 ||
  decide (2048 < rcbLanes x) || rcbRegs x % 8 != 0 || decide (96 < rcbRegs x) || decide (8192 < rcbScratch x) ||
  decide (64 < bget x 1352 7) || rcbCompletion x % 8 != 0 || rcbBundleNext x % 256 != 0

/-- The partition's RCB.coll_en, read where it is used (R315). While prcb is 0 it reads 0. -/
def State.collEn (s : State) (part : Nat) : Bool × State :=
  if s.prcb part = 0 then (false, s)
  else
    let r := s.readNode part (s.prcb part)
    (rcbColl r.1, r.2)

/-- The nodes of a context's path by their addresses: the context, then the partition's node if it has one (R315).
(Log entry 20.) -/
def State.ctxNodes (s : State) (part ctx : Nat) : List Nat := if s.prcb part = 0 then [ctx] else [ctx, s.prcb part]

/-- The kinds that the parent of a node of a kind may have (R36). -/
def parentKinds (k : Nat) : List Nat := if k = 4 ∨ k = 3 then [2, 3] else if k = 2 then [1] else []

/-- What reading a path comes to. -/
inductive PathRes where
  /-- the nodes, the launch first, the partition node last: address and contents -/
  | path (l : List (Nat × BitVec 2048))
  | absent (va : Nat)
  | bad (detail : Nat)
  deriving DecidableEq, Repr

/-- Follow parent fields from a node up to the partition node, within so many nodes (R315). (Log entry 18.) -/
def State.pathFrom (s : State) (part va : Nat) : Nat → PathRes
  | 0 => .bad 0x03
  | n + 1 =>
    match s.nodeNow part va with
    | .absent a => .absent a
    | .bad d => .bad d
    | .val v =>
      let x := BitVec.ofNat 2048 v
      if rcbBad x then .bad 0x02
      else if rcbKind x = 1 then
        if va = s.prcb part ∧ rcbPart x = part ∧ rcbParent x = 0 then .path [(va, x)] else .bad 0x03
      else if rcbParent x = 0 then .bad 0x03
      else match s.pathFrom part (rcbParent x) n with
        | .path l =>
          let ok := match l.head? with
            | some y => (parentKinds (rcbKind x)).contains (rcbKind y.2)
            | none => false
          if ok then .path ((va, x) :: l) else .bad 0x02
        | r => r

/-- The path of a launch (R315, R36): within seven nodes, at most four regions. (Log entry 18.) -/
def State.launchPath (s : State) (part va : Nat) : PathRes :=
  match s.pathFrom part va 7 with
  | .path l => if 4 < (l.filter fun y => rcbKind y.2 = 3).length then .bad 0x02 else .path l
  | r => r

/-- The node whose value of an inheritable group is effective (R38): the nearest that claims it, or the
root. -/
def nearest (root : BitVec 2048) (path : List (Nat × BitVec 2048)) (k : Nat) : BitVec 2048 :=
  match path.find? fun y => rcbClaims y.2 k with
  | some y => y.2
  | none => root

/-- The effective fault domain of a partition: of its node, or of the root (R37, R38, R315). -/
def State.partDomain (s : State) (part : Nat) : Nat :=
  bget (nearest s.regs.root (if s.prcb part = 0 then [] else [(s.prcb part, s.image part (s.prcb part))]) 1) 32 16

/-- A launch's effective inheritable fields (R37, R38). -/
def effOf (root : BitVec 2048) (path : List (Nat × BitVec 2048)) : Eff :=
  let at_ := nearest root path
  { priority := bget (at_ 0) 51 3
    faultDomain := bget (at_ 1) 32 16
    shedClass := bget (at_ 2) 48 2
    arithClass := bget (at_ 3) 50 1
    trapHandler := bget (at_ 4) 192 56
    trapEnable := (at_ 5).extractLsb' 624 6
    leasePasses := rcbE (at_ 6) 608 16 1024
    heatClass := (let h := bget (at_ 7) 432 16
      if h = 0 then 15000 else h)
    refreshAllowance := rcbE (at_ 8) 576 32 0xFFFFFFFF
    coreSet := path.foldl (fun m y => if rcbClaims y.2 9 then m &&& rcbCoreSet y.2 else m) (rcbCoreSet root)
    notifyWait := rcbE (at_ 11) 1920 32 1000000
    drainDeadline := rcbE (at_ 11) 1952 32 4000000 }

/-! ### Kernel headers -/

/-- What reading a header comes to. -/
inductive HeaderRes where
  | header (h : BitVec 512)
  | absent (va : Nat)
  | bad (detail : Nat)
  deriving DecidableEq, Repr

/-- Read the 64 bytes of a header (R134). -/
def State.header (s : State) (part va : Nat) : HeaderRes :=
  if va % 256 ≠ 0 then .bad 0x02
  else match s.readWordsAt part va 8 with
    | .val v => .header (BitVec.ofNat 512 v)
    | .absent a => .absent a
    | .bad d => .bad d

/-- The header's patch count. -/
def hdrPatches (h : BitVec 512) : Nat := bget h 224 16

/-- What a kernel's and a handler's header share is out of order (R134, R294). -/
def hdrBad (h : BitVec 512) : Bool :=
  bget h 0 32 != 0x5A52454E || bget h 32 16 != 1 || bget h 51 13 != 0 || bget h 135 1 != 0 || bget h 148 12 != 0 ||
  bget h 199 1 != 0 || bget h 216 8 != 0 || bget h 256 256 != 0 || bget h 64 32 % 2 != 0 || bget h 96 32 % 64 != 0 ||
  decide (bget h 96 32 < 64 + 8 * hdrPatches h)

/-- A kernel's resource fields are out of range (R134). -/
def hdrRanges (h : BitVec 512) : Bool :=
  decide (4096 < hdrPatches h) || bget h 128 7 % 8 != 0 || bget h 128 7 = 0 || decide (96 < bget h 128 7) ||
  bget h 136 12 = 0 || decide (2048 < bget h 136 12) || decide (8192 < bget h 160 16) || decide (64 < bget h 192 7)

/-- The code a header describes (R134). -/
def hdrKernel (va : Nat) (h : BitVec 512) (ps : List Patch) : Kernel :=
  { entry := BitVec.ofNat 56 (va + bget h 96 32), size := bget h 64 32, patches := ps }

/-- The kind of an instruction that a patch entry's kind must name (R136): I-format for imm8, LDK for
imm19, LDKH for imm13. -/
def patchFits (kind w : Nat) : Bool :=
  match decode32 w with
  | .error _ => false
  | .ok i =>
    match i.head with
    | .w32 major _ =>
      if kind = 0 then major = 4 || major = 22 || major = 28 || major = 29
      else if kind = 1 then major = 14
      else major = 15
    | _ => false

/-- Some bytes of a partition, a line at a time: what the first line on an absent page, else the worst of the others, comes
to (R359, R360). (Log entry 18.) -/
def State.areaFound (s : State) (part va n : Nat) : Found :=
  if n = 0 then .val 0 else
  let l := (List.range ((va % 128 + n + 127) / 128)).map fun k => (va / 128 * 128 + 128 * k, s.reach part (va / 128 * 128 + 128 * k))
  match l.find? fun x => x.2 = .absent with
  | some x => .absent x.1
  | none => (l.filterMap fun x => match x.2 with
    | .bad d => some d
    | _ => none).min?.elim (.val 0) .bad

/-- What reading patch entries comes to: a page that is absent, refusal details, the instructions that the entries name, and
the patches. -/
structure PatchRes where
  absent : Option Nat
  details : List Nat
  named : List Nat
  patches : List Patch
  deriving DecidableEq, Repr

/-- One patch entry, with the value read for it at acceptance (R135, R136): the value is aligned in memory, and every detail
that its entry, its instruction and its value meet is told (R360). -/
def State.patchOf (s : State) (part va params : Nat) (h : BitVec 512) (k : Nat) : PatchRes :=
  match s.readWordsAt part (va + 64 + 8 * k) 1 with
  | .val e =>
    let parcel := fld e 0 32
    let kind := fld e 32 2
    let param := fld e 40 16
    let width := if kind = 0 then 1 else 4
    let pc := va + bget h 96 32 + 2 * parcel
    if kind = 3 ∨ fld e 34 6 ≠ 0 ∨ fld e 56 8 ≠ 0 ∨ bget h 64 32 < 2 * parcel + 4 ∨ (params + param) % width ≠ 0 ∨
        bget h 240 16 < param + width then { absent := none, details := [2], named := [parcel], patches := [] }
    else
      let lo := s.readAt part pc 2
      let hi := s.readAt part (pc + 2) 2
      let value := s.readAt part (params + param) width
      let fits := match lo, hi with
        | .val l, .val m => patchFits kind (l + 2 ^ 16 * m)
        | _, _ => true
      { absent := lo.page <|> hi.page <|> value.page
        details := lo.detail ++ hi.detail ++ value.detail ++ (if fits then [] else [2])
        named := [parcel]
        patches := match value with
          | .val v => [{ parcel := parcel, kind := kind, value := v }]
          | _ => [] }
  | r => { absent := r.page, details := r.detail, named := [], patches := [] }

/-- The patch entries from the k-th on, n of them; two may not name one instruction (R136). (Log entry 18.) -/
def State.patchesFrom (s : State) (part va params : Nat) (h : BitVec 512) (k : Nat) : Nat → PatchRes
  | 0 => { absent := none, details := [], named := [], patches := [] }
  | n + 1 =>
    let p := s.patchOf part va params h k
    let l := s.patchesFrom part va params h (k + 1) n
    { absent := p.absent <|> l.absent
      details := p.details ++ l.details ++ (if p.named.any l.named.contains then [2] else [])
      named := p.named ++ l.named, patches := p.patches ++ l.patches }

/-- The least of some refusal details. (Log entry 18.) -/
def leastDetail : List Nat → Option Nat
  | [] => none
  | x :: r => match leastDetail r with
    | none => some x
    | some y => some (min x y)

end Sys2Proof.Machine
end

