-- ==== Sys2Proof/Machine/FrontEnd.lean ====
section
/-! DEFINITION. Hardware queues and the front end: notifies and mapping (R247, R248, R250, R321), command
rings (R249), virtual devices' buckets and logs as they stop a queue (R251, R324), and the acceptance and
refusal of launches (R38 to R44, R134 to R136, R186, R252, R294, R315, R359, R360). -/

namespace Sys2Proof.Machine

/-! ### Queue descriptors and virtual devices -/

/-- QDESC of a queue (R248). -/
def State.qdesc (s : State) (q : Nat) : BitVec 128 := Smap.get 0 s.regs.qdesc q
def qdRing (r : BitVec 128) : Nat := bget r 0 56
def qdPart (r : BitVec 128) : Nat := bget r 56 4
def qdSize (r : BitVec 128) : Nat := bget r 64 5
def qdEnabled (r : BitVec 128) : Bool := bbit r 69
def qdStopped (r : BitVec 128) : Bool := bbit r 70

/-- The device with a queue's descriptor changed. -/
def State.setQdesc (s : State) (q : Nat) (r : BitVec 128) : State :=
  { s with regs := { s.regs with qdesc := Smap.set 0 s.regs.qdesc q r } }

/-- VDBIND of a virtual device (R321). -/
def State.vdbind (s : State) (v : Nat) : BitVec 64 := vget s.regs.vdbind v 0
def vbPart (r : BitVec 64) : Nat := bget r 0 4
def vbPort (r : BitVec 64) : Nat := bget r 4 1
def vbBase (r : BitVec 64) : Nat := bget r 8 12
def vbCount (r : BitVec 64) : Nat := bget r 20 12
def vbEnabled (r : BitVec 64) : Bool := bbit r 32
def vbHas (r : BitVec 64) (q : Nat) : Bool := decide (vbBase r ≤ q) && decide (q < vbBase r + vbCount r)

/-- The host port that exposes a virtual device is in use (R321, R418). -/
def State.vfLive (s : State) (v : Nat) : Bool := (s.ports.toList[vbPort (s.vdbind v)]?).any fun x => x.enabled

/-- The enabled virtual device whose range holds a queue (R248, R321). -/
def State.queueVd (s : State) (q : Nat) : Option Nat :=
  (List.range 32).find? fun v => vbEnabled (s.vdbind v) && vbHas (s.vdbind v) q

/-- VDSCHED of a virtual device, and its level, signed (R251). -/
def State.vdsched (s : State) (v : Nat) : BitVec 128 := vget s.regs.vdsched v 0
def vsLevel (r : BitVec 128) : Int := toSigned 32 (bget r 64 32)
def vsDry (r : BitVec 128) : Bool := bget r 0 32 != 0 && decide (vsLevel r ≤ 0)

/-- The device with a bucket's record written, its dry bit as R251 gives it. (Log entry 41.) -/
def State.setVdsched (s : State) (v : Nat) (r : BitVec 128) : State :=
  { s with regs := { s.regs with vdsched := vset s.regs.vdsched v (bset r 96 1 (b2n (vsDry r))) } }

/-- A virtual device supplies no launches: it is dry, or its log is nearly full (R251, R324). -/
def State.vdHeld (s : State) (v : Nat) : Bool := vsDry (s.vdsched v) || vdlogThrottled (s.vdlog v)

/-- The queue's virtual device supplies no launches. -/
def State.queueHeld (s : State) (q : Nat) : Bool :=
  match s.queueVd q with
  | some v => s.vdHeld v
  | none => false

/-! ### Mapping -/

/-- A launch counts for its queue in states 1 to 3 (R247). -/
def Launch.busy (l : Launch) : Bool := l.state = 1 || l.state = 2 || l.state = 3

/-- A queue has a launch in state 1, 2 or 3. -/
def State.queueBusy (s : State) (q : Nat) : Bool := s.launches.any fun l => l.queue = q && l.busy

/-- A queue still holds commands: an RLAUNCH, or ring commands not yet taken (R247, R249); one whose header lies on an absent
page is taken to hold some. (Log entry 55.) -/
def State.holdsCommands (s : State) (q : Nat) : Bool :=
  (s.rlaunches.any fun x => x.queue = q) ||
  match s.readWordsAt (qdPart (s.qdesc q)) (qdRing (s.qdesc q)) 2 with
  | .val h => fld h 0 32 != fld h 64 32
  | .absent _ => true
  | .bad _ => false

/-- A queue's pending bit is set, behind the others, unless its en is 0 or the bit is set already (R248). -/
def State.setPending (s : State) (q : Nat) : State :=
  if !qdEnabled (s.qdesc q) || s.pending.any fun p => p.queue = q then s
  else { s with pending := s.pending ++ [{ queue := q, since := s.timer, reported := false }] }

/-- A slot that may be taken from its queue (R247); one that waits for an absent page keeps it (R249). -/
def State.preemptible (s : State) (x : QSlot) : Bool := !s.queueBusy x.queue && x.command.isNone && x.held.isNone

/-- The pre-emptible slot whose queue was woken longest ago, the lowest among equals; none of those in the list, which have
just been mapped. (Log entry 55.) -/
def State.victimSlot (s : State) (new : List Nat) : Option (Nat × QSlot) :=
  (s.slots.filter fun y => s.preemptible y.2 && !new.contains y.2.queue).foldl (fun best y =>
    match best with
    | none => some y
    | some b => if y.2.woken < b.2.woken ∨ (y.2.woken = b.2.woken ∧ y.1 < b.1) then some y else some b) none

/-- A queue leaves its slot; an RLAUNCH that the slot had taken and not accepted waits again. -/
def State.unmapQueue (s : State) (q : Nat) : State :=
  { s with
    slots := s.slots.filter fun y => y.2.queue ≠ q
    rlaunches := (s.slots.filterMap fun y => match y.2.command with
      | some (_, rcb, some ctx) => if y.2.queue = q then some { queue := q, rcb := rcb, ctx := ctx } else none
      | _ => none) ++ s.rlaunches }

/-- A queue takes a slot, and its pending bit goes. (Log entry 55.) -/
def State.mapAt (s : State) (n q : Nat) : State :=
  { s with
    slots := s.slots ++
      [(n, { queue := q, woken := s.timer, awake := true, idleSince := s.timer, held := none, command := none })]
    pending := s.pending.filter fun p => p.queue ≠ q }

/-- One pending queue is mapped when a slot serves it: a free one, or one taken from another queue,
whose pending bit is set if it still holds commands (R247). A stopped queue and one of a dry device keep their bits
(R249, R251). -/
def State.mapQueue (s : State) (new : List Nat) (q : Nat) : State :=
  if s.queueHeld q || qdStopped (s.qdesc q) then s
  else match (List.range 256).find? fun n => !(s.slots.any fun y => y.1 = n) with
    | some n => s.mapAt n q
    | none => match s.victimSlot new with
      | none => s
      | some (n, x) =>
        let s1 := { s with slots := s.slots.filter fun y => y.1 ≠ n }
        (if s1.holdsCommands x.queue then s1.setPending x.queue else s1).mapAt n q

/-- The pending queues are offered slots in the order their bits were set, each once, those too whose bits a pre-emption sets
meanwhile (R247). (Log entry 55.) -/
def State.mapFrom (s : State) (seen : List Nat) : Nat → State
  | 0 => s
  | n + 1 => match s.pending.find? fun p => !seen.contains p.queue with
    | none => s
    | some p => (s.mapQueue seen p.queue).mapFrom (seen ++ [p.queue]) n
def State.mapPending (s : State) : State := s.mapFrom [] (s.pending.length + s.slots.length)

/-- A notify of a queue (R247, R248). (Log entry 55.) -/
def State.notify (s : State) (q : Nat) : State :=
  if !qdEnabled (s.qdesc q) then s
  else if s.slots.any fun y => y.2.queue = q then
    { s with slots := s.slots.map fun y => if y.2.queue = q then (y.1, { y.2 with woken := s.timer, awake := true }) else y }
  else (s.setPending q).mapPending

/-- QNOTIFY (R247): the doorbell of the physical function names queue q. -/
def execQnotify (s : State) : Out :=
  .next (if s.ev.q < 4096 then s.notify s.ev.q else s)

/-- VF_DOORBELL (R321): a virtual function's doorbell names a queue of its range; outside it the write
is ignored and event 0x43 posted (R359). A port that start-up has disabled exposes none (R418). -/
def execVfDoorbell (s : State) : Out :=
  let r := s.vdbind s.ev.vd
  .next (if !s.vfLive s.ev.vd then s
    else if vbEnabled r && vbHas r s.ev.q then s.notify s.ev.q
    else s.post { Event.of 0x43 s.ev.q 0 with part := vbPart r })

/-- QUEUE_IDLE_UNMAP (R247): a queue without a launch in states 1 to 3 for 2^16 ticks leaves its slot; one that still
holds commands after a notify keeps a pending bit. (Log entry 55.) -/
def execQueueIdleUnmap (s : State) : Out :=
  .next (match s.slots.find? fun y => y.2.queue = s.ev.q with
    | none => s
    | some y =>
      if s.queueBusy s.ev.q || y.2.held.isSome || y.2.command.isSome || decide (s.timer < y.2.idleSince + 2 ^ 16) then s
      else
        let s1 := s.unmapQueue s.ev.q
        let left := s1.rlaunches.any (fun x => x.queue = s.ev.q) || (y.2.awake && s1.holdsCommands s.ev.q)
        (if left then s1.setPending s.ev.q else s1).mapPending)

/-- NOTIFY_WAIT_EXPIRY (R250, R417): event 0x44 for a pending bit older than the partition node's
notify_wait, once; the bit stays. While prcb is 0 the default holds (R315). -/
def execNotifyWaitExpiry (s : State) : Out :=
  .next (match s.pending.find? fun p => p.queue = s.ev.q with
    | none => s
    | some p =>
      let part := qdPart (s.qdesc p.queue)
      let r := if s.prcb part = 0 then (0, s) else s.readNode part (s.prcb part)
      let wait := if s.prcb part = 0 then 1000000 else (effOf s.regs.root [(s.prcb part, r.1)]).notifyWait
      if p.reported || decide (s.timer ≤ p.since + wait) then r.2
      else
        { r.2 with pending := modFirst (fun x => x.queue = p.queue) (fun x => { x with reported := true }) r.2.pending }.post
          { Event.of 0x44 p.queue (s.timer - p.since) with part := part })

/-! ### States of launches -/

/-- A launch's RCB address. -/
def Launch.va (l : Launch) : Nat := l.rcb % 2 ^ 56

/-- The sub-launches of a bundle, or the one launch, by the key of the first. -/
def State.bundle (s : State) (head : Nat) : List Launch := s.launches.filter fun l => l.head = head

/-- A launch's state changes, in the device and in its RCB (R37). A queue that thereby loses its last
launch in states 1 to 3 begins to be idle, and its slot may serve another (R247, R250). -/
def State.setState (s : State) (rcb st : Nat) : State :=
  match s.launchOf rcb with
  | none => s
  | some l =>
    let s1 := (s.modLaunch rcb fun x => { x with state := st }).writeNode l.part l.va 1984 3 st
    if l.busy && !(st = 1 || st = 2 || st = 3) then
      ({ s1 with slots := s1.slots.map fun (y : Nat × QSlot) =>
          if y.2.queue = l.queue then (y.1, { y.2 with idleSince := s1.timer }) else y } : State).mapPending
    else s1

/-- Every sub-launch changes its state. -/
def State.setStates (s : State) (head st : Nat) : State :=
  (s.bundle head).foldl (fun t l => t.setState l.rcb st) s

/-- Perform a completion store (R43, R44), and say whether it is over: it is not while it waits for its page, for the rail or for
its log entry (R324, R398, R417). A word that cannot be reached at all is not written. (Log entry 19.) -/
def State.storeCompletion (s : State) (c : Completion) : State × Bool :=
  let logged := fun (t : Target) (f : State → State) => match s.logTargets c.vd [t] with
    | some u => (f u, true)
    | none => (s.logFullEvent c.vd, false)
  if c.reach = 1 then
    if !s.hostLive c.part then (s, true)
    else logged (.host (s.hostPort c.part) c.addr) fun u =>
      { u with host := Memory.writeLE u.host (hostAt (s.hostPort c.part) c.addr) 8 c.value }
  else match s.reach c.part c.addr with
    | .absent => (s, false)
    | .bad _ => (s.walkNote c.part c.addr, true)
    | .ok t w =>
      if !w then (s, true)
      else match t with
        | .dev pa => if c.reach ≠ 0 then (s, true) else logged t fun u => u.homeWrite (bytesAt pa 8 c.value) none
        | .peer d pa =>
          if c.reach ≠ 2 then (s, true)
          else ((s.modPeer d fun m => Memory.writeLE m pa 8 c.value).railDie (s.partDie c.part) [t], true)
        | _ => (s, true)

/-- The completion word of a launch (R43, R44, R360), at once or when it can be reached. (Log entry 19.) -/
def State.complete (s : State) (part reach addr value : Nat) (vd : Option Nat) : State :=
  if addr = 0 then s
  else
    let c : Completion := { part := part, vd := vd, reach := reach, addr := addr, value := value }
    let r := s.storeCompletion c
    if r.2 then r.1 else { r.1 with completions := r.1.completions ++ [c] }

/-- Completion stores that waited are tried again. (Log entry 19.) -/
def State.retryCompletions (s : State) : State :=
  s.completions.foldl (fun t c =>
    let r := t.storeCompletion c
    if r.2 then r.1 else { r.1 with completions := r.1.completions ++ [c] }) { s with completions := [] }

/-! ### Acceptance -/

/-- What the checks of one launch RCB come to. -/
structure SubRes where
  absent : Option Nat
  details : List Nat
  domain : Nat
  launch : Option (Launch × List (Nat × BitVec 2048))
  deriving DecidableEq, Repr

/-- A nonzero launch field, or the header's (R37, R39). -/
def pickField (x h : Nat) : Nat := if x = 0 then h else x

/-- A resource mismatch (R39). -/
def mismatch (x : BitVec 2048) (h : BitVec 512) : Bool :=
  let less := fun (a b : Nat) => decide (a ≠ 0) && decide (a < b)
  less (rcbRegs x) (bget h 128 7) || less (rcbScratch x) (bget h 160 16) ||
  less (rcbOwnWords x) (bget h 176 16) || less (rcbLanes x) (bget h 136 12)

/-- The checks of one launch RCB (R359, R360): what is absent holds the acceptance; else its refusal
details, or the launch as it would be accepted. (Log entry 18.) -/
def State.checkSub (s : State) (part q va : Nat) (x : BitVec 2048) (issuer : Option Nat) : SubRes :=
  let pathR := s.launchPath part va
  let path := match pathR with
    | .path l => l
    | _ => []
  let eff0 := effOf s.regs.root path
  let eff := { eff0 with coreSet := eff0.coreSet &&& BitVec.ofNat 256 (s.partCores part) }
  let hdr := s.header part (rcbKernel x)
  let hh := if path.isEmpty || eff.trapHandler = 0 then none else some (s.header part eff.trapHandler)
  let h := match hdr with
    | .header h => h
    | _ => 0
  let hok := match hdr with
    | .header h => !(hdrBad h || hdrRanges h)
    | _ => false
  let patches := if hok then s.patchesFrom part (rcbKernel x) (rcbParams x) h 0 (hdrPatches h)
    else { absent := none, details := [], named := [], patches := [] }
  let params := if hok then s.areaFound part (rcbParams x) (bget h 240 16) else Found.val 0
  let ctx := (path.find? fun y => rcbKind y.2 = 2).getD (0, 0)
  let absent := (match pathR with
      | .absent a => some a
      | _ => none) <|> (match hdr with
      | .absent a => some a
      | _ => none) <|> (match hh with
      | some (.absent a) => some a
      | _ => none) <|> params.page <|> patches.absent
  let own := if rcbBad x || rcbKind x != 4 || launchBad x then [2] else []
  let pd := match pathR with
    | .bad d => [d]
    | _ => []
  let hd := match hdr with
    | .bad d => [d]
    | .header y => if hdrBad y || hdrRanges y then [2] else []
    | _ => []
  let td := match hh with
    | some (.bad d) => [d]
    | some (.header y) => if hdrBad y || hdrPatches y != 0 then [2] else []
    | _ => []
  let rest := if path.isEmpty then [] else
    (if eff.leasePasses = 0 then [2] else []) ++
    (if hok && bget h 48 1 != eff.arithClass then [3] else []) ++
    (match issuer with
      | some c => if ctx.1 = c then [] else [3]
      | none => [])
  let details := own ++ pd ++ hd ++ td ++ patches.details ++ params.detail ++ rest ++
    (if (hok && mismatch x h) || rcbPart x != part then [3] else []) ++
    (if rcbReach x = 1 && !s.hostLive part then [0x0C] else [])
  let handler := match hh with
    | some (.header y) => some (hdrKernel eff.trapHandler y [])
    | _ => none
  { absent := absent, details := details, domain := if path.isEmpty then 0 else eff.faultDomain
    launch := if path.isEmpty || !hok then none else some
      ({ rcb := nodeKey part va, part := part, queue := q, vd := s.queueVd q, path := path.map fun y => y.1
         ctx := ctx.1, eff := eff, created := if rcbCreated x = 0 then s.timer else rcbCreated x
         ctxCreated := if rcbCreated ctx.2 = 0 then s.timer else rcbCreated ctx.2
         state := 1, head := 0, bundleIndex := rcbBundleIndex x, bundleSize := rcbBundleCount x + 1
         code := hdrKernel (rcbKernel x) h patches.patches, handler := handler
         gridX := bget x 1216 32, gridY := bget x 1248 16, gridZ := bget x 1264 16
         lanes := pickField (rcbLanes x) (bget h 136 12), ownWords := pickField (rcbOwnWords x) (bget h 176 16)
         privBase := bget x 1472 56, scratchBytes := 256 * pickField (rcbScratch x) (bget h 160 16)
         regs := pickField (rcbRegs x) (bget h 128 7), accBanks := rcbE x 1352 7 64
         maxCores := rcbE x 1296 2 3 + 1, idempotent := rcbIdempotent x
         leaseLen := pickField (bget h 200 16) eff.leasePasses, codeLease := bget h 200 16, completion := rcbCompletion x
         completionReach := rcbReach x, completionValue := rcbValue x, saveArea := rcbSaveArea ctx.2
         gridPos := 0, ended := 0, failed := false, frozen := [], relaunch := [], relaunched := [], drain := none
         selfResume := false, freezing := false, waitSince := none, reserving := false, warned := false }, path) }

/-- Groups of a block of a launch (R25). -/
def Launch.groups (l : Launch) : Nat := (l.lanes + 31) / 32

/-- The groups of a bundle block in order: sub-launch by sub-launch, each with its GROUPIX (R42). -/
def blockGroups (ls : List Launch) : List (Launch × Nat) :=
  ls.flatMap fun l => (List.range l.groups).map fun i => (l, i)

/-- The groups of a block that core k of n holds: ⌈G k / n⌉ to ⌈G (k + 1) / n⌉ − 1 (R26). -/
def shareOf (gs : List (Launch × Nat)) (n k : Nat) : List (Launch × Nat) :=
  let lo := (gs.length * k + n - 1) / n
  let hi := (gs.length * (k + 1) + n - 1) / n
  (gs.drop lo).take (hi - lo)

/-- Register-file bytes that some groups take (R26). -/
def regBytes (gs : List (Launch × Nat)) : Nat := (gs.map fun x => x.1.regs * 128).sum

/-- A core's share of a block's scratchpad, when it is spread over n (R26). (Log entry 40.) -/
def scratchShare (ls : List Launch) (n : Nat) : Nat := ((ls.map fun l => l.scratchBytes).sum + n - 1) / n

/-- Some permitted spread could hold the block on some cluster of its core set (R26). -/
def placeable (ls : List Launch) : Bool :=
  match ls.head? with
  | none => false
  | some l =>
    let gs := blockGroups ls
    let most := ((List.range 64).map fun c =>
      ((List.range 4).filter fun k => l.eff.coreSet.getLsbD (clusterCore c k)).length).foldl max 0
    (List.range l.maxCores).any fun n' =>
      let n := n' + 1
      decide (n ≤ most) && decide (scratchShare ls n ≤ Config.scratchBytes) && (List.range n).all fun k =>
        decide ((shareOf gs n k).length ≤ Config.slotsPerCore) && decide (regBytes (shareOf gs n k) ≤ Config.regFileBytes)

/-- The RCBs of a bundle's chain as read (R42): addresses and contents, n of them, as far as the chain goes and can be read,
and what the first of the others met. (Log entry 18.) -/
def State.chain (s : State) (part va : Nat) : Nat → List (Nat × BitVec 2048) × Option Found
  | 0 => ([], none)
  | n + 1 =>
    match s.rcbRead part va with
    | .val v =>
      let x := BitVec.ofNat 2048 v
      if n = 0 ∨ rcbBundleNext x = 0 ∨ rcbBundleNext x % 256 ≠ 0 then ([(va, x)], none)
      else
        let r := s.chain part (rcbBundleNext x) n
        ((va, x) :: r.1, r.2)
    | r => ([], some r)

/-- A chain breaks R42: counts, order, length, grids, or a completion word outside sub-launch 0. (Log entry 18.) -/
def chainBad (l : List (Nat × BitVec 2048)) : Bool :=
  match l.head? with
  | none => true
  | some y =>
    let c := rcbBundleCount y.2
    let same := fun (lo w : Nat) => l.all fun z => bget z.2 lo w = bget y.2 lo w
    !((l.zipIdx).all fun z => rcbBundleIndex z.1.2 = z.2 && rcbBundleCount z.1.2 = c &&
        (rcbBundleNext z.1.2 = 0) = decide (z.2 = c)) || !same 1216 32 || !same 1248 16 || !same 1264 16 ||
    l.tail.any fun z => rcbCompletion z.2 != 0 || rcbValue z.2 != 0

/-- Event 0x40 (R360, R364). (Log entry 29.) -/
def State.refusedEvent (s : State) (part domain detail launch addr : Nat) : State :=
  s.post { Event.of 0x40 detail addr with part := part, domain := domain, launch := launch }

/-- Refuse a launch, or every sub-launch of a bundle (R360). -/
def State.refuseLaunch (s : State) (part q : Nat) (l : List (Nat × BitVec 2048)) (domain detail : Nat) : State :=
  let s1 := l.foldl (fun t y => t.writeNode part y.1 1984 3 5) s
  match l.head? with
  | none => s1
  | some y =>
    (s1.complete part (rcbReach y.2) (rcbCompletion y.2) (rcbValue y.2 ||| 2 ^ 63) (s1.queueVd q)).refusedEvent part
      domain detail y.1 0

/-- The nodes of an accepted path become the device's copies; a node that another launch in states 1 to 4
or 6 uses keeps the fields that the device writes. created is written where it holds 0 (R39). -/
def State.acceptPath (s : State) (part : Nat) (path : List (Nat × BitVec 2048)) : State :=
  path.foldl (fun t y =>
    let used := t.launches.any fun l => l.part = part && l.path.contains y.1
    let t1 := t.modNode part y.1 fun n =>
      { n with image := if used then (y.2 &&& ~~~deviceFields) ||| (n.image &&& deviceFields) else y.2 }
    if rcbCreated (t1.image part y.1) = 0 then t1.writeNode part y.1 1792 64 t1.timer else t1) s

/-- What acting on a launch command comes to. -/
inductive Accepted where
  /-- it waits for the absent page of an address -/
  | hold (va : Nat)
  | done (s : State)

/-- What the acceptance of an RCB reads behind it, as addresses and sizes: its headers, its patch entries and its parameters. -/
def State.acceptBytes (s : State) (part va : Nat) (x : BitVec 2048) : List (Nat × Nat) :=
  let h := match s.header part (rcbKernel x) with
    | .header h => h
    | _ => 0
  let handler := match s.launchPath part va with
    | .path l => (effOf s.regs.root l).trapHandler
    | _ => 0
  [(rcbKernel x, 64 + 8 * hdrPatches h), (rcbParams x, bget h 240 16), (handler, if handler = 0 then 0 else 64)]

/-- Where they lie in a peer, each line of them is a request to it (R329). (Log entry 52.) -/
def State.sentReads (s : State) (part va : Nat) (x : BitVec 2048) : State :=
  (s.acceptBytes part va x).foldl (fun t y =>
    (List.range ((y.2 + 127) / 128)).foldl (fun u k => match u.reach part (y.1 + 128 * k) with
      | .ok tg _ => u.railDie (u.partDie part) [tg]
      | _ => u) t) s

/-- The addresses that a launch names: its path, its headers, its parameters, and the next RCB of its chain. -/
def State.acceptNames (s : State) (part va : Nat) (x : BitVec 2048) : List Nat :=
  let up := (List.range 6).foldl (fun (l : List Nat) _ => match s.nodeNow part (l.headD 0) with
    | .val v => if rcbParent (BitVec.ofNat 2048 v) = 0 then l else rcbParent (BitVec.ofNat 2048 v) :: l
    | _ => l) [va]
  let path := match s.launchPath part va with
    | .path l => l
    | _ => []
  let handler := (effOf s.regs.root path).trapHandler
  ((up ++ [rcbKernel x, rcbParams x] ++ (if path = [] then [] else [handler]) ++ [rcbBundleNext x]).filter fun a => a ≠ 0).eraseDups

/-- The walks of what a refused launch names; each malformed entry among them posts event 0x49 (R369). -/
def State.acceptNotes (s : State) (part va : Nat) (x : BitVec 2048) : State :=
  (s.acceptNames part va x).foldl (fun t a => t.walkNote part a) s

/-- Accept or refuse the launch whose RCB a command names (R249, R252, R360); issuer is an RLAUNCH's
context. (Log entry 18.) -/
def State.accept (s : State) (q rcb : Nat) (issuer : Option Nat) : Accepted :=
  let part := qdPart (s.qdesc q)
  match s.rcbRead part rcb with
  | .absent a => .hold a
  | .bad d => .done ((s.walkNote part rcb).refusedEvent part 0 d rcb rcb)
  | .val v =>
    let x := BitVec.ofNat 2048 v
    if rcbPart x ≠ part ∨ s.launches.any (fun l => l.rcb = nodeKey part rcb) = true then
      .done (s.refusedEvent part 0 0x02 rcb 0)
    else match s.chain part rcb (rcbBundleCount x + 1) with
      | (_, some (.absent a)) => .hold a
      | (l, met) =>
        let unread := match met with
          | some r => r.detail
          | none => []
        let rs := l.map fun y => s.checkSub part q y.1 y.2 issuer
        match rs.findSome? fun r => r.absent with
        | some a => .hold a
        | none =>
          let ls := rs.filterMap fun r => r.launch.map fun z => { z.1 with head := nodeKey part rcb }
          let whole := unread ++ if chainBad l || decide (64 < (blockGroups ls).length) then [2] else []
          let fits := if ls.length = l.length && !placeable ls then [3] else []
          let domain := match rs.head? with
            | some r => r.domain
            | none => 0
          match leastDetail (whole ++ rs.flatMap (fun r => r.details) ++ fits) with
          | some d =>
            .done ((l.foldl (fun t y => (t.sentReads part y.1 y.2).acceptNotes part y.1 y.2) s).refuseLaunch part q l domain d)
          | none =>
            let s1 := rs.foldl (fun t r => match r.launch with
              | some z => t.acceptPath part z.2
              | none => t) (l.foldl (fun t y => t.sentReads part y.1 y.2) s)
            let s2 := ls.foldl (fun t z => ({ t with launches := t.launches ++ [z] }).setState z.rcb 1) s1
            .done { s2 with placing := true }

/-! ### Turns of the front end -/

/-- A slot's record changed. -/
def State.modSlot (s : State) (n : Nat) (f : QSlot → QSlot) : State :=
  { s with slots := s.slots.map fun y => if y.1 = n then (y.1, f y.2) else y }

/-- A queue stops (R249): stopped is set, it leaves its slot, which may serve another (R250), and event 0x40 names its
ring. -/
def State.stopQueue (s : State) (q detail : Nat) : State :=
  let r := s.qdesc q
  ((({ s with pending := s.pending.filter fun p => p.queue ≠ q }.setQdesc q (bset r 70 1 1)).unmapQueue q).refusedEvent
    (qdPart r) 0 detail 0 (qdRing r)).mapPending

/-- The queue of a slot waits for an absent page, which is requested (R249, R370), or for the rail to its peer (R398).
(Log entry 19.) -/
def State.holdSlot (s : State) (n part va : Nat) : State :=
  let s1 := s.modSlot n fun y => { y with held := some va }
  match s.walk part va with
  | .leaf _ => s1
  | _ => s1.post { Event.of 0x48 0 (va / 2 ^ 16 * 2 ^ 16) with part := part }

/-- Before a command of a queue is acted on, the page of its ring's header must be there and writable: an absent one
holds the slot, any other stops the queue (R249). -/
def State.ringReady (s : State) (n q : Nat) : Option State :=
  let r := s.qdesc q
  match s.reach (qdPart r) (qdRing r) with
  | .ok (.peer _ _) _ => some (s.stopQueue q 0x0D)
  | .ok _ true => none
  | .ok _ false => some (s.stopQueue q 0x0C)
  | .bad d => some ((s.walkNote (qdPart r) (qdRing r)).stopQueue q d)
  | .absent => some (s.holdSlot n (qdPart r) (qdRing r))

/-- rcount advances, with the effect of REL (R249); the ring's header page was found writable. -/
def State.advance (s : State) (q : Nat) : State :=
  let r := s.qdesc q
  match s.reach (qdPart r) (qdRing r) with
  | .ok (.dev pa) true => s.homeWrite (bytesAt (pa + 8) 4 (Memory.readLE s.dev (pa + 8) 4 + 1)) none
  | .ok (.host p ha) true =>
    let a := hostAt p (ha + 8)
    { s with host := Memory.writeLE s.host a 4 (Memory.readLE s.host a 4 + 1) }
  | _ => s

/-- A command is malformed by itself, or its queue's partition is not its virtual device's (R249). -/
def State.commandBad (s : State) (q c : Nat) : Bool :=
  decide (1 < fld c 0 4) || fld c 4 60 != 0 || fld c 120 136 != 0 || fld c 64 56 % 256 != 0 ||
  match s.queueVd q with
  | some v => vbPart (s.vdbind v) != qdPart (s.qdesc q)
  | none => false

/-- The next mapped slot in ascending order from a number on, wrapping: one that is awake, holds for no page and
whose virtual device supplies launches (R247, R249, R251, R252). (Log entry 55.) -/
def State.nextServed (s : State) (n : Nat) : Option (Nat × QSlot) :=
  let ok := s.slots.filter fun y => y.2.awake && y.2.held.isNone && !s.queueHeld y.2.queue
  let up := ok.filter fun y => decide (n ≤ y.1)
  let least := fun (l : List (Nat × QSlot)) => l.foldl (fun best y => match best with
    | none => some y
    | some b => if y.1 < b.1 then some y else some b) none
  match least up with
  | some y => some y
  | none => least ok

/-- The turn of one slot (R249, R252): an RLAUNCH that waits, or the next command of the ring, is taken;
a malformed command is refused; a slot whose ring is empty sleeps until a notify wakes it (R247). A header with a reserved
bit stops the queue (R5). (Log entry 55.) -/
def State.turn (s : State) (n : Nat) (x : QSlot) : State :=
  let q := x.queue
  let r := s.qdesc q
  let part := qdPart r
  let ring := qdRing r
  if x.command.isSome then s
  else match s.rlaunches.find? fun y => y.queue = q with
    | some y =>
      if y.rcb % 256 ≠ 0 then
        { s with rlaunches := s.rlaunches.erase y }.refusedEvent part 0 0x02 y.rcb 0
      else { s with rlaunches := s.rlaunches.erase y }.modSlot n fun z => { z with command := some (1, y.rcb, some y.ctx) }
    | none =>
      match s.reach part ring with
      | .absent => s.holdSlot n part ring
      | .bad d => (s.walkNote part ring).stopQueue q d
      | .ok (.peer _ _) _ => s.stopQueue q 0x0D
      | .ok t w =>
        let h := s.peek t 16
        let size := 2 ^ qdSize r
        if fld h 32 32 ≠ 0 ∨ s.peek t 64 / 2 ^ 96 ≠ 0 then s.stopQueue q 0x02
        else if fld h 0 32 = fld h 64 32 then (s.modSlot n fun z => { z with awake := false }).mapPending
        else if size < (fld h 0 32 + 2 ^ 32 - fld h 64 32) % 2 ^ 32 then s.stopQueue q 0
        else if !w then s.stopQueue q 0x0C
        else
          let a := ring + 64 + 32 * (fld h 64 32 % size)
          match s.reach part a, s.readWordsAt part a 4 with
          | .ok (.peer _ _) _, _ => s.stopQueue q 0x0D
          | _, .absent b => s.holdSlot n part b
          | _, .bad d => (s.walkNote part a).stopQueue q d
          | _, .val c =>
            if s.commandBad q c then (s.refusedEvent part 0 0x02 (fld c 64 56) 0).advance q
            else s.modSlot n fun z => { z with command := some (fld c 0 4, fld c 64 56, none) }

/-- Some mapped slot that may have its turn has something to do in it (R249, R252). (Log entry 55.) -/
def State.turnDue (s : State) : Bool :=
  s.slots.any fun y => y.2.awake && y.2.held.isNone && !s.queueHeld y.2.queue && decide (s.turn y.1 y.2 ≠ s)

/-- FRONT_END_TURN (R252): the next mapped slot has its turn. -/
def execFrontEndTurn (s : State) : Out :=
  .next (match s.nextServed s.nextSlot with
    | none => s
    | some (n, x) => { s.turn n x with nextSlot := (n + 1) % 256 })

/-- NO_OPERATION (R249): op 0 of the slot that the step names is taken, and rcount advances. -/
def execNoOperation (s : State) : Out :=
  .next (match s.slots.find? fun y => y.1 = s.ev.slot with
    | none => s
    | some (n, x) => match x.command with
      | some (0, _, _) =>
        if x.held.isSome then s else
        (match s.ringReady n x.queue with
          | some t => t
          | none => ((s.modSlot n fun z => { z with command := none }).advance x.queue).mapPending)
      | _ => s)

/-- LAUNCH (R252, R360): op 1 of the slot that the step names, or its RLAUNCH, is accepted or refused; an
absent page holds the slot, which then waits for it, and a virtual device that is dry supplies no launch (R251). An RLAUNCH moves
no count of the ring (R186). -/
def execLaunch (s : State) : Out :=
  .next (match s.slots.find? fun y => y.1 = s.ev.slot with
    | none => s
    | some (n, x) => match x.command with
      | some (1, rcb, issuer) =>
        if x.held.isSome || s.queueHeld x.queue then s else
        (match (if issuer.isSome then none else s.ringReady n x.queue) with
          | some t => t
          | none => match s.accept x.queue rcb issuer with
            | .hold a => s.holdSlot n (qdPart (s.qdesc x.queue)) a
            | .done t =>
              let t1 := t.modSlot n fun z => { z with command := none, held := none }
              (if issuer.isSome then t1 else t1.advance x.queue).mapPending)
      | _ => s)

end Sys2Proof.Machine
end

