-- ==== Sys2Proof/Machine/Versioned.lean ====
section
/-! DEFINITION. Versioned accesses (R201 to R204), CPOLL (R208) and BREC (R184). -/

namespace Sys2Proof.Machine

/-- A versioned load, or VRD (R202). -/
def versioned (i : Instr) (s : State) (a : Access) (x : BitVec 8) (r : BitVec 5) (d : BitVec 7) (width : Nat)
    (words : List Nat) : Out :=
  laneMemory i s
    { acc := a, dst := d, words := words, v := fun _ _ => 0, c := fun _ _ => 0, index := fun g l => g.index x l
      look := fun t l => t.laneRecord s.g a (s.g.record r) (s.g.index x l).toNat width }

/-- LDV (R202). -/
def execLdv (x : BitVec 8) (r : BitVec 5) (d : BitVec 7) (s : State) : Out :=
  versioned (.ldv x r d) s .ldv x r d 4 [0, 1]

/-- LDVS.W (R202). -/
def execLdvsW (x : BitVec 8) (r : BitVec 5) (d : BitVec 7) (s : State) : Out :=
  versioned (.ldvsW x r d) s (.ldvs 4) x r d 4 [0]

/-- LDVS.D (R202). -/
def execLdvsD (x : BitVec 8) (r : BitVec 5) (d : BitVec 7) (s : State) : Out :=
  versioned (.ldvsD x r d) s (.ldvs 8) x r d 8 [0, 1]

/-- VRD (R202). -/
def execVrd (x : BitVec 8) (r : BitVec 5) (d : BitVec 7) (s : State) : Out :=
  versioned (.vrd x r d) s .vrd x r d 4 [0]

/-- CASV (R203): the new value, then the expected version; outcome and version come back. -/
def casv (i : Instr) (s : State) (x : BitVec 8) (r : BitVec 5) (d : BitVec 7) (width : Nat) : Out :=
  let n := regsOf width
  laneMemory i s
    { acc := .casv width, dst := d, words := [0, n], v := fun g l => g.readWords d.toNat l n
      c := fun g l => (g.readWord d.toNat n l).toNat, index := fun g l => g.index x l
      look := fun t l => t.laneRecord s.g (.casv width) (s.g.record r) (s.g.index x l).toNat width }

/-- CASV.W (R203). -/
def execCasvW (x : BitVec 8) (r : BitVec 5) (d : BitVec 7) (s : State) : Out :=
  casv (.casvW x r d) s x r d 4

/-- CASV.D (R203). -/
def execCasvD (x : BitVec 8) (r : BitVec 5) (d : BitVec 7) (s : State) : Out :=
  casv (.casvD x r d) s x r d 8

/-- VCHK (R204): the split issues nothing further until every entry of its lanes has been checked. -/
def execVchk (p : BitVec 3) (s : State) : Out :=
  run (.vchk p) s fun t =>
    if t.act = 0 then .next (t.finish (.vchk p))
    else
      let li : LaneInstr :=
        { acc := .vchk p.toNat, dst := 0x7C, words := [], v := fun _ _ => 0, c := fun _ _ => 0
          index := fun _ _ => 0, look := fun u _ => ((.absent, 0), u) }
      .next (((t.addFlight li [] []).finish (.vchk p)).park (.check t.nextId))

/-- VCLR (R204): every entry of the active lanes is removed. -/
def execVclr (s : State) : Out :=
  complete .vclr s fun t => t.modG fun g =>
    { g with snaps := g.snaps.filter (fun e => !((lanesOf t.act).any fun l => l.val = e.lane)) }

/-- A frame for a cause of lane scope that one access of a whole split raises (R356). -/
def scalarFrame (t : State) (cause code va : Nat) (index : Word) : Frame :=
  { t.frame cause code (BitVec.ofNat 32 va) (BitVec.ofNat 32 (va / 2 ^ 32 % 2 ^ 24)) index
      (match lowest t.act with
        | some l => BitVec.ofNat 32 l.val
        | none => 0) with write := false }

/-- A load that a split makes once, in its lowest active lane, for all its active lanes (R184, R208). -/
def scalarLoad (i : Instr) (t : State) (a : Access) (d : BitVec 7) (words : List Nat) (index : Word)
    (look : (LaneRes × Nat) × State) : Out :=
  let li : LaneInstr :=
    { acc := a, dst := d, words := words, v := fun _ _ => 0, c := fun _ _ => 0, index := fun _ _ => index
      look := fun u _ => (look.1, u) }
  let mark := fun (u : State) => match a with
    | .brec n => u.modG fun g => { g with bPend := g.bPend ||| (1#32 <<< n) }
    | _ => u.markEmpty li
  let at_ := (lowest t.act).elim 0 (fun l => l.val)
  match look.1.1 with
  | .bad c k => .next ((if c = 0x0E ∧ k = 2 then look.2.heard t.g a.width [look.1.2] else look.2).takeTrap
      (scalarFrame t c k look.1.2 index))
  | .ok tg =>
    .next ((mark (look.2.addFlight li [{ lane := at_, tgt := tg, v := 0, c := 0, va := look.1.2 }] [])).finish i)
  | r =>
    let late := r = .absent && look.2.unasked t.g.core (t.partOf t.g) look.1.2
    .next ((mark (look.2.addFlight li [] [{ lane := at_, va := look.1.2, v := 0, c := 0, pantry := false, late := late }])).park
      (.held look.2.nextId))

/-- CPOLL (R208): the completion object, read past the L1, for every active lane. -/
def execCpoll (r : BitVec 5) (a : BitVec 8) (d : BitVec 7) (s : State) : Out :=
  run (.cpoll r a d) s fun t =>
    if t.act = 0 then .next (t.finish (.cpoll r a d))
    else
      let i := t.scalar (selOf a)
      scalarLoad (.cpoll r a d) t .cpoll d [0, 1] i (t.laneRecord t.g .cpoll (t.g.record r) i.toNat 8)

/-- The address of a BREC's record (R184). -/
def brecAddr (t : State) (o a : BitVec 8) : Nat :=
  (BitVec.ofNat 56 (t.scalar64 (selOf a)) + (o.signExtend 56) * 16).toNat

/-- BREC (R184): a 16-byte load through the L1 into a b register; who names it waits. -/
def execBrec (o a : BitVec 8) (n : BitVec 5) (s : State) : Out :=
  run (.brec o a n) s fun t =>
    let va := brecAddr t o a
    let acc := Access.brec n.toNat
    if va % 16 ≠ 0 then .next (t.takeTrap (scalarFrame t 0x09 0 va 0))
    else
      let x := t.laneTranslate t.g acc false va
      scalarLoad (.brec o a n) t acc 0x7C [] 0 ((x.1, va), x.2)

end Sys2Proof.Machine
end

