-- ==== Sys2Proof/Machine/Sync.lean ====
section
/-! DEFINITION. Fences and waits (R75, R83, R205 to R207), barrier objects (R216, R217) and scratchpad queues
(R218 to R220), with the misuses of R393. -/

namespace Sys2Proof.Machine

/-! ### Releases and acquires -/

/-- What a release meets (R75, R376). -/
inductive RelGate where
  | go
  | wait
  | trap (f : Frame)
  deriving DecidableEq, Repr

/-- REL's wait (R75, R311, R376): every earlier store, atomic and engine-request read performed, pantry
stores among them; an unmappable entry of the group traps instead. -/
def State.release (s : State) : RelGate :=
  match s.myPantry.find? fun e => e.unmappable with
  | some e => .trap (s.pantryFrame e)
  | none =>
    if (s.mine.any fun f => f.acc.isWrite) || !s.myPantry.isEmpty || s.readsLeft s.g.core s.g.slot s.g.sp.anc then .wait
    else .go

/-- ACQ's wait (R75): every earlier load and every earlier atomic with return performed. -/
def State.acqReady (s : State) : Bool := !(s.mine.any fun f => f.acc.isLoad || f.acc.returns)

/-- The acquire of the issuing split's core (R75). -/
def State.acq (s : State) : State := s.acquire s.g.core

/-- An instruction that begins with the effect of REL (R76). -/
def releasing (t : State) (body : State → Out) : Out :=
  match t.release with
  | .go => body t
  | .wait => waits t
  | .trap f => .next (t.takeTrap f)

/-- ACQ (R75, R205). -/
def execAcq (s : State) : Out :=
  run .acq s fun t => if t.acqReady then .next (t.acq.finish .acq) else waits t

/-- REL (R75, R205). -/
def execRel (s : State) : Out := run .rel s fun t => releasing t fun u => .next (u.finish .rel)

/-- ACQREL (R75, R205): every earlier access performed, then as ACQ. -/
def execAcqrel (s : State) : Out :=
  run .acqrel s fun t => releasing t fun u =>
    if u.mine.isEmpty then .next (u.acq.finish .acqrel) else waits u

/-- FENCE.ENG (R75, R205). -/
def execFenceEng (s : State) : Out :=
  run .fenceEng s fun t =>
    if t.readsLeft t.g.core t.g.slot t.g.sp.anc then waits t else .next (t.finish .fenceEng)

/-- WAITC (R75, R83, R206): passes when the counter is at most n, as an acquire, which waits for the split's earlier
loads; 63 never waits and acquires nothing. -/
def waitClass (i : Instr) (s : State) (c n : Nat) : Out :=
  run i s fun t =>
    if n = 63 then .next (t.finish i)
    else if vget t.g.counters c 0 ≤ n ∧ t.acqReady = true then .next (t.acq.finish i)
    else waits t

/-- WAITC, the 32-bit form (R206). -/
def execWaitc (c : BitVec 2) (n : BitVec 6) (s : State) : Out := waitClass (.waitc c n) s c.toNat n.toNat

/-- WAITC, the parcel (R127, R206). -/
def execWaitcParcel (n : BitVec 6) (c : BitVec 2) (s : State) : Out :=
  waitClass (.waitcParcel n c) s c.toNat n.toNat

/-- SLEEPT (R207): not ready until the timer reaches T; a T that is past makes it a NOP. -/
def execSleept (a : BitVec 8) (s : State) : Out :=
  run (.sleept a) s fun t =>
    let time := t.scalar64 (selOf a)
    let u := t.finish (.sleept a)
    .next (if time ≤ t.timer then u else u.park (.sleept time))

/-! ### Objects in the scratchpad -/

/-- Values made at issue that have only to be written (R54): the destination is empty until the fill. -/
def State.promise (t : State) (d : BitVec 7) (words : List Nat) (v : Lane → Nat) : State :=
  let g := t.g
  ({ t with
     nextId := t.nextId + 1
     flights := t.flights ++ [({
       id := t.nextId, core := g.core, slot := g.slot, split := g.sp.age, anc := g.sp.anc, pc := t.issuePc
       mask := t.act, acc := .ready, part := t.partOf g, trap := g.sp.trap, lanes := [], held := []
       results := (lanesOf t.act).map (fun (l : Lane) => (l.val, v l)), performed := true, done := t.act, dst := d, words := words
       idx := (lanesOf t.act).map fun (l : Lane) => (l.val, 0) } : Flight)] }).modG fun g => g.setFulls d.toNat words false

/-- A value of n bytes stored at a place of a scratchpad: what reaches into the next bank is stored as two parts. -/
def State.spmWrite (s : State) (o : Nat × Nat) (n v : Nat) : State :=
  let p := spmPlace o
  let m := min n (2 ^ 19 - p.2)
  let s1 := s.scratchStore p.1 p.2 m (v % 2 ^ (8 * m))
  if m = n then s.scratchStore p.1 p.2 n v
  else
    let q := spmPlace (p.1, p.2 + m)
    s1.scratchStore q.1 q.2 (n - m) (v / 2 ^ (8 * m))

/-- The frame of a misuse (R393): the object's address, its first word as read, and B. -/
def State.misuse (s : State) (code : Nat) (a : Word) (o : Option (Nat × Nat)) (b : Word) : Frame :=
  s.frame 0x13 code a (o.elim 0 fun x => BitVec.ofNat 32 (s.spmRead x 4)) b 0

/-- A misuse traps. -/
def misused (t : State) (code : Nat) (a : Word) (o : Option (Nat × Nat)) (b : Word) : Out :=
  .next (t.takeTrap (t.misuse code a o b))

/-- A flight reaches a scratchpad. -/
def Flight.toSpm (f : Flight) : Bool :=
  f.lanes.any fun a => match a.tgt with
    | .spm _ _ => true
    | _ => false

/-- The split's earlier loads, its earlier scratchpad accesses, and those that complete as ACQ, are performed (R74 to R76,
R203). -/
def State.spmReady (s : State) : Bool := !(s.mine.any fun f => f.acc.isLoad || f.acc.acquires || f.toSpm)

/-- An instruction on a scratchpad object acts at issue, in one step at the object's bank (R74, R217,
R219); bytes says how long its object is at least. (Log entry 16.) -/
def objectOp (i : Instr) (s : State) (a : BitVec 8) (bytes : Nat) (b : State → Word)
    (body : State → Word → Nat × Nat → Out) : Out :=
  run i s fun t =>
    if t.act = 0 then .next (t.finish i)
    else if !t.spmReady then waits t
    else
      let addr := t.scalar (selOf a)
      match t.object addr bytes with
      | none => misused t 7 addr none (b t)
      | some o =>
        if t.writesBehind t.g.core t.g.slot t.nextId t.g.sp.anc (t.g.sp.trap || t.g.stopped) [(.spm o.1 o.2, bytes)] then waits t
        else body t addr o

/-- ABAR.INIT (R217). -/
def execAbarInit (b a : BitVec 8) (s : State) : Out :=
  objectOp (.abarInit b a) s a 16 (fun t => t.scalar (selOf b)) fun t addr o =>
    let n := (t.scalar (selOf b)).toNat
    if n = 0 ∨ 2 ^ 16 ≤ n then misused t 6 addr (some o) (t.scalar (selOf b))
    else .next (((t.spmWrite o 16 (n + n * 2 ^ 32)).finish (.abarInit b a)).retryAll)

/-- A barrier object as read breaks R216 (R393 code 5). (Log entry 16.) -/
def abarBad (x : Nat) : Bool :=
  fld x 0 16 = 0 || fld x 16 16 != 0 || fld x 32 16 = 0 || decide (fld x 0 16 < fld x 32 16) || fld x 48 16 != 0 ||
  fld x 96 32 != 0

/-- The object after n arrivals (R217). -/
def abarArrive (x n : Nat) : Nat :=
  let count := fld x 0 16
  let left := fld x 32 16 - n
  if n = 0 then x
  else if left = 0 then count + count * 2 ^ 32 + (fld x 64 32 + 1) % 2 ^ 32 * 2 ^ 64
  else count + left * 2 ^ 32 + fld x 64 32 * 2 ^ 64

/-- ABAR.ARV (R217): begins as REL, answers the phase before the arrivals. -/
def execAbarArv (b a : BitVec 8) (d : BitVec 7) (s : State) : Out :=
  objectOp (.abarArv b a d) s a 16 (fun t => t.scalar (selOf b)) fun t addr o =>
    let bw := t.scalar (selOf b)
    let x := t.spmRead o 16
    if abarBad x then misused t 5 addr (some o) bw
    else if 2 ^ 16 ≤ bw.toNat then misused t 6 addr (some o) bw
    else releasing t fun u =>
      if fld x 32 16 < bw.toNat then misused u 4 addr (some o) bw
      else .next (((u.spmWrite o 16 (abarArrive x bw.toNat)).promise d [0] fun _ => fld x 64 32).finish
        (.abarArv b a d)).retryAll

/-- ABAR.WAIT (R217): passes when the phase differs, as ACQ. -/
def execAbarWait (b a : BitVec 8) (s : State) : Out :=
  objectOp (.abarWait b a) s a 16 (fun t => t.scalar (selOf b)) fun t addr o =>
    let bw := t.scalar (selOf b)
    let x := t.spmRead o 16
    if abarBad x then misused t 5 addr (some o) bw
    else if fld x 64 32 = bw.toNat ∨ t.acqReady = false then waits t
    else .next (t.acq.finish (.abarWait b a))

/-- ABAR.TRY (R217): 1 as ACQ when the phase differs, else 0. -/
def execAbarTry (b a : BitVec 8) (d : BitVec 7) (s : State) : Out :=
  objectOp (.abarTry b a d) s a 16 (fun t => t.scalar (selOf b)) fun t addr o =>
    let bw := t.scalar (selOf b)
    let x := t.spmRead o 16
    if abarBad x then misused t 5 addr (some o) bw
    else
      let ok := decide (fld x 64 32 ≠ bw.toNat)
      if ok && !t.acqReady then waits t
      else .next (((if ok then t.acq else t).promise d [0] fun _ => b2n ok).finish (.abarTry b a d))

/-! ### Queues -/

/-- A header that breaks R218 (R393 code 3). (Log entry 16.) -/
def qBad (x : Nat) : Bool :=
  let d := qDepth x
  fld x 10 6 != 0 || fld x 41 87 != 0 || decide (d ≤ qHead x) || decide (d ≤ qTail x) || decide (d < qCount x) ||
  (qTail x + d - qHead x) % d != qCount x % d

/-- A header with new head, tail, count and closed bit. -/
def qHeader (x head tail count : Nat) (closed : Bool) : Nat :=
  fld x 0 9 + b2n closed * 2 ^ 9 + head * 2 ^ 16 + tail * 2 ^ 24 + count * 2 ^ 32

/-- A producer's allowance (R218). -/
def State.allowance (s : State) (o : Nat × Nat) (q : Nat) : Nat := s.spmRead (o.1, o.2 + 16 + 2 * q) 2
def State.setAllowance (s : State) (o : Nat × Nat) (q v : Nat) : State :=
  s.spmWrite (o.1, o.2 + 16 + 2 * q) 2 v

/-- push of R219. -/
def State.qPush (s : State) (o : Nat × Nat) (x v q : Nat) : State :=
  let s1 := s.spmWrite (o.1, o.2 + 400 + qTail x * qSize x) (qSize x) v
  let s2 := s1.spmWrite (o.1, o.2 + 144 + qTail x) 1 q
  let s3 := s2.setAllowance o q (s2.allowance o q - 1)
  s3.spmWrite o 16 (qHeader x (qHead x) ((qTail x + 1) % qDepth x) (qCount x + 1) (qClosed x))

/-- pop of R219: the element, and the machine after. An owner byte that names no producer returns no
allowance (R394). -/
def State.qPop (s : State) (o : Nat × Nat) (x : Nat) : Nat × State :=
  let v := s.spmRead (o.1, o.2 + 400 + qHead x * qSize x) (qSize x)
  let q := s.spmRead (o.1, o.2 + 144 + qHead x) 1
  let s1 := if q < 64 then s.setAllowance o q (s.allowance o q + 1) else s
  (v, s1.spmWrite o 16 (qHeader x ((qHead x + 1) % qDepth x) (qTail x) (qCount x - 1) (qClosed x)))

/-- The key of an object among the waiters. -/
def objKey (o : Nat × Nat) : Nat := o.1 * 2 ^ 19 + o.2

/-- The waiter is the issuing split. -/
def State.isMe (s : State) (w : Waiter) : Bool :=
  w.core = s.g.core && w.slot = s.g.slot && w.split = s.g.sp.age

/-- How many splits wait in QPOP at an object ahead of the issuing split (R220). -/
def State.ahead (s : State) (o : Nat × Nat) : Nat :=
  ((s.popWait.filter fun w => w.obj = objKey o).takeWhile fun w => !s.isMe w).length

/-- The issuing split leaves the waiters. -/
def State.unwait (s : State) : State := { s with popWait := s.popWait.filter fun w => !s.isMe w }

/-- The issuing split waits in QPOP at an object, behind those that came before it (R220). -/
def State.joinWait (s : State) (o : Nat × Nat) : State :=
  if s.popWait.any fun w => w.obj = objKey o && s.isMe w then s
  else { s with popWait := s.popWait ++ [⟨s.g.core, s.g.slot, s.g.sp.age, objKey o⟩] }

/-- A register of several words that a queue's element size asks for (R209): illegal, with an empty
register, or in order. -/
def elementGate (i : Instr) (t : State) (u : Use) (body : State → Out) : Out :=
  if !u.ok t.regLimit then operandTrap i t
  else if t.useEmpty u then
    if u.trap then
      let k := ((List.range u.live).find? fun k => !t.g.full (u.sel + k)).getD 0
      .next (t.takeTrap (t.frame 0x05 u.field (BitVec.ofNat 32 (u.sel + k)) 0 0 0))
    else .next (t.park (.empty true))
  else body t

/-- An instruction on a live queue: the register that its element size asks for, then its object whole and its header
sound (R209, R353, R393 codes 7 and 3). (Log entry 16.) -/
def queueOp (i : Instr) (s : State) (a : BitVec 8) (b : State → Word)
    (elem : Nat → Option Use) (body : State → Word → Nat × Nat → Nat → Out) : Out :=
  objectOp i s a 400 b fun t addr o =>
    let x := t.spmRead o 16
    let go := fun (u : State) =>
      if (u.object addr (400 + qDepth x * qSize x)).isNone then misused u 7 addr (some o) (b u)
      else if qBad x then misused u 3 addr (some o) (b u)
      else body u addr o x
    match elem x with
    | none => go t
    | some e => elementGate i t e go

/-- QINIT (R219). -/
def execQinit (b a : BitVec 8) (s : State) : Out :=
  objectOp (.qinit b a) s a 400 (fun t => t.scalar (selOf b)) fun t addr o =>
    let bw := t.scalar (selOf b)
    let x := bw.toNat
    if (t.object addr (400 + qDepth x * qSize x)).isNone then misused t 7 addr (some o) bw
    else if fld x 9 23 ≠ 0 then misused t 6 addr (some o) bw
    else .next (((t.spmWrite o 16 (fld x 0 9)).spmWrite (o.1, o.2 + 16) 128 0).finish (.qinit b a)).retryAll

/-- QPUSH (R219): begins as REL, waits while the allowance is 0. -/
def execQpush (b a : BitVec 8) (s : State) : Out :=
  queueOp (.qpush b a) s a (fun t => t.scalar (selOf b)) (pushUse b) fun t addr o x =>
    if qClosed x then misused t 2 addr (some o) (t.scalar (selOf b))
    else releasing t fun u =>
      if u.allowance o u.g.producer = 0 then waits u
      else .next ((u.qPush o x (u.scalar64 (selOf b)) u.g.producer).finish (.qpush b a)).retryAll

/-- QPUSH.TRY (R219): 0 and nothing, or push and 1. -/
def execQpushTry (b a : BitVec 8) (d : BitVec 7) (s : State) : Out :=
  queueOp (.qpushTry b a d) s a (fun t => t.scalar (selOf b)) (pushUse b) fun t addr o x =>
    if qClosed x then misused t 2 addr (some o) (t.scalar (selOf b))
    else releasing t fun u =>
      if u.allowance o u.g.producer = 0 then .next ((u.promise d [0] fun _ => 0).finish (.qpushTry b a d))
      else .next (((u.qPush o x (u.scalar64 (selOf b)) u.g.producer).promise d [0] fun _ => 1).finish
        (.qpushTry b a d)).retryAll

/-- QPOP (R219, R220): waits, in arrival order, while the queue is empty and open; completes as ACQ. -/
def execQpop (a : BitVec 8) (d : BitVec 7) (s : State) : Out :=
  queueOp (.qpop a d) s a (fun _ => 0) (fun x => if qSize x = 8 then some (writeUse d.toNat 2) else none) fun t _ o x =>
    let words := List.range (qSize x / 4)
    if t.acqReady = false then waits (t.joinWait o)
    else if t.ahead o = 0 ∧ 0 < qCount x then
      let r := t.unwait.qPop o x
      .next ((r.2.acq.promise d words fun _ => r.1).finish (.qpop a d)).retryAll
    else if qCount x = 0 ∧ qClosed x = true then
      .next ((t.unwait.acq.promise d words fun _ => 2 ^ 64 - 1).finish (.qpop a d)).retryAll
    else waits (t.joinWait o)

/-- QTPOP (R219): never waits; the element and the outcome 1, or no element and 0. -/
def execQtpop (a : BitVec 8) (d : BitVec 7) (s : State) : Out :=
  queueOp (.qtpop a d) s a (fun _ => 0) (fun x => if qSize x = 8 then some (writeUse d.toNat 4) else none) fun t _ o x =>
    let n := 8 * qSize x
    let words := if qSize x = 8 then [0, 1, 2, 3] else [0, 1]
    if 0 < qCount x ∧ t.acqReady = false then waits t
    else if 0 < qCount x then
      let r := t.qPop o x
      .next ((r.2.acq.promise d words fun _ => r.1 + 2 ^ n).finish (.qtpop a d)).retryAll
    else .next ((t.promise d words fun _ => if qClosed x then 2 ^ n - 1 else 0).finish (.qtpop a d))

/-- The sum of all allowances of a queue. -/
def State.allowances (s : State) (o : Nat × Nat) : Nat := ((List.range 64).map fun q => s.allowance o q).sum

/-- QALLOW (R219): sets a producer's allowance. -/
def execQallow (b a : BitVec 8) (s : State) : Out :=
  queueOp (.qallow b a) s a (fun t => t.scalar (selOf b)) (fun _ => none) fun t addr o x =>
    let bw := t.scalar (selOf b)
    let q := fld bw.toNat 0 6
    let n := fld bw.toNat 16 9
    let groups := (t.block t.g.block).elim 0 fun y => y.groups
    if fld bw.toNat 6 10 ≠ 0 ∨ fld bw.toNat 25 7 ≠ 0 then misused t 6 addr (some o) bw
    else if groups ≤ q ∨ qDepth x < t.allowances o - t.allowance o q + n + qCount x then misused t 1 addr (some o) bw
    else .next ((t.setAllowance o q n).finish (.qallow b a)).retryAll

/-- QCLOSE (R219): begins as REL. -/
def execQclose (a : BitVec 8) (s : State) : Out :=
  queueOp (.qclose a) s a (fun _ => 0) (fun _ => none) fun t _ o x =>
    releasing t fun u =>
      .next ((u.spmWrite o 16 (qHeader x (qHead x) (qTail x) (qCount x) true)).finish (.qclose a)).retryAll

/-- QSTAT (R219). -/
def execQstat (a : BitVec 8) (d : BitVec 7) (s : State) : Out :=
  queueOp (.qstat a d) s a (fun _ => 0) (fun _ => none) fun t _ o x =>
    .next ((t.promise d [0] fun _ => qCount x + b2n (qClosed x) * 2 ^ 9 + t.allowance o t.g.producer * 2 ^ 16).finish
      (.qstat a d))

end Sys2Proof.Machine
end

