-- ==== Sys2Proof/Machine/System.lean ====
section
/-! DEFINITION. Signals, special registers, vault facts, device-side launches and the privileged
instructions: majors 28 and 29 (R179 to R191, R234, R283, R296, R377, R389). -/

namespace Sys2Proof.Machine

/-! ### Signals and device-side launches -/

/-- A queue that SIGNAL may name (R181): in the range of an enabled virtual device of the issuer's
partition. -/
def State.signalOk (s : State) (a : Word) : Bool :=
  decide (a.toNat < 4096) && match s.queueVd a.toNat with
  | some v => vbPart (s.vdbind v) = s.partOf s.g
  | none => false

/-- SIGNAL (R181). -/
def execSignal (n : BitVec 1) (a : BitVec 8) (s : State) : Out :=
  run (.signal n a) s fun t =>
    let x := t.scalar (selOf a)
    if n = 0#1 then
      if !t.signalOk x then operandTrap (.signal n a) t
      else releasing t fun u => .next ((u.notify x.toNat).finish (.signal n a))
    else releasing t fun u =>
      .next ({ u with regs := { u.regs with wake := u.regs.wake ||| x } }.finish (.signal n a))

/-- RLAUNCH (R186): the launch enters the order of the issuer's queue. (Log entries 18 and 55.) -/
def execRlaunch (a : BitVec 8) (s : State) : Out :=
  run (.rlaunch a) s fun t => releasing t fun u =>
    .next (match u.launch with
      | none => u.finish (.rlaunch a)
      | some l =>
        let v := { u with rlaunches := u.rlaunches ++ [{ queue := l.queue, rcb := u.scalar64 (selOf a) % 2 ^ 56, ctx := l.ctx : RLaunch }] }
        (if v.slots.any fun y => y.2.queue = l.queue then
            { v with slots := v.slots.map fun y => if y.2.queue = l.queue then (y.1, { y.2 with awake := true }) else y }
          else (v.setPending l.queue).mapPending).finish (.rlaunch a))

/-! ### Special registers -/

/-- The group's oldest outstanding MLD, MLDS or MST (R234). -/
def State.rowRequest (s : State) (g : Group) : Option EngReq :=
  s.reqs.find? fun r => r.core = g.core && r.slot = g.slot && match r.kind with
    | .mld _ _ _ _ _ => true
    | .mlds _ _ _ _ _ _ => true
    | .mst _ _ _ _ _ _ => true
    | _ => false

/-- MROW (R234). -/
def State.mrow (s : State) (g : Group) : Word :=
  match s.rowRequest g with
  | none => 0
  | some r => BitVec.ofNat 32 (r.pos % 2 ^ 16 + b2n (match r.kind with
      | .mst _ _ _ _ _ _ => true
      | _ => false) * 2 ^ 30 + 2 ^ 31)

/-- The rows of such a request (R232, R233, R242). -/
def ReqKind.rows : ReqKind → Nat
  | .mld _ _ _ _ n => n
  | .mlds _ _ _ _ _ n => n
  | .mst _ _ _ count _ _ => 8 * count
  | _ => 0

/-- The issuing group's block coordinates (R40). -/
def State.blockIx (s : State) (k : Nat) : Nat :=
  match s.block s.g.block, s.launch with
  | some b, some l =>
    if k = 0 then b.index % l.gridX
    else if k = 1 then b.index / l.gridX % l.gridY
    else b.index / l.gridX / l.gridY
  | _, _ => 0

/-- The grid's sizes. -/
def State.gridSize (s : State) (k : Nat) : Nat :=
  match s.launch with
  | some l => if k = 0 then l.gridX else if k = 1 then l.gridY else l.gridZ
  | none => 0

/-- The beat count of the issuing group's context in the current period (R177). -/
def State.beatsNow (s : State) : Nat :=
  match s.launch with
  | none => 0
  | some l => match s.beats.find? fun b => b.part = l.part && b.ctx = l.ctx with
    | some b => b.count
    | none => 0

/-- A word of a tile register of the issuing group's block (R182, R221). -/
def State.tileWord (s : State) (id : Nat) : Nat :=
  match s.block s.g.block with
  | some b => bget (vget b.tiles ((id - 0x40) / 2) 0) (32 * (id % 2)) 32
  | none => 0

/-- The value of a special register, in a lane, or none when it may not be read (R182). (Log entry 6.) -/
def State.readSr (s : State) (id : Nat) (l : Lane) : Option Nat :=
  let g := s.g
  if id = 0x00 then some l.val
  else if id = 0x01 then some g.groupix
  else if 0x02 ≤ id ∧ id ≤ 0x04 then some (s.blockIx (id - 2))
  else if 0x05 ≤ id ∧ id ≤ 0x07 then some (s.gridSize (id - 5))
  else if id = 0x08 then some g.sp.mask.toNat
  else if id = 0x10 then some s.timer
  else if id = 0x12 then some (s.clusterAt (coreCluster g.core)).cycle
  else if id = 0x14 then some s.beatsNow
  else if id = 0x18 then some g.arithFlags.toNat
  else if srTrap id then
    if g.sp.trap = false then none
    else if id = 0x20 then some g.trapCause.toNat
    else if id = 0x22 then some g.trapPc.toNat
    else if id = 0x24 then some g.trapMask.toNat
    else some g.doneMask.toNat
  else if id = 0x28 then some (s.actNow g.core).actBudget
  else if id = 0x30 then some g.core
  else if id = 0x31 then some (coreCluster g.core)
  else if id = 0x32 then some (coreDie g.core)
  else if id = 0x33 then some (bget s.regs.devnum 0 8)
  else if id = 0x38 then some (s.mrow g).toNat
  else if srTile id then some (s.tileWord id)
  else none

/-- RDSR (R182, R183). -/
def execRdsr (id : BitVec 8) (d : BitVec 7) (s : State) : Out :=
  run (.rdsr id d) s fun t =>
    let n := id.toNat
    if (t.readSr n 0).isNone then operandTrap (.rdsr id d) t
    else if srTile n && !t.spmReady then waits t
    else
      let v := fun (l : Lane) => (t.readSr n l).getD 0
      .next ((t.modG fun g =>
        (List.range (srWords n)).foldl
          (fun h k => h.writeWord d.toNat k t.act fun l => BitVec.ofNat 32 (v l / 2 ^ (32 * k))) g).finish (.rdsr id d))

/-- A tile register word may take a value (R182, R221). -/
def tileOk (id v : Nat) : Bool :=
  if id % 2 = 0 then decide (v < 2 ^ 21) && v % 128 = 0 else decide (v ≤ 2097152) && v % 128 = 0

/-- The device after a write of a special register, or none when the value or the identifier is an
illegal use (R182). A pc's bit 0 is 0, so an odd value is none for TRAPPC (R115, R295). MROW without a request outstanding
takes 0 alone, and bits 30 and 31 of what is written to it are ignored, which R182 leaves open.
(Log entries 14 and 57.) -/
def State.writeSr (s : State) (id v : Nat) : Option State :=
  if id = 0x18 then
    if v < 64 then some (s.modG fun g => { g with arithFlags := BitVec.ofNat 6 v ||| s.raisedFirst }) else none
  else if srTrap id then
    if s.g.sp.trap = false then none
    else if id = 0x20 then
      if v < 2 ^ 17 then some (s.modG fun g => { g with trapCause := BitVec.ofNat 32 v }) else none
    else if id = 0x22 then
      if v < 2 ^ 56 ∧ v % 2 = 0 then some (s.modG fun g => { g with trapPc := BitVec.ofNat 56 v }) else none
    else if id = 0x24 then some (s.modG fun g => { g with trapMask := BitVec.ofNat 32 v })
    else some (s.modG fun g => { g with doneMask := BitVec.ofNat 32 v })
  else if id = 0x38 then
    if s.g.sp.trap = false ∨ fld v 16 14 ≠ 0 then none
    else match s.rowRequest s.g with
      | none => if v = 0 then some s else none
      | some r =>
        if r.kind.rows < fld v 0 16 then none
        else some { s with reqs := s.reqs.map fun x => if x.id = r.id then { x with pos := fld v 0 16 } else x }
  else if srTile id then
    if tileOk id v then
      some (s.modBlock s.g.block fun b =>
        let n := (id - 0x40) / 2
        { b with tiles := vset b.tiles n (bset (vget b.tiles n 0) (32 * (id % 2)) 32 v) })
    else none
  else none

/-- WRSR (R182, R183). -/
def execWrsr (id a : BitVec 8) (s : State) : Out :=
  run (.wrsr id a) s fun t =>
    let n := id.toNat
    let v := if srWords n = 2 then t.scalar64 (selOf a) else (t.scalar (selOf a)).toNat
    match t.writeSr n v with
    | none => operandTrap (.wrsr id a) t
    | some u => if srTile n && !t.spmReady then waits t else .next (u.finish (.wrsr id a))

/-! ### Vaults -/

/-- The available bandwidth of a band in MB/s (R282, R405). -/
def bandwidth (band : Nat) : Nat :=
  if band = 0 then 250880 else if band = 1 then 245760 else if band = 2 then 235520
  else if band = 3 then 215040 else 107520

/-- A vault's floor (R283). -/
def State.vaultFloor (s : State) (v : Nat) : Nat :=
  max 204800 (match s.vaultOwner v with
    | some p => s.partFloor p
    | none => 0)

/-- One item of VSTAT for a vault number (R185): all ones outside the issuer's partition. -/
def State.vaultItem (s : State) (item u : Nat) : Word :=
  let v := s.vaultAt u
  if 256 ≤ u ∨ v.fenced = true ∨ s.vaultOwner u ≠ some (s.partOf s.g) then BitVec.allOnes 32
  else if item = 0 then BitVec.ofInt 32 v.temp
  else if item = 1 then BitVec.ofNat 32 v.band
  else if item = 2 then BitVec.ofNat 32 (bandwidth v.band)
  else if item = 3 then BitVec.ofNat 32 (s.vaultFloor u)
  else BitVec.ofNat 32 (v.sampled.getD 0 / 2 ^ 16)

/-- VSTAT (R185). -/
def execVstat (item a : BitVec 8) (d : BitVec 7) (s : State) : Out :=
  complete (.vstat item a d) s fun t =>
    t.modG fun g => g.writeReg d.toNat t.act fun l => t.vaultItem item.toNat (g.read (selOf a) l).toNat

/-! ### Privileged instructions -/

/-- A leaf entry as TLBFILL gives it (R188, R309). -/
def leafEntry (part va e : Nat) : TlbEntry :=
  { part := part, va := va / pageSize (fld e 6 2) * pageSize (fld e 6 2), size := fld e 6 2
    write := fld e 2 1 = 1, exec := fld e 3 1 = 1, reach := fld e 4 2, peer := fld e 8 8, pa := fld e 16 44 * 256 }

/-- TLBFILL (R188, R307): a valid leaf enters the TLBs its level names. What R188 leaves open: words that are no valid leaf enter
nothing, and a leaf that breaks R309 enters as it stands. (Log entry 57.) -/
def execTlbfill (l : BitVec 2) (a : BitVec 8) (s : State) : Out :=
  complete (.tlbfill l a) s fun t =>
    let va := t.scalar64 (selOf a) % 2 ^ 56
    let e := (t.scalarWord (selOf a) 2).toNat + 2 ^ 32 * (t.scalarWord (selOf a) 3).toNat
    let x := leafEntry (t.partOf t.g) va e
    if fld e 0 2 = 3 then (t.tlbFill t.g.core l.toNat x).announce t.g.core x else t

/-- A TLB without some entries. -/
def State.dropTlb (s : State) (cluster : Nat → Bool) (p : TlbEntry → Bool) : State :=
  { s with
    clusters := Vector.ofFn fun c =>
      if cluster c.val then { s.clusters[c] with tlb := s.clusters[c].tlb.filter fun e => !p e } else s.clusters[c]
    cores := Vector.ofFn fun c =>
      if cluster (coreCluster c.val) then { s.cores[c] with tlb := s.cores[c].tlb.filter fun e => !p e } else s.cores[c] }

/-- TLBINV (R188): the page in this cluster, all of this cluster, or the page in every TLB. (Log entry 57.) -/
def execTlbinv (k : BitVec 2) (a : BitVec 8) (s : State) : Out :=
  complete (.tlbinv k a) s fun t =>
    let va := t.scalar64 (selOf a) % 2 ^ 56
    let page := fun (e : TlbEntry) => e.covers (t.partOf t.g) va
    let mine := fun (c : Nat) => decide (c = coreCluster t.g.core)
    if k = 1#2 then t.dropTlb mine fun _ => true
    else if k = 0#2 then t.dropTlb mine page
    else t.dropTlb (fun _ => true) page

/-- A group's outstanding counter of a class falls by one (R83). -/
def Group.retire (g : Group) (cls : Nat) : Group :=
  { g with counters := vset g.counters cls (vget g.counters cls 0 - 1) }

/-- RTT from a report (R389, R397): a request that was stopped resumes, or retires when DONEMASK is all
ones; a stopped collective counts one group that has returned. -/
def State.afterReport (s : State) (g : Group) : State :=
  match g.curReport with
  | none => s
  | some id =>
    match s.reqs.find? fun r => r.id = id with
    | none => s
    | some r =>
      match r.kind with
      | .coll _ =>
        { s with colls := modFirst (fun c => c.stopped && c.args.any fun a => a.req = id)
                   (fun c => { c with owing := c.owing - 1 }) s.colls }
      | _ =>
        if r.stopped.isNone then s
        else if g.doneMask = BitVec.allOnes 32 then
          { s with reqs := s.reqs.filter fun x => x.id ≠ id }.modGroup r.core r.slot fun x => x.retire r.cls
        else { s with reqs := s.reqs.map fun x => if x.id = id then { x with stopped := none } else x }

/-- A core that holds no group returns to the reset budget (R191). -/
def State.settleBudget (s : State) (core : Nat) : State :=
  if s.groups.any fun g => g.core = core && !g.service then s
  else s.modAct core fun c => { c with actBudget := Config.budgetReset, actNext := none }

/-- RTT (R189, R296): trap mode ends; in the service slot the slot becomes idle. -/
def execRtt (s : State) : Out :=
  run .rtt s fun t =>
    if t.g.service ∧ t.g.sp.trap = false then
      .next (({ t with g := { t.g with live := false } }.modCore t.g.core fun c => { c with serviceBusy := false }).settleBudget t.g.core).retryAll
    else .next ((t.modG Group.returnTrap).afterReport t.g).retryAll

/-- A pantry descriptor as bits (R374). -/
def PantryEntry.bits (e : PantryEntry) : Nat :=
  e.vline % 2 ^ 49 + e.kind % 4 * 2 ^ 49 + e.op % 16 * 2 ^ 51 + e.site % 2 * 2 ^ 55 + b2n e.unmappable * 2 ^ 56 +
  b2n e.reported * 2 ^ 57 + e.lanes.toNat * 2 ^ 64 + e.groupix % 64 * 2 ^ 96 + e.reason % 256 * 2 ^ 104 +
  e.stamp % 2 ^ 64 * 2 ^ 128 + e.bytemask.toNat * 2 ^ 192 + e.word.toNat * 2 ^ 320

/-- The quad that PLOGRD part 0 returns (R377). -/
def PantryEntry.quad (e : PantryEntry) : Nat :=
  let va := e.vline * 128
  va % 2 ^ 32 + (va / 2 ^ 32 % 2 ^ 24 + e.kind % 4 * 2 ^ 24 + e.op % 16 * 2 ^ 26 + e.site % 2 * 2 ^ 30) * 2 ^ 32 +
  e.lanes.toNat * 2 ^ 64 + (e.groupix % 64 + e.reason % 256 * 2 ^ 8 + 2 ^ 31) * 2 ^ 96

/-- What a part of PLOGRD returns of an entry (R190). -/
def PantryEntry.piece (e : PantryEntry) (part : Nat) : Nat :=
  if part = 0 then e.quad
  else if part ≤ 16 then ofBytes ((e.data.drop (16 * (part - 1))).take 16)
  else e.bits / 2 ^ (128 * (part - 17)) % 2 ^ 128

/-- An entry leaves its core's pantry, and what waited for room is tried (R375, R377). -/
def State.pantryDrop (s : State) (core id : Nat) : State :=
  ((s.modCore core fun c =>
    let l := c.pantry.filter fun x => x.id ≠ id
    { c with pantry := l, pantryFull := c.pantryFull && decide (Config.pantryEntries ≤ l.length) }).resumeCore core).retryAll

/-- PLOGRD (R190, R377): zeros when there is no such entry. -/
def execPlogrd (p : BitVec 5) (k : BitVec 1) (d : BitVec 7) (s : State) : Out :=
  complete (.plogrd p k d) s fun t =>
    let w := t.served
    let e := (t.coreAt w.1).pantry.find? fun x => x.slot = w.2 && x.unmappable
    let v := match e with
      | some x => x.piece p.toNat
      | none => 0
    let u := t.modG fun g =>
      (List.range 4).foldl (fun h j => h.writeWord d.toNat j t.act fun _ => BitVec.ofNat 32 (v / 2 ^ (32 * j))) g
    match e with
    | none => u
    | some x =>
      if p ≠ 0 then u
      else if k = 1#1 then u.modCore w.1 fun c =>
        { c with pantry := c.pantry.map fun y => if y.id = x.id then { y with reported := true } else y }
      else u.pantryDrop w.1 x.id

/-- ACTSET (R191): the budget of the core's next window, held between 32 and 1,024. -/
def execActset (a : BitVec 8) (s : State) : Out :=
  complete (.actset a) s fun t =>
    t.modAct t.g.core fun c => { c with actNext := some (max 32 (min 1024 (t.scalar (selOf a)).toNat)) }

end Sys2Proof.Machine
end

