-- ==== Sys2Proof/Machine/Copy.lean ====
section
/-! DEFINITION. Engine requests as they are issued (R81 to R83), copies, gathers and scatters (R210 to
R215), and how the copy engines move their bytes (R211 to R213, R390). -/

namespace Sys2Proof.Machine

/-! ### Issue of a request -/

/-- A request that had to wait passes as WAITC does: when the split's earlier loads are performed, and as an acquire
(R75, R83). (Log entry 9.) -/
def passing (t : State) (body : State → Out) : Out :=
  match t.g.sp.wait with
  | .blocked _ => if t.acqReady then body t.acq else waits t
  | _ => body t

/-- A request of a class: it waits while its counter stands at 63, and acquires when it had to (R83). (Log entry 9.) -/
def requestOp (i : Instr) (s : State) (cls : Nat) (body : State → Out) : Out :=
  run i s fun t => if 63 ≤ vget t.g.counters cls 0 then waits t else passing t body

/-- The request enters its engine, and its counter rises by n: 0 for one that no class counts (R81, R83,
R225). -/
def State.addRequest (t : State) (cls n : Nat) (kind : ReqKind) (compl : Option (BitVec 128 × Nat × Nat))
    (promise engine : Nat) : State :=
  let g := t.g
  { t with
    nextId := t.nextId + 1
    reqs := t.reqs ++ [{
      id := t.nextId, core := g.core, slot := g.slot, owner := t.served.2, block := g.block, split := g.sp.age, anc := g.sp.anc
      cls := cls, part := t.partOf g, kind := kind, pos := 0, stopped := none, waiting := false, done := false
      compl := compl, promise := promise, engine := engine, retired := false }]
    g := { g with counters := vset g.counters cls (vget g.counters cls 0 + n) } }

/-- A record that a control word names has still to be loaded (R184). -/
def State.controlWaits (t : State) (c : Control) : Bool :=
  (!c.sscr && t.g.bPend.getLsbD c.srec) || (!c.dscr && t.g.bPend.getLsbD c.drec) ||
  (c.cen && t.g.bPend.getLsbD c.crec)

/-- The completion object that a request names (R215). -/
def State.complOf (t : State) (c : Control) (index seq : Nat) : Option (BitVec 128 × Nat × Nat) :=
  if c.cen then some (vget t.g.b c.crec 0, index, seq) else none

/-! ### Where the bytes lie -/

/-- How far a run of addresses lies, and the vaults of this device it touches (R214): 0 the die's own
vaults, 1 another die, 2 a peer, 3 host memory. A page that no leaf maps counts for neither. -/
def State.runPath (t : State) (part die : Nat) (host : Bool) (x : Nat × Nat) : Nat × List Nat :=
  if host then (3, [])
  else match t.walk part x.1 with
    | .leaf e =>
      if e.reach = 1 then (3, [])
      else if e.reach = 2 then (2, [])
      else
        let pa := e.pa + x.1 % pageSize e.size
        let first := pa / 128
        let n := if x.2 = 0 then 1 else min 256 ((pa + x.2 - 1) / 128 + 1 - first)
        let vs := ((List.range n).map fun k => t.vaultOf ((first + k) * 128)).eraseDups
        (if vs.all fun v => v / 32 = die then 0 else 1, if x.2 = 0 then [] else vs)
    | _ => (0, [])

/-- The path of the farther side, and the vaults touched. -/
def State.pathOf (t : State) (part die : Nat) (l : List (Bool × Nat × Nat)) : Nat × List Nat :=
  l.foldl (fun acc x =>
    let y := t.runPath part die x.1 x.2
    (max acc.1 y.1, (acc.2 ++ y.2).eraseDups)) (0, [])

/-- Lp of a path, in ticks (R214). -/
def pathDelay (p : Nat) : Nat := if p = 0 then 600 else if p = 1 then 1200 else if p = 2 then 3000 else 4000

/-- The cap of a path, in bytes per tick (R214). -/
def pathCap (p : Nat) : Nat := if p ≤ 1 then 512 else if p = 2 then 448 else 128

/-- ρ (R214): the path cap, and the least available bandwidth of the vaults touched. -/
def State.rate (t : State) (p : Nat × List Nat) : Nat :=
  p.2.foldl (fun m v => min m (bandwidth (t.vaultAt v).band / 1000)) (pathCap p.1)

/-- The bytes of a request. -/
def ReqKind.bytes : ReqKind → Nat
  | .copy _ _ rows rowlen _ _ => rows * rowlen
  | .gather r idx _ => idx.length * recElem r
  | .scatter r idx _ => idx.length * recElem r
  | _ => 0

/-- The bytes that a copy-class or gather-class request has still to place. -/
def EngReq.left (r : EngReq) : Nat :=
  match r.kind with
  | .gather x _ _ => r.kind.bytes - r.pos * recElem x
  | .scatter x _ _ => r.kind.bytes - r.pos * recElem x
  | _ => r.kind.bytes - r.pos

/-- The copy engine that takes a core's requests: four on each die (R214). -/
def copyEngine (core : Nat) : Nat := 4 * coreDie core + coreCluster core % 4

/-- Bytes of requests queued on an engine and not yet placed (R214), those of a stopped request among them. -/
def State.queuedBytes (t : State) (engine skip : Nat) : Nat :=
  ((t.reqs.filter fun r => decide (r.cls ≤ 1) && r.engine = engine && r.id != skip).map
    fun r => r.left).sum

/-- The memory runs of both sides of a request, each with whether it is host memory by its record (R211 to R213). A
request that moves nothing has its sides' first addresses. (Log entry 53.) -/
def ReqKind.paths (k : ReqKind) : List (Bool × Nat × Nat) :=
  let l := match k with
    | .copy src dst rows n _ _ => if rows * n = 0 then src.runs 0 0 ++ dst.runs 0 0 else k.reads ++ k.writes
    | _ => k.reads ++ k.writes
  (l.filter fun x => !x.spm).map fun x => (x.host, x.at_, x.len)

/-- The promised completion time of n bytes with q bytes queued ahead, from an instant on (R214). (Log entry 53.) -/
def State.promiseAt (t : State) (part core : Nat) (k : ReqKind) (now q n : Nat) : Nat :=
  let p := t.pathOf part (coreDie core) k.paths
  let rho := t.rate p
  now + pathDelay p.1 + (q + n + rho - 1) / rho

/-- A copy, gather or scatter is issued: it counts, and its promise goes to D (R214, R215). -/
def State.startCopy (t : State) (i : Instr) (d : BitVec 7) (cls : Nat) (kind : ReqKind)
    (compl : Option (BitVec 128 × Nat × Nat)) : State :=
  let e := copyEngine t.g.core
  let p := t.promiseAt (t.partOf t.g) t.g.core kind t.timer (t.queuedBytes e t.nextId) kind.bytes
  ((t.addRequest cls 1 kind compl p e).promise d [0, 1] fun _ => p).finish i

/-- One side of a copy as the control word names it. -/
def State.sideOf (t : State) (scr : Bool) (rec_ idx : Nat) : Side :=
  { scr := scr, rcd := if scr then 0 else vget t.g.b rec_ 0, idx := idx }

/-- CPY and CPY2D: a legal control word, records that are there, then the request (R210 to R212). A nonzero word 7 of CPY2D is
an illegal use, cause 0x03; R212 says that it is 0 and names no cause. (Log entry 53.) -/
def copyOp (i : Instr) (s : State) (a b : BitVec 8) (d : BitVec 7) (two : Bool) : Out :=
  requestOp i s 0 fun t =>
    let w := fun (k : Nat) => (t.scalarWord (selOf a) k).toNat
    if controlBad (w 3) || (two && w 7 != 0) then operandTrap i t
    else
      let c := controlOf (w 3)
      if t.controlWaits c then waits t
      else
        let kind := ReqKind.copy (t.sideOf c.sscr c.srec (w 0)) (t.sideOf c.dscr c.drec (w 1))
          (if two then w 4 else 1) (w 2) (if two then w 5 else 0) (if two then w 6 else 0)
        .next (t.startCopy i d 0 kind (t.complOf c (t.scalarWord (selOf b) 0).toNat (t.scalarWord (selOf b) 1).toNat))

/-- CPY (R211). -/
def execCpy (b a : BitVec 8) (d : BitVec 7) (s : State) : Out := copyOp (.cpy b a d) s a b d false

/-- CPY2D (R212). -/
def execCpy2d (b a : BitVec 8) (d : BitVec 7) (s : State) : Out := copyOp (.cpy2d b a d) s a b d true

/-- GATH and SCAT (R213): A is the lanes' index, B the quad of completion and scratchpad base. -/
def gatherOp (i : Instr) (s : State) (a b : BitVec 8) (d : BitVec 7) (scatter : Bool) : Out :=
  requestOp i s 1 fun t =>
    let w := fun (k : Nat) => (t.scalarWord (selOf b) k).toNat
    if gatherBad (w 3) scatter then operandTrap i t
    else
      let c := controlOf (w 3)
      let idx := (lanesOf t.act).map fun l => (l.val, t.g.read (selOf a) l)
      if (if scatter then t.g.bPend.getLsbD c.drec else t.g.bPend.getLsbD c.srec) || (c.cen && t.g.bPend.getLsbD c.crec) then
        waits t
      else
        let kind := if scatter then ReqKind.scatter (vget t.g.b c.drec 0) idx (w 2)
          else ReqKind.gather (vget t.g.b c.srec 0) idx (w 2)
        .next (t.startCopy i d 1 kind (t.complOf c (w 0) (w 1)))

/-- GATH (R213). -/
def execGath (b a : BitVec 8) (d : BitVec 7) (s : State) : Out := gatherOp (.gath b a d) s a b d false

/-- SCAT (R213). -/
def execScat (b a : BitVec 8) (d : BitVec 7) (s : State) : Out := gatherOp (.scat b a d) s a b d true

/-! ### Moving bytes -/

/-- What one byte, or one row, of a request meets (R390). -/
inductive Reached where
  | ok (t : Target)
  | absent
  | bad (x : Stop)
  deriving DecidableEq, Repr

/-- The fault domain that a request's events name: of its group's launch (R362, R370). -/
def State.reqDomain (s : State) (r : EngReq) : Nat :=
  match s.groupAt r.core r.slot with
  | some g => s.domainOf g.launch
  | none => match s.launches.find? fun l => l.frozen.any fun b => b.id = r.block with
    | some l => l.eff.faultDomain
    | none => 0

/-- A byte that a request reaches in memory, behind its record's checks (R310, R367, R368, R402). -/
def State.engineReach (s : State) (r : EngReq) (va : Nat) (w : Bool) : Reached × State :=
  match s.translate r.core r.part va w false w (s.reqDomain r) with
  | (.ok t, s1) =>
    (match t with
      | .dev pa => if s1.poisoned (pa / 128) then .bad ⟨0x0E, Smap.get 0 s1.poison (pa / 128), w, va⟩ else .ok t
      | .peer _ _ => if s1.railHolds (coreDie r.core) then .absent else .ok t
      | _ => .ok t, s1.revealAt t)
  | (.absent, s1) => (.absent, s1)
  | (.refused c k _, s1) => (.bad ⟨c, k, w, va⟩, s1)

/-- A byte of a host record (R56, R322, R379). -/
def State.engineHost (s : State) (r : EngReq) (ha : Nat) (w : Bool) : Reached :=
  let inRange := hostIn (s.hostPort r.part) ha
  if !s.hostLive r.part then .bad ⟨0x0C, 4, w, ha⟩
  else if inRange s.env.hostDenied then .bad ⟨0x0D, 0, w, ha⟩
  else if !w && inRange s.env.hostErrors then .bad ⟨0x0C, 4, w, ha⟩
  else .ok (.host (s.hostPort r.part) ha)

/-- Byte o of element i of a record (R211, R213), n bytes wide for the alignment and extent checks. -/
def State.engineRecord (s : State) (r : EngReq) (x : BitVec 128) (i o : Nat) (w : Bool) : Reached × State :=
  let va := (recordEa x i + o) % 2 ^ 56
  if !recordValid x then (.bad ⟨0x06, 0, w, va⟩, s)
  else if !recordCovers x i 1 then (.bad ⟨0x07, 0, w, va⟩, s)
  else if w && recReadOnly x then (.bad ⟨0x0C, 0, w, va⟩, s)
  else if recHost x then (s.engineHost r va w, s)
  else s.engineReach r va w

/-- A scratchpad byte of the request's block (R211). -/
def State.engineSpm (s : State) (r : EngReq) (a : Nat) (w : Bool) : Reached :=
  match s.spmIn r.core r.block (a % 2 ^ 32) 1 with
  | some x => .ok (.spm x.1 x.2)
  | none => .bad ⟨0x08, 0, w, a % 2 ^ 21⟩

/-- Byte b of row k of one side of a copy; an index is taken modulo 2^32, as an index register holds it (R58, R212).
(Log entry 53.) -/
def State.sideByte (s : State) (r : EngReq) (x : Side) (pitch k b : Nat) (w : Bool) : Reached × State :=
  let i := (x.idx + k * pitch) % 2 ^ 32
  if x.scr then (s.engineSpm r (i + b) w, s)
  else s.engineRecord r x.rcd ((i + b / recElem x.rcd) % 2 ^ 32) (b % recElem x.rcd) w

/-- What byte b of row k of one side fails before any translation: its record, its extent, a read_only destination, or the
scratchpad's bound (R211, R367, R390). -/
def State.sideCheck (s : State) (r : EngReq) (x : Side) (pitch k b : Nat) (w : Bool) : Option Stop :=
  let i := (x.idx + k * pitch) % 2 ^ 32
  if x.scr then
    match s.engineSpm r (i + b) w with
    | .bad st => some st
    | _ => none
  else
    let j := (i + b / recElem x.rcd) % 2 ^ 32
    let va := (recordEa x.rcd j + b % recElem x.rcd) % 2 ^ 56
    if !recordValid x.rcd then some ⟨0x06, 0, w, va⟩ else if !recordCovers x.rcd j 1 then some ⟨0x07, 0, w, va⟩
    else if w && recReadOnly x.rcd then some ⟨0x0C, 0, w, va⟩ else none

/-- The check that is reported of two: the lower cause (R353, R367). -/
def lowerStop : Option Stop → Option Stop → Option Stop
  | none, y => y
  | some x, some y => if y.cause < x.cause then some y else some x
  | x, none => x

/-- Two bytes, from and to. -/
structure Move where
  src : Target
  dst : Target
  deriving DecidableEq, Repr

/-- The line, or the place, that a byte's write belongs to: one write request does not leave it. -/
def Target.line : Target → Nat × Nat × Nat
  | .dev pa => (0, 0, pa / 128)
  | .host p ha => (1, p, ha / 128)
  | .peer d pa => (2, d, pa / 128)
  | .spm c o => (3, c, o / 128)

/-- A target so many bytes on. -/
def Target.plus (t : Target) (k : Nat) : Target :=
  match t with
  | .dev a => .dev (a + k)
  | .host p a => .host p (a + k)
  | .peer d a => .peer d (a + k)
  | .spm c o => .spm c (o + k)

/-- The byte moves of a copy from a position on, at most n, within one line of the destination (R88), and
what stopped the list: first what a byte fails before translation (R367). -/
def copyMoves (r : EngReq) (src dst : Side) (rowlen spitch dpitch : Nat) (first : Option Target) :
    Nat → Nat → State → List Move × Option Reached × State
  | 0, _, s => ([], none, s)
  | n + 1, p, s =>
    match lowerStop (s.sideCheck r src spitch (p / rowlen) (p % rowlen) false) (s.sideCheck r dst dpitch (p / rowlen) (p % rowlen) true) with
    | some st => ([], some (.bad st), s)
    | none =>
    match s.sideByte r src spitch (p / rowlen) (p % rowlen) false with
    | (.ok a, s1) =>
      match s1.sideByte r dst dpitch (p / rowlen) (p % rowlen) true with
      | (.ok b, s2) =>
        if (match first with
            | some f => f.line != b.line
            | none => false) then ([], none, s2)
        else
          let rest := copyMoves r src dst rowlen spitch dpitch (some b) n (p + 1) s2
          (⟨a, b⟩ :: rest.1, rest.2)
      | (x, s2) => ([], some x, s2)
    | (x, s1) => ([], some x, s1)

/-- The virtual device of a request's launch. -/
def State.reqVd (s : State) (r : EngReq) : Option Nat :=
  match s.block r.block with
  | some b => s.vdOf b.head
  | none => (s.launches.find? fun l => l.frozen.any fun b => b.id = r.block).bind fun l => l.vd

/-- The lines of device memory that a request reaches come into their home slices; what goes to a peer leaves on the rail
(R65, R66, R329). -/
def State.bringFor (s : State) (r : EngReq) (l : List Target) : State :=
  (s.bringLines r.core r.slot (l.filterMap fun t => match t with
    | .dev pa => some (pa / 128)
    | _ => none)).railTurn r.core l

/-- Scratchpad bytes that a request writes are noted where a collective of the block runs (R224). -/
def State.noteFor (s : State) (r : EngReq) (l : List Target) : State :=
  s.noteTile r.core r.slot r.id (l.filterMap fun t => match t with
    | .spm c o => some (c, o)
    | _ => none)

/-- Some bytes are written by an engine: device memory at the home slice, one registering write for each
line, without an owner (R88); none when the dirty log has no room (R417). -/
def State.engineWrite (s : State) (vd : Option Nat) (l : List (Target × Byte)) : Option State :=
  (s.logTargets vd (l.map fun x => x.1)).map fun t =>
    let dev := l.filterMap fun x => match x.1 with
      | .dev pa => some (pa, x.2)
      | _ => none
    l.foldl (fun u x => match x.1 with
      | .dev _ => u
      | .host p ha => { u with host := Memory.write u.host (hostAt p ha) x.2 }
      | .peer d pa => u.modPeer d fun m => Memory.write m pa x.2
      | .spm c o => u.scratchStore c o 1 x.2.toNat)
      (t.homeWrite dev none)

/-- A request changed. -/
def State.modReq (s : State) (id : Nat) (f : EngReq → EngReq) : State :=
  { s with reqs := modFirst (fun r => r.id = id) f s.reqs }

/-- A step that a request meets instead of moving something. -/
inductive Moved where
  | on (s : State)
  | waits (s : State)
  | stops (x : Stop) (s : State)

/-- The next piece of a copy: the bytes of one destination line (R211, R212). (Log entry 53.) -/
def State.copyPiece (s : State) (r : EngReq) (src dst : Side) (rows rowlen spitch dpitch : Nat) : Moved :=
  let n := rows * rowlen
  if n ≤ r.pos then .on (s.modReq r.id fun x => { x with done := true }) else
  let m := copyMoves r src dst rowlen spitch dpitch none (min 128 (n - r.pos)) r.pos s
  if m.1 = [] then
    match m.2.1 with
    | some (.bad x) => .stops x m.2.2
    | _ => .waits m.2.2
  else
    let s1 := (m.2.2.bringFor r (m.1.flatMap fun x => [x.src, x.dst])).noteFor r (m.1.map fun x => x.dst)
    match s1.engineWrite (s1.reqVd r) (m.1.map fun x => (x.dst, BitVec.ofNat 8 (s1.peek x.src 1))) with
    | none => .waits (s1.logFullEvent (s1.reqVd r))
    | some s2 =>
      .on (s2.modReq r.id fun x => { x with pos := x.pos + m.1.length, done := decide (n ≤ x.pos + m.1.length), waiting := false })

/-- The bytes of one lane of a gather or scatter: memory and scratchpad targets, or what it meets. -/
def laneBytesOf (r : EngReq) (x : BitVec 128) (i base : Nat) (scatter : Bool) :
    Nat → Nat → State → (List (Target × Target) ⊕ Reached) × State
  | 0, _, s => (.inl [], s)
  | n + 1, o, s =>
    match s.engineRecord r x i o scatter with
    | (.ok a, s1) =>
      match s1.engineSpm r (base + o) (!scatter) with
      | .ok b =>
        match laneBytesOf r x i base scatter n (o + 1) s1 with
        | (.inl l, s2) => (.inl ((a, b) :: l), s2)
        | y => y
      | y => (.inr y, s1)
    | (y, s1) => (.inr y, s1)

/-- What a lane of a gather or scatter fails before translation, with the lane's address: the record, its extent, the bound of
its scratchpad place, or the alignment of its element (R213, R367, R388). -/
def State.laneCheck (s : State) (r : EngReq) (x : BitVec 128) (i place : Nat) (scatter : Bool) : Option Stop :=
  let va := recordEa x i
  if !recordValid x then some ⟨0x06, 0, scatter, va⟩
  else if !recordCovers x i 1 then some ⟨0x07, 0, scatter, va⟩
  else if (List.range (recElem x)).any fun o => (s.spmIn r.core r.block ((place + o) % 2 ^ 32) 1).isNone then
    some ⟨0x08, 0, !scatter, place % 2 ^ 32 % 2 ^ 21⟩
  else if va % recElem x ≠ 0 then some ⟨0x09, 0, scatter, va⟩
  else none

/-- The next lane of a gather or scatter (R213); lanes follow one another in ascending order, so that of
two that name one element the highest is written last. (Log entry 53.) -/
def State.lanePiece (s : State) (r : EngReq) (x : BitVec 128) (idx : List (Nat × Word)) (base : Nat) (scatter : Bool) : Moved :=
  match idx[r.pos]? with
  | none => .on (s.modReq r.id fun y => { y with done := true })
  | some l =>
    let va := recordEa x l.2.toNat
    match s.laneCheck r x l.2.toNat (base + l.1 * recElem x) scatter with
    | some st => .stops st s
    | none =>
    match laneBytesOf r x l.2.toNat (base + l.1 * recElem x) scatter (recElem x) 0 s with
    | (.inr (.bad st), s1) => .stops { st with addr := va } s1
    | (.inr _, s1) => .waits s1
    | (.inl ms, s0) =>
      let s1 := (s0.bringFor r (ms.flatMap fun m => [m.1, m.2])).noteFor r (if scatter then [] else ms.map fun m => m.2)
      let out := ms.map fun m => if scatter then (m.1, BitVec.ofNat 8 (s1.peek m.2 1)) else (m.2, BitVec.ofNat 8 (s1.peek m.1 1))
      match s1.engineWrite (s1.reqVd r) out with
      | none => .waits (s1.logFullEvent (s1.reqVd r))
      | some s2 =>
        .on (s2.modReq r.id fun y => { y with pos := y.pos + 1, done := decide (idx.length ≤ y.pos + 1), waiting := false })

end Sys2Proof.Machine
end

