-- ==== Sys2Proof/Machine/Matrix.lean ====
section
/-! DEFINITION. The matrix engine: reservations, banks, loads, quarter-operations, passes and leases, and
what moves bank contents to registers and to memory (R225 to R246, R262, R263). -/

namespace Sys2Proof.Machine

/-! ### Ranges -/

/-- Slices, with their scales and zero points where these are read, lie in the range (R226, R230). (Log entry 23.) -/
def operandFits (d : BitVec 64) (first n : Nat) (scales : Bool) : Bool :=
  areaFits d 0 first n (sliceBytes (resFmt d)) &&
  (!scales || areaFits d (resScale d) first n (scaleBytes (resFmt d) (resGlen d))) &&
  areaFits d (resZp d) first n (zpBytes (resFmt d) (resGlen d))

/-- A byte of the operand buffer; one that nothing has written since its unit was reserved is a free value
(R229). (Log entry 4.) -/
def Cluster.opByte (c : Cluster) (a : Nat) : Byte :=
  match Smap.get 0 c.opBuf a with
  | 0 => Config.freeOpByte (2 ^ 23 * Smap.get 0 c.opFresh (a / unitBytes) + a)
  | n + 1 => BitVec.ofNat 8 n

/-- The operand buffer with a byte written. -/
def Cluster.opWrite (c : Cluster) (a : Nat) (x : Byte) : Cluster :=
  { c with opBuf := Smap.set 0 c.opBuf a (x.toNat + 1) }

/-- Byte o of a range. -/
def Cluster.rangeByte (c : Cluster) (d : BitVec 64) (o : Nat) : Nat := (c.opByte (resBase d * unitBytes + o)).toNat

/-- The bits of element k of slice n (R230). -/
def Cluster.element (c : Cluster) (d : BitVec 64) (n k : Nat) : Nat :=
  let f := resFmt d
  let at_ := n * sliceBytes f
  if f = 2 ∨ f = 3 then c.rangeByte d (at_ + 2 * k) + 256 * c.rangeByte d (at_ + 2 * k + 1)
  else if f = 6 then c.rangeByte d (at_ + k / 2) / 16 ^ (k % 2) % 16
  else c.rangeByte d (at_ + k)

/-- The value of a floating-point element (R99). -/
def Cluster.floatElement (c : Cluster) (d : BitVec 64) (n k : Nat) : FVal :=
  let f := resFmt d
  decodeF (if f = 0 then e4m3 else if f = 1 then e5m2 else if f = 2 then bf16 else fp16) (c.element d n k)

/-- An integer element less its zero point, of INT4 the low nibble (R97, R98, R111, R230). -/
def Cluster.intElement (c : Cluster) (d : BitVec 64) (n k : Nat) : Int :=
  let f := resFmt d
  let z := c.rangeByte d (resZp d + n * zpBytes f (resGlen d) + k / groupLen (resGlen d))
  if f = 5 then toSigned 8 (c.element d n k) else (c.element d n k : Int) - (if f = 6 then z % 16 else z : Nat)

/-- Scale β of slice n: an E8M0 code, or an FP16 encoding (R230). -/
def Cluster.scaleOf (c : Cluster) (d : BitVec 64) (n b : Nat) : Nat :=
  let f := resFmt d
  let at_ := resScale d + n * scaleBytes f (resGlen d)
  if f ≤ 1 then c.rangeByte d (at_ + b)
  else c.rangeByte d (at_ + 2 * b) + 256 * c.rangeByte d (at_ + 2 * b + 1)

/-! ### The arithmetic of a pass -/

/-- The exact sum of products of some k (R99, R111). -/
def dot (f g : Nat → FVal) : List Nat → FVal
  | [] => .fin true 0 0
  | k :: r => r.foldl (fun acc j => (acc.add .rne ((f j).mul (g j)).1).1) ((f k).mul (g k)).1

/-- The value of an integer: zero is +0 (R111). -/
def intVal (x : Int) : FVal := .fin (decide (x < 0)) x.natAbs 0

/-- The exact integer sum of a chunk (R111). -/
def intDot (c : Cluster) (da db : BitVec 64) (a b : Nat) (ks : List Nat) : Int :=
  (ks.map fun k => c.intElement da a k * c.intElement db b k).sum

/-- A value scaled by a power of two; the sign is kept (R111). -/
def FVal.scale (v : FVal) (n : Int) : FVal :=
  match v with
  | .fin neg m e => .fin neg m (e + n)
  | x => x

/-- The chunks of 128 k (R111): their k, in ascending order. -/
def chunks (len : Nat) : List (List Nat) :=
  (List.range (128 / len)).map fun t => (List.range len).map fun k => t * len + k

/-- The chunk values c of row slice a and column slice b, in ascending k order (R111). -/
def chunkValues (c : Cluster) (da db : BitVec 64) (a b : Nat) : List Nat :=
  let f := resFmt da
  if f ≤ 1 then
    (chunks 32).zipIdx.map fun x =>
      let xa := c.scaleOf da a x.2
      let xb := c.scaleOf db b x.2
      if xa = 255 ∨ xb = 255 then nanOf fp32
      else (roundF fp32 .rne false ((dot (c.floatElement da a) (c.floatElement db b) x.1).scale ((xa : Int) + xb - 254))).1
  else if f ≤ 3 then
    (chunks 4).map fun ks => (roundF fp32 .rne false (dot (c.floatElement da a) (c.floatElement db b) ks)).1
  else
    (chunks (groupLen (resGlen da))).zipIdx.map fun x =>
      let sc := ((decodeF fp16 (c.scaleOf da a x.2)).mul (decodeF fp16 (c.scaleOf db b x.2))).1
      (roundF fp32 .rne false (sc.mul (intVal (intDot c da db a b x.1))).1).1

/-- A bank's word; one that nothing has written since the bank was handed out is a free value (R231). (Log entry 4.) -/
def Cluster.bankWord (c : Cluster) (bank row col : Nat) : Word :=
  let k := 1024 * bank + 128 * row + col
  match Smap.get none c.banks k with
  | some x => x
  | none => Config.freeBankWord (2 ^ 16 * Smap.get 0 c.bankFresh bank + k)

/-- A bank with a word written. -/
def Cluster.bankSet (c : Cluster) (bank row col : Nat) (x : Word) : Cluster :=
  { c with banks := Smap.set none c.banks (1024 * bank + 128 * row + col) (some x) }

/-- A bank whose 8 rows of 128 words become f row column. -/
def Cluster.bankFill (c : Cluster) (bank : Nat) (f : Nat → Nat → Word) : Cluster :=
  (List.range 1024).foldl (fun k n => k.bankSet bank (n / 128) (n % 128) (f (n / 128) (n % 128))) c

/-- One element after a quarter-operation (R110, R111, R236). -/
def quarterElement (c : Cluster) (integer : Bool) (da db : BitVec 64) (a b : Nat) (acc : Word) : Word :=
  if integer then BitVec.ofInt 32 (intDot c da db a b (List.range 128))
  else BitVec.ofNat 32 ((chunkValues c da db a b).foldl (fun x y => (addF fp32 .rne x y).1) acc.toNat)

/-- A quarter-operation (R236). -/
def Cluster.quarter (c : Cluster) (integer : Bool) (da db : BitVec 64) (a0 bank b0 : Nat) : Cluster :=
  c.bankFill bank fun i j => quarterElement c integer da db (a0 + i) (b0 + j) (c.bankWord bank i j)

/-! ### Owners, and order inside the engine -/

/-- The cluster of a core, changed. -/
def State.modEngine (s : State) (core : Nat) (f : Cluster → Cluster) : State := s.modCluster (coreCluster core) f

/-- The lowest run of n free places among so many, where 0 says free (R229, R231). -/
def freeRun (m : Smap Nat) (size n : Nat) : Option Nat :=
  (List.range (size + 1 - n)).find? fun k => (List.range n).all fun j => Smap.get 0 m (k + j) = 0

/-- Places handed to an owner, or freed when it is 0. -/
def setRun (m : Smap Nat) (first n owner : Nat) : Smap Nat :=
  (List.range n).foldl (fun t k => Smap.set 0 t (first + k) owner) m

/-- How many places an owner holds. -/
def heldBy (m : Smap Nat) (owner : Nat) : Nat := (m.filter fun x => x.2 = owner).length

/-- A table without the entries whose keys lie in a range. -/
def dropKeys {α : Type} (m : Smap α) (lo n : Nat) : Smap α := m.filter fun x => !(decide (lo ≤ x.1) && decide (x.1 < lo + n))

/-- Units handed to a group; the bytes they hold become undefined (R229). (Log entry 4.) -/
def State.takeUnits (s : State) (core owner first n : Nat) : State :=
  { s with free := s.free + 1 }.modEngine core fun c =>
    { c with unitOwner := setRun c.unitOwner first n owner, opBuf := dropKeys c.opBuf (first * unitBytes) (n * unitBytes)
             opFresh := setRun c.opFresh first n (s.free + 1) }

/-- Banks handed to a group; what they hold is unspecified (R231). (Log entry 4.) -/
def State.takeBanks (s : State) (core owner first n : Nat) : State :=
  { s with free := s.free + 1 }.modEngine core fun c =>
    { c with bankOwner := setRun c.bankOwner first n owner, banks := dropKeys c.banks (first * 1024) (n * 1024)
             bankFresh := setRun c.bankFresh first n (s.free + 1) }

/-- A range's units. -/
def rangeUnits (d : BitVec 64) : List Nat := (List.range (resUnits d)).map fun k => resBase d + k

/-- The banks that a request names. -/
def ReqKind.banks : ReqKind → List Nat
  | .mma _ _ _ _ bank _ => [bank]
  | .maccr bank _ _ _ => [bank]
  | .maccw bank _ _ _ => [bank]
  | .mzero first count => (List.range count).map fun k => first + k
  | .mst _ _ first count _ _ => (List.range count).map fun k => first + k
  | .accSave kind _ operand => if kind = 0 then (List.range (fld operand 6 7)).map fun k => fld operand 0 6 + k else []
  | .accLoad kind _ operand => if kind = 0 then (List.range (fld operand 6 7)).map fun k => fld operand 0 6 + k else []
  | _ => []

/-- The operand-buffer units of the ranges that a request reads, and of those it writes. -/
def ReqKind.unitReads : ReqKind → List Nat
  | .mma _ da db _ _ _ => rangeUnits da ++ rangeUnits db
  | .accSave kind _ operand => if kind = 1 then rangeUnits (BitVec.ofNat 64 operand) else []
  | _ => []
def ReqKind.unitWrites : ReqKind → List Nat
  | .mld d _ _ _ _ => rangeUnits d
  | .mlds d _ _ _ _ _ => rangeUnits d
  | _ => []

/-- Some earlier request of the group that still acts names one of the banks, writes one of the units read, or reads or
writes one of the units written (R237). -/
def State.engineBusy (s : State) (core owner before : Nat) (banks reads writes : List Nat) : Bool :=
  s.reqs.any fun r => r.core = core && r.owner = owner && decide (r.id < before) && !r.done &&
    (r.kind.banks.any (fun b => banks.contains b) || (r.kind.unitReads.any fun u => writes.contains u) ||
      r.kind.unitWrites.any fun u => reads.contains u || writes.contains u)

/-- A request's turn inside the engine has come (R237). -/
def State.engineTurn (s : State) (r : EngReq) : Bool :=
  !s.engineBusy r.core r.owner r.id r.kind.banks r.kind.unitReads r.kind.unitWrites

/-- A waiter joins the order of arrival, once. -/
def arriveAt (l : List Waiter) (w : Waiter) : List Waiter := if l.contains w then l else l ++ [w]

/-- Nobody waits before it. -/
def firstIn (l : List Waiter) (w : Waiter) : Bool :=
  match l with
  | [] => true
  | x :: _ => x = w

/-- The issuing split as a waiter. -/
def State.asWaiter (s : State) : Waiter := ⟨s.g.core, s.g.slot, s.g.sp.age, 0⟩

/-- A frame of cause 0x13 without an object (R393 codes 8 and 9). -/
def State.resourceTrap (s : State) (code want held : Nat) : Out :=
  .next (s.takeTrap (s.frame 0x13 code 0 0 (BitVec.ofNat 32 want) (BitVec.ofNat 32 held)))

/-! ### Reservations and banks -/

/-- The record of a reservation (R228, R229). -/
def resRecord (base units fmt glen layout scale zp : Nat) : BitVec 64 :=
  BitVec.ofNat 64 (base + units * 2 ^ 8 + fmt * 2 ^ 17 + glen * 2 ^ 21 + layout * 2 ^ 23 + 2 ^ 24 + scale * 2 ^ 32 + zp * 2 ^ 48)

/-- ORES (R229, R393 code 9). (Log entry 23.) -/
def execOres (b a : BitVec 8) (d : BitVec 4) (s : State) : Out :=
  let i := Instr.ores b a d
  run i s fun t =>
    let w := (t.scalar (selOf a)).toNat
    let o := (t.scalar (selOf b)).toNat
    let units := fld w 0 9
    let key := ownerKey t.g.core t.g.slot
    let e := t.engine t.g.core
    if fld w 16 16 != 0 || units = 0 || decide (256 < units) || !formatOk (fld w 9 4) (fld w 13 2) then operandTrap i t
    else if t.dPending t.g.core t.g.slot d.toNat then waits t
    else if resValid (vget t.g.d d.toNat 0) then operandTrap i t
    else if 256 < units + heldBy e.unitOwner key then t.resourceTrap 9 units (heldBy e.unitOwner key)
    else
      let u := t.modEngine t.g.core fun c => { c with oresQ := arriveAt c.oresQ t.asWaiter }
      match firstIn (u.engine t.g.core).oresQ t.asWaiter, freeRun e.unitOwner 256 units with
      | true, some k =>
        .next (((u.modEngine t.g.core fun c => { c with oresQ := c.oresQ.drop 1 }).takeUnits t.g.core key k units).modG
          (fun g => { g with d := vset g.d d.toNat (resRecord k units (fld w 9 4) (fld w 13 2) (fld w 15 1) (fld o 0 16) (fld o 16 16)) })
          |>.finish i |>.retryAll)
      | _, _ => waits u

/-- OREL (R229). -/
def execOrel (d : BitVec 4) (s : State) : Out :=
  let i := Instr.orel d
  run i s fun t =>
    let r := vget t.g.d d.toNat 0
    if t.dPending t.g.core t.g.slot d.toNat then waits t
    else if !resValid r then operandTrap i t
    else if t.engineBusy t.g.core t.g.slot t.nextId [] [] (rangeUnits r) then waits t
    else
      .next (((t.modEngine t.g.core fun c => { c with unitOwner := setRun c.unitOwner (resBase r) (resUnits r) 0 }).modG
        (fun g => { g with d := vset g.d d.toNat 0 })).finish i).retryAll

/-- The banks that the groups of a block hold on a cluster. -/
def State.blockBanks (s : State) (core blk : Nat) : Nat :=
  ((s.groups.filter fun g => g.block = blk && coreCluster g.core = coreCluster core).map fun g =>
    heldBy (s.engine core).bankOwner (ownerKey g.core g.slot)).sum

/-- The bank limit of the issuing group's block (R37). (Log entry 23.) -/
def State.bankLimit (s : State) : Nat :=
  match s.launch with
  | some l => l.accBanks
  | none => 0

/-- ALLOCK (R231, R393 code 8). (Log entry 23.) -/
def execAllock (a : BitVec 8) (d : BitVec 7) (s : State) : Out :=
  let i := Instr.allock a d
  run i s fun t =>
    let n := (t.scalar (selOf a)).toNat
    let key := ownerKey t.g.core t.g.slot
    let e := t.engine t.g.core
    if n = 0 ∨ 64 < n ∨ t.bankLimit < n then operandTrap i t
    else if t.bankLimit < n + heldBy e.bankOwner key then t.resourceTrap 8 n (heldBy e.bankOwner key)
    else
      let u := t.modEngine t.g.core fun c => { c with allockQ := arriveAt c.allockQ t.asWaiter }
      if !firstIn (u.engine t.g.core).allockQ t.asWaiter || decide (t.bankLimit < t.blockBanks t.g.core t.g.block + n) then waits u
      else match freeRun e.bankOwner 64 n with
        | some k =>
          .next (((u.modEngine t.g.core fun c => { c with allockQ := c.allockQ.drop 1 }).takeBanks t.g.core key k n).modG
            (fun g => g.writeReg d.toNat t.act fun _ => BitVec.ofNat 32 k)
            |>.finish i |>.retryAll)
        | none => waits u

/-- FREEK (R231). -/
def execFreek (b a : BitVec 8) (s : State) : Out :=
  let i := Instr.freek b a
  run i s fun t =>
    let first := (t.scalar (selOf a)).toNat
    let n := (t.scalar (selOf b)).toNat
    let key := ownerKey t.g.core t.g.slot
    if n = 0 ∨ 64 < n ∨ 64 < first + n ∨ (t.engine t.g.core).owns key first n = false then operandTrap i t
    else if t.engineBusy t.g.core t.g.slot t.nextId ((List.range n).map fun k => first + k) [] [] then waits t
    else
      .next ((t.modEngine t.g.core fun c => { c with bankOwner := setRun c.bankOwner first n 0 }).finish i).retryAll

/-! ### Requests -/

/-- The address, pitch and last word of a descriptor quad (R232, R242, R243). (Log entry 23.) -/
def State.quadOf (t : State) (a : BitVec 8) : Nat × Nat × Nat × Nat :=
  let w := fun k => (t.scalarWord (selOf a) k).toNat
  (w 0 + 2 ^ 32 * (w 1 % 2 ^ 24), w 1 / 2 ^ 24, w 2, w 3)

/-- A matrix-class request is issued (R225). -/
def State.startMatrix (t : State) (i : Instr) (kind : ReqKind) : Out :=
  .next ((t.addRequest 2 1 kind none 0 0).finish i)

/-- MLD (R232). -/
def execMld (a : BitVec 8) (d : BitVec 4) (s : State) : Out :=
  let i := Instr.mld a d
  requestOp i s 2 fun t =>
    let q := t.quadOf a
    let r := vget t.g.d d.toNat 0
    let first := fld q.2.2.2 0 16
    let n := fld q.2.2.2 16 16
    let last := if resStrided r then (if n = 0 then 0 else 128) else n
    if t.dPending t.g.core t.g.slot d.toNat then waits t
    else if !resValid r || q.2.1 != 0 || q.1 % 16 != 0 || q.2.2.1 % 16 != 0 ||
        (resStrided r && decide (128 < n)) || !areaFits r 0 first last (sliceBytes (resFmt r)) then operandTrap i t
    else t.startMatrix i (.mld r q.1 q.2.2.1 first n)

/-- MLDS (R233). -/
def execMlds (b a : BitVec 8) (d : BitVec 4) (s : State) : Out :=
  let i := Instr.mlds b a d
  requestOp i s 2 fun t =>
    let q := t.quadOf a
    let r := vget t.g.d d.toNat 0
    let k := (t.scalar (selOf b)).toNat
    let first := fld q.2.2.2 0 16
    let n := fld q.2.2.2 16 16
    let bytes := if k = 1 then zpBytes (resFmt r) (resGlen r) else scaleBytes (resFmt r) (resGlen r)
    if t.dPending t.g.core t.g.slot d.toNat then waits t
    else if !resValid r || q.2.1 != 0 || q.1 % 16 != 0 || q.2.2.1 % 16 != 0 || decide (1 < k) || bytes = 0 ||
        !areaFits r (if k = 1 then resZp r else resScale r) first n bytes then operandTrap i t
    else t.startMatrix i (.mlds r (k = 1) q.1 q.2.2.1 first n)

/-- MZERO (R240). -/
def execMzero (a : BitVec 8) (s : State) : Out :=
  let i := Instr.mzero a
  requestOp i s 2 fun t =>
    let w := (t.scalar (selOf a)).toNat
    let first := fld w 0 6
    let n := fld w 6 7
    if fld w 13 19 != 0 || decide (64 < n) || (n != 0 && !(t.engine t.g.core).owns (ownerKey t.g.core t.g.slot) first n) then
      operandTrap i t
    else t.startMatrix i (.mzero first n)

/-- MACCR (R241): D is filled when the bank has been read. -/
def execMaccr (a : BitVec 8) (d : BitVec 7) (s : State) : Out :=
  let i := Instr.maccr a d
  run i s fun t =>
    match t.selectOf (t.scalar (selOf a)).toNat with
    | none => operandTrap i t
    | some x =>
      let li : LaneInstr :=
        { acc := .ready, dst := d, words := [0], v := fun _ _ => 0, c := fun _ _ => 0, index := fun _ _ => 0
          look := fun u _ => ((.absent, 0), u) }
      let u := (t.addFlight li [] []).markEmpty li
      .next ((u.addRequest 4 0 (.maccr x.1 x.2.1 x.2.2 t.nextId) none 0 0).finish i)

/-- MACCW (R241): the values are those of its issue. -/
def execMaccw (b a : BitVec 8) (s : State) : Out :=
  let i := Instr.maccw b a
  run i s fun t =>
    match t.selectOf (t.scalar (selOf b)).toNat with
    | none => operandTrap i t
    | some x =>
      .next ((t.addRequest 4 0 (.maccw x.1 x.2.1 x.2.2 ((lanesOf t.act).map fun l => (l.val, t.g.read (selOf a) l)))
        none 0 0).finish i)

/-- MST (R242). -/
def execMst (a : BitVec 8) (s : State) : Out :=
  let i := Instr.mst a
  requestOp i s 2 fun t =>
    let q := t.quadOf a
    let w := q.2.2.2
    let conv := fld w 8 4
    let sat := fld w 12 1 = 1
    let first := fld w 0 6
    let n := fld w 6 2 + 1
    if fld w 13 19 != 0 || decide (5 < conv) || (sat && conv != 3 && conv != 4) || q.2.1 != 0 ||
        q.2.2.1 % 16 != 0 || q.1 % convBytes conv != 0 ||
        !(t.engine t.g.core).owns (ownerKey t.g.core t.g.slot) first n then operandTrap i t
    else t.startMatrix i (.mst q.1 q.2.2.1 first n conv sat)

/-- ACCSAVE and ACCLOAD (R243). -/
def imageOp (i : Instr) (s : State) (a : BitVec 8) (load : Bool) : Out :=
  requestOp i s 2 fun t =>
    let q := t.quadOf a
    if q.2.1 != 0 || q.1 % 128 != 0 || decide (4 ≤ q.2.2.1) then operandTrap i t
    else match t.imageOperand load q.2.2.1 q.2.2.2 with
      | none => operandTrap i t
      | some none => waits t
      | some (some x) => t.startMatrix i (if load then .accLoad q.2.2.1 q.1 x else .accSave q.2.2.1 q.1 x)

/-- ACCSAVE (R243). -/
def execAccsave (a : BitVec 8) (s : State) : Out := imageOp (.accsave a) s a false

/-- ACCLOAD (R243). -/
def execAccload (a : BitVec 8) (s : State) : Out := imageOp (.accload a) s a true

/-! ### Quarter-operations -/

/-- Two formats that may meet in a pass of an arithmetic class (R236). -/
def pairOk (integer classA : Bool) (da db : BitVec 64) : Bool :=
  let f := resFmt da
  let g := resFmt db
  let mx := decide (f ≤ 1) && decide (g ≤ 1)
  let half := (f = 2 && g = 2) || (f = 3 && g = 3)
  let int := (((f = 4 || f = 5) && (g = 4 || g = 5)) || (f = 6 && g = 6)) && resGlen da = resGlen db
  if integer then classA && int && resGlen da = 2
  else if classA then half
  else mx || half || int

/-- A quarter's descriptor is legal (R226, R235). (Log entry 23.) -/
def State.quarterOk (t : State) (integer : Bool) (da db : BitVec 64) (w0 w1 : Nat) : Bool :=
  fld w0 22 10 = 0 && fld w1 16 16 = 0 &&
  (t.engine t.g.core).owns (ownerKey t.g.core t.g.slot) (fld w0 16 6) 1 &&
  operandFits da (fld w0 0 16) 8 (!integer) && operandFits db (fld w1 0 16) 128 (!integer)

/-- One quarter-operation enters the reservation table (R235, R262). -/
def State.enterQuarter (t : State) (integer : Bool) (da db : BitVec 64) (prio w0 w1 : Nat) : State :=
  let id := t.nextId
  (t.addRequest 2 1 (.mma integer da db (fld w0 0 16) (fld w0 16 6) (fld w1 0 16)) none 0 0).modEngine t.g.core fun c =>
    { c with tableAge := c.tableAge + 1
             table := c.table ++ [{
               core := t.g.core, slot := t.g.slot, split := t.g.sp.age, block := t.g.block, req := id, prio := prio
               age := c.tableAge, lease := none, passed := 0 }] }

/-- The issuing launch's priority (R251). -/
def State.priority (t : State) : Nat :=
  match t.launch with
  | some l => l.eff.priority
  | none => 0

/-- The issuing launch is of class A (R39). -/
def State.classA (t : State) : Bool :=
  match t.launch with
  | some l => l.eff.arithClass = 1
  | none => false

/-- MMA and MMAP (R235, R236). -/
def matrixOp (i : Instr) (s : State) (integer : Bool) (b a : BitVec 4) (d : BitVec 7) : Out :=
  run i s fun t =>
    let da := vget t.g.d a.toNat 0
    let db := vget t.g.d b.toNat 0
    let qs := (quarterLanes t.act).map fun l => ((t.g.readWord d.toNat 0 l).toNat, (t.g.readWord d.toNat 1 l).toNat)
    if t.dPending t.g.core t.g.slot a.toNat || t.dPending t.g.core t.g.slot b.toNat then waits t
    else if !resValid da || !resValid db || !pairOk integer t.classA da db ||
        !(qs.all fun q => t.quarterOk integer da db q.1 q.2) then operandTrap i t
    else if 63 < vget t.g.counters 2 0 + qs.length ∨ Config.resEntries < (t.engine t.g.core).table.length + qs.length then waits t
    else passing t fun u =>
      .next ((qs.foldl (fun x q => x.enterQuarter integer da db t.priority q.1 q.2) u).finish i)

/-- MMA (R235, R236). -/
def execMma (b a : BitVec 4) (d : BitVec 7) (s : State) : Out := matrixOp (.mma b a d) s false b a d

/-- MMAP (R235, R236). -/
def execMmap (b a : BitVec 4) (d : BitVec 7) (s : State) : Out := matrixOp (.mmap b a d) s true b a d

/-! ### Leases and the arbiter -/

/-- The lease length L of a group's block (R239). -/
def State.leaseLen (s : State) (core slot : Nat) : Nat :=
  match (s.groupAt core slot).bind fun g => s.launchOf g.launch with
  | some l => l.leaseLen
  | none => 1

/-- The lease has ended (R239). -/
def Cluster.leaseOver (c : Cluster) : Bool :=
  match c.lease with
  | none => true
  | some x => x.left = 0 || (!(c.table.any fun e => e.block = x.block) && decide (x.lastEntry + 256 ≤ c.cycle))

/-- MLEASE (R239, R395). -/
def execMlease (a : BitVec 8) (s : State) : Out :=
  let i := Instr.mlease a
  run i s fun t =>
    let n := (t.scalar (selOf a)).toNat
    let len := t.leaseLen t.g.core t.g.slot
    let want := if n = 0 then len else min n len
    let e := t.engine t.g.core
    if e.table.any fun x => x.lease.isSome && x.core = t.g.core && x.slot = t.g.slot && x.split = t.g.sp.age then waits t
    else if !e.leaseOver && e.lease.any (fun x => x.block = t.g.block) then
      .next ((t.modEngine t.g.core fun c => { c with lease := c.lease.map fun x => { x with left := want } }).finish i)
    else if Config.resEntries ≤ e.table.length then waits t
    else
      waits (t.modEngine t.g.core fun c =>
        { c with tableAge := c.tableAge + 1
                 table := c.table ++ [{
                   core := t.g.core, slot := t.g.slot, split := t.g.sp.age, block := t.g.block, req := 0
                   prio := t.priority, age := c.tableAge, lease := some want, passed := 0 }] })

/-- MREL (R239). -/
def execMrel (s : State) : Out :=
  complete .mrel s fun t => t.modEngine t.g.core fun c =>
    { c with lease := if c.lease.any fun x => x.block = t.g.block then none else c.lease }

/-- The request of a table entry. -/
def State.entryReq (s : State) (e : QuarterOp) : Option EngReq := s.reqs.find? fun r => r.id = e.req

/-- Every load of a request's split that precedes it has been performed (R74). (Log entry 15.) -/
def State.loadsDone (s : State) (r : EngReq) : Bool :=
  !(s.flights.any fun f => f.core = r.core && f.slot = r.slot && decide (f.id < r.id) && r.anc.contains f.split && f.acc.isLoad && !f.performed)

/-- An entry is eligible (R74, R237, R262): a waiting MLEASE, or a quarter-operation before which nothing of
its group still acts on its bank, and nothing still writes its ranges. -/
def State.eligible (s : State) (e : QuarterOp) : Bool :=
  e.lease.isSome || match s.entryReq e with
    | some r => s.engineTurn r && s.loadsDone r
    | none => false

/-- The entry of the highest priority, and among equals the oldest; a table stands in order of age. -/
def bestEntry : List QuarterOp → Option QuarterOp
  | [] => none
  | e :: r =>
    match bestEntry r with
    | none => some e
    | some x => if e.prio < x.prio then some x else some e

/-- A block whose oldest entry was passed over by 16 lease grants goes first (R263). -/
def starved (table eligible : List QuarterOp) : Option QuarterOp :=
  eligible.find? fun e => match table.find? fun x => x.block = e.block with
    | some x => decide (16 ≤ x.passed)
    | none => false

/-- The lease is granted by an entry (R239, R263): waiting MLEASEs of the block leave the table, and their
splits go on. -/
def State.grantLease (s : State) (cl : Nat) (e : QuarterOp) : State :=
  let c := s.clusterAt cl
  let gone := c.table.filter fun x => x.lease.isSome && x.block = e.block
  let left := gone.foldl (fun n x => x.lease.getD n) (s.leaseLen e.core e.slot)
  let s1 := s.modCluster cl fun c =>
    { c with lease := some { block := e.block, left := left, lastEntry := c.cycle }
             table := (c.table.filter fun x => !(x.lease.isSome && x.block = e.block)).map fun x =>
               { x with passed := if x.block = e.block then 0 else x.passed + 1 } }
  gone.foldl (fun t x => t.modGroup x.core x.slot fun g => g.modSplit x.split fun sp => sp.finish 4) s1

/-- Step 1 of a pass boundary (R263). -/
def State.leaseStep (s : State) (cl : Nat) : State :=
  let c := s.clusterAt cl
  if !c.leaseOver then s
  else
    let el := c.table.filter s.eligible
    match (match starved c.table el with
      | some e => some e
      | none => bestEntry el) with
    | some e => s.grantLease cl e
    | none => s.modCluster cl fun c => { c with lease := none }

/-- The quarter-operation that a table entry carries. -/
def State.quarterKind (s : State) (e : QuarterOp) : Option ReqKind := (s.entryReq e).map fun r => r.kind

/-- Two quarter-operations may be fused (R238): mode, formats and B range agree, and the banks differ. -/
def fusible : ReqKind → ReqKind → Bool
  | .mma i da db _ bank b0, .mma j ea eb _ cank c0 =>
    i = j && resFmt da = resFmt ea && resFmt db = resFmt eb && resBase db = resBase eb && resUnits db = resUnits eb &&
    b0 = c0 && bank != cank
  | _, _ => false

/-- The entries that join a head, in ascending age, until the pass holds four (R238, R263). -/
def State.fuse (s : State) : List QuarterOp → List QuarterOp → List QuarterOp
  | got, [] => got
  | got, e :: r =>
    if got.length < 4 ∧ (got.all fun x => match s.quarterKind x, s.quarterKind e with
        | some a, some b => fusible a b
        | _, _ => false) = true then s.fuse (got ++ [e]) r
    else s.fuse got r

/-- A quarter-operation is performed, and its entry is free (R236, R263). -/
def State.grantQuarter (s : State) (cl : Nat) (e : QuarterOp) : State :=
  let s1 := s.modCluster cl fun c => { c with table := c.table.filter fun x => x.age ≠ e.age }
  match s.quarterKind e with
  | some (.mma integer da db a0 bank b0) =>
    (s1.modCluster cl fun c => c.quarter integer da db a0 bank b0).modReq e.req fun r => { r with done := true }
  | _ => s1

/-- A pass boundary of a cluster's engine (R238, R239, R263). -/
def State.pass (s : State) (cl : Nat) : State :=
  if s.clockStopped cl then s else
  let s1 := s.leaseStep cl
  let c := s1.clusterAt cl
  match c.lease with
  | none => s1
  | some x =>
    let mine := c.table.filter fun e => e.block = x.block && e.lease.isNone && s1.eligible e
    match bestEntry mine with
    | none => s1
    | some head =>
      let picked := s1.fuse [head] (mine.filter fun e => e.age ≠ head.age)
      (((picked.foldl (fun t e => t.grantQuarter cl e) s1).tally 9 1 none (cl / 8)).modCluster cl fun c =>
        { c with lease := c.lease.map fun x => { x with left := x.left - 1, lastEntry := c.cycle } }).retryAll

/-- ARBITER_PASS: a pass boundary of the cluster the event names. -/
def execArbiterPass (s : State) : Out := .next (s.pass s.ev.cl)

/-! ### The pieces of a request -/

/-- A run of n bytes from an address, line by line: where each byte lies, or what stops it. -/
def engineLines (r : EngReq) (w : Bool) : List (Nat × Nat) → State → (List Target ⊕ Reached) × State
  | [], s => (.inl [], s)
  | x :: l, s =>
    match s.engineReach r (x.1 % 2 ^ 56) w with
    | (.ok t, s1) =>
      match engineLines r w l s1 with
      | (.inl ts, s2) => (.inl ((List.range x.2).map t.plus ++ ts), s2)
      | y => y
    | (y, s1) => (.inr y, s1)

/-- The lines of n bytes from an address: address and length of each part. -/
def lineParts (va n : Nat) : List (Nat × Nat) :=
  if n = 0 then []
  else (List.range ((va % 128 + n + 127) / 128)).map fun k =>
    let lo := max va (128 * (va / 128 + k))
    (lo, min (va + n) (128 * (va / 128 + k + 1)) - lo)

/-- n bytes at an address are read as one request: the bytes, or what stops it, at the address. -/
def State.engineRead (s : State) (r : EngReq) (va n : Nat) : (List Byte ⊕ Reached) × State :=
  match engineLines r false (lineParts va n) s with
  | (.inl ts, s1) => (.inl (ts.map fun t => BitVec.ofNat 8 (s1.peek t 1)), s1.bringFor r ts)
  | (.inr x, s1) => (.inr x, s1)

/-- What a piece that meets something becomes: the address reported is its row's (R388). (Log entry 24.) -/
def metBy (x : Reached) (va : Nat) (s : State) : Moved :=
  match x with
  | .bad st => .stops { st with addr := va } s
  | _ => .waits s

/-- A request goes on by one row, or one line. -/
def State.advanceReq (s : State) (r : EngReq) (total : Nat) : State :=
  s.modReq r.id fun x => { x with pos := x.pos + 1, waiting := false, done := decide (total ≤ x.pos + 1) }

/-- The low n bits of a byte list's digit of w bits: a nibble, a byte, or two bytes. -/
def digit (l : List Byte) (k : Nat) : Byte := l.getD k 0

/-- A row of MLD in the operand buffer (R230, R232). -/
def Cluster.placeRow (c : Cluster) (d : BitVec 64) (first row : Nat) (l : List Byte) : Cluster :=
  let f := resFmt d
  let sw := sliceBytes f
  let base := resBase d * unitBytes
  if !resStrided d then (List.range sw).foldl (fun k o => k.opWrite (base + (first + row) * sw + o) (digit l o)) c
  else if f = 2 ∨ f = 3 then
    (List.range 256).foldl (fun k o => k.opWrite (base + (first + o / 2) * sw + 2 * row + o % 2) (digit l o)) c
  else if f = 6 then
    (List.range 128).foldl (fun k e =>
      let at_ := base + (first + e) * sw + row / 2
      let nib := (digit l (e / 2)).toNat / 16 ^ (e % 2) % 16
      let old := (k.opByte at_).toNat
      k.opWrite at_ (BitVec.ofNat 8 (if row % 2 = 0 then old / 16 * 16 + nib else old % 16 + 16 * nib))) c
  else (List.range 128).foldl (fun k e => k.opWrite (base + (first + e) * sw + row) (digit l e)) c

/-- A row of MLDS in the operand buffer; INT4 zero points are unpacked (R230, R233). -/
def Cluster.placeScales (c : Cluster) (d : BitVec 64) (zero : Bool) (slice : Nat) (l : List Byte) : Cluster :=
  let f := resFmt d
  let g := resGlen d
  let base := resBase d * unitBytes
  if zero then
    (List.range (zpBytes f g)).foldl (fun k o =>
      k.opWrite (base + resZp d + slice * zpBytes f g + o)
        (if f = 6 then BitVec.ofNat 8 ((digit l (o / 2)).toNat / 16 ^ (o % 2) % 16) else digit l o)) c
  else (List.range (scaleBytes f g)).foldl (fun k o => k.opWrite (base + resScale d + slice * scaleBytes f g + o) (digit l o)) c

/-- The bytes of a stored bank word (R242). -/
def convWord (conv : Nat) (sat : Bool) (x : Word) : List Byte :=
  let v := decodeF fp32 x.toNat
  if conv = 1 then bytesLE 2 (roundF bf16 .rne false v).1
  else if conv = 2 then bytesLE 2 (roundF fp16 .rne false v).1
  else if conv = 3 then bytesLE 1 (roundF e4m3 .rne sat v).1
  else if conv = 4 then bytesLE 1 (roundF e5m2 .rne sat v).1
  else bytesLE 4 x.toNat

/-- Bytes written from an address on as one write request (R88, R242, R243). -/
def State.engineStore (s : State) (r : EngReq) (va : Nat) (l : List Byte) (total : Nat) : Moved :=
  match engineLines r true (lineParts va l.length) s with
  | (.inr x, s1) => metBy x va s1
  | (.inl ts, s0) =>
    let s1 := s0.bringFor r ts
    match s1.engineWrite (s1.reqVd r) (ts.zip l) with
    | none => .waits (s1.logFullEvent (s1.reqVd r))
    | some s2 => .on (s2.advanceReq r total)

/-- The group a request acts for. -/
def State.ownerGroup (s : State) (r : EngReq) : Group := (s.groupAt r.core r.owner).getD s.g

/-- Byte k of an engine image of a kind (R243, R244). -/
def State.imageByte (s : State) (r : EngReq) (kind operand k : Nat) : Byte :=
  let c := s.engine r.core
  if kind = 0 then
    BitVec.ofNat 8 ((c.bankWord (fld operand 0 6 + k / 4096) (k % 4096 / 512) (k % 512 / 4)).toNat / 256 ^ (k % 4))
  else if kind = 1 then
    let d := BitVec.ofNat 64 operand
    if k < 64 then BitVec.ofNat 8 (operand / 256 ^ k) else BitVec.ofNat 8 (c.rangeByte d (k - 64))
  else
    let g := s.ownerGroup r
    let owned := ((List.range 64).map fun b => b2n (Smap.get 0 c.bankOwner b = ownerKey r.core r.owner) * 2 ^ b).sum
    let lease := match c.lease with
      | some x => if x.block = g.block ∧ c.leaseOver = false then x.left + 2 ^ 16 else 0
      | none => 0
    BitVec.ofNat 8 ((owned + lease * 2 ^ 64 + (s.mrow g).toNat * 2 ^ 96) / 256 ^ k)

/-- ACCLOAD of kind 1 (R243): the header, which waits for units as ORES does, then the range's bytes. A
header that no reservation can have claims nothing. (Log entry 24.) -/
def State.loadRange (s : State) (r : EngReq) (n : Nat) (l : List Byte) : Moved :=
  let g := s.ownerGroup r
  if r.pos = 0 then
    let h : BitVec 64 := BitVec.ofNat 64 (ofBytes (l.take 8))
    let units := resUnits h
    let me : Waiter := ⟨r.core, r.owner, 0, 1 + r.id⟩
    if anySet (ofBytes l) [(25, 7), (64, 448)] || !resValid h || units = 0 || decide (256 < units) || !formatOk (resFmt h) (resGlen h) then
      .on (s.modReq r.id fun x => { x with done := true, waiting := false })
    else
      let u := s.modEngine r.core fun c => { c with oresQ := arriveAt c.oresQ me }
      match firstIn (u.engine r.core).oresQ me, freeRun (u.engine r.core).unitOwner 256 units with
      | true, some k =>
        let rec_ := resRecord k units (resFmt h) (resGlen h) (b2n (resStrided h)) (bget h 32 16) (bget h 48 16)
        .on ((((u.modEngine r.core fun c => { c with oresQ := c.oresQ.drop 1 }).takeUnits r.core (ownerKey r.core r.owner) k units).modGroup
          r.core r.owner fun x => { x with d := vset x.d n rec_ }).advanceReq r (units * 256 + 1)).retryAll
      | _, _ => .waits u
  else
    let d := vget g.d n 0
    .on ((s.modEngine r.core fun c =>
      (List.range 64).foldl (fun k o => k.opWrite (resBase d * unitBytes + 64 * (r.pos - 1) + o) (digit l o)) c).advanceReq
        r (resUnits d * 256 + 1))

/-- ACCLOAD of kind 2 (R243, R244): the banks of the owned map are claimed when all are free, and MROW
comes back; an image with a reserved bit set claims nothing (R5). (Log entry 24.) -/
def State.loadState (s : State) (r : EngReq) (l : List Byte) : Moved :=
  let h := ofBytes l
  let bs := (List.range 64).filter fun b => h / 2 ^ b % 2 = 1
  let c := s.engine r.core
  if anySet h [(81, 15), (112, 14), (128, 384)] then .on (s.modReq r.id fun x => { x with done := true, waiting := false })
  else if bs.any fun b => Smap.get 0 c.bankOwner b != 0 then .waits s
  else
    let u := bs.foldl (fun t b => t.takeBanks r.core (ownerKey r.core r.owner) b 1) s
    let v := match u.rowRequest (u.ownerGroup r) with
      | some x => if fld h 127 1 = 1 then u.modReq x.id fun y => { y with pos := min (fld h 96 16) y.kind.rows } else u
      | none => u
    .on (v.advanceReq r 1)

/-- The next piece of a matrix request: one memory row, one line of an image, or all of it. (Log entry 53.) -/
def State.matrixPiece (s : State) (r : EngReq) : Moved :=
  if !s.engineTurn r then .waits s
  else match r.kind with
    | .mld d va pitch first rows =>
      if rows ≤ r.pos then .on (s.modReq r.id fun x => { x with done := true })
      else
        let a := va + r.pos * pitch
        match s.engineRead r a (rowLen r.kind) with
        | (.inr x, s1) => metBy x a s1
        | (.inl l, s1) => .on ((s1.modEngine r.core fun c => c.placeRow d first r.pos l).advanceReq r rows)
    | .mlds d zero va pitch first rows =>
      if rows ≤ r.pos then .on (s.modReq r.id fun x => { x with done := true })
      else
        let a := va + r.pos * pitch
        match s.engineRead r a (rowLen r.kind) with
        | (.inr x, s1) => metBy x a s1
        | (.inl l, s1) => .on ((s1.modEngine r.core fun c => c.placeScales d zero (first + r.pos) l).advanceReq r rows)
    | .mzero first count =>
      .on ((s.modEngine r.core fun c => (List.range count).foldl (fun k b => k.bankFill (first + b) fun _ _ => 0) c).modReq
        r.id fun x => { x with done := true })
    | .maccr bank row chunk flight =>
      let c := s.engine r.core
      .on (({ s with reqs := s.reqs.filter fun x => x.id ≠ r.id }.modFlight flight fun f =>
        { f with results := (lanesOf f.mask).map (fun (l : Lane) => (l.val, (c.bankWord bank row (32 * chunk + l.val)).toNat))
                 performed := true, done := f.mask }))
    | .maccw bank row chunk vals =>
      .on ({ s with reqs := s.reqs.filter fun x => x.id ≠ r.id }.modEngine r.core fun c =>
        vals.foldl (fun (k : Cluster) (x : Nat × Word) => k.bankSet bank row (32 * chunk + x.1) x.2) c)
    | .mst va pitch first count conv sat =>
      if 8 * count ≤ r.pos then .on (s.modReq r.id fun x => { x with done := true })
      else
        let c := s.engine r.core
        let l := (List.range 128).flatMap fun j => convWord conv sat (c.bankWord (first + r.pos / 8) (r.pos % 8) j)
        s.engineStore r (va + r.pos * pitch) l (8 * count)
    | .accSave kind va operand =>
      let n := imageLen kind operand
      let l := (List.range (min 128 (n - 128 * r.pos))).map fun k => s.imageByte r kind operand (128 * r.pos + k)
      s.engineStore r (va + 128 * r.pos) l ((n + 127) / 128)
    | .accLoad kind va operand =>
      let step := if kind = 0 then 128 else 64
      let a := va + step * r.pos
      match s.engineRead r a step with
      | (.inr x, s1) => metBy x a s1
      | (.inl l, s1) =>
        if kind = 0 then
          .on ((s1.modEngine r.core fun c => (List.range 32).foldl (fun k w =>
            let o := 128 * r.pos + 4 * w
            k.bankSet (fld operand 0 6 + o / 4096) (o % 4096 / 512) (o % 512 / 4)
              (BitVec.ofNat 32 (ofBytes ((l.drop (4 * w)).take 4)))) c).advanceReq r (32 * fld operand 6 7))
        else if kind = 1 then s1.loadRange r operand l
        else s1.loadState r l
    | _ => .waits s

/-- A group's banks, reservations, table entries and places in the engine's orders are released (R246). -/
def State.releaseMatrix (s : State) (core slot : Nat) : State :=
  let key := ownerKey core slot
  s.modEngine core fun c =>
    { c with unitOwner := c.unitOwner.filter fun x => x.2 ≠ key
             bankOwner := c.bankOwner.filter fun x => x.2 ≠ key
             oresQ := c.oresQ.filter fun w => !(w.core = core && w.slot = slot)
             allockQ := c.allockQ.filter fun w => !(w.core = core && w.slot = slot)
             table := c.table.filter fun e => !(e.core = core && e.slot = slot) }

end Sys2Proof.Machine
end

