-- ==== Sys2Proof/Machine/Report.lean ====
section
/-! DEFINITION. Deferred reports (R387, R388), when a request may read its sources (R82), and retirement
in class order (R83, R85). -/

namespace Sys2Proof.Machine

/-- The requests of a class that a group has outstanding, oldest first. -/
def State.outstanding (s : State) (core slot cls : Nat) : List EngReq :=
  s.reqs.filter fun r => r.core = core && r.slot = slot && r.cls = cls

/-- A request's position among its group's outstanding requests of its class (R388). -/
def State.position (s : State) (r : EngReq) : Nat :=
  ((s.outstanding r.core r.slot r.cls).filter fun x => decide (x.id < r.id)).length

/-- A deferred report's frame; where and for which lanes it traps is known at the trap (R387, R388). (Log entry 49.) -/
def State.reportFrame (s : State) (r : EngReq) (st : Stop) (h0 h1 h3 : Nat) : Frame :=
  { cause := st.cause, code := st.code, write := st.write, pc := 0, mask := 0, done := 0
    h0 := BitVec.ofNat 32 h0, h1 := BitVec.ofNat 32 h1
    h2 := BitVec.ofNat 32 (r.cls % 4 + s.position r % 64 * 4 + 2 ^ 31), h3 := BitVec.ofNat 32 h3 }

/-- A request of a frozen group: its engine holds it, and nothing of the group's can be reached (R85). It
bears 1000 + 64 × its block + the producer in place of a slot. -/
def EngReq.detached (r : EngReq) : Bool := decide (1000 ≤ r.slot)
def frozenSlot (blk producer : Nat) : Nat := 1000 + 64 * blk + producer

/-- What is kept of a group of a frozen block, changed. -/
def FrozenBlk.modKeep (b : FrozenBlk) (slot : Nat) (f : GroupKeep → GroupKeep) : FrozenBlk :=
  if b.id = (slot - 1000) / 64 then
    { b with keep := b.keep.map fun k => if k.producer = (slot - 1000) % 64 then f k else k }
  else b

/-- What is kept of a frozen group, changed; its block may have begun to come back (R299). -/
def State.modKeep (s : State) (slot : Nat) (f : GroupKeep → GroupKeep) : State :=
  { s with
    launches := s.launches.map fun l => { l with frozen := l.frozen.map fun b => b.modKeep slot f }
    blocks := s.blocks.map fun b => { b with restoring := b.restoring.map fun x => { x with fb := x.fb.modKeep slot f } } }

/-- A report enters a group's list: the older request's first (R387, R400). (Log entry 49.) -/
def enterReport (x : Report) : List Report → List Report
  | [] => [x]
  | y :: r => if y.req ≤ x.req then y :: enterReport x r else x :: y :: r

/-- A group receives a report; a frozen group keeps it (R387). (Log entry 49.) -/
def State.report (s : State) (r : EngReq) (st : Stop) (h0 h1 h3 : Nat) : State :=
  let x : Report := { req := r.id, frame := s.reportFrame r st h0 h1 h3 }
  if r.detached then s.modKeep r.slot fun k => { k with reports := enterReport x k.reports }
  else s.modGroup r.core r.slot fun g => { g with reports := enterReport x g.reports }

/-- A frozen group has pantry entries among what is saved of it, be it that its block has begun to come back (R299). -/
def State.frozenEntries (s : State) (slot : Nat) : Bool :=
  ((s.launches.flatMap fun l => l.frozen) ++ s.blocks.filterMap fun b => b.restoring.map fun x => x.fb).any fun b =>
    b.id = (slot - 1000) / 64 && b.pantry.any fun x => x.1 = (slot - 1000) % 64

/-- The registers that a block's group records hold room for: the most of its sub-launches. -/
def recordRegs (ls : List Launch) : Nat := (ls.map fun l => l.regs).foldl max 0

/-- Bytes of one group record (R302). -/
def groupRecordLen (regs : Nat) : Nat := 8192 + 128 * regs

/-- A new promise of a frozen group's copy replaces the old one in the saved record (R303, R392). (Log entry 33.) -/
def State.savePromise (s : State) (r : EngReq) (p : Nat) : State :=
  match s.launches.findSome? fun l => (l.frozen.find? fun b => r.detached && b.id = (r.slot - 1000) / 64).map fun b => (l, b) with
  | none => s
  | some (l, b) =>
    let at_ := 256 + (r.slot - 1000) % 64 * groupRecordLen (recordRegs (s.bundle l.head)) + 0xA00 + 8 * s.position r
    match s.reach r.part (b.addr + at_) with
    | .ok (.dev pa) true => s.homeWrite (bytesAt pa 8 p) none
    | _ => s

/-- Every access of the request's split that precedes it has been performed, loads among them (R74, R82). A request that a freeze
found not begun waits while stores of its group stand in the record. (Log entry 15.) -/
def State.priorDone (s : State) (r : EngReq) : Bool :=
  !(r.detached && r.pos = 0 && s.frozenEntries r.slot) &&
  !(s.flights.any fun f => f.core = r.core && f.slot = r.slot && decide (f.id < r.id) && r.anc.contains f.split &&
    f.acc != .ready && !f.performed) &&
  (s.pantryOf r.core r.slot r.anc).all fun e => decide (r.id < e.id)

/-- A request's work is finished, its completion object included. -/
def EngReq.spent (r : EngReq) : Bool := r.done && r.compl.isNone

/-- The oldest requests of a class that are finished retire, one after the other (R83). -/
def State.retireClass (s : State) (core slot cls : Nat) : Nat → State
  | 0 => s
  | n + 1 =>
    match s.outstanding core slot cls with
    | [] => s
    | r :: _ =>
      if r.spent then
        (({ s with reqs := s.reqs.filter fun x => x.id ≠ r.id }).modGroup core slot fun g => g.retire cls).retireClass core slot cls n
      else s

/-- All that can retire of one request's class does, and what waited is tried. -/
def State.retireAfter (s : State) (r : EngReq) : State := (s.retireClass r.core r.slot r.cls 64).retryAll

/-- Lanes of a flight are refused after its issue (R355, R372, R378, R398, R402): they perform nothing, and the split that issued
the instruction reports them with that instruction's address: at once while it waits for the flight, and else at its next
issue. (Log entry 44.) -/
def State.refuseLanes (s : State) (f : Flight) (cause code : Nat) (out : List LaneAcc) : State :=
  match out with
  | [] => s
  | a :: _ =>
    let left := f.lanes.filter fun x => !(out.contains x)
    let lost := maskOf fun l => out.any fun x => x.lane = l.val
    let fr : Frame :=
      { cause := cause, code := code, write := f.acc.isWrite, pc := f.pc, mask := lost
        done := f.done ||| maskOf fun l => left.any fun x => x.lane = l.val
        h0 := BitVec.ofNat 32 a.va, h1 := BitVec.ofNat 32 (a.va / 2 ^ 32 % 2 ^ 24), h2 := (f.idx.lookup a.lane).getD 0
        h3 := BitVec.ofNat 32 a.lane }
    let gone := s.modFlight f.id fun x => { x with lanes := left, performed := left.isEmpty && x.held.isEmpty }
    match (s.groupAt f.core f.slot).bind fun g => g.waiter f.id with
    | some x => match x.wait with
      | .held _ => (s.modFlight f.id fun y => { y with lanes := left }).refuseHeld { f with lanes := left } fr
      | .trapAfter k y => gone.modGroup f.core f.slot fun g => g.modSplit x.age fun z =>
          { z with wait := .trapAfter k { y with done := y.done &&& ~~~lost } }
      | _ => gone
    | none => gone.modGroup f.core f.slot fun g =>
        { g with reports := enterReport { req := f.id, frame := fr, split := some f.split } g.reports }

end Sys2Proof.Machine
end

