-- ==== Sys2Proof/Machine/Collective.lean ====
section
/-! DEFINITION. Collectives: COLL, the service's chunks, stops and resumption, and the completion of a
collective (R221 to R224, R330 to R335, R396, R397). -/

namespace Sys2Proof.Machine

/-! ### Descriptors and communicators -/

/-- A descriptor's fields (R222). -/
def collOp (d : Word) : Nat := bget d 0 3
def collType (d : Word) : Nat := bget d 3 3
def collRop (d : Word) : Nat := bget d 6 2
def collComm (d : Word) : Nat := bget d 8 6
def collRoot (d : Word) : Nat := bget d 16 16

/-- Bytes of an element of a type (R222). -/
def typeBytes (t : Nat) : Nat := if t = 1 then 8 else if t = 3 ∨ t = 4 then 2 else 4

/-- The COMM record of a communicator, and its fields (R330). -/
def State.comm (s : State) (m : Nat) : BitVec 256 := vget s.regs.comm m 0
def commPart (c : BitVec 256) : Nat := bget c 0 4
def commBound (c : BitVec 256) : Bool := bbit c 4
def commChannel (c : BitVec 256) : Nat := bget c 5 3
def commPrio (c : BitVec 256) : Nat := bget c 8 2
def commDies (c : BitVec 256) : List Nat := (List.range 8).filter fun i => bbit c (10 + i)
def commDevices (c : BitVec 256) : Nat := bget c 18 8 + 1
def commDevrank (c : BitVec 256) : Nat := bget c 26 8
def commProgress (c : BitVec 256) : Nat := bget c 64 32

/-- A communicator's members (R331): their number, and the rank of this device's member on a die. -/
def commSize (c : BitVec 256) : Nat := commDevices c * (commDies c).length
def commRank (c : BitVec 256) (die : Nat) : Nat :=
  commDevrank c * (commDies c).length + ((commDies c).filter fun i => decide (i < die)).length

/-- The device with a COMM record changed. -/
def State.setComm (s : State) (m : Nat) (c : BitVec 256) : State :=
  { s with regs := { s.regs with comm := vset s.regs.comm m c } }

/-- A tile register's address and length (R221). -/
def tileAddr (t : BitVec 64) : Nat := bget t 0 21
def tileLen (t : BitVec 64) : Nat := bget t 32 22

/-! ### Start -/

/-- The die of a block. -/
def State.blockDie (s : State) (id : Nat) : Nat :=
  match s.block id with
  | some b => coreDie (b.cores.headD 0)
  | none => 8

/-- A byte of a block's scratchpad by its address (R60). -/
def State.blockByte (s : State) (id a n : Nat) : Option (Nat × Nat) :=
  match s.block id with
  | some b => s.spmIn (b.cores.headD 0) id a n
  | none => none

/-- A tile lies wholly in its block's shares: its first byte that does not, if any (R388, R396). -/
def State.tileHole (s : State) (id : Nat) (t : BitVec 64) (lo n : Nat) : Option Nat :=
  ((List.range ((n + 127) / 128)).find? fun k => (s.blockByte id (tileAddr t + lo + 128 * k) (min 128 (n - 128 * k))).isNone).map
    fun k =>
      let a := tileAddr t + lo + 128 * k
      a + ((List.range 128).find? fun j => (s.blockByte id (a + j) 1).isNone).getD 0

/-- The COMM records of a communicator's other devices, as far as the pod names them, break R331: an unequal channel, prio,
diemask or ndev_m1, or a devrank that two devices have. (Log entry 25.) -/
def State.commBreach (s : State) (m : Nat) : Bool :=
  let l := (s.env.comms.filter fun x => x.1 = m).map fun x => x.2
  let c := s.comm m
  decide (1 < commDevices c) &&
    (l.any (fun x => bget x 5 21 != bget c 5 21) || ((c :: l).map commDevrank).eraseDups.length != l.length + 1)

/-- The runs of a communicator that have started, on this device's dies of it in ascending order: the
oldest of each die. (Log entry 25.) -/
def State.members (s : State) (m : Nat) : List CollRun :=
  (commDies (s.comm m)).filterMap fun d => s.colls.find? fun r => r.started && r.comm = m && r.die = d

/-- The collectives of other dies that belong with the next one of a die on a communicator: as many stand before each on its
die (R223, R224). -/
def State.partners (s : State) (m die order : Nat) : List CollRun :=
  let on := fun (d : Nat) => s.colls.filter fun x => x.started && x.comm = m && x.die = d && x.order ≠ order
  ((commDies (s.comm m)).filter fun d => d ≠ die).filterMap fun d => (on d)[(on die).length]?

/-- The code with which a collective cannot start (R396), the lowest that applies; 0 for none. (Log entry 25.) -/
def State.collBad (s : State) (r : CollRun) : Nat :=
  match r.args with
  | [] => 1
  | a :: rest =>
    let d := a.desc
    let op := collOp d
    let m := collComm d
    let c := s.comm m
    let part := match s.block r.block with
      | some b => b.part
      | none => 0
    let die := s.blockDie r.block
    let tile := match s.block r.block with
      | some b => vget b.tiles a.treg 0
      | none => 0
    if rest.any fun x => x.treg ≠ a.treg || x.desc ≠ d || x.obj ≠ a.obj then 1
    else if !commBound c || commPart c ≠ part || !(s.collEn part).1 then 2
    else if decide (4 < op) || decide (4 < collType d) || collRop d = 3 || bget d 14 2 != 0 ||
        (op != 0 && op != 2 && (collType d != 0 || collRop d != 0)) ||
        (op != 3 && collRoot d != 0) || decide (commSize c ≤ collRoot d) || !(commDies c).contains die ||
        (s.colls.any fun x => x.started && x.comm = m && x.die = die && x.block ≠ r.block) || s.commBreach m then 3
    else if op != 4 && ((decide (op ≤ 1) && tileLen tile % (128 * commSize c) != 0) ||
        ((s.partners m die r.order).any fun x => tileLen x.tile ≠ tileLen tile) ||
        (s.tileHole r.block tile 0 (tileLen tile)).isSome) then 4
    else if decide (1 < commDevices c) && (commDies c).any (fun i => (s.dieAt i).rail.failed) then 6
    else 0

/-- A communicator without a started collective has moved no chunk of one (R330). (Log entry 25.) -/
def State.clearProgress (s : State) (m : Nat) : State :=
  if s.colls.any fun x => x.started && x.comm = m then s else s.setComm m (bset (s.comm m) 64 32 0)

/-- A collective that cannot start, or cannot go on for a failed rail: its counters retire, those of a frozen block when it
comes back, and every group of the block has its report (R85, R396, R398). -/
def State.collFail (s : State) (r : CollRun) (code : Nat) : State :=
  let m := match r.args with
    | a :: _ => collComm a.desc
    | [] => 0
  let s1 := r.args.foldl (fun t a =>
    match t.reqs.find? fun x => x.id = a.req with
    | none => t
    | some q => (t.report q ⟨0x14, code, false, 0⟩ 0 0 (commProgress (t.comm m))).modReq q.id fun x => { x with done := true }) s
  let s2 := { s1 with colls := s1.colls.filter fun x => x.order ≠ r.order }
  let s3 := if r.started then s2.clearProgress m else s2
  r.args.foldl (fun t a =>
    match t.reqs.find? fun x => x.id = a.req with
    | none => t
    | some q => if q.detached then t.modReq q.id fun x => { x with retired := true } else t.retireAfter q) s3

/-- The last group has issued: the collective starts, or is reported (R224, R396). -/
def State.collStart (s : State) (r : CollRun) : State :=
  let part := match s.block r.block with
    | some b => b.part
    | none => 0
  let s1 := (s.collEn part).2
  match s1.collBad r with
  | 0 =>
    { s1 with colls := modFirst (fun x => x.order = r.order) (fun x =>
        { x with started := true, die := s1.blockDie r.block
                 comm := match r.args with
                   | a :: _ => collComm a.desc
                   | [] => 0
                 tile := match s1.block r.block, r.args with
                   | some b, a :: _ => vget b.tiles a.treg 0
                   | _, _ => 0 }) s1.colls }
  | code => s1.collFail r code

/-- A group's COLL joins the block's oldest collective that it has not yet issued (R224). (Log entry 25.) -/
def State.collJoin (s : State) (arg : CollArg) : State :=
  let blk := s.g.block
  let mine := fun (x : CollRun) => x.block = blk && !(x.args.any fun a => a.producer = arg.producer)
  let s1 :=
    if s.colls.any mine then { s with colls := modFirst mine (fun x => { x with args := x.args ++ [arg] }) s.colls }
    else { s with
      collSeq := s.collSeq + 1
      colls := s.colls ++ [{ block := blk, order := s.collSeq, args := [arg], started := false, die := 0, comm := 0
                             tile := 0, stopped := false, owing := 0, touched := [] }] }
  match s1.colls.find? fun x => x.block = blk && x.args.any fun a => a.req = arg.req, s1.block blk with
  | some r, some b => if r.args.length = b.groups then s1.collStart r else s1
  | _, _ => s1

/-- COLL (R222, R224). -/
def execColl (b a : BitVec 8) (t : BitVec 3) (s : State) : Out :=
  let i := Instr.coll b a t
  requestOp i s 3 fun u =>
    let arg : CollArg :=
      { producer := u.g.producer, req := u.nextId, treg := t.toNat, desc := u.scalar (selOf a), obj := u.scalar (selOf b) }
    .next (((u.addRequest 3 1 (.coll (collComm arg.desc)) none 0 0).finish i).collJoin arg).retryAll

/-! ### Chunks -/

/-- A chunk's bytes (R333). -/
def chunkBytes : Nat := 65536

/-- Chunks of a part of each die (R332, R333). -/
def partChunks (c : BitVec 256) (len : Nat) : Nat := (len / (commDies c).length + chunkBytes - 1) / chunkBytes

/-- Chunks of a collective on this device: none for a barrier. -/
def totalChunks (c : BitVec 256) (op len : Nat) : Nat := if op = 4 then 0 else (commDies c).length * partChunks c len

/-- Where chunk n lies in every tile: the parts of the dies take turns (R332). (Log entry 26.) -/
def chunkRange (c : BitVec 256) (len n : Nat) : Nat × Nat :=
  let p := (commDies c).length
  let part := len / p
  let lo := chunkBytes * (n / p)
  (n % p * part + lo, min chunkBytes (part - lo))

/-- The combination of two elements (R223). -/
def combine (type rop : Nat) (a b : Nat) : Nat :=
  if type = 2 then
    if rop = 0 then (a + b) % 2 ^ 32
    else if decide (toSigned 32 a ≤ toSigned 32 b) = decide (rop = 1) then a else b
  else
    let f := if type = 0 then fp32 else if type = 1 then fp64 else if type = 3 then bf16 else fp16
    if rop = 0 then (addF f .rne a b).1 else (minmaxF f (rop = 2) a b).1

/-- The reduction of the members' values by rank: the tree of R109 over any number of ranks (R223). A lone
floating-point value keeps its bits. -/
def reduceRanks (type rop : Nat) (l : List Nat) : Nat :=
  ((treeFold (fun a b => (combine type rop a b, 0)) 16 (l.map some)).1).getD 0

/-- The bytes that a member of a rank ends with in n bytes from an offset on (R223): byte gives every
rank's byte at an offset before the collective. -/
def collBytes (d : Word) (size len rank lo n : Nat) (byte : Nat → Nat → Nat) : List Nat :=
  let op := collOp d
  let sz := typeBytes (collType d)
  let reduced := fun o =>
    let e := o / sz * sz
    let v := fun r => ofBytes ((List.range sz).map fun k => BitVec.ofNat 8 (byte r (e + k)))
    reduceRanks (collType d) (collRop d) ((List.range size).map v) / 256 ^ (o % sz) % 256
  (List.range n).map fun k =>
    let o := lo + k
    let part := len / size
    if op = 0 then (if o / part = rank then reduced o else byte rank o)
    else if op = 1 then byte (o / part) o
    else if op = 2 then reduced o
    else byte (collRoot d) o

/-- The collective of a run stops at its member's byte: each group of the block has a report (R397). -/
def State.collStop (s : State) (r : CollRun) (addr : Nat) : State :=
  let stop := fun (x : CollRun) => { x with stopped := true, owing := x.args.length }
  let s1 := { s with colls := modFirst (fun x => x.order = r.order) stop s.colls }
  r.args.foldl (fun t a =>
    match t.reqs.find? fun x => x.id = a.req with
    | none => t
    | some q => t.report q ⟨0x14, 5, false, 0⟩ addr 0 (commProgress (t.comm r.comm))) s1

/-- Every member of this device has started and none is stopped, and each has had its stores performed
(R82, R224). -/
def State.collReady (s : State) (m : Nat) : Bool :=
  let l := s.members m
  l.length = (commDies (s.comm m)).length && l != [] && l.all fun r => !r.stopped && r.args.all fun a =>
    match s.reqs.find? fun q => q.id = a.req with
    | some q => s.priorDone q
    | none => true

/-- The remote ranks of a communicator are all delivered, with so many bytes at least. (Log entry 26.) -/
def remoteReady (c : BitVec 256) (remote : List RemoteTile) (n : Nat) : Bool :=
  (List.range (commSize c)).all fun r =>
    r / (commDies c).length = commDevrank c || remote.any fun t => t.rank = r && decide (n ≤ t.bytes.length)

/-- The flits of a chunk (R328). -/
def flitsOf (n : Nat) : Nat := (n + 255) / 256

/-- The next chunk of a communicator is ready on a die's rail, which carries collectives only once the device has its
number (R314, R333, R334). (Log entry 26.) -/
def State.chunkReady (s : State) (die m : Nat) : Bool :=
  let c := s.comm m
  match s.members m with
  | [] => false
  | r :: _ =>
    let d := r.args.head?.elim 0 fun a => a.desc
    let n := commProgress c
    let range := chunkRange c (tileLen r.tile) n
    let rail := (s.dieAt die).rail
    s.collReady m && decide (n < totalChunks c (collOp d) (tileLen r.tile)) &&
    (commDies c)[n % (commDies c).length]? = some die &&
    (commDevices c = 1 ||
      (bbit s.regs.devnum 8 && decide (Smap.get 0 rail.buffers m < 2) && rail.takes (flitsOf range.2) &&
        remoteReady c (s.ev.remote.filter fun t => t.comm = m) (range.1 + range.2)))

/-- How far a number lies behind another in a cycle. -/
def cyclic (n last x : Nat) : Nat := (x + n - 1 - last % n) % n

/-- The communicator whose chunk a die's port sends next (R333): the highest prio, then the next channel,
then the next communicator of that channel, in turn. (Log entry 26.) -/
def State.chunkChoice (s : State) (die : Nat) : Option Nat :=
  let rail := (s.dieAt die).rail
  let key := fun m =>
    let c := s.comm m
    ((3 - commPrio c) * 8 + cyclic 8 rail.lastChan (commChannel c)) * 64 + cyclic 64 (Smap.get 63 rail.lastComm (commChannel c)) m
  ((List.range 64).filter fun m => s.chunkReady die m).foldl (fun best m =>
    match best with
    | none => some m
    | some b => if key m < key b then some m else some b) none

/-- A chunk leaves a rail: its flits enter the replay store, and a buffer of the receiver is taken (R328,
R334). (Log entry 26.) -/
def Rail.sendChunk (r : Rail) (chan m n : Nat) : Rail :=
  { r.send chan (flitsOf n) with
    lastChan := chan, lastComm := Smap.set 63 r.lastComm chan m
    buffers := Smap.set 0 r.buffers m (Smap.get 0 r.buffers m + 1) }

/-- A member's byte before the collective: of this device from its scratchpad, of another as delivered.
(Log entry 26.) -/
def State.memberByte (s : State) (m : Nat) (rank o : Nat) : Nat :=
  let c := s.comm m
  if rank / (commDies c).length = commDevrank c then
    match (s.members m)[rank % (commDies c).length]? with
    | some r => match s.blockByte r.block (tileAddr r.tile + o) 1 with
      | some x => (Memory.read (s.coreAt x.1).scratch x.2).toNat
      | none => 0
    | none => 0
  else match s.ev.remote.find? fun t => t.comm = m && t.rank = rank with
    | some t => t.bytes.getD o 0
    | none => 0

/-- Bytes written to a member's tile. -/
def State.tileWrite (s : State) (id a : Nat) : List Nat → State
  | [] => s
  | x :: r =>
    (match s.blockByte id a 1 with
      | some y => s.modCore y.1 fun c => { c with scratch := Memory.write c.scratch y.2 (BitVec.ofNat 8 x) }
      | none => s).tileWrite id (a + 1) r

/-- One chunk of a collective (R332, R333, R335, R397). (Log entry 26.) -/
def State.chunk (s : State) (die m : Nat) : State :=
  let c := s.comm m
  let l := s.members m
  match l with
  | [] => s
  | first :: _ =>
    let d := first.args.head?.elim 0 fun a => a.desc
    let len := tileLen first.tile
    let range := chunkRange c len (commProgress c)
    -- the event may say that a byte of a member's tile failed in its scratchpad
    let failed := fun (r : CollRun) => if s.ev.store && r.block = s.ev.blk then some s.ev.va else none
    match l.findSome? fun r => (s.tileHole r.block r.tile range.1 range.2 <|> failed r).map fun a => (r, a) with
    | some (r, a) => s.collStop r a
    | none =>
      let out := l.map fun r => (r, collBytes d (commSize c) len (commRank c r.die) range.1 range.2 (s.memberByte m))
      let s1 := out.foldl (fun t x => t.tileWrite x.1.block (tileAddr x.1.tile + range.1) x.2) s
      let s2 := s1.setComm m (bset c 64 32 (commProgress c + 1))
      if commDevices c = 1 then s2
      else s2.modDie die fun x => { x with rail := x.rail.sendChunk (commChannel c) m range.2 }

/-- COLLECTIVE_CHUNK_SEND: a chunk boundary at the port of the die the event names (R333); its argument store says that a
byte of a member block's tile fails in the scratchpad (R397, R404). (Log entry 30.) -/
def execCollectiveChunkSend (s : State) : Out :=
  .next (match s.chunkChoice s.ev.die with
    | some m => (s.chunk s.ev.die m).retryAll
    | none => s)

/-- CHUNK_CREDIT_RETURN: the receiver of a die's rail has consumed a chunk of a communicator (R334). -/
def execChunkCreditReturn (s : State) : Out :=
  .next (s.modDie s.ev.die fun x =>
    { x with rail := { x.rail with buffers := Smap.set 0 x.rail.buffers s.ev.comm (Smap.get 0 x.rail.buffers s.ev.comm - 1) } })

/-- COLLECTIVE_RESUME: every group of a faulting block has returned from its report, so the service goes on
at COMM.progress with the tile register as it now stands, once the block stands again as a whole (R299, R397). -/
def execCollectiveResume (s : State) : Out :=
  .next { s with colls := s.colls.map fun r =>
    if r.stopped && r.owing = 0 && r.comm = s.ev.comm then
      match s.block r.block, r.args with
      | some b, a :: _ =>
        if b.restoring.isSome then r else { r with stopped := false, tile := vget b.tiles a.treg 0, die := s.blockDie r.block }
      | _, _ => r
    else r }

/-- One arrival of the service on a member's barrier object (R217, R224): an object that is none takes no
arrival. (Log entry 27.) -/
def State.serviceArrive (s : State) (id : Nat) (obj : Word) : State :=
  match (if obj.toNat % 16 = 0 then s.blockByte id obj.toNat 16 else none) with
  | none => s
  | some o =>
    let x := s.spmRead o 16
    if abarBad x then s else s.spmWrite o 16 (abarArrive x 1)

/-- The bytes of a member's tile that its block wrote while the collective ran hold no specified value: each
takes a free one (R224). (Log entry 4.) -/
def State.spoil (s : State) (r : CollRun) : State :=
  let d := r.args.head?.elim 0 fun a => a.desc
  (List.range (if collOp d = 4 then 0 else tileLen r.tile)).foldl (fun t k =>
    match t.blockByte r.block (tileAddr r.tile + k) 1 with
    | some x =>
      if r.touched.contains x then
        { t with free := t.free + 1 }.modCore x.1 fun c =>
          { c with scratch := Memory.write c.scratch x.2 (Config.freeByte t.free) }
      else t
    | none => t) s

/-- A member's collective is complete: the arrival, then the counters retire (R224). -/
def State.collFinish (s : State) (r : CollRun) : State :=
  let s1 := (s.spoil r).serviceArrive r.block (r.args.head?.elim 0 fun a => a.obj)
  let s2 := r.args.foldl (fun t a => t.modReq a.req fun q => { q with done := true })
    { s1 with colls := s1.colls.filter fun x => x.order ≠ r.order }
  r.args.foldl (fun t a =>
    match t.reqs.find? fun q => q.id = a.req with
    | none => t
    | some q => if q.detached then t.modReq q.id fun x => { x with retired := true } else t.retireAfter q) s2

/-- A communicator's collective has moved every chunk; a barrier needs every member to have issued. -/
def State.collOver (s : State) (m : Nat) : Bool :=
  let c := s.comm m
  match s.members m with
  | [] => false
  | r :: _ =>
    let op := collOp (r.args.head?.elim 0 fun a => a.desc)
    s.collReady m && decide (totalChunks c op (tileLen r.tile) ≤ commProgress c) &&
    (op != 4 || commDevices c = 1 || remoteReady c (s.ev.remote.filter fun t => t.comm = m) 0)

/-- COLLECTIVE_COMPLETE: the collective of the event's communicator is complete on this device's members
(R224, R330). (Log entry 26.) -/
def execCollectiveComplete (s : State) : Out :=
  .next (if s.collOver s.ev.comm then
      let c := s.comm s.ev.comm
      let s1 := s.setComm s.ev.comm (bset (bset c 64 32 0) 96 32 (bget c 96 32 + 1))
      ((s.members s.ev.comm).foldl (fun t r => t.collFinish r) s1).retryAll
    else s)

end Sys2Proof.Machine
end

