-- ==== Sys2Proof/Machine/Control.lean ====
section
/-! DEFINITION. Control flow and progress: major 27, the control parcels and BEAT (R28 to R35, R116,
R117, R124, R128 to R132, R171 to R178, R180). -/

namespace Sys2Proof.Machine

/-- The condition of a lane in format B (R124). -/
def Group.cond (g : Group) (p : BitVec 3) (sense : BitVec 1) (l : Lane) : Bool :=
  g.pred p.toNat l != (sense = 1#1)

/-- The condition holds in the split's lowest active lane (R171). -/
def State.lowCond (s : State) (p : BitVec 3) (sense : BitVec 1) : Bool :=
  match lowest s.act with
  | none => false
  | some l => s.g.cond p sense l

/-- The target of a 19-bit offset, counted in parcels from the branch (R117). -/
def State.target (s : State) (o : BitVec 19) : Addr := s.g.sp.pc + (o.signExtend 56) * 2

/-- The target of BRX and CALLX (R173): so many parcels from the entry point. -/
def State.targetX (s : State) (r : BitVec 7) : Addr :=
  let base := match s.codeOf s.g s.g.sp with
    | none => 0
    | some k => k.entry
  base + BitVec.ofNat 56 (2 * (s.scalar r.toNat).toNat)

/-- A uniform branch (R171). -/
def uniform (i : Instr) (s : State) (taken : State → Bool) (target : State → Addr) : Out :=
  run i s fun t => .next (if taken t then t.jump (target t) else t.finish i)

/-- A taken call pushes the return address; a full call stack is an illegal use (R172, R359). -/
def callTo (i : Instr) (s : State) (taken : State → Bool) (target : State → Addr) : Out :=
  run i s fun t =>
    if taken t then
      if 8 ≤ t.g.sp.calls.length then operandTrap i t
      else .next ((t.jump (target t)).modSp fun sp => { sp with calls := (t.g.sp.pc + 4) :: sp.calls })
    else .next (t.finish i)

/-- BRA (R171). -/
def execBra (o : BitVec 19) (n : BitVec 1) (p : BitVec 3) (s : State) : Out :=
  uniform (.bra o n p) s (fun t => t.lowCond p n) fun t => t.target o

/-- BRC (R28, R29, R171): the split moves whole, divides, or serialises. Trap-mode code always
serialises (R294). -/
def execBrc (o : BitVec 19) (n : BitVec 1) (p : BitVec 3) (s : State) : Out :=
  run (.brc o n p) s fun t =>
    let taken := maskOf fun l => laneIn t.act l && t.g.cond p n l
    let fall := t.g.sp.pc + 4
    if taken = 0 then .next (t.finish (.brc o n p))
    else if taken = t.act then .next (t.jump (t.target o))
    else if t.g.splitCount < 4 ∧ t.g.sp.trap = false then
      .next (t.modG fun g => g.divide taken (t.target o) fall)
    else if 4 ≤ t.g.sp.joins.length then operandTrap (.brc o n p) t
    else .next (t.modG fun g => g.serialise taken (t.target o) fall)

/-- CALL (R171, R172). -/
def execCall (o : BitVec 19) (n : BitVec 1) (p : BitVec 3) (s : State) : Out :=
  callTo (.call o n p) s (fun t => t.lowCond p n) fun t => t.target o

/-- BRX (R173). -/
def execBrx (r : BitVec 7) (n : BitVec 1) (p : BitVec 3) (s : State) : Out :=
  uniform (.brx r n p) s (fun t => t.lowCond p n) fun t => t.targetX r

/-- CALLX (R172, R173). -/
def execCallx (r : BitVec 7) (n : BitVec 1) (p : BitVec 3) (s : State) : Out :=
  callTo (.callx r n p) s (fun t => t.lowCond p n) fun t => t.targetX r

/-- JSET (R27, R171): an entry with an empty deferral; a full join stack is an illegal use. (Log entry 13.) -/
def execJset (o : BitVec 19) (s : State) : Out :=
  run (.jset o) s fun t =>
    if 4 ≤ t.g.sp.joins.length then operandTrap (.jset o) t
    else .next ((t.finish (.jset o)).modSp fun sp =>
      { sp with joins := { join := some (t.target o), deferred := false, resume := 0, pending := 0, whole := 0 } :: sp.joins })

/-- LOOP (R174): the count in s0 to s7 falls by one, once for the split, and q does not shift. -/
def execLoop (o : BitVec 19) (n : BitVec 3) (s : State) : Out :=
  run (.loop o n) s fun t =>
    let x := vget t.g.s n.toNat 0 - 1
    let u := t.modG fun g => { g with s := vset g.s n.toNat x }
    .next (if x ≠ 0 then u.jump (t.target o) else u.finish (.loop o n))

/-- NOP (R175). -/
def execNop (s : State) : Out := complete .nop s id

/-- YIELD (R175): the split waits until every other group of its issue partition that is ready now has
issued, or 64 issue slots have passed. (Log entry 54.) -/
def execYield (s : State) : Out :=
  run .yield s fun t =>
    let gs := t.others.filter fun x =>
      !t.g.service && x.core = t.g.core && !x.service && issuePart x.slot = issuePart t.g.slot && t.groupReady x
    let u := t.finish .yield
    .next (if gs = [] then u else u.park (.yielded (gs.map fun x => x.slot) ((t.coreAt t.g.core).slotNo t.g.partNo + 64)))

/-- EXIT (R33); illegal in trap mode (R175). -/
def execExit (s : State) : Out :=
  run .exit s fun t =>
    if t.g.sp.trap then operandTrap .exit t
    else .next (t.modG fun g => g.exitLanes t.act (g.sp.pc + 2))

/-- RET (R172, R175); an empty call stack is an illegal use. -/
def execRet (s : State) : Out :=
  run .ret s fun t =>
    match t.g.sp.calls with
    | [] => operandTrap .ret t
    | a :: r => .next ((t.jump a).modSp fun sp => { sp with calls := r })

/-- JOIN (R31, R172): nothing, when the top entry is not of this address; else the splits concerned
become one once all of them stand here. -/
def execJoin (s : State) : Out :=
  run .join s fun t =>
    let j := t.g.sp.pc
    if !joiner j t.g.sp.calls t.g.sp then .next (t.finish .join)
    else if (t.g.splits.filter fun x => x.mask != 0 && joiner j t.g.sp.calls x).all (standsAt j) then
      .next (t.modG fun g => g.joinAt j (j + 2))
    else waits t

/-- BRS (R175). -/
def execBrs (o : BitVec 10) (s : State) : Out :=
  run (.brs o) s fun t => .next (t.jump (t.g.sp.pc + (o.signExtend 56) * 2))

/-- SLEEP (R175): not ready for n cycles of the cluster clock; 0 acts as NOP. -/
def execSleep (n : BitVec 10) (s : State) : Out :=
  run (.sleep n) s fun t =>
    let u := t.finish (.sleep n)
    .next (if n = 0 then u
      else u.park (.sleep ((t.clusterAt (coreCluster t.g.core)).cycle + n.toNat)))

/-- GRD (R128): the active lanes sample the predicate once, and a window opens over the next count
instructions. (Log entry 12.) -/
def execGrd (c : BitVec 2) (n : BitVec 1) (p : BitVec 3) (s : State) : Out :=
  run (.grd c n p) s fun t =>
    let pass := maskOf fun l => laneIn t.act l && t.g.cond p n l
    .next ((t.finish (.grd c n p)).modSp fun sp =>
      { sp with guardLeft := c.toNat + 1, guardPass := pass })

/-- The payload of an XM, bit k standing for bit 6 + k of the parcel (R130). -/
def xmPayload (d : BitVec 2) (e sat r b m a n : BitVec 1) : BitVec 10 :=
  (0#1 ++ d ++ e ++ sat ++ r ++ b ++ m ++ a ++ n)

/-- XM (R131, R132): it takes effect with the next instruction its split issues, in the same slot, and the pair counts
as one instruction in a guard window. A pending re-issue stays for the instruction. (Log entry 11.) -/
def execXm (d : BitVec 2) (e sat r b m a n : BitVec 1) (s : State) : Out :=
  match gate (.xm d e sat r b m a n) s with
  | .go => .next (s.modSp fun sp =>
      { sp with pc := sp.pc + 2, wait := .none, xm := some (xmPayload d e sat r b m a n) })
  | .trap f => .next (s.takeTrap f)
  | .block => .next (s.park (.empty true))

/-- The aligned period of length 2^n that holds an instant (R268). (Log entry 36.) -/
def periodOf (n now : Nat) : Nat × Nat := (now / 2 ^ n * 2 ^ n, now / 2 ^ n * 2 ^ n + 2 ^ n)

/-- The beats of a context of which nothing was kept yet (R177, R268). -/
def Beats.fresh (part ctx : Nat) (cfg : LoopCfg) (now : Nat) : Beats :=
  { part := part, ctx := ctx, cfg := cfg, nextCfg := cfg, start := (periodOf cfg.log2 now).1
    stop := (periodOf cfg.log2 now).2, count := 0, last := 0, lastIdle := true, idle := false, noted := false }

/-- Add to a context's beat count, saturating at 2^32 − 1 per period (R177). -/
def State.addBeats (s : State) (part ctx n : Nat) : State :=
  let add := fun (b : Beats) => { b with count := min (b.count + n) (2 ^ 32 - 1) }
  if s.beats.any fun b => b.part = part && b.ctx = ctx then
    { s with beats := modFirst (fun b => b.part = part && b.ctx = ctx) add s.beats }
  else { s with beats := s.beats ++ [add (Beats.fresh part ctx LoopCfg.default s.timer)] }

/-- BEAT (R177): once per issue, whatever the number of active lanes. -/
def execBeat (i : BitVec 10) (s : State) : Out :=
  complete (.beat i) s fun t =>
    match t.launch with
    | none => t
    | some l => (t.addBeats l.part l.ctx (i.toNat + 1)).tally 12 (i.toNat + 1) (some t.g.core) (coreDie t.g.core)

/-- TFENCE (R178, R353): a flag that the launch enables raises the arithmetic trap, behind the
TFENCE; no flag is cleared. -/
def execTfence (s : State) : Out :=
  run .tfence s fun t =>
    let en := match t.launch with
      | none => 0
      | some l => l.eff.trapEnable
    let hit := t.g.arithFlags &&& en
    if hit = 0 then .next (t.finish .tfence)
    else .next (t.takeTrap { t.frame 0x11 hit.toNat 0 0 0 0 with pc := t.g.sp.pc + 2 })

/-- TRAPI (R180): a deliberate trap, resumed behind it; an illegal use in trap mode. -/
def execTrapi (i : BitVec 8) (s : State) : Out :=
  run (.trapi i) s fun t =>
    if t.g.sp.trap then operandTrap (.trapi i) t
    else .next (t.takeTrap { t.frame 0x10 i.toNat 0 0 0 0 with pc := t.g.sp.pc + 4 })

end Sys2Proof.Machine
end

