-- ==== Sys2Proof/Machine/Engine.lean ====
section
/-! DEFINITION. The device's own steps on accesses and engine requests: performing, filling, stopping,
retiring, missed promises, deferred reports, and the ends of waits (R54, R72, R82 to R85, R175, R207, R215,
R239, R259, R260, R387 to R392). -/

namespace Sys2Proof.Machine

/-! ### Flights -/

/-- A flight of the machine by its number. -/
def State.flight (s : State) (id : Nat) : Option Flight := s.flights.find? fun f => f.id = id

/-- LONG_LATENCY_FILL: a flight whose lanes are all performed writes its results (R54). (Log entry 7.) -/
def execLongLatencyFill (s : State) : Out :=
  .next (match s.flight s.ev.id with
    | some f => if f.performed then s.fillFlight f else s
    | none => s)

/-- The lanes of a flight that a step performs: those on one line where the event names one of a plain load
or store of device memory, else all (R71, R72). (Log entry 53.) -/
def pickLanes (f : Flight) (line : Nat) (a : LaneAcc) : Bool :=
  match f.acc, a.tgt with
  | .load _ _ _, .dev pa => line = 0 || pa / 128 + 1 = line
  | .store _ _, .dev pa => line = 0 || pa / 128 + 1 = line
  | _, _ => line = 0

/-! ### Requests -/

/-- A copy that touches memory only, which goes on while its group is frozen (R85, R298). -/
def EngReq.memoryOnly (r : EngReq) : Bool :=
  match r.kind with
  | .copy src dst _ _ _ _ => !src.scr && !dst.scr
  | _ => false

/-- The next piece of a request (R82, R211 to R213, R232, R233, R240 to R243). Quarter-operations wait for
the arbiter, collectives for their service. (Log entry 53.) -/
def State.piece (s : State) (r : EngReq) : Moved :=
  if r.done || r.stopped.isSome || !s.priorDone r || s.requestBehind r || (r.detached && !r.memoryOnly) then .waits s
  else match r.kind with
    | .copy src dst rows rowlen sp dp => s.copyPiece r src dst rows rowlen sp dp
    | .gather x idx base => s.lanePiece r x idx base false
    | .scatter x idx base => s.lanePiece r x idx base true
    | .mma _ _ _ _ _ _ => .waits s
    | .coll _ => .waits s
    | _ => s.matrixPiece r

/-- A request that waits for an absent page is marked so. -/
def State.markWaiting (s : State) (id : Nat) : State := s.modReq id fun r => { r with waiting := true }

/-- ACCESS_PERFORMED: some lanes of a flight, or the next piece of an engine request, are performed (R72). A
request that meets a failing check is stopped by the step that follows, which tells what the check found (R390). Lanes that
meet a poisoned line behind their issue are refused (R402). (Log entry 7.) -/
def execAccessPerformed (s : State) : Out :=
  .next (match s.flight s.ev.id with
    | some f =>
      if s.mayPerform f && !s.flightBehind f then
        let bad := s.spoilt f (f.lanes.filter (pickLanes f s.ev.line))
        match bad.head? with
        | some a => (s.refuseLanes f 0x0E (Smap.get 0 s.poison (a.tgt.line.2.2)) bad).retryAll
        | none => s.performFlight f (pickLanes f s.ev.line)
      else s
    | none => match s.reqs.find? fun r => r.id = s.ev.id with
      | none => s
      | some r => match s.piece r with
        | .on t => t.retryAll
        | .waits t => t.markWaiting r.id
        | .stops _ _ => { s with agenda := .event .engineRequestStop { id := r.id } :: s.agenda })

/-- What a completion object meets (R215): its address, and a place or what refuses it. -/
def State.completionReach (s : State) (r : EngReq) (x : BitVec 128) (i : Nat) : Nat × Reached × State :=
  let va := recordEa x i
  let stop := fun (c k : Nat) => Reached.bad ⟨c, k, true, va⟩
  if !recordValid x then (va, stop 0x06 0, s)
  else if !recordCovers x i 8 then (va, stop 0x07 0, s)
  else if va % 8 ≠ 0 then (va, stop 0x09 0, s)
  else if recHost x then (va, stop 0x0B 0, s)
  else match s.lookup r.core r.part va true false (s.reqDomain r) with
    | (.leaf e, s1) =>
      if e.reach ≠ 0 then (va, stop 0x0B 0, s1)
      else if recReadOnly x then (va, stop 0x0C 0, s1)
      else
        let y := s1.engineReach r va true
        (va, y.1, y.2)
    | (.absent, s1) => if recReadOnly x then (va, stop 0x0C 0, s1) else (va, .absent, s1)
    | (_, s1) =>
      if recReadOnly x then (va, stop 0x0C 0, s1)
      else
        let y := s1.engineReach r va true
        (va, y.1, y.2)

/-- The completion object of a request whose writes are all performed (R84, R215). -/
def State.completionWrite (s : State) (r : EngReq) : Moved :=
  match r.compl with
  | none => .on s
  | some (x, i, v) =>
    match s.completionReach r x i with
    | (_, .bad st, s1) => .stops st s1
    | (_, .absent, s1) => .waits s1
    | (_, .ok t, s1) =>
      match s1.engineWrite (s1.reqVd r) ((List.range 8).map fun k => (t.plus k, BitVec.ofNat 8 (v / 256 ^ k))) with
      | none => .waits (s1.logFullEvent (s1.reqVd r))
      | some s2 => .on (s2.modReq r.id fun y => { y with compl := none, waiting := false })

/-- REQUEST_RETIRE: a request whose work is done writes its completion object, and what of its class can
retire does, in order (R83, R84). A request of a frozen group waits for its restoration (R85). -/
def execRequestRetire (s : State) : Out :=
  .next (match s.reqs.find? fun r => r.id = s.ev.id with
    | none => s
    | some r =>
      if !r.done || r.stopped.isSome then s
      else match s.completionWrite r with
        | .on t => if r.detached then t.modReq r.id fun x => { x with retired := true } else t.retireAfter r
        | .waits t => t.markWaiting r.id
        | .stops _ _ => { s with agenda := .event .engineRequestStop { id := r.id } :: s.agenda })

/-- The last h word of a stopped request's report (R388). -/
def State.stopWord (s : State) (r : EngReq) : Nat :=
  match r.kind with
  | .gather _ idx _ => ((idx.drop r.pos).map fun x => 2 ^ x.1).sum
  | .scatter _ idx _ => ((idx.drop r.pos).map fun x => 2 ^ x.1).sum
  | .copy _ _ _ _ _ _ => r.pos
  | _ => match s.groupAt r.core r.slot with
    | some g => (s.mrow g).toNat
    | none => 0

/-- A request stops where it stands, and its group has a report (R387, R388, R390). -/
def State.stopReq (s : State) (r : EngReq) (x : Stop) : State :=
  (s.modReq r.id fun y => { y with stopped := some x, waiting := false }).report r x (x.addr % 2 ^ 32)
    (x.addr / 2 ^ 32 % 2 ^ 24) (s.stopWord r)

/-- ENGINE_REQUEST_STOP: the request is stopped if its next piece, or its completion write, still fails
(R390, R400). -/
def execEngineRequestStop (s : State) : Out :=
  .next (match s.reqs.find? fun r => r.id = s.ev.id with
    | none => s
    | some r =>
      match (if r.done && r.stopped.isNone then s.completionWrite r else s.piece r) with
      | .stops x t => t.stopReq r x
      | _ => s)

/-- COPY_PROMISE_MISS: a copy's promise is reached with bytes unplaced (R392). -/
def execCopyPromiseMiss (s : State) : Out :=
  .next (match s.reqs.find? fun r => r.id = s.ev.id with
    | none => s
    | some r =>
      if r.cls ≠ 0 ∨ r.left = 0 ∨ s.timer < r.promise then s
      else
        let p := s.promiseAt r.part r.core r.kind r.promise (s.queuedBytes r.engine r.id) r.left
        ((s.modReq r.id fun x => { x with promise := p }).savePromise r p).report r ⟨0x12, 0, false, 0⟩ (p % 2 ^ 32) (p / 2 ^ 32) r.left)

/-! ### Reports -/

/-- The oldest report of a group that a split may take: one about an access only the split that made it, or one that
descends from it (R387, R398). (Log entry 44.) -/
def Group.reportFor (g : Group) (sp : Split) : Option Report := g.reports.find? fun x => x.split.all sp.anc.contains

/-- DEFERRED_REPORT_TRAP: a split of a group with a report traps before the instruction it would issue, for
the oldest report, while no split of the group is in trap mode and its cluster's clock runs (R387, R406).
(Log entry 49.) -/
def State.reportTrap (s : State) (core slot age : Nat) : State :=
  let t := s.focus core slot age
  if (s.groupAt core slot).isNone ∨ t.g.trapMode = true ∨ t.clockStopped (coreCluster core) = true then s
  else match t.g.reportFor t.g.sp with
    | none => s
    | some x =>
      let f := if x.split.isSome then x.frame else { x.frame with pc := t.issuePc, mask := t.act }
      (t.modG fun y => { y with reports := y.reports.erase x, curReport := if x.frame.cause = 0x12 ∨ x.split.isSome = true then none else some x.req }).takeTrap f

def execDeferredReportTrap (s : State) : Out := .next (s.reportTrap s.ev.core s.ev.slot s.ev.age)

/-! ### Waits that end -/

/-- A wait of the named split, of the kind that p names, ends when it is over. -/
def State.wake (s : State) (p : Wait → Bool) : State :=
  s.modGroup s.ev.core s.ev.slot fun g => g.modSplit s.ev.age fun sp =>
    if p sp.wait && s.waitOver g sp then { sp with wait := .none } else sp

/-- SLEEPT_WAKE (R207). -/
def execSleeptWake (s : State) : Out :=
  .next (s.wake fun w => match w with
    | .sleept _ => true
    | _ => false)

/-- SLEEP_WAKE (R175). -/
def execSleepWake (s : State) : Out :=
  .next (s.wake fun w => match w with
    | .sleep _ => true
    | _ => false)

/-- YIELD_END (R175): every other group that was ready has issued, or 64 slots have passed. (Log entry 54.) -/
def execYieldEnd (s : State) : Out :=
  .next (s.wake fun w => match w with
    | .yielded _ _ => true
    | _ => false)

/-- ACTIVITY_WINDOW: a new window of 32 cycles opens on the core (R191, R259, R260). -/
def execActivityWindow (s : State) : Out :=
  .next (s.modAct s.ev.core fun c => c).retryAll

/-- LEASE_IDLE_END: the lease of a cluster's engine has stood 256 clocks without an entry of its block
(R239). -/
def execLeaseIdleEnd (s : State) : Out :=
  .next (s.modCluster s.ev.cl fun c => if c.leaseOver then { c with lease := none } else c)

end Sys2Proof.Machine
end

