-- ==== Sys2Proof/Machine/Ending.lean ====
section
/-! DEFINITION. The ends of groups, blocks and launches: release, retirement, ended and relaunched blocks
(R43, R63, R176, R191, R246, R287, R360, R361, R404), and drains (R297). -/

namespace Sys2Proof.Machine

/-! ### Groups -/

/-- No lane of the group remains in any split (R33). -/
def Group.spent (g : Group) : Bool := g.splits.all fun x => x.mask = 0

/-- The block of a group is being ended by a fault. -/
def State.endingOf (s : State) (g : Group) : Bool :=
  match s.block g.block with
  | some b => b.ending.isSome
  | none => false

/-- The dirty lines that a core holds in their own mode for a group slot are written back (R63). -/
def State.flushOwn (s : State) (core slot : Nat) : State :=
  ((s.coreAt core).l1.filter fun x => x.own.any fun o => o.slot = slot).foldl (fun t x => t.writeBack core x) s

/-- Dirty lines of a slot's group have still to be written back: the dirty log is full, or the pantry (R63, R417). -/
def State.ownLeft (s : State) (core slot : Nat) : Bool :=
  (s.coreAt core).l1.any fun x => x.dirty != 0 && x.own.any fun o => o.slot = slot

/-- What a group still has outstanding (R176). -/
def State.groupBusy (s : State) (g : Group) : Bool :=
  (s.flights.any fun f => f.core = g.core && f.slot = g.slot) ||
  (s.reqs.any fun r => r.core = g.core && r.slot = g.slot) ||
  (s.coreAt g.core).pantry.any fun e => e.slot = g.slot

/-- A core's pantry without some entries (R375). -/
def Core.keepEntries (c : Core) (p : PantryEntry → Bool) : Core :=
  let l := c.pantry.filter p
  { c with pantry := l, pantryFull := c.pantryFull && decide (Config.pantryEntries ≤ l.length) }

/-- Of a block that is being ended, requests that stand stopped are withdrawn, with collectives that cannot
start any more and pantry entries that no handler will take (R361). (Log entry 28.) -/
def State.withdraw (s : State) (g : Group) : State :=
  let idle := fun (id : Nat) => s.colls.any fun c => c.block = g.block && !c.started && c.args.any fun a => a.req = id
  let gone := fun (r : EngReq) => r.core = g.core && r.slot = g.slot && (r.stopped.isSome || idle r.id)
  let n := fun (cls : Nat) => (s.reqs.filter fun r => gone r && r.cls = cls).length
  let s1 := { s with
    reqs := s.reqs.filter fun r => !gone r
    colls := s.colls.map fun (c : CollRun) => if c.started then c else
      { c with args := c.args.filter fun a => !(s.reqs.any fun r => r.id = a.req && gone r) } }
  let s2 := s1.modGroup g.core g.slot fun x => { x with counters := Vector.ofFn fun c => x.counters[c] - n c.val }
  if (s2.coreAt g.core).pantry.any fun e => e.slot = g.slot && e.unmappable then
    (s2.modCore g.core fun c => c.keepEntries fun e => !(e.slot = g.slot && e.unmappable)).resumeCore g.core
  else s2

/-- A group leaves its slot; its banks, ranges and places in orders are released (R246). -/
def State.releaseGroup (s : State) (core slot : Nat) : State :=
  let s1 := s.releaseMatrix core slot
  let s2 := { s1 with
    popWait := s1.popWait.filter fun w => !(w.core = core && w.slot = slot)
    g := if s1.g.core = core ∧ s1.g.slot = slot then { s1.g with live := false } else s1.g
    others := s1.others.filter fun g => !(g.core = core && g.slot = slot) }
  (s2.modCore core fun c =>
    { c with l1 := c.l1.map fun x => if x.own.any (fun o => o.slot = slot) then { x with own := none, dirty := 0, valid := c.fresh x } else x }).settleBudget core

/-! ### Launches -/

/-- A number enters a rising list. -/
def insertAsc (n : Nat) : List Nat → List Nat
  | [] => [n]
  | x :: r => if n ≤ x then n :: x :: r else x :: insertAsc n r

/-- Blocks of a launch's grid (R40). -/
def Launch.total (l : Launch) : Nat := l.gridX * l.gridY * l.gridZ

/-- The running blocks of a launch or bundle. -/
def State.running (s : State) (head : Nat) : List Block := s.blocks.filter fun b => b.head = head

/-- A queue whose virtual device supplies no launches leaves its slot when its drain has ended, or at once when it has none
(R251); it is pending if it still holds commands. -/
def State.unmapHeld (s : State) (q : Nat) : State :=
  if s.queueHeld q && !s.queueBusy q && s.slots.any (fun y => y.2.queue = q) then
    let s1 := s.unmapQueue q
    (if s1.holdsCommands q then s1.setPending q else s1).mapPending
  else s

/-- A node that no launch in the device and no bound controller uses is forgotten (R425). -/
def State.forgetNodes (s : State) : State :=
  { s with nodes := s.nodes.filter fun n =>
      s.launches.any (fun l => l.part = n.part && l.path.contains n.va) ||
      s.loops.any fun k => k.serves.any fun x => x.1 = n.part && (s.ctxNodes n.part x.2).contains n.va }

/-- A launch or bundle retires (R43): every sub-launch goes to state 5, then the completion store; the queue of a
virtual device that supplies no launches leaves its slot (R251). -/
def State.retireLaunch (s : State) (head : Nat) : State :=
  match s.launchOf head with
  | none => s
  | some l =>
    let bad := (s.bundle head).any fun x => x.failed
    let s1 := s.setStates head 5
    let s2 := s1.complete l.part l.completionReach l.completion
      (if bad then l.completionValue ||| 2 ^ 63 else l.completionValue) l.vd
    ({ s2 with launches := s2.launches.filter fun x => x.head ≠ head }.forgetNodes).unmapHeld l.queue

/-- Every sub-launch of a bundle changed. -/
def State.modBundle (s : State) (head : Nat) (f : Launch → Launch) : State :=
  { s with launches := s.launches.map fun l => if l.head = head then f l else l }

/-- A block ended by a fault is placed again from its start (R361, R404): the launch is idempotent, the
cause relaunchable, and it has been relaunched less than three times. (Log entry 28.) -/
def relaunchable (l : Launch) (index cause code : Nat) : Bool :=
  l.idempotent && cause = 0x0E && (code ≤ 1 || (5 ≤ code && code ≤ 7)) && decide (Smap.get 0 l.relaunched index < 3)

/-- Events 0x41 and 0x42 (R361, R364). -/
def State.endEvent (s : State) (b : Block) (code cause addr : Nat) (double : Bool) : State :=
  s.post { Event.of code (cause + b2n double * 2 ^ 15) addr with
    part := b.part, domain := s.domainOf b.head, core := b.cores.headD 0xFF
    die := (b.cores.head?.map coreDie).getD 0xFF, launch := b.head }

/-- The nodes of a path as they stand (R38, R39). -/
def State.pathNow (s : State) (part : Nat) (path : List Nat) : List (Nat × BitVec 2048) × State :=
  path.foldl (fun acc va =>
    let r := acc.2.readNode part va
    (acc.1 ++ [(va, r.1)], r.2)) ([], s)

/-- The handler that an effective trap_handler names now: its header is read when another one is named; one whose header
cannot be used leaves the launch the one it has (R39, R294). (Log entry 33.) -/
def State.handlerNow (s : State) (l : Launch) (va : Nat) : Option Kernel :=
  if va = 0 then none
  else if va = l.eff.trapHandler then l.handler
  else match s.header l.part va with
    | .header h => if hdrBad h || hdrPatches h != 0 then l.handler else some (hdrKernel va h [])
    | _ => l.handler

/-- A launch resolves its effective fields again, its handler and its lease length with them, and returns to state 1
(R39, R239, R294, R299). (Log entry 33.) -/
def State.resumeLaunch (s : State) (head : Nat) : State :=
  let s1 := (s.bundle head).foldl (fun t l =>
    let p := t.pathNow l.part l.path
    let e := effOf t.regs.root p.1
    p.2.modLaunch l.rcb fun x =>
      { x with eff := { e with coreSet := e.coreSet &&& BitVec.ofNat 256 (t.partCores l.part) }
               handler := t.handlerNow x e.trapHandler, leaseLen := pickField x.codeLease e.leasePasses, selfResume := false }) s
  { s1.setStates head 1 with placing := true }

/-- Launches that dryness or throttling drained or froze return to state 1 once their virtual device is
neither (R297). (Log entry 21.) -/
def State.selfResumes (s : State) : State :=
  (s.launches.filter fun l => l.rcb = l.head && l.selfResume && (l.state = 4 || l.state = 6) && match l.vd with
    | some v => !s.vdHeld v
    | none => true).foldl (fun t l => t.resumeLaunch l.head) s

/-- Every block of a launch that is being frozen has been written or has ended: its state becomes 4; where its virtual
device is free again, it returns at once (R297, R298). -/
def State.freezeOver (s : State) (head : Nat) : State :=
  let s1 := (s.modBundle head fun x => { x with freezing := false }).setStates head 4
  match s1.launchOf head with
  | some l => s1.selfResumes.unmapHeld l.queue
  | none => s1

/-- The shares of a block rewritten with zeros (R404). (Log entry 28.) -/
def State.clearShares (s : State) (b : Block) : State :=
  (b.cores.zip b.bases).foldl (fun t x => t.modCore x.1 fun c =>
    { c with scratch := Smap.without c.scratch x.2 (x.2 + b.share) }) s

/-- A block has ended: its launch counts it, or places it again (R43, R361); a scratchpad whose error ended it is
rewritten with zeros (R404). -/
def State.blockOver (s : State) (b : Block) : State :=
  let s0 := match b.ending with
    | some (0x0E, 1, _, _) => s.clearShares b
    | _ => s
  let s1 := { s0 with blocks := s0.blocks.filter fun x => x.id ≠ b.id
                      lost := s0.lost.filter fun x => x.block ≠ b.id
                      colls := s0.colls.filter fun c => c.block ≠ b.id, placing := true }
  match s1.launchOf b.head with
  | none => s1
  | some l =>
    let s2 := match b.ending with
      | none => s1.modBundle b.head fun x => { x with ended := x.ended + 1 }
      | some (cause, code, double, addr) =>
        if !double && relaunchable l b.index cause code then
          (s1.modBundle b.head fun x =>
            { x with relaunch := insertAsc b.index x.relaunch
                     relaunched := Smap.set 0 x.relaunched b.index (Smap.get 0 x.relaunched b.index + 1) }).endEvent b 0x42 cause 0 false
        else
          (s1.modBundle b.head fun x => { x with ended := x.ended + 1, failed := true }).endEvent b 0x41 cause addr double
    match s2.launchOf b.head with
    | none => s2
    | some x =>
      if x.total ≤ x.ended then s2.retireLaunch b.head
      else if x.freezing = true ∧ s2.running b.head = [] then s2.freezeOver b.head
      else if x.state = 3 ∧ x.freezing = false ∧ s2.running b.head = [] then
        { s2 with agenda := .event .drainHandler { rcb := b.head } :: s2.agenda }
      else s2

/-- The banks and ranges of a group's block have still to come back (R299). -/
def State.returning (s : State) (g : Group) : Bool := (s.block g.block).any fun b => b.restoring.isSome

/-- GROUP_END: a group whose lanes have all exited, or whose block is being ended, leaves its slot once
nothing of it is outstanding, and then its dirty private lines are written back (R63); with its last group the block ends (R176, R361, R376, R387).
(Log entry 28.) -/
def State.groupEnd (s : State) (core slot : Nat) : State :=
  match s.groupAt core slot with
  | none => s
  | some g =>
    let ending := s.endingOf g
    if g.service || !(g.spent || (ending && g.stopped)) || s.returning g then s
    else
      let s1 := if ending then s.withdraw g
        else match g.reports with
          | x :: _ => s.endBlock g.block x.frame.cause x.frame.code false
          | [] => if (s.coreAt core).pantry.any (fun e => e.slot = slot && e.unmappable) then s.endBlock g.block 0x0D 1 false else s
      let stays := fun (t : State) => t.groupBusy g || (!ending && t.endingOf g)
      let s2 := if stays s1 then s1 else s1.flushOwn core slot
      if stays s2 || s2.ownLeft core slot then s2
      else
        let s3 := s2.releaseGroup core slot
        match s3.block g.block with
        | none => s3
        | some b =>
          if s3.groups.any fun x => x.block = g.block then s3.retryAll else (s3.blockOver b).retryAll

def execGroupEnd (s : State) : Out := .next (s.groupEnd s.ev.core s.ev.slot)

/-! ### Drains -/

/-- A drain of a launch begins (R297): self says that dryness or throttling began it. (Log entry 21.) -/
def State.beginDrain (s : State) (head : Nat) (self : Bool) : State :=
  match s.launchOf head with
  | none => s
  | some l =>
    if (l.state = 1 ∨ l.state = 2) ∧ l.freezing = false then
      let s1 := (s.modBundle head fun x => { x with drain := some { since := s.timer, self := self } }).setStates head 3
      if s1.running head = [] then { s1 with agenda := .event .drainHandler { rcb := head } :: s1.agenda } else s1
    else s

/-- PREEMPT_DRAIN: op 1 names the launch (R297, R325). (Log entry 21.) -/
def execPreemptDrain (s : State) : Out :=
  .next (match s.launchOf s.ev.rcb with
    | some l => s.beginDrain l.head false
    | none => s)

/-- DRAIN_HANDLER: after the last running block, the launch's dirty lines are written back, grid_pos is
written and the state becomes 6 (R297). -/
def execDrainHandler (s : State) : Out :=
  .next (match s.launchOf s.ev.rcb with
    | none => s
    | some l =>
      if l.state ≠ 3 ∨ l.freezing = true ∨ s.running l.head ≠ [] then s
      else
        let s1 := (s.bundle l.head).foldl (fun t x => t.writeNode x.part x.va 1856 64 x.gridPos) s
        let s2 := s1.setStates l.head 6
        ({ s2.modBundle l.head fun x => { x with selfResume := l.drain.any (fun (d : Drain) => d.self), drain := none } with placing := true }.selfResumes).unmapHeld l.queue)

end Sys2Proof.Machine
end

