-- ==== Sys2Proof/Machine/Heat.lean ====
section
/-! DEFINITION. Temperatures, refresh bands and the heat that placements add (R281 to R288), clocks and
their limits (R264, R289, R409, R410), and errors of memory (R401 to R404). -/

namespace Sys2Proof.Machine

/-! ### Bands -/

/-- Lower bound of a band in °C (R282). -/
def bandBound (b : Nat) : Int := if b = 1 then 70 else if b = 2 then 85 else if b = 3 then 95 else 105

/-- The highest band whose lower bound a temperature reaches, the temperature being t / unit °C (R282). -/
def bandOf (t unit : Int) : Nat :=
  if bandBound 4 * unit ≤ t then 4 else if bandBound 3 * unit ≤ t then 3 else if bandBound 2 * unit ≤ t then 2
  else if bandBound 1 * unit ≤ t then 1 else 0

/-- The band after a sample in 1/256 °C (R282). -/
def nextBand (band : Nat) (t : Int) : Nat :=
  let b := bandOf t 256
  if band < b then b else if band ≠ 0 ∧ t < bandBound band * 256 - 512 then b else band

/-- The refresh interval of a band in half ticks (R282). -/
def refreshInterval (b : Nat) : Nat := if b = 0 then 7800 else if b = 1 then 3900 else if b = 2 then 1950 else 975

/-! ### Grants under the limits of the clocks -/

/-- The controllers bound to contexts of a partition. -/
def State.bound (s : State) (part : Nat) : List Nat :=
  (List.range 128).filter fun c => match (s.loopAt c).serves with
    | some x => x.1 = part
    | none => false

/-- The resident groups of a context. -/
def State.ctxGroups (s : State) (part ctx : Nat) : List Group :=
  s.groups.filter fun g => !g.service && match s.launchOf g.launch with
    | some l => l.part = part && l.ctx = ctx
    | none => false

/-- The dies that hold a context's groups. -/
def State.ctxDies (s : State) (part ctx : Nat) : List Nat :=
  ((s.ctxGroups part ctx).map fun g => coreDie g.core).eraseDups

/-- The granted bytes of the RCB (R37, R276). -/
def Loop.grantBytes (l : Loop) : Nat := ((List.range 5).map fun a => vget l.granted a 0 % 256 * 2 ^ (8 * a)).sum

/-- Some vault of a die is in band 4. -/
def State.bandFour (s : State) (die : Nat) : Bool :=
  (List.range 32).any fun k => (s.vaultAt (32 * die + k)).band = 4

/-- What the clock actuator of a context counts at (R410): the lowest step in force on its dies while a limit
holds one of them below its grant. (Log entry 37.) -/
def State.clockCount (s : State) (dies : List Nat) (g : Nat) : Nat :=
  let limit := fun (d : Nat) =>
    let x := s.dieAt d
    let m := min x.ceiling (min x.currentCap x.powerCap)
    if s.bandFour d then min m 12 else m
  if dies.any fun d => decide (limit d < g) then dies.foldl (fun m d => min m (s.dieAt d).step) g else g

/-- A context's grants are in force: the granted bytes and the sat bits are written (R276, R410). -/
def State.settleGrant (s : State) (c part ctx : Nat) : State :=
  let s1 := s.modLoop c fun k =>
    let g := vset k.granted 4 (s.clockCount (s.ctxDies part ctx) k.clock)
    let sum := ((List.range 5).map fun a => ((vget g a 0 : Nat) : Int) - (vget k.mins a 0 : Nat)).sum
    { k with granted := g, satUp := k.clampUp || decide (sum < k.position), satDown := k.clampDown }
  let k := s1.loopAt c
  (s1.writeNode part ctx 768 40 k.grantBytes).writeNode
    part ctx 896 2 (b2n k.satUp + 2 * b2n k.satDown)

/-- Where a limit of a die holds or frees a context's clock grant, its grants are counted again (R410): before time moves
on. (Log entry 37.) -/
def State.relimit (s : State) : State :=
  (List.range 128).foldl (fun t c => match (t.loopAt c).serves with
    | none => t
    | some x =>
      let n := t.clockCount (t.ctxDies x.1 x.2) (t.loopAt c).clock
      if vget (t.loopAt c).granted 4 0 = n ∨ t.passDue.contains x.1 then t else t.settleGrant c x.1 x.2) s

/-! ### Clock steps -/

/-- The step that the limits of a die allow (R275, R409). -/
def State.stepTarget (s : State) (die : Nat) : Nat :=
  let d := s.dieAt die
  let m := min d.caldera (min d.ceiling (min d.currentCap d.powerCap))
  if s.bandFour die then min m 12 else m

/-- Event 0x54, when a cap first lowers the step below the caldera's, which the die's other limits then allow (R409).
(Log entry 29.) -/
def State.capEvent (s : State) (die : Nat) : State :=
  let d := s.dieAt die
  let rest := min d.caldera (if s.bandFour die then min d.ceiling 12 else d.ceiling)
  let under := decide (min d.currentCap d.powerCap < rest)
  let s1 := s.modDie die fun x => { x with capped := under }
  if under && !d.capped then s1.post { Event.of 0x54 0 0 with die := die } else s1

/-- The die's step follows its limits (R289): a fall at once, a rise when the voltage has risen; a decision
during a rise replaces its target. -/
def State.setStep (s : State) (die : Nat) : State :=
  let n := s.stepTarget die
  (s.modDie die fun d =>
    if n ≤ d.step then { d with step := n, rising := none }
    else { d with rising := some (n, match d.rising with
      | some r => r.2
      | none => s.timer) }).capEvent die

/-- CLOCK_STEP_SWITCH: the voltage of the die has risen (R289). (Log entry 42.) -/
def execClockStepSwitch (s : State) : Out :=
  .next (s.modDie s.ev.die fun d =>
    match d.rising with
    | some r => { d with step := r.1, rising := none }
    | none => d)

/-- CURRENT_CAP_WINDOW: the mean current of a die over 1,024 ticks, in amperes; windows do not overlap (R409).
(Log entry 30.) -/
def execCurrentCapWindow (s : State) : Out :=
  .next (let a := s.ev.amount
    if s.timer < (s.dieAt s.ev.die).measured + 1024 then s else
    (s.modDie s.ev.die fun d =>
      { d with currentCap := if 620 < a then d.step - 1 else d.currentCap, measured := s.timer
               quietSince := if 560 < a then s.timer else d.quietSince }).setStep s.ev.die)

/-- 2^16 ticks have passed without a window above 560 A (R409). -/
def Die.quiet (d : Die) (now : Nat) : Bool := decide (d.quietSince + 2 ^ 16 ≤ now)

/-- The current cap has a step to rise by (R409). -/
def Die.capRises (d : Die) (now : Nat) : Bool := decide (d.currentCap < 30) && d.quiet now

/-- CURRENT_CAP_RISE: 2^16 ticks without a window above 560 A (R409). -/
def execCurrentCapRise (s : State) : Out :=
  .next ((s.modDie s.ev.die fun d =>
    if d.quiet s.timer then { d with currentCap := min 30 (d.currentCap + 1), quietSince := s.timer } else d).setStep
      s.ev.die)

/-- POWER_CAP_WINDOW: the mean power of the module over 2^20 ticks, in watts; windows do not overlap (R409).
(Log entry 30.) -/
def execPowerCapWindow (s : State) : Out :=
  .next (if s.timer < s.powerAt + 2 ^ 20 then s else (List.range 8).foldl (fun t i =>
    (t.modDie i fun d =>
      { d with powerCap := if 4400 < s.ev.amount then d.powerCap - 1
                 else if s.ev.amount < 4200 then min 30 (d.powerCap + 1) else d.powerCap }).setStep i) { s with powerAt := s.timer })

/-! ### Samples -/

/-- The temperature that a sensor finds: as the step supplies it, else unchanged. (Log entry 30.) -/
def State.sensed (s : State) (v : Nat) : Int :=
  match (s.ev.temps ++ s.env.temps).find? fun x => x.vault = v with
  | some x => x.t
  | none => (s.vaultAt v).temp

/-- The sample of one vault (R281, R282, R405 to R407). (Log entry 29.) -/
def State.sampleVault (s : State) (v : Nat) : State :=
  let old := s.vaultAt v
  let t := s.sensed v
  let band := nextBand old.band t
  let short := s.vaultFloor v - bandwidth band
  let hot := decide (115 * 256 ≤ t) || (old.hot && decide (110 * 256 ≤ t))
  let s1 := s.modVault v fun x =>
    { x with temp := t, band := band, sampled := some s.timer, interval := refreshInterval band, hot := hot
             below := decide (0 < short) }
  let owner := s1.vaultOwner v
  let part := owner.getD 0
  let s2 := if band = 4 ∧ old.band ≠ 4 then s1.post { Event.of 0x46 v 0 with part := part, die := v / 32 } else s1
  let s3 := if hot && !old.hot then s2.post { Event.of 0x51 v 0 with part := part, die := v / 32 } else s2
  let s4 := if decide (0 < short) && !old.below then
      s3.post { Event.of 0x52 v short with part := part, die := v / 32 } else s3
  if band = old.band then s4 else { s4 with placing := true }

/-- A sample is due: the timer is at a multiple of 2^16, and some vault has not been sampled at this value (R281). -/
def State.sampleDue (s : State) : Bool :=
  s.timer % 2 ^ 16 = 0 && s.vaults.toList.any fun v => v.sampled ≠ some s.timer

/-- SENSOR_SAMPLE: every vault is sampled at one instant; pending increments age (R281, R285). -/
def execSensorSample (s : State) : Out :=
  .next (if !s.sampleDue then s else
    let s1 := (List.range 256).foldl State.sampleVault s
    let s2 := { s1 with heat := (s1.heat.map fun h => { h with samples := h.samples - 1 }).filter fun h => h.samples ≠ 0 }
    ((List.range 8).foldl State.setStep s2).retryAll)

/-- REFRESH_COMMAND, when one is due: the vault's next command comes at the interval of its band (R281, R282). -/
def execRefreshCommand (s : State) : Out :=
  .next (s.modVault s.ev.vault fun v =>
    if v.refreshAt ≤ 2 * s.timer then { v with refreshAt := v.refreshAt + v.interval } else v)

/-! ### The heat of a placement -/

/-- The increments of a placement: for each core its heat_class × groups, as vault and amount in units of
1/1,280,000 °C (R284). -/
def heatOf (cores : List (Nat × Nat)) : List (Nat × Nat) :=
  cores.flatMap fun x => (x.1, 4 * x.2) :: (gridNeighbours x.1).map fun n => (n, x.2)

/-- The pending increments of a vault. -/
def State.pendingHeat (s : State) (v : Nat) : Nat := ((s.heat.filter fun h => h.vault = v).map fun h => h.amount).sum

/-- The predicted band of a vault with so much added (R285). -/
def State.predictedBand (s : State) (v extra : Nat) : Nat :=
  max (s.vaultAt v).band (bandOf ((s.vaultAt v).temp * 5000 + (s.pendingHeat v + extra : Nat)) 1280000)

/-- The amount that some increments add to a vault. -/
def added (l : List (Nat × Nat)) (v : Nat) : Nat := ((l.filter fun x => x.1 = v).map fun x => x.2).sum

/-- The vaults that some increments raise. -/
def raised (l : List (Nat × Nat)) : List (Nat) := ((l.filter fun x => x.2 ≠ 0).map fun x => x.1).eraseDups

/-- The refresh charge of some increments (R286). -/
def State.refreshCharge (s : State) (l : List (Nat × Nat)) : Nat :=
  ((raised l).map fun v => bandwidth (s.predictedBand v 0) - bandwidth (s.predictedBand v (added l v))).sum

/-- No raised vault is predicted below its floor; band 4 always is (R288). -/
def State.floorsHold (s : State) (l : List (Nat × Nat)) : Bool :=
  (raised l).all fun v =>
    let b := s.predictedBand v (added l v)
    b ≠ 4 && decide (s.vaultFloor v ≤ bandwidth b)

/-- A charge fits the refresh allowance that a context has left, which charges that stand may exceed; the default never limits
(R287, R288). -/
def State.allowanceHolds (s : State) (part ctx allowance charge : Nat) : Bool :=
  allowance = 0xFFFFFFFF ||
  decide (charge + ((s.blocks.filter fun b => b.part = part && b.ctx = ctx).map fun b => b.charge).sum ≤ allowance)

/-! ### Errors of memory -/

/-- A line becomes poisoned (R402). -/
def State.poisonLine (s : State) (line code : Nat) : State :=
  if s.poisoned line then s
  else
    { s with poison := Smap.set 0 s.poison line code, hushed := s.hushed.filter fun x => x ≠ line }.post
      { Event.of 0x50 code (line * 128) with
        part := (s.partOfPa (line * 128)).getD 0, die := s.vaultOf (line * 128) / 32 }

/-- A line becomes poisoned by its vault's own reading: its event comes with the first access (R401, R402).
(Log entry 30.) -/
def State.hushLine (s : State) (line : Nat) : State :=
  if s.poisoned line then s else { s with poison := Smap.set 0 s.poison line 4, hushed := line :: s.hushed.filter fun x => x ≠ line }

/-- Accesses in flight reach a line: they come before an error is found there. (Log entry 30.) -/
def State.reaching (s : State) (line : Nat) : Bool :=
  s.flights.any fun f => !f.performed && (devLanes f.lanes).any fun x => x.1 / 128 = line

/-- The storage of a line fails (R401, R402): of one core's L1, whose clean copy is dropped and whose write-back data are lost;
of a home slice, which fetches a clean line again; or of the line itself. (Log entry 30.) -/
def State.lineError (s : State) (line code core : Nat) : State :=
  if code = 2 then
    match (s.coreAt core).line line with
    | some x => s.loseLine core x
    | none => s
  else if code = 3 && !(s.slices.any fun x => x.line = line && x.dirty) then s
  else s.poisonLine line code

/-- A corrected error of a line counts for its page; the fourth of a scrub interval posts event 0x4F (R403). -/
def State.countCorrected (s : State) (line : Nat) : State :=
  let page := line / 512
  let v := s.vaultOf (line * 128)
  let interval := s.timer / 2 ^ 36
  let s1 := s.modVault v fun x => if x.scrubbed = interval then x else { x with scrubbed := interval, corrected := [] }
  let n := Smap.get 0 (s1.vaultAt v).corrected page + 1
  if n < 4 then s1.modVault v fun x => { x with corrected := Smap.set 0 x.corrected page n }
  else (s1.modVault v fun x => { x with corrected := Smap.set 0 x.corrected page 0 }).post
    { Event.of 0x4F 0 (page * 2 ^ 16) with part := (s1.partOfPa (line * 128)).getD 0, die := v / 32 }

/-- A vault's controller has read a line: what was latent there is found. -/
def State.readLatent (s : State) (line : Nat) : State :=
  { s with env := { s.env with latent := s.env.latent.filter fun x => x.1 ≠ line } }

/-- SCRUB: the controller reads a line and writes the corrected line back (R401 to R403); an error that cannot be corrected
is found behind the accesses in flight there. (Log entry 30.) -/
def execScrub (s : State) : Out :=
  .next (match s.ev.scrub with
    | .clean => s
    | .corrected => (s.countCorrected s.ev.line).readLatent s.ev.line
    | .uncorrectable => if s.reaching s.ev.line then s else (s.hushLine s.ev.line).readLatent s.ev.line)

/-- The errors that the world supplies to a step are found (R401 to R404): lines that an access reaches are
poisoned or counted, behind the accesses in flight there; blocks whose own storage fails are ended; a walk whose state fails is
begun again, with event 0x50. (Log entry 30.) -/
def State.findErrors (s : State) : State :=
  let later := s.env.lineErrors.filter fun x => s.reaching x.1
  let s1 := (s.env.lineErrors.filter fun x => !s.reaching x.1).foldl (fun t x => t.lineError x.1 x.2.1 x.2.2) s
  let s2 := s.env.corrected.foldl State.countCorrected s1
  let s3 := s.env.blockErrors.foldl (fun t x => t.endBlock x.1 0x0E x.2 false) s2
  let s4 := s3.env.walkErrors.foldl (fun t x => t.post { Event.of 0x50 x.2 0 with core := x.1, die := coreDie x.1 }) s3
  { s4 with env := { s4.env with lineErrors := later, corrected := [], blockErrors := [], walkErrors := [] } }

end Sys2Proof.Machine
end

