-- ==== Sys2Proof/Machine/Save.lean ====
section
/-! DEFINITION. The context save area: the records of blocks, groups, splits, snapshots and pantry entries
as bytes, and reading them back (R301 to R305, R374). -/

namespace Sys2Proof.Machine

/-! ### Bits -/

/-- Fields put together: lowest bit, width, value. -/
def pack (l : List (Nat × Nat × Nat)) : Nat := (l.map fun x => x.2.2 % 2 ^ x.2.1 * 2 ^ x.1).sum

/-- A row's words, lane l at bit 32 l (R303). -/
def rowNat (r : Row) : Nat := ((List.range 32).map fun l => (if h : l < 32 then r[l].toNat else 0) * 2 ^ (32 * l)).sum

/-- A row from its bits. -/
def rowOf (x : Nat) : Row := Vector.ofFn fun l => BitVec.ofNat 32 (fld x (32 * l.val) 32)

/-- Bytes filled with zeros to a multiple of 128. -/
def align128 (l : List Byte) : List Byte := l ++ List.replicate ((128 - l.length % 128) % 128) 0

/-! ### Splits -/

/-- A join entry's 192 bits; lanes that have exited are left out (R304). -/
def JoinEntry.bits (e : JoinEntry) (live : Mask) : Nat :=
  pack [(0, 56, e.join.elim 0 fun a => a.toNat), (56, 1, b2n e.join.isNone), (57, 1, b2n e.deferred), (64, 56, e.resume.toNat),
    (128, 32, (e.pending &&& live).toNat), (160, 32, (e.whole &&& live).toNat)]

/-- An address of code in a record: bit 0 of a pc is always 0 (R115). -/
def pcOf (n : Nat) : Addr := BitVec.ofNat 56 (n / 2 * 2)

/-- A join entry from its bits. -/
def joinOf (x : Nat) : JoinEntry :=
  { join := if fld x 56 1 = 1 then none else some (pcOf (fld x 0 56)), deferred := fld x 57 1 = 1
    resume := pcOf (fld x 64 56), pending := BitVec.ofNat 32 (fld x 128 32), whole := BitVec.ofNat 32 (fld x 160 32) }

/-- A split record (R304): stacks stand bottom first. -/
def splitBits (pc : Addr) (mask : Mask) (rank : Nat) (joins : List JoinEntry) (calls : List Addr) (left : Nat)
    (pass : Mask) (sleep : Nat) (live : Mask) : Nat :=
  pack ([(0, 56, pc.toNat), (64, 32, mask.toNat), (96, 2, rank), (98, 1, 1), (99, 3, joins.length), (102, 4, calls.length),
      (106, 3, left), (128, 32, pass.toNat), (160, 32, sleep)] ++
    (joins.reverse.zipIdx.map fun x => (256 + 192 * x.2, 192, x.1.bits live)) ++
    (calls.reverse.zipIdx.map fun x => (1024 + 64 * x.2, 56, x.1.toNat)))

/-- A split's rank by age in its group. -/
def Group.rank (g : Group) (sp : Split) : Nat := (g.splits.filter fun x => x.mask ≠ 0 && decide (x.age < sp.age)).length

/-- A group's split as its record: its pc is that of the instruction it will issue, where an XM begins it (R304). -/
def Group.splitRecord (g : Group) (sp : Split) (cycle : Nat) : Nat :=
  splitBits (if sp.xm.isSome then sp.pc - 2 else sp.pc) sp.mask (g.rank sp) sp.joins sp.calls sp.guardLeft sp.guardPass
    (match sp.wait with
      | .sleep c => c - cycle
      | _ => 0) (~~~g.exited)

/-- A split from its record; a sleep goes on for the cycles left (R175, R304). -/
def splitOf (x cycle : Nat) : Split :=
  { pc := pcOf (fld x 0 56), mask := BitVec.ofNat 32 (fld x 64 32), age := fld x 96 2
    joins := ((List.range (min 4 (fld x 99 3))).map fun e => joinOf (fld x (256 + 192 * e) 192)).reverse
    calls := ((List.range (min 8 (fld x 102 4))).map fun c => pcOf (fld x (1024 + 64 * c) 56)).reverse
    guardLeft := min 4 (fld x 106 3), guardPass := BitVec.ofNat 32 (fld x 128 32)
    wait := if fld x 160 32 = 0 then .none else .sleep (cycle + fld x 160 32)
    xm := none, trap := false, reissue := none, anc := [0, 1, 2, 3] }

/-! ### Groups -/

/-- The group control (R303). -/
def Group.control (g : Group) : Nat :=
  let t := g.splits.find? fun x => x.trap
  pack ([(0, 6, g.groupix), (6, 1, b2n t.isSome), (7, 2, t.elim 0 fun x => g.rank x), (32, 32, g.arithFlags.toNat),
      (128, 96, g.feV.toNat), (224, 8, g.feO.toNat), (232, 16, g.feS.toNat)] ++
    (List.range 4).map fun c => (64 + 6 * c, 6, vget g.counters c 0))

/-- A snapshot entry (R305). -/
def Snap.bits (e : Snap) : Nat :=
  pack [(0, 45, e.line), (45, 5, e.lane), (50, 1, 1), (64, 32, e.version.toNat), (128, 64, e.stamp)]

/-- A snapshot entry from its bits, when it is in use. -/
def snapOf (x : Nat) : Option Snap :=
  if fld x 50 1 = 0 then none
  else some { line := fld x 0 45, lane := fld x 45 5, version := BitVec.ofNat 32 (fld x 64 32), stamp := fld x 128 64 }

/-- The promises of a group's outstanding copy-class requests, oldest first (R85, R303). -/
def State.promises (s : State) (g : Group) : List Nat := (s.outstanding g.core g.slot 0).map fun r => r.promise

/-- A group record of 8,192 + 128 × regs bytes (R303). (Log entry 34.) -/
def State.groupRecord (s : State) (g : Group) (regs : Nat) : List Byte :=
  let cycle := (s.engine g.core).cycle
  let live := g.splits.filter fun x => x.mask ≠ 0
  let at_ := fun (w n : Nat) (f : Nat → Nat) => pack ((List.range n).map fun k => (w * k, w, f k))
  bytesLE 64 g.control ++
  bytesLE 64 (at_ 32 16 fun k => (vget g.s k 0).toNat) ++
  bytesLE 128 (at_ 32 7 fun k => (vget g.p k 0).toNat) ++
  bytesLE 256 (at_ 64 16 fun k => (vget g.d k 0).toNat) ++
  bytesLE 512 (at_ 128 32 fun k => (vget g.b k 0).toNat) ++
  bytesLE 1024 (pack (live.map fun x => (2048 * g.rank x, 2048, g.splitRecord x cycle))) ++
  bytesLE 256 (pack [(0, 32, g.trapCause.toNat), (32, 32, g.trapMask.toNat), (64, 56, g.trapPc.toNat), (128, 32, g.doneMask.toNat),
    (192, 32, (vget g.h 0 0).toNat), (224, 32, (vget g.h 1 0).toNat), (256, 32, (vget g.h 2 0).toNat), (288, 32, (vget g.h 3 0).toNat)]) ++
  bytesLE 256 (match g.pre with
    | some k => splitBits k.pc k.mask 0 k.joins k.calls k.guardLeft k.guardPass 0 (~~~g.exited)
    | none => 0) ++
  bytesLE 512 (pack ((s.promises g).zipIdx.map fun x => (64 * x.2, 64, x.1))) ++
  bytesLE 2048 (pack (g.snaps.zipIdx.map fun x => (256 * x.2, 256, x.1.bits))) ++
  bytesLE 1024 (at_ 1024 8 fun k => rowNat (vget g.o k Row.zero)) ++
  bytesLE 2048 (at_ 1024 4 fun k => rowNat (vget g.q k Row.zero)) ++
  (List.range regs).flatMap fun k => bytesLE 128 (rowNat (vget g.v k Row.zero))

/-- The parts of a group record as numbers, by offset and length. -/
def partOfRecord (l : List Byte) (off n : Nat) : Nat := ofBytes ((l.drop off).take n)

/-- The lanes that a group record's splits hold or have deferred. -/
def coveredLanes (sps : List Split) (pre : Option PreTrap) : Mask :=
  let e := fun (m : Mask) (j : JoinEntry) => m ||| j.pending ||| j.whole
  let m := sps.foldl (fun m x => x.joins.foldl e (m ||| x.mask)) 0
  match pre with
  | some k => k.joins.foldl e (m ||| k.mask)
  | none => m

/-- A group from its record: base gives what the record does not hold, its place and its launched lanes
(R303). -/
def groupOfRecord (base : Group) (l : List Byte) (regs cycle : Nat) : Group :=
  let c := partOfRecord l 0 64
  let sps := (List.range 4).filterMap fun k =>
    let x := partOfRecord l (0x400 + 256 * k) 256
    if fld x 98 1 = 1 ∧ fld x 64 32 ≠ 0 then
      some { splitOf x cycle with age := k, trap := decide (fld c 6 1 = 1 ∧ fld c 7 2 = k) }
    else none
  let t := partOfRecord l 0x800 40
  let p := partOfRecord l 0x900 256
  let pre := if fld c 6 1 = 1 then
      let x := splitOf p cycle
      some { pc := x.pc, mask := x.mask, joins := x.joins, calls := x.calls, guardLeft := x.guardLeft, guardPass := x.guardPass : PreTrap }
    else none
  let g : Group :=
    { base with
      v := Vector.ofFn fun k => if k.val < regs then rowOf (partOfRecord l (0x2000 + 128 * k.val) 128) else Row.zero
      s := Vector.ofFn fun k => BitVec.ofNat 32 (partOfRecord l (0x40 + 4 * k.val) 4)
      o := Vector.ofFn fun k => rowOf (partOfRecord l (0x1400 + 128 * k.val) 128)
      q := Vector.ofFn fun k => rowOf (partOfRecord l (0x1800 + 128 * k.val) 128)
      p := Vector.ofFn fun k => BitVec.ofNat 32 (partOfRecord l (0x80 + 4 * k.val) 4)
      b := Vector.ofFn fun k => BitVec.ofNat 128 (partOfRecord l (0x200 + 16 * k.val) 16), bPend := 0
      d := Vector.ofFn fun k => BitVec.ofNat 64 (partOfRecord l (0x100 + 8 * k.val) 8)
      h := Vector.ofFn fun k => BitVec.ofNat 32 (fld t (192 + 32 * k.val) 32)
      feV := BitVec.ofNat 96 (fld c 128 96), feO := BitVec.ofNat 8 (fld c 224 8), feS := BitVec.ofNat 16 (fld c 232 16)
      arithFlags := BitVec.ofNat 6 (fld c 32 6), counters := Vector.ofFn fun k => fld c (64 + 6 * k.val) 6
      snaps := (List.range 64).filterMap fun k => snapOf (partOfRecord l (0xC00 + 32 * k) 32)
      trapCause := BitVec.ofNat 32 (fld t 0 32), trapMask := BitVec.ofNat 32 (fld t 32 32)
      trapPc := pcOf (fld t 64 56), doneMask := BitVec.ofNat 32 (fld t 128 32), pre := pre
      exited := base.launched &&& ~~~(coveredLanes sps pre), nextAge := 4 }
  match sps with
  | [] => { g with sp := Split.empty, rest := [] }
  | x :: r => { g with sp := x, rest := r }

/-! ### Pantry entries -/

/-- A pantry entry from its descriptor and data slot (R374), for a group's slot. (Log entry 34.) -/
def pantryOfBits (id core slot part : Nat) (x : Nat) (data : List Byte) : PantryEntry :=
  { id := id, core := core, slot := slot, split := 0, anc := [0, 1, 2, 3], part := part, vline := fld x 0 49, kind := fld x 49 2
    op := fld x 51 4, site := fld x 55 1, unmappable := fld x 56 1 = 1, reported := fld x 57 1 = 1, trapped := false
    lanes := BitVec.ofNat 32 (fld x 64 32), groupix := fld x 96 6, reason := fld x 104 8, stamp := fld x 128 64
    bytemask := BitVec.ofNat 128 (fld x 192 128), word := BitVec.ofNat 160 (fld x 320 160), data := data }

/-! ### Reserved bits -/

/-- A split record that is in use breaks R304: reserved bits, or depths out of range. -/
def splitBad (x : Nat) : Bool :=
  anySet x ([(56, 8), (109, 19), (192, 64), (1536, 512)] ++
    (List.range 4).flatMap (fun e => [(256 + 192 * e + 58, 6), (256 + 192 * e + 120, 8)]) ++
    (List.range 8).map fun c => (1024 + 64 * c + 56, 8)) ||
  decide (4 < fld x 99 3) || decide (8 < fld x 102 4) || decide (4 < fld x 106 3)

/-- A group record breaks R303 to R305 in a byte or bit that must be zero. -/
def groupBad (l : List Byte) : Bool :=
  let c := partOfRecord l 0 64
  anySet c [(9, 23), (38, 26), (88, 40), (248, 264)] ||
  ([(0x9C, 0x64), (0x828, 0xD8), (0xBF8, 8)].any fun x => partOfRecord l x.1 x.2 != 0) ||
  anySet (partOfRecord l 0x100 128) ((List.range 16).map fun k => (64 * k + 25, 7)) ||
  ((List.range 4).any fun k => let x := partOfRecord l (0x400 + 256 * k) 256
    fld x 98 1 = 1 && splitBad x) ||
  (fld c 6 1 = 1 && splitBad (partOfRecord l 0x900 256)) || anySet (partOfRecord l 0x800 40) [(17, 15), (120, 8), (160, 32)] ||
  (List.range 64).any fun k => let x := partOfRecord l (0xC00 + 32 * k) 32
    fld x 50 1 = 1 && anySet x [(51, 13), (96, 32), (192, 64)]

/-- A pantry descriptor breaks R374: reserved bits, kind 3, or a reserved reason. -/
def descriptorBad (x : Nat) : Bool :=
  anySet x [(58, 6), (102, 2), (112, 16), (480, 32)] || fld x 49 2 = 3 || decide (6 < fld x 104 8)

/-! ### Blocks -/

/-- The engine images of a group: an image's kind, operand and length, each on its own 128-byte boundary. -/
def State.groupImages (s : State) (g : Group) : List (Nat × Nat) :=
  let c := s.engine g.core
  (2, 0) :: ((List.range 64).filter fun b => Smap.get 0 c.bankOwner b = ownerKey g.core g.slot).map (fun b => (0, b + 64)) ++
  (List.range 16).filterMap fun k => let r := vget g.d k 0; if resValid r then some (1, r.toNat) else none

/-- A request that stands for what the freeze handler saves of a group. -/
def imageReq (core slot : Nat) : EngReq :=
  { id := 0, core := core, slot := slot, owner := slot, block := 0, split := 0, anc := [], cls := 2, part := 0
    kind := .mzero 0 0, pos := 0, stopped := none, waiting := false, done := true, compl := none, promise := 0, engine := 0
    retired := false }

/-- The bytes of one engine image (R243, R244). -/
def State.imageBytes (s : State) (core slot : Nat) (x : Nat × Nat) : List Byte :=
  (List.range (imageLen x.1 x.2)).map fun k => s.imageByte (imageReq core slot) x.1 x.2 k

/-- The groups of a block by producer number; none for one that has ended. -/
def State.blockMembers (s : State) (b : Block) : List (Option Group) :=
  (List.range b.groups).map fun p => s.groups.find? fun g => g.block = b.id && g.producer = p && !g.service

/-- The pantry entries of a block in entry order, each with its group's producer number. -/
def State.blockPantry (s : State) (b : Block) : List (PantryEntry × Nat) :=
  let gs := (s.blockMembers b).filterMap id
  let es := b.cores.flatMap fun c => (s.coreAt c).pantry.filterMap fun e =>
    (gs.find? fun g => g.core = c && g.slot = e.slot).map fun g => (e, g.producer)
  es.foldl (fun acc x => (acc.takeWhile fun y => decide (y.1.id < x.1.id)) ++ x :: acc.dropWhile fun y => decide (y.1.id < x.1.id)) []

/-- The bytes of a block's scratchpad image, share by share (R302). (Log entry 31.) -/
def State.scratchImage (s : State) (b : Block) : List Byte :=
  (b.cores.zip b.bases).flatMap fun x => Memory.readBytes (s.coreAt x.1).scratch x.2 b.share

/-- The record of a block (R302). (Log entry 31.) -/
def State.blockRecord (s : State) (b : Block) : List Byte :=
  let ls := s.bundle b.head
  let regs := recordRegs ls
  let ps := s.blockPantry b
  let gs := s.blockMembers b
  let body := align128 (gs.flatMap fun g => match g with
      | some x => s.groupRecord x regs
      | none => List.replicate (groupRecordLen regs) 0) ++
    align128 (s.scratchImage b) ++
    align128 ((ps.flatMap fun x => bytesLE 64 x.1.bits) ++ ps.flatMap fun x => (x.1.data ++ List.replicate 256 0).take 256) ++
    (gs.filterMap id).flatMap fun g => (s.groupImages g).flatMap fun x => align128 (s.imageBytes g.core g.slot x)
  bytesLE 256 (pack ([(0, 56, b.head), (64, 32, b.index), (96, 7, b.groups), (104, 7, regs), (112, 2, b.cores.length - 1),
      (128, 32, (ls.map fun l => l.scratchBytes).sum), (160, 32, ps.length), (192, 64, 256 + body.length)] ++
    (List.range 8).map fun n => (256 + 64 * n, 64, (vget b.tiles n 0).toNat))) ++ body

/-- Bytes read from a partition's address on, 8 at a time: an absent page, or a refused one, ends it. -/
def State.areaRead (s : State) (part va n : Nat) : Found := s.readWordsAt part va ((n + 7) / 8)

/-- Where the lines of n bytes from an aligned address lie, when all can be written (R301). -/
def State.areaLines (s : State) (part va : Nat) : Nat → Found ⊕ List Nat
  | 0 => .inr []
  | n + 1 =>
    match s.reach part va with
    | .absent => .inl (.absent va)
    | .ok (.dev pa) true =>
      match s.areaLines part (va + 128) n with
      | .inr l => .inr (pa :: l)
      | r => r
    | .bad d => .inl (.bad d)
    | _ => .inl (.bad 0x0C)

/-- Bytes written to lines at physical addresses, 128 to each. -/
def State.areaWrite (s : State) : List Nat → List Byte → State
  | [], _ => s
  | pa :: r, l =>
    (s.homeWrite ((l.take 128).zipIdx.map fun x => (pa + x.2, x.1)) none).areaWrite r (l.drop 128)

end Sys2Proof.Machine
end

