-- ==== Sys2Proof/Machine/Freeze.lean ====
section
/-! DEFINITION. Pre-emption: freezing a launch and writing its blocks to the save area, reading a block
back, and returning launches to state 1 (R85, R245, R297 to R303, R325, R373). -/

namespace Sys2Proof.Machine

/-! ### Beginning and resuming -/

/-- A freeze of a launch begins (R298, R325): self says that it returns to state 1 by itself (R297). -/
def State.beginFreeze (s : State) (head : Nat) (self : Bool) : State :=
  match s.launchOf head with
  | none => s
  | some l =>
    if !l.busy || l.freezing then s
    else
      let s1 := s.modBundle head fun x => { x with drain := none, selfResume := self }
      if s1.running head = [] then s1.setStates head 4
      else
        let blks := (s1.running head).map fun b => b.id
        let stop := fun (g : Group) => if blks.contains g.block && !g.service then
            { g with stopped := true, halting := (g.splits.filter fun x => x.mask != 0).map fun x => x.age }
          else g
        let s2 := s1.modBundle head fun x => { x with freezing := true }
        { s2 with g := stop s2.g, others := s2.others.map stop }

/-- PREEMPT_FREEZE: op 2 names the launch (R298, R325); one that a drain's deadline is freezing already no longer returns to
state 1 by itself. -/
def execPreemptFreeze (s : State) : Out :=
  .next (match s.launchOf s.ev.rcb with
    | some l => (s.beginFreeze l.head false).modBundle l.head fun x => if x.freezing then { x with selfResume := false } else x
    | none => s)

/-- A drain's deadline has passed with blocks still running: a last block that ends in the same tick ends the drain
(R297). -/
def State.drainOver (s : State) (l : Launch) : Bool :=
  l.state = 3 && s.running l.head != [] && l.drain.any fun d =>
    decide (d.since + l.eff.drainDeadline < s.timer) || (decide (d.since + l.eff.drainDeadline = s.timer) &&
      (s.running l.head).any fun b => s.groups.any fun g => g.block = b.id && !g.spent)

/-- DRAIN_DEADLINE: a drain whose deadline has passed with blocks still running becomes a freeze; a last block that ends in
the same tick ends the drain (R297). -/
def execDrainDeadline (s : State) : Out :=
  .next (match s.launchOf s.ev.rcb with
    | none => s
    | some l => match l.drain with
      | none => s
      | some d =>
        if s.drainOver l then s.beginFreeze l.head d.self else s)

/-- PREEMPT_RESUME: op 3 names a launch in state 4 or 6 (R299, R325). -/
def execPreemptResume (s : State) : Out :=
  .next (match s.launchOf s.ev.rcb with
    | none => s
    | some l => if l.state = 4 ∨ l.state = 6 then s.resumeLaunch l.head else s)

/-! ### Waiting until a block can be written -/

/-- A flight belongs to a block. -/
def State.flightOf (s : State) (b : Block) (f : Flight) : Bool :=
  match s.groupAt f.core f.slot with
  | some g => g.block = b.id && !g.service
  | none => false

/-- Held lanes of a block are stopped: their instructions trap with cause 0x0D and code 3, those of older splits first (R293,
R373). -/
def State.stopHeld (s : State) (b : Block) : State :=
  (sortBy (fun f => f.split) (s.flights.filter fun f => s.flightOf b f && !f.held.isEmpty)).foldl (fun t f =>
    t.refuseHeld f (f.refusal (f.held.map fun h => (h, 0x0D, 3)) (f.done ||| maskOf fun l => f.lanes.any fun a => a.lane = l.val))) s

/-- A collective that goes on without anything but this device's members (R298, R397). (Log entry 32.) -/
def State.collGoesOn (s : State) (r : CollRun) : Bool :=
  r.started && s.collReady r.comm &&
  (commDevices (s.comm r.comm) = 1 ||
    match (s.members r.comm).head? with
    | some x => decide (totalChunks (s.comm r.comm) (collOp (x.args.head?.elim 0 fun a => a.desc)) (tileLen x.tile) ≤
        commProgress (s.comm r.comm))
    | none => false)

/-- A request cannot go on before a handler of its group has run: an unmappable store stands before its reads of memory, of
which a quarter-operation has none, or a matrix request that is stopped, or cannot go on so, stands before it in the engine
(R82, R237, R245, R376, R390). (Log entry 32.) -/
def State.stuckReq (s : State) (r : EngReq) : Bool :=
  let unread := fun (x : EngReq) => (match x.kind with
      | .mma _ _ _ _ _ _ => false
      | _ => true) && (s.pantryOf x.core x.slot x.anc).any fun e => e.unmappable && decide (e.id < x.id)
  unread r || (!s.engineTurn r && s.reqs.any fun x =>
    x.core = r.core && x.owner = r.owner && decide (x.id < r.id) && x.cls = 2 && (x.stopped.isSome || unread x))

/-- A request that a freeze need not wait for (R85, R245, R298, R391, R397): it is finished or stopped, it
touches memory only, it is stuck, or it is a collective that needs others. (Log entry 32.) -/
def State.mayStay (s : State) (r : EngReq) : Bool :=
  r.done || r.stopped.isSome || r.memoryOnly || s.stuckReq r ||
  match r.kind with
  | .coll _ => !(s.colls.any fun c => (c.args.any fun a => a.req = r.id) && s.collGoesOn c)
  | _ => false

/-- A load that holds for a page, and that the freeze has still to stop, stands before a quarter-operation (R74, R373).
(Log entry 32.) -/
def State.heldBefore (s : State) (r : EngReq) : Bool :=
  s.flights.any fun f => f.core = r.core && f.slot = r.slot && decide (f.id < r.id) && r.anc.contains f.split && f.acc.isLoad && !f.held.isEmpty

/-- The splits of a block have met the slots at which they stop, and its quarter-operations are performed (R245, R298:
steps 1 and 2). (Log entry 32.) -/
def State.drained (s : State) (b : Block) : Bool :=
  (s.groups.all fun g => g.block != b.id || g.service || g.halting = []) &&
  s.reqs.all fun r => r.block != b.id || r.detached || match r.kind with
    | .mma _ _ _ _ _ _ => s.mayStay r || s.heldBefore r
    | _ => true

/-- Everything that a freeze waits for has come about (R298: steps 3 and 4). (Log entry 32.) -/
def State.freezeReady (s : State) (b : Block) : Bool :=
  !(s.flights.any (s.flightOf b)) && s.reqs.all fun r => r.block != b.id || r.detached || s.mayStay r

/-! ### Writing a block -/

/-- What the device keeps of a group beside its record: its reports, what its splits skip when they issue again, and when
their SLEEPTs end. (Log entry 33.) -/
def Group.keep (g : Group) : GroupKeep :=
  { producer := g.producer, curReport := g.curReport
    reports := g.reports.map fun r => { r with split := (r.split.bind fun a => g.splits.find? fun x => x.anc.contains a).map g.rank }
    reissues := g.splits.filterMap fun x => x.reissue.map fun d => (g.rank x, d)
    sleeps := g.splits.filterMap fun x => match x.wait with
      | .sleept n => some (g.rank x, n)
      | _ => none }

/-- The requests of a block's groups leave their slots (R85), and its collectives stand stopped (R397).
(Log entries 32 and 33.) -/
def State.detach (s : State) (b : Block) : State :=
  let gs := (s.blockMembers b).filterMap id
  let moved := fun (core slot : Nat) => (gs.find? fun g => g.core = core && g.slot = slot).map fun g => frozenSlot b.id g.producer
  { s with
    reqs := s.reqs.map fun (r : EngReq) =>
      if r.block = b.id ∧ r.detached = false then
        { r with slot := (moved r.core r.slot).getD r.slot, owner := (moved r.core r.owner).getD r.owner }
      else r
    colls := s.colls.map fun c => if c.block = b.id ∧ c.started = true then { c with stopped := true } else c }

/-- The block's pantry entries leave the pantries (R298). -/
def State.dropPantry (s : State) (b : Block) : State :=
  let ids := (s.blockPantry b).map fun x => x.1.id
  b.cores.foldl (fun t c => t.modCore c fun k => k.keepEntries fun e => !(ids.contains e.id)) s

/-- A block that leaves its cluster holds no lease there any more: restored, it asks for one again (R239, R245).
(Log entry 33.) -/
def State.endLease (s : State) (b : Block) : State :=
  s.modEngine (b.cores.headD 0) fun c => { c with lease := c.lease.filter fun x => x.block ≠ b.id }

/-- The record has been written at an address: the block gives up all it holds (R298). (Log entry 33.) -/
def State.releaseFrozen (s : State) (b : Block) (addr size : Nat) : State :=
  let gs := (s.blockMembers b).filterMap id
  let fb : FrozenBlk :=
    { id := b.id, index := b.index, addr := addr, size := size, spread := b.cores.length
      pantry := (s.blockPantry b).map fun x => (x.2, x.1.id), keep := gs.map Group.keep }
  let s1 := ((s.detach b).dropPantry b).endLease b
  let s2 := gs.foldl (fun t g => t.releaseGroup g.core g.slot) s1
  let s3 := { s2 with blocks := s2.blocks.filter fun x => x.id ≠ b.id }
  let enter := fun (l : List FrozenBlk) =>
    (l.takeWhile fun y => decide (y.index < fb.index)) ++ fb :: l.dropWhile fun y => decide (y.index < fb.index)
  let s4 := b.cores.foldl State.resumeCore (s3.modBundle b.head fun x => if x.rcb = x.head then { x with frozen := enter x.frozen } else x)
  (if s4.running b.head = [] then s4.freezeOver b.head else s4).retryAll

/-- The first line of a save area's range that is refused tells what its walk and its page have to tell (R368, R369, R402). -/
def State.areaNote (s : State) (part va lines : Nat) : State :=
  match (List.range lines).find? fun k => match s.reach part (va + 128 * k) with
    | .bad _ => true
    | _ => false with
  | some k => s.walkNote part (va + 128 * k)
  | none => s

/-- The handler's place in the save area is beyond its limit, or cannot be used: the block is ended, with
event 0x45 (R301, R359, R361). (Log entry 35.) -/
def State.areaFull (s : State) (b : Block) (area : Nat) : State :=
  (s.endBlock b.id 0 0 false).post { Event.of 0x45 0 area with
    part := b.part, domain := s.domainOf b.head, core := b.cores.headD 0xFF
    die := (b.cores.head?.map coreDie).getD 0xFF, launch := b.head }

/-- The block record is written, behind an allocation from the cursor (R301, R302). An absent page is
requested and waited for. (Log entry 35.) -/
def State.writeBlock (s : State) (b : Block) (area : Nat) : State :=
  let page := fun (va : Nat) => match s.walk b.part va with
    | .leaf _ => s
    | _ => s.pageRequest (b.cores.headD 0) b.part va true false (s.domainOf b.head)
  match s.areaRead b.part area 128, s.areaLines b.part area 1 with
  | .absent a, _ => page a
  | _, .inl (.absent a) => page a
  | .val h, .inr [head] =>
    if anySet h [(96, 32), (192, 832)] then s.areaFull b area else
    let cursor := fld h 0 64
    let body := s.blockRecord b
    if fld h 128 64 < cursor + body.length then s.areaFull b area
    else match s.areaLines b.part (area + cursor) ((body.length + 127) / 128) with
      | .inl (.absent a) => page a
      | .inl _ => (s.areaNote b.part (area + cursor) ((body.length + 127) / 128)).areaFull b area
      | .inr lines =>
        let s1 := s.homeWrite (bytesAt head 8 (cursor + (body.length + 127) / 128 * 128)) none
        let s2 := (s1.areaWrite lines (align128 body)).homeWrite (bytesAt (head + 8) 4 (fld h 64 32 + 1)) none
        s2.releaseFrozen b (area + cursor) body.length
  | _, _ => (s.areaNote b.part area 1).areaFull b area

/-- BLOCK_FREEZE (R298): the handler of a block takes its next step; behind steps 1 and 2 held lanes are stopped, and once
nothing is left to wait for the record is written. -/
def State.freezeBlock (s : State) (id : Nat) : State :=
  match s.block id with
  | none => s
  | some b => match s.launchOf b.head with
    | none => s
    | some l =>
      if !l.freezing || b.ending.isSome || b.restoring.isSome || !s.drained b then s
      else
        let s1 := s.stopHeld b
        if s1.freezeReady b then
          let s2 := ((s1.blockMembers b).filterMap (fun x => x)).foldl (fun (t : State) (g : Group) => t.flushOwn g.core g.slot) s1
          if ((s2.blockMembers b).filterMap (fun x => x)).any fun g => s2.ownLeft g.core g.slot then s2
          else s2.writeBlock b l.saveArea
        else s1

def execBlockFreeze (s : State) : Out := .next (s.freezeBlock s.ev.blk)

/-! ### Reading a block back -/

/-- n bytes of a record that was read as one number. -/
def recordBytes (rec_ off n : Nat) : List Byte := bytesLE n (fld rec_ (8 * off) (8 * n))

/-- Where a group's slot lies in a restored block, and the group as it begins. -/
structure Seat where
  producer : Nat
  core : Nat
  slot : Nat
  launch : Nat
  groupix : Nat
  regs : Nat
  launched : Mask
  deriving DecidableEq, Repr

/-- The place of a group that a frozen block still had, before its registers come back (R299). (Log entry 34.) -/
def restoredShell (fb : FrozenBlk) (age : Nat) (x : Seat) : Option Group :=
  (fb.keep.find? fun k => k.producer = x.producer).map fun k =>
    { Group.empty with
      live := true, core := x.core, slot := x.slot, block := fb.id, launch := x.launch, groupix := x.groupix
      producer := x.producer, age := age, launched := x.launched, reports := k.reports, curReport := k.curReport }

/-- The groups that a frozen block still had, as their records give them, off the device (R303). (Log entry 34.) -/
def restoredGroup (fb : FrozenBlk) (rec_ regs cycle age : Nat) (x : Seat) : Option Group :=
  (fb.keep.find? fun k => k.producer = x.producer).bind fun k => (restoredShell fb age x).map fun base =>
    let g := groupOfRecord base (recordBytes rec_ (256 + x.producer * groupRecordLen regs) (groupRecordLen regs)) x.regs cycle
    g.mapSplits fun sp =>
      { sp with reissue := k.reissues.lookup sp.age, wait := (k.sleeps.lookup sp.age).elim sp.wait Wait.sleept }

/-- The ranges that a group's saved d registers hold: number, and the saved record (R228). -/
def Group.savedRanges (g : Group) : List (Nat × BitVec 64) :=
  (List.range 16).filterMap fun k => let r := vget g.d k 0; if resValid r then some (k, r) else none

/-- A record under its new base, in a request that named the old one. -/
def moveRange (l : List (BitVec 64 × BitVec 64)) (d : BitVec 64) : BitVec 64 :=
  match l.find? fun x => resBase x.1 = resBase d && resUnits x.1 = resUnits d with
  | some x => bset d 0 8 (resBase x.2)
  | none => d

/-- The records that a request names, under their new bases (R299). -/
def ReqKind.moveRanges (k : ReqKind) (l : List (BitVec 64 × BitVec 64)) : ReqKind :=
  match k with
  | .mld d va pitch first rows => .mld (moveRange l d) va pitch first rows
  | .mlds d zero va pitch first rows => .mlds (moveRange l d) zero va pitch first rows
  | .mma integer da db a0 bank b0 => .mma integer (moveRange l da) (moveRange l db) a0 bank b0
  | k => k

/-- Banks a kind 2 image claims (R244). -/
def imageBanks (rec_ off : Nat) : List Nat := (List.range 64).filter fun b => fld rec_ (8 * off + b) 1 = 1

/-- Bytes of a range's image, on its own boundary. -/
def rangeImage (d : BitVec 64) : Nat := (64 + resUnits d * unitBytes + 127) / 128 * 128

/-- Where the images of each group begin, and where the last one ends. (Log entry 31.) -/
def imageStarts (rec_ : Nat) : List Group → Nat → List (Group × Nat)
  | [], _ => []
  | g :: r, off =>
    (g, off) :: imageStarts rec_ r
      (off + 128 + 4096 * (imageBanks rec_ off).length + ((g.savedRanges.map fun x => rangeImage x.2).sum))

/-- The ranges of a restored group: register, saved record, and where the image lies (R302). -/
def rangeImages (rec_ off : Nat) (g : Group) : List (Nat × BitVec 64 × Nat) :=
  (g.savedRanges.foldl (fun (acc : List (Nat × BitVec 64 × Nat) × Nat) x =>
    (acc.1 ++ [(x.1, x.2, acc.2)], acc.2 + rangeImage x.2)) ([], off + 128 + 4096 * (imageBanks rec_ off).length)).1

/-- The banks of one restored group, claimed and loaded (R243, R299: steps 1 and 2). -/
def State.restoreBanks (s : State) (rec_ off : Nat) (g : Group) : State :=
  (imageBanks rec_ off).zipIdx.foldl (fun t x =>
    (t.takeBanks g.core (ownerKey g.core g.slot) x.1 1).modEngine g.core fun c =>
      (List.range 1024).foldl (fun k n => k.bankSet x.1 (n / 128) (n % 128)
        (BitVec.ofNat 32 (fld rec_ (8 * (off + 128 + 4096 * x.2 + 4 * n)) 32))) c) s

/-- One range of a restored group at a base, with its bytes (R243, R299: step 3). -/
def State.restoreRange (s : State) (rec_ at_ base : Nat) (g : Group) (d : BitVec 64) : State :=
  (s.takeUnits g.core (ownerKey g.core g.slot) base (resUnits d)).modEngine g.core fun c =>
    (List.range (resUnits d * unitBytes)).foldl (fun e o =>
      e.opWrite (base * unitBytes + o) (BitVec.ofNat 8 (fld rec_ (8 * (at_ + 64 + o)) 8))) c

/-- The requests of a restored group come back to it (R85): those that retired meanwhile leave its counters,
in order; quarter-operations enter the table again, and MROW comes from the kind 2 image (R244).
(Log entries 33 and 34.) -/
def State.reattach (s : State) (rec_ off : Nat) (g : Group) (moved : List (BitVec 64 × BitVec 64)) : State :=
  let old := frozenSlot g.block g.producer
  let s1 := { s with reqs := s.reqs.map fun (r : EngReq) =>
    if r.slot = old then
      { r with core := g.core, slot := g.slot, owner := g.slot, split := 0, anc := [0, 1, 2, 3], retired := false, kind := r.kind.moveRanges moved }
    else r }
  let row := fld rec_ (8 * off + 96) 32
  let s2 := match s1.rowRequest g with
    | some x => if fld row 31 1 = 1 then s1.modReq x.id fun y => { y with pos := min (fld row 0 16) y.kind.rows } else s1
    | none => s1
  let prio := match s2.launchOf g.launch with
    | some l => l.eff.priority
    | none => 0
  let s3 := (s2.reqs.filter fun r => r.core = g.core && r.slot = g.slot && !r.done).foldl (fun t r => match r.kind with
    | .mma _ _ _ _ _ _ => t.modEngine g.core fun c =>
      { c with tableAge := c.tableAge + 1
               table := c.table ++ [{ core := g.core, slot := g.slot, split := r.split, block := g.block, req := r.id, prio := prio
                                      age := c.tableAge, lease := none, passed := 0 }] }
    | _ => t) s2
  (List.range 4).foldl (fun t c => t.retireClass g.core g.slot c 64) s3

/-- The saved pantry entries of a restored block, on their groups' cores (R299, R374). -/
def restoredPantry (fb : FrozenBlk) (rec_ off : Nat) (part : Nat) (seats : List Seat) : List PantryEntry :=
  (fb.pantry.zipIdx.filterMap fun x =>
    (seats.find? fun y => y.producer = x.1.1).map fun y =>
      pantryOfBits x.1.2 y.core y.slot part (fld rec_ (8 * (off + 64 * x.2)) 512)
        (recordBytes rec_ (off + 64 * fb.pantry.length + 256 * x.2) 256))

/-- Room for the saved entries in the pantries of the cores that receive them (R299). (Log entry 34.) -/
def State.pantryHolds (s : State) (fb : FrozenBlk) (seats : List Seat) : Bool :=
  seats.all fun x =>
    let n := (fb.pantry.filter fun p => seats.any fun y => y.producer = p.1 && y.core = x.core).length
    decide ((s.coreAt x.core).pantry.length + n ≤ Config.pantryEntries)

/-- Offsets of a record's parts: the scratchpad image, the pantry entries, the engine images (R302). (Log entry 31.) -/
def recordParts (groups regs scratch n entries : Nat) : Nat × Nat × Nat :=
  let up := fun (x : Nat) => (x + 127) / 128 * 128
  let a := 256 + up (groups * groupRecordLen regs)
  let share := (scratch + n - 1) / n
  let b := a + up (n * share)
  (a, b, b + up (320 * entries))

/-- The seat of a resident group. -/
def State.seatOf (s : State) (g : Group) : Seat :=
  { producer := g.producer, core := g.core, slot := g.slot, launch := g.launch, groupix := g.groupix
    regs := (s.launchOf g.launch).elim 0 fun l => l.regs, launched := g.launched }

/-- The groups of a block that comes back, as their records give them, each with where its images begin. -/
def State.returnees (s : State) (b : Block) (x : Restore) : List (Group × Nat) :=
  imageStarts x.rec_ (((s.blockMembers b).filterMap fun g => g).filterMap fun g =>
    restoredGroup x.fb x.rec_ b.regs (s.engine g.core).cycle g.age (s.seatOf g)) x.off

/-- A block that comes back, in the order in which ranges are reserved: behind the numbers of slots. -/
def Block.asWaiter (b : Block) : Waiter := ⟨b.cores.headD 0, Config.slotsPerCore, b.id, 0⟩

/-- The next range of a block that comes back: it waits for its units as an ORES does (R229, R243). (Log entry 34.) -/
def State.nextRange (s : State) (b : Block) (x : Restore) (l : List (Group × Nat)) : Option State :=
  match (l.flatMap fun y => (rangeImages x.rec_ y.2 y.1).map fun r => (y.1, r)).find? fun z =>
      !(x.ranges.any fun r => r.1 = z.1.producer && r.2.1 = z.2.1) with
  | none => none
  | some (g, reg, d, at_) =>
    let u := s.modEngine g.core fun c => { c with oresQ := arriveAt c.oresQ b.asWaiter }
    match firstIn (u.engine g.core).oresQ b.asWaiter, freeRun (u.engine g.core).unitOwner 256 (resUnits d) with
    | true, some k =>
      let new := bset (BitVec.ofNat 64 (fld x.rec_ (8 * at_) 64)) 0 8 k
      some (((u.modEngine g.core fun c => { c with oresQ := c.oresQ.drop 1 }).restoreRange x.rec_ at_ k g d).modBlock b.id fun y =>
        { y with restoring := some { x with ranges := x.ranges ++ [(g.producer, reg, new)] } })
    | _, _ => some u

/-- A group that comes back, with the records of its ranges as they are now (R243). -/
def Group.rebased (g : Group) (x : Restore) : Group :=
  { g with d := Vector.ofFn fun k =>
      match x.ranges.find? fun r => r.1 = g.producer && r.2.1 = k.val with
      | some r => r.2.2
      | none => g.d[k] }

/-- The records of a group's ranges, before and after. -/
def Group.movedRanges (g : Group) (x : Restore) : List (BitVec 64 × BitVec 64) :=
  x.ranges.filterMap fun r => if r.1 = g.producer then some (vget g.d r.2.1 0, r.2.2) else none

/-- With its banks and ranges, a block has the rest of its record back (R85, R299: steps 4 to 6): registers and scratchpad,
pantry entries, counters; its groups become ready with new ages, and its launch runs. (Log entry 34.) -/
def State.restoreRest (s : State) (b : Block) (x : Restore) (l : List (Group × Nat)) : State :=
  let parts := recordParts b.groups b.regs (fld x.rec_ 128 32) x.fb.spread x.fb.pantry.length
  let seats := l.map fun y => s.seatOf y.1
  let s1 := l.foldl (fun t y =>
    let age := (t.coreAt y.1.core).nextAge
    (t.modCore y.1.core fun c => { c with nextAge := c.nextAge + 1 }).modGroup y.1.core y.1.slot fun old =>
      { y.1.rebased x with
        age := age, stopped := old.stopped
        halting := if old.stopped then (y.1.splits.filter fun z => z.mask != 0).map fun z => z.age else [] }) s
  let s2 := (b.cores.zip b.bases).zipIdx.foldl (fun t y =>
    t.modCore y.1.1 fun c =>
      { c with scratch := (List.range b.share).foldl (fun m o =>
          Memory.write m (y.1.2 + o) (BitVec.ofNat 8 (fld x.rec_ (8 * (parts.1 + y.2 * b.share + o)) 8))) c.scratch }) s1
  let s3 := (restoredPantry x.fb x.rec_ parts.2.1 b.part seats).foldl (fun t e =>
    t.modCore e.core fun c =>
      { c with pantry := (c.pantry.takeWhile fun y => decide (y.id < e.id)) ++ e :: c.pantry.dropWhile fun y => decide (y.id < e.id) }) s2
  let s4 := l.foldl (fun t y => t.reattach x.rec_ y.2 (y.1.rebased x) (y.1.movedRanges x)) s3
  let s5 := s4.modBlock b.id fun y => { y with restoring := none }
  match s5.launchOf b.head with
  | some k => if k.state = 1 then s5.setStates b.head 2 else s5
  | none => s5

/-- Its quarter-operations and pantry entries have room (R262, R299). (Log entry 34.) -/
def State.restHolds (s : State) (b : Block) (x : Restore) (l : List (Group × Nat)) : Bool :=
  let mine := s.reqs.filter fun r => r.block = b.id && r.detached && !r.done && match r.kind with
    | .mma _ _ _ _ _ _ => true
    | _ => false
  decide ((s.engine (b.cores.headD 0)).table.length + mine.length ≤ Config.resEntries) &&
  s.pantryHolds x.fb (l.map fun y => s.seatOf y.1)

/-- The banks that a group of a returning block held are claimed and loaded once all of them are free, group for group
(R243, R299: steps 1 and 2). (Log entry 34.) -/
def State.claimBanks (s : State) (id : Nat) (x : Restore) (l : List (Group × Nat)) : State × Restore :=
  l.foldl (fun acc y =>
    let bs := imageBanks x.rec_ y.2
    let c := acc.1.engine y.1.core
    if acc.2.banks.contains y.1.producer || bs.any fun k => Smap.get 0 c.bankOwner k != 0 then acc
    else
      let z := { acc.2 with banks := acc.2.banks ++ [y.1.producer] }
      ((acc.1.restoreBanks x.rec_ y.2 y.1).modBlock id fun b => { b with restoring := some z }, z)) (s, x)

/-- A placed block goes on coming back (R299): its groups' banks, its ranges one by one, then the rest; so many steps at
most. (Log entry 34.) -/
def State.restoreSteps (s : State) (id : Nat) : Nat → State
  | 0 => s
  | n + 1 =>
    match s.block id with
    | none => s
    | some b => match b.restoring with
      | none => s
      | some x =>
        let l := s.returnees b x
        if x.banks.length < l.length then
          let c := s.claimBanks id x l
          if c.2.banks.length < l.length then c.1 else c.1.restoreSteps id n
        else match s.nextRange b x l with
          | some t => if t.block id = some b then t else t.restoreSteps id n
          | none => if s.restHolds b x l then s.restoreRest b x l else s

/-- A block has at most 64 groups with 16 ranges each. (Log entry 34.) -/
def State.restoreStep (s : State) (id : Nat) : State := s.restoreSteps id 1026

/-- A placed block can go on coming back. (Log entry 34.) -/
def State.restorable (s : State) (b : Block) : Bool := b.restoring.isSome && decide (s.restoreStep b.id ≠ s)

/-- A frozen block is placed again on some cores (R299): its groups take their slots, and the service slot begins to restore
them. (Log entry 34.) -/
def State.restoreBlock (s : State) (fb : FrozenBlk) (b : Block) (rec_ regs scratch : Nat) (seats : List Seat) : State :=
  let parts := recordParts seats.length regs scratch fb.spread fb.pantry.length
  let tiles := Vector.ofFn fun (n : Fin 8) => BitVec.ofNat 64 (fld rec_ (256 + 64 * n.val) 64)
  let s0 := { s with blocks := s.blocks ++
    [{ b with tiles := tiles, restoring := some { fb := fb, rec_ := rec_, off := parts.2.2, banks := [], ranges := [] } }] }
  let s1 := (seats.filterMap fun x => restoredShell fb 0 x).foldl (fun t g =>
    if t.g.live then { t with others := t.others ++ [g] } else { t with g := g }) s0
  ((s1.modBundle b.head fun x => { x with frozen := x.frozen.filter fun y => y.id ≠ fb.id }).restoreStep b.id).retryAll

/-- An engine image breaks R243 or R244 in a bit that must be zero. (Log entry 35.) -/
def imagesBad (rec_ off : Nat) (g : Group) : Bool :=
  anySet (fld rec_ (8 * off) 512) [(81, 15), (112, 14), (128, 384)] ||
  (rangeImages rec_ off g).any fun z => anySet (fld rec_ (8 * z.2.2) 512) [(25, 7), (64, 448)]

/-- A saved record cannot be used: it is not of its block, or a reserved bit of it or of its engine images is set (R5, R243,
R244, R302 to R305). (Log entry 35.) -/
def recordBad (fb : FrozenBlk) (rec_ regs scratch groups : Nat) : Bool :=
  let parts := recordParts groups regs scratch fb.spread fb.pantry.length
  anySet rec_ [(56, 8), (103, 1), (111, 1), (114, 14), (768, 1280)] || fld rec_ 64 32 != fb.index || fld rec_ 96 7 != groups ||
  fld rec_ 104 7 != regs || fld rec_ 112 2 + 1 != fb.spread || fld rec_ 128 32 != scratch || fld rec_ 160 32 != fb.pantry.length ||
  (fb.keep.any fun k => groupBad (recordBytes rec_ (256 + k.producer * groupRecordLen regs) (groupRecordLen regs))) ||
  ((imageStarts rec_ (fb.keep.map fun k =>
    groupOfRecord Group.empty (recordBytes rec_ (256 + k.producer * groupRecordLen regs) (groupRecordLen regs)) regs 0) parts.2.2).any
      fun y => imagesBad rec_ y.2 y.1) ||
  (List.range fb.pantry.length).any fun k => descriptorBad (fld rec_ (8 * (parts.2.1 + 64 * k)) 512)

/-- A saved block whose record cannot be used is ended, as one whose place in the save area cannot be (R5, R361).
(Log entry 35.) -/
def State.dropFrozen (s : State) (l : Launch) (fb : FrozenBlk) : State :=
  let s1 := { s with reqs := s.reqs.filter fun r => r.block ≠ fb.id, colls := s.colls.filter fun c => c.block ≠ fb.id }
  let s2 := s1.modBundle l.head fun x =>
    { x with frozen := x.frozen.filter fun y => y.id ≠ fb.id, ended := x.ended + 1, failed := true }
  let ev := fun (t : State) (code : Nat) => t.post { Event.of code 0 l.saveArea with
    part := l.part, domain := t.domainOf l.head, launch := l.head }
  let s3 := ev (ev s2 0x41) 0x45
  if l.total ≤ l.ended + 1 then s3.retireLaunch l.head else s3

end Sys2Proof.Machine
end

