-- ==== Sys2Proof/Machine/Geyser.lean ====
section
/-! DEFINITION. Geyser loops and the caldera: periods, merging, the step, actuators, grants, pool ways, bind
and unbind (R265 to R280, R408, R410, R412 to R414). -/

namespace Sys2Proof.Machine

/-! ### Fields and partitions -/

/-- The rail core of a partition on a die (R317): the highest-numbered core of PART.cores there. -/
def State.railCore (s : State) (part die : Nat) : Option Nat :=
  ((List.range 32).reverse.find? fun k => s.partCores part / 2 ^ (32 * die + k) % 2 = 1).map fun k => 32 * die + k

/-- The rail cores that a partition may not use for its groups: none while coll_en is 0. (Log entry 37.) -/
def State.railCores (s : State) (part : Nat) (en : Bool) : List Nat :=
  if en then (List.range 8).filterMap (s.railCore part) else []

/-- The partition's usable cores (R272). (Log entry 37.) -/
def State.usableCores (s : State) (part : Nat) (en : Bool) : Nat :=
  (bits256 (s.partCores part)).length - (s.railCores part en).length

/-- The top and the bottom of an actuator's range (R272). -/
def actTop (usable a : Nat) : Nat := if a = 0 then 48 else if a = 1 then usable else if a = 2 then 8 else if a = 3 then 32 else 30
def actBottom (a : Nat) : Nat := if a ≤ 1 then 1 else 0

/-- Effective minimum and maximum of an actuator (R272). -/
def LoopCfg.min_ (c : LoopCfg) (a : Nat) : Nat := max (fld c.limits (16 * a) 8) (actBottom a)
def LoopCfg.max_ (c : LoopCfg) (a : Nat) : Nat := min (fld c.limits (16 * a + 8) 8) (actTop c.usable a)

/-- The actuators in the order in which they are filled (R273). -/
def LoopCfg.fill (c : LoopCfg) : List Nat := (List.range 5).map fun k => fld c.order (3 * k) 3

/-- A_total (R271). -/
def LoopCfg.total (c : LoopCfg) : Nat := ((List.range 5).map fun a => c.max_ a - c.min_ a).sum

/-- A valid loop configuration (R272, R273, R412). (Log entry 36.) -/
def LoopCfg.ok (c : LoopCfg) : Bool :=
  decide (16 ≤ c.log2) && decide (c.log2 ≤ 26) && (List.range 5).all (fun a => c.fill.contains a) &&
  (List.range 5).all fun a => decide (c.min_ a ≤ c.max_ a)

/-- The bit-10 fields of a node (R37): a maximum read as 0 stands for 0xFF where literal is 0. (Log entry 36.) -/
def cfgOf (x : BitVec 2048) (usable : Nat) : LoopCfg :=
  let lim := bget x 448 80
  let limits := if rcbLiteral x then lim else
    ((List.range 5).map fun a =>
      (fld lim (16 * a) 8 + (if fld lim (16 * a + 8) 8 = 0 then 0xFF else fld lim (16 * a + 8) 8) * 2 ^ 8) * 2 ^ (16 * a)).sum
  let c : LoopCfg :=
    { target := bget x 320 32, kp := rcbE x 352 16 0x1000, ki := rcbE x 368 16 0x0400, ilim := rcbE x 384 32 0x7FFFFFFF
      log2 := rcbE x 56 8 20, order := rcbE x 416 15 0x4688, limits := limits, usable := usable, valid := true }
  { c with valid := c.ok }

/-- The nodes of a context's path as they stand: the context, then the partition node. -/
def State.ctxPath (s : State) (part ctx : Nat) : List (Nat × BitVec 2048) × State := s.pathNow part (s.ctxNodes part ctx)

/-- A context's effective bit-10 fields, read now (R38, R39). -/
def State.readCfg (s : State) (part ctx : Nat) : LoopCfg × State :=
  let en := s.collEn part
  let p := en.2.ctxPath part ctx
  (cfgOf (nearest s.regs.root p.1 10) (s.usableCores part en.1), p.2)

/-! ### Controllers -/

/-- GLOOP of a controller (R265), and its fields. -/
def State.gloop (s : State) (c : Nat) : BitVec 128 := vget s.regs.gloop c 0
def glCtx (r : BitVec 128) : Nat := bget r 0 56
def glPart (r : BitVec 128) : Nat := bget r 56 4
def glMembers (r : BitVec 128) : Nat := max 1 (bget r 80 8)
def glEnable (r : BitVec 128) : Bool := bbit r 88

/-- The device with a controller record's bound and refused bits set (R266). -/
def State.setBound (s : State) (c : Nat) (bound refused : Bool) : State :=
  let r := bset (bset (s.gloop c) 89 1 (b2n bound)) 90 1 (b2n refused)
  { s with regs := { s.regs with gloop := vset s.regs.gloop c r } }

/-- A context of which nothing was kept has its beats from now on (R268). -/
def State.ensureBeats (s : State) (part ctx : Nat) : State :=
  if s.beats.any fun b => b.part = part && b.ctx = ctx then s
  else
    let c := s.readCfg part ctx
    let n := if 16 ≤ c.1.log2 ∧ c.1.log2 ≤ 26 then c.1.log2 else 20
    { c.2 with beats := c.2.beats ++ [{ Beats.fresh part ctx { c.1 with log2 := n } s.timer with idle := true }] }

/-- The context with its beats changed. -/
def State.modBeats (s : State) (part ctx : Nat) (f : Beats → Beats) : State :=
  { s with beats := modFirst (fun b => b.part = part && b.ctx = ctx) f s.beats }

/-- A position spent in the actuator order (R273). -/
def spend (c : LoopCfg) (a : Nat) : Vector Nat 5 :=
  (c.fill.foldl (fun (x : Vector Nat 5 × Nat) k =>
    let take := min (c.max_ k - c.min_ k) x.2
    (vset x.1 k (c.min_ k + take), x.2 - take)) (Vector.ofFn fun k => c.min_ k.val, a)).1

/-- A signed loop word as the RCB holds it. -/
def loopWord (x : Int) : Nat := ofSigned 32 x

/-- The loop words of a controller go to the context RCB (R267); the whole loop state with its granted bytes and sat bits when
so asked (R279). -/
def State.writeLoop (s : State) (c : Nat) (sats : Bool) : State :=
  let l := s.loopAt c
  match l.serves with
  | none => s
  | some (part, ctx) =>
    let s1 := ((((s.writeNode part ctx 640 32 (loopWord l.integrator)).writeNode part ctx 672 32 (loopWord l.lastError)).writeNode
      part ctx 704 32 l.lastBeats).writeNode part ctx 736 32 l.position).writeNode part ctx 832 64 l.periodIndex
    if sats then (s1.writeNode part ctx 768 40 l.grantBytes).writeNode part ctx 896 2 (b2n l.satUp + 2 * b2n l.satDown) else s1

/-! ### The caldera -/

/-- Where a bound context stands in the caldera's order (R274): shed_class, 7 less its priority, created (0
behind the others), number. -/
structure Claim where
  c : Nat
  ctx : Nat
  shed : Nat
  low : Nat
  created : Nat
  deriving DecidableEq, Repr

/-- The order of two claims. -/
def Claim.before (a b : Claim) : Bool :=
  decide (a.shed < b.shed) || (a.shed = b.shed && (decide (a.low < b.low) || (a.low = b.low &&
    (decide (a.created < b.created) || (a.created = b.created && decide (a.c < b.c))))))

/-- A claim enters an ordered list. -/
def enterClaim (x : Claim) : List Claim → List Claim
  | [] => [x]
  | y :: r => if x.before y then x :: y :: r else y :: enterClaim x r

/-- The claims of a partition in order. -/
def State.claims (s : State) (part : Nat) : List Claim × State :=
  (s.bound part).foldl (fun acc c =>
    let ctx := ((acc.2.loopAt c).serves.getD (0, 0)).2
    let p := acc.2.ctxPath part ctx
    let e := effOf p.2.regs.root p.1
    let t := (p.1.headD (0, 0)).2
    (enterClaim { c := c, ctx := ctx, shed := e.shedClass, low := 7 - e.priority
                  created := if rcbCreated t = 0 then 2 ^ 64 else rcbCreated t } acc.1, p.2)) ([], s)

/-- One resource granted (R274, R412): every minimum in order until the supply is spent, then the rest in
order. The numbers are minimum and request. -/
def share (supply : Nat) (l : List (Nat × Nat)) : List Nat :=
  let base := l.foldl (fun (acc : List Nat × Nat) x => (acc.1 ++ [min x.1 acc.2], acc.2 - min x.1 acc.2)) ([], supply)
  ((l.zip base.1).foldl (fun (acc : List Nat × Nat) x =>
    let more := min (x.1.2 - x.1.1) acc.2
    (acc.1 ++ [x.2 + more], acc.2 - more)) ([], base.2)).1

/-- The supply of a resource (R274). -/
def supplyOf (usable a : Nat) : Nat := if a = 0 then 48 else if a = 1 then usable else if a = 2 then 8 else 32

/-- One resource of a pass. -/
def State.grantResource (s : State) (l : List Claim) (usable a : Nat) : State :=
  let g := share (supplyOf usable a) (l.map fun x => (vget (s.loopAt x.c).mins a 0, vget (s.loopAt x.c).request a 0))
  (l.zip g).foldl (fun t x => t.modLoop x.1.c fun k => { k with granted := vset k.granted a x.2 }) s

/-- The step that the caldera sets on a die (R275). -/
def State.calderaStep (s : State) (die : Nat) : Nat :=
  let here := fun (c : Nat) => match (s.loopAt c).serves with
    | some x => (s.ctxDies x.1 x.2).contains die
    | none => false
  let shed := fun (c : Nat) => match (s.loopAt c).serves with
    | some x => (nearest s.regs.root ((s.ctxNodes x.1 x.2).map fun a => (a, s.image x.1 a)) 2).extractLsb' 48 2 |>.toNat
    | none => 3
  let cs := (List.range 128).filter here
  let low := (cs.map shed).foldl min 4
  let best := ((cs.filter fun c => shed c = low).map fun c => (s.loopAt c).clock).foldl max 0
  let unserved := s.groups.any fun g => !g.service && coreDie g.core = die && match s.launchOf g.launch with
    | some l => (s.server l.part l.ctx).isNone
    | none => false
  if cs.isEmpty then 16 else if unserved then max best 16 else best

/-- The device with a pool way changed; one without owner and change is not listed. -/
def State.setWay (s : State) (w : PoolWay) : State :=
  let l := s.ways.filter fun x => !(x.part = w.part && x.way = w.way)
  if w.owner = 0 ∧ w.next = [] then { s with ways := l }
  else
    let key := fun (x : PoolWay) => 8 * x.part + x.way
    { s with ways := (l.takeWhile fun x => decide (key x < key w)) ++ w :: l.dropWhile fun x => decide (key x < key w) }

/-- A way is to have another owner: the change begins, or waits behind an earlier one (R66, R408). (Log entry 50.) -/
def State.moveWay (s : State) (part way owner : Nat) : State :=
  let w := s.poolWay part way
  if w.last = owner then s
  else s.setWay { w with next := w.next ++ [owner], since := if w.next = [] then s.timer else w.since
                         slow := if w.next = [] then false else w.slow }

/-- The owners that a pass gives the eight pool ways (R277): releases first, each from its highest way; then
each context takes the lowest unassigned ones, in the claim order of R274, since R277 orders contexts among themselves no further.
(Log entry 37.) -/
def wayOwners (old : List Nat) (l : List (Nat × Nat)) : List Nat :=
  let rel := l.foldl (fun (m : List Nat) x =>
    let mine := (List.range 8).filter fun w => m[w]? = some x.1
    (mine.drop x.2).foldl (fun k w => k.set w 0) m) old
  l.foldl (fun (m : List Nat) x =>
    let have_ := (m.filter fun o => o = x.1).length
    (((List.range 8).filter fun w => m[w]? = some 0).take (x.2 - have_)).foldl (fun k w => k.set w x.1) m) rel

/-- The pool ways of a partition follow the grants (R277). -/
def State.grantWays (s : State) (part : Nat) (l : List Claim) : State :=
  let old := (List.range 8).map fun w => (s.poolWay part (8 + w)).last
  let mine := l.map fun x => x.c + 1
  let kept := old.map fun o => if mine.contains o then o else 0
  let new := wayOwners kept (l.map fun x => (x.c + 1, vget (s.loopAt x.c).granted 2 0))
  (List.range 8).foldl (fun t w => t.moveWay part (8 + w) (new.getD w 0)) s

/-- A pass of the caldera for a partition (R274 to R277, R410, R412). -/
def State.caldera (s : State) (part : Nat) : State :=
  let en := s.collEn part
  let usable := en.2.usableCores part en.1
  let cl := en.2.claims part
  let l := cl.1
  let s1 := (List.range 4).foldl (fun t a => t.grantResource l usable a) cl.2
  let short := decide (usable < (l.map fun x => vget (s1.loopAt x.c).mins 1 0).sum)
  let s2 := if short then s1.post { Event.of 0x56 1 0 with part := part } else s1
  let s3 := l.foldl (fun t x => t.modLoop x.c fun k =>
    { k with clock := (t.ctxDies part x.ctx).foldl (fun m d => min m (t.dieAt d).ceiling) (vget k.request 4 0) }) s2
  let s4 := (List.range 8).foldl (fun t d => (t.modDie d fun y => { y with caldera := t.calderaStep d }).setStep d) s3
  let s5 := l.foldl (fun t x => t.settleGrant x.c part x.ctx) (s4.grantWays part l)
  { s5 with placing := true, passDue := s5.passDue.filter fun p => p ≠ part }

/-- A step or a boundary of a bound context of a partition is still to be taken at this timer value. -/
def State.stepsDue (s : State) (part : Nat) : Bool :=
  (s.bound part).any fun c =>
    let k := s.loopAt c
    k.step.isSome || (match k.window with
      | some w => decide (w.close ≤ s.timer)
      | none => false) ||
    s.beats.any fun b => k.serves = some (b.part, b.ctx) && decide (b.stop ≤ s.timer)

/-- A bind or an unbind may still come at this timer value. -/
def State.bindAhead (s : State) : Bool :=
  (s.agenda.takeWhile fun t => match t with
    | .time _ => false
    | _ => true).any fun t => match t with
    | .event i _ => i = .gloopBind || i = .gloopUnbind || i = .registerWrite
    | _ => false

/-- The pass that a partition is owed comes after the steps of this timer value, and after its binds and unbinds (R274, R278). -/
def State.passNow (s : State) (part : Nat) : State :=
  if s.passDue.contains part && !s.stepsDue part && !s.bindAhead then s.caldera part else s

/-- The passes that are owed are made: nothing more comes at this timer value that they wait for (R274). -/
def State.passes (s : State) : State := s.passDue.foldl (fun t p => t.caldera p) s

/-- A pass is owed. -/
def State.owePass (s : State) (part : Nat) : State :=
  if s.passDue.contains part then s else { s with passDue := s.passDue ++ [part] }

/-- BOOST_CEILING, when 4,096 clocks are full: the ceiling from their weight (R264); with another ceiling the step is
evaluated again (R275). -/
def execBoostCeiling (s : State) : Out :=
  let die := s.ev.die
  let d := s.dieAt die
  let c := if d.weight ≠ 0 ∧ d.weight ≤ 2 * d.matrix then 22 else 30
  let s1 := s.modDie die fun d => { d with ceiling := c, weight := 0, matrix := 0, window := d.window - 4096000 }
  .next (if d.window < 4096000 then s else if c = d.ceiling then s1 else (s1.modDie die fun d => { d with caldera := s1.calderaStep die }).setStep die)

/-! ### Periods and merging -/

/-- PERIOD_BOUNDARY: a context's period ends (R268 to R270, R279); the bit-10 fields are read, and those of the last boundary
stand where a node of which nothing is kept cannot be read (R425). (Log entry 36.) -/
def State.boundary_ (s : State) (part ctx : Nat) : State :=
  match s.beats.find? fun b => b.part = part && b.ctx = ctx with
  | none => s
  | some b =>
    if s.timer < b.stop then s
    else
      let r0 := s.readCfg part ctx
      let r := if (s.ctxNodes part ctx).any fun va => (r0.2.node part va).isNone then (b.nextCfg, r0.2) else r0
      let n := if 16 ≤ r.1.log2 ∧ r.1.log2 ≤ 26 then r.1.log2 else b.nextCfg.log2
      let k := (b.stop - 1) / 2 ^ b.nextCfg.log2
      let s1 := r.2.modBeats part ctx fun x =>
        { x with cfg := b.nextCfg, nextCfg := { r.1 with log2 := n }, start := b.stop, stop := (b.stop / 2 ^ n + 1) * 2 ^ n
                 count := 0, last := b.count, lastIdle := b.idle, idle := (s.ctxGroups part ctx).isEmpty }
      match s1.server part ctx with
      | none => s1
      | some c =>
        State.passNow (part := part) <| s1.modLoop c fun (l : Loop) =>
          let m := fun (x : Member) => { x with due := min (x.due + x.late) (2 ^ 32 - 1), late := 0 }
          if l.fresh then { l with fresh := false, since := b.stop }
          else if l.members ≤ 1 ∨ l.alone then
            { l with step := some { index := b.stop / 2 ^ n, count := if b.idle then none else some b.count, sats := none } }
          else
            { l with
              own := m l.own, others := l.others.map m
              window := some { period := k, close := b.stop + 64000, count := b.count, idle := b.idle, up := l.satUp, dn := l.satDown } }

def execPeriodBoundary (s : State) : Out := .next (s.boundary_ s.ev.part s.ev.ctx)

/-- A device of which nothing was heard before takes the place of a member whose number is not known. (Log entry 38.) -/
def claimMember (dev : Nat) : List Member → List Member
  | [] => []
  | m :: r => if m.dev = none ∧ m.excluded = false then { m with dev := some dev } :: r else m :: claimMember dev r

/-- A member's report reaches this controller (R270, R278): for the open window, or late, and then it counts to the period in
which it arrives. That of an excluded one is discarded (R413), as is what was counted before the first whole period behind the bind
(R279). (Log entry 38.) -/
def Loop.hear (l : Loop) (cur log2 dev period count : Nat) (idle up dn : Bool) : Loop :=
  let ms := if l.others.any fun m => m.dev = some dev then l.others else claimMember dev l.others
  let of := fun (m : Member) => m.dev = some dev && !m.excluded
  { l with heard := l.heard || (decide (cur ≤ period) && ms.any of)
           others := ms.map fun (m : Member) =>
             if !of m then m
             else if period < l.since / 2 ^ log2 then m
             else if period < cur then { m with late := min (m.late + count) (2 ^ 32 - 1) }
             else { m with report := some (count, idle, up, dn) } }

/-- MERGED_BEATS: merged values for a controller's context arrive, with the count, idle bit and sat bits of
one member (R270); the device's own number says that they arrived, and with store that this device's own report missed the
window. (Log entry 38.) -/
def execMergedBeats (s : State) : Out :=
  .next (s.modLoop s.ev.m fun l =>
    match l.serves with
    | none => l
    | some (part, ctx) =>
      if l.members ≤ 1 ∨ l.alone ∨ l.fresh then l
      else
        let b := s.beats.find? fun b => b.part = part && b.ctx = ctx
        let log2 := b.elim 0 fun x => x.nextCfg.log2
        let cur := match l.window with
          | some w => w.period
          | none => b.elim 0 fun x => x.start / 2 ^ log2
        if s.ev.id = bget s.regs.devnum 0 8 then { l with heard := true, ownMissed := s.ev.store }
        else l.hear cur log2 s.ev.id s.ev.pos s.ev.value s.ev.f s.ev.up s.ev.dn)

/-- A member behind a window (R270, R413): the count that stands for it, if any, its sat bits, and what is
kept of it. (Log entry 38.) -/
def Member.merge (m : Member) : Option Nat × Bool × Bool × Member :=
  if m.excluded then (none, false, false, m)
  else match m.report with
    | some (c, idle, up, dn) =>
      let n := min (c + m.due) (2 ^ 32 - 1)
      (if idle then none else some n, up, dn, { m with last := some n, report := none, due := 0, missed := 0 })
    | none => (m.last, false, false, { m with missed := m.missed + 1, excluded := decide (4 ≤ m.missed + 1) })

/-- The least of some counts, if there are any. -/
def leastCount (l : List (Option Nat)) : Option Nat := (l.filterMap id).min?

/-- Event 0x55 for an excluded member; the number of one never heard of is open (R413). (Log entries 4 and 38.) -/
def State.dropMember (s : State) (part : Nat) (m : Member) : State :=
  let ev := fun (d : Nat) => { Event.of 0x55 d 0 with part := part }
  match m.dev with
  | some d => s.post (ev d)
  | none => { s with free := s.free + 1 }.post (ev (Config.freeDevice s.free % 256))

/-- MERGE_WINDOW_EXPIRY: the window of a controller closes (R270, R413); without merged values the step reads its own sat
bits. (Log entry 38.) -/
def State.closeWindow (s : State) (c : Nat) : State :=
  let l := s.loopAt c
  match l.window, l.serves with
  | some w, some (part, ctx) =>
    if s.timer < w.close then s
    else
      let ms := l.others.map Member.merge
      let mine := ({ l.own with report := if l.ownMissed then none else some (w.count, w.idle, w.up, w.dn) } : Member).merge
      let noMerge := if l.heard then 0 else l.noMerge + 1
      let alone := decide (4 ≤ noMerge)
      let up := mine.2.1 || ms.any fun x => x.2.1
      let dn := mine.2.2.1 || ms.any fun x => x.2.2.1
      let self := if l.heard then mine.1 else if w.idle then none else some w.count
      let own := if !l.heard then l.own
        else if l.ownMissed then { mine.2.2.2 with late := min (mine.2.2.2.late + w.count) (2 ^ 32 - 1) } else mine.2.2.2
      let count := leastCount (self :: ms.map fun x => x.1)
      let out := (l.others.zip ms).filter fun x => !x.1.excluded && x.2.2.2.2.excluded
      let index := match s.beats.find? fun b => b.part = part && b.ctx = ctx with
        | some b => b.start / 2 ^ b.nextCfg.log2
        | none => w.period + 1
      let s1 := s.modLoop c fun k =>
        { k with window := none, heard := false, own := own, ownMissed := false, noMerge := noMerge, alone := alone, others := ms.map fun x => x.2.2.2
                 step := some { index := index, count := count, sats := if l.heard then some (up, dn) else none } }
      if alone then s1.dropMember part { l.own with dev := some (bget s.regs.devnum 0 8) }
      else out.foldl (fun t x => t.dropMember part x.1) s1
  | _, _ => s

def execMergeWindowExpiry (s : State) : Out := .next (s.closeWindow s.ev.m)

/-! ### The step -/

/-- The integrator's run at a limit (R412). -/
def limitOf (i : Int) (ilim : Nat) : Nat := if ilim = 0 then 0 else if i = ilim then 1 else if i = -(ilim : Int) then 2 else 0

/-- The arithmetic of a step (R271). -/
def Loop.advance (l : Loop) (cfg : LoopCfg) (m index : Nat) (up dn : Bool) : Loop :=
  let ilim := min cfg.ilim 0x7FFFFFFF
  let e := clampInt ((cfg.target : Int) - (m : Int) * 2 ^ 16) (-(2 ^ 31)) (2 ^ 31 - 1)
  let i := if (0 < e ∧ up = true) ∨ (e < 0 ∧ dn = true) then l.integrator
    else clampInt (l.integrator + e * (cfg.ki : Int) / 4096) (-(ilim : Int)) ilim
  let raw := (e * (cfg.kp : Int) / 4096 + i + 2 ^ 15) / 2 ^ 16
  let a := (clampInt raw 0 cfg.total).toNat
  let sign := limitOf i ilim
  { l with
    integrator := i, lastError := e, lastBeats := m, position := a, periodIndex := index
    clampUp := decide ((cfg.total : Int) < raw), clampDown := decide (raw < 0)
    mins := Vector.ofFn fun k => cfg.min_ k.val, request := spend cfg a, invalid := false, limitSign := sign
    limitRun := if sign = 0 then 0 else if sign = l.limitSign then l.limitRun + 1 else 1 }

/-- GEYSER_STEP: a controller's step for the period that ended (R269, R271, R412), then the pass that the
partition is owed. -/
def State.geyser (s : State) (c : Nat) : State :=
  let l := s.loopAt c
  match l.step, l.serves with
  | some d, some (part, ctx) =>
    let s0 := s.modLoop c fun k => { k with step := none }
    let cfg := match s.beats.find? fun b => b.part = part && b.ctx = ctx with
      | some b => b.cfg
      | none => LoopCfg.default
    let skip := fun (t : State) => (t.modLoop c fun k => { k with periodIndex := d.index }).writeNode part ctx 832 64 d.index
    let dom := (nearest s.regs.root ((s.ctxNodes part ctx).map fun a => (a, s.image part a)) 1).extractLsb' 32 16 |>.toNat
    let s1 :=
      if !cfg.valid then
        let t := if l.invalid then s0 else s0.post { Event.of 0x57 1 0 with part := part, domain := dom }
        skip (t.modLoop c fun k => { k with invalid := true })
      else match d.count with
        | none => skip (s0.modLoop c fun k => { k with invalid := false })
        | some m =>
          let sats := d.sats.getD (l.satUp, l.satDown)
          let t := (s0.modLoop c fun k => k.advance cfg m d.index sats.1 sats.2).writeLoop c false
          let k := t.loopAt c
          let u := if k.limitSign ≠ 0 ∧ k.limitRun = 64 then
            t.post { Event.of 0x5D k.limitSign 0 with part := part, domain := dom } else t
          u.owePass part
    s1.passNow part
  | _, _ => s

def execGeyserStep (s : State) : Out := .next (s.geyser s.ev.m)

/-! ### Pool ways -/

/-- The dirty lines that a partition holds in a way are written back to their vaults (R66). -/
def State.cleanWay (s : State) (part way : Nat) : State :=
  { s with slices := s.slices.map fun x =>
      if x.way = way ∧ s.partOfPa (x.line * Config.lineBytes) = some part then { x with dirty := false } else x }

/-- A change of a way has run for 2^20 ticks, and no event has told it (R408). -/
def PoolWay.lasts (w : PoolWay) (now : Nat) : Bool := !w.next.isEmpty && !w.slow && decide (w.since + 2 ^ 20 ≤ now)

/-- POOL_WAY_CHANGE_SLOW: a change has run for 2^20 ticks (R408). -/
def execPoolWayChangeSlow (s : State) : Out :=
  let w := s.poolWay s.ev.part s.ev.way
  .next (if w.lasts s.timer then
      (s.setWay { w with slow := true }).post { Event.of 0x53 w.way 0 with part := w.part }
    else s)

/-- POOL_WAY_CHANGE_DONE: the dirty lines of the way are written back, and then its new owner allocates into
it (R66, R408); a change that waited behind begins. (Log entry 42.) -/
def execPoolWayChangeDone (s : State) : Out :=
  let w := s.poolWay s.ev.part s.ev.way
  .next (match w.next with
    | [] => s
    | o :: r => (s.cleanWay w.part w.way).setWay { w with owner := o, next := r, since := s.timer, slow := false })


/-! ### Bind and unbind -/

/-- The pass of a bind or unbind: it is one with the pass that steps of this timer value are owed (R274, R278). -/
def State.bindPass (s : State) (part : Nat) : State :=
  if s.passDue.contains part || s.stepsDue part then (s.owePass part).passNow part else s.caldera part

/-- The first resource whose minimums do not fit its supply: those of a context and of every other bound one (R266). -/
def State.admission (s : State) (part ctx usable : Nat) (cfg : LoopCfg) : Option Nat :=
  let others := (s.bound part).filter fun c => (s.loopAt c).serves ≠ some (part, ctx)
  (List.range 4).find? fun a => decide (supplyOf usable a < cfg.min_ a + (others.map fun c => vget (s.loopAt c).mins a 0).sum)

/-- A bind is refused (R266, R412). (Log entries 29 and 39.) -/
def State.bindRefused (s : State) (c code detail part domain : Nat) : State :=
  (s.setBound c false true).post { Event.of code detail 0 with part := part, domain := domain }

/-- The other members of a controller's context, as far as the pod names them. (Log entry 38.) -/
def State.podMembers (s : State) (c : Nat) : List Nat := ((s.env.members.filter fun x => x.1 = c).map fun x => x.2).eraseDups

/-- GLOOP_BIND: a write sets enable (R266, R279, R412). (Log entry 39.) -/
def State.bind_ (s : State) (c : Nat) : State :=
  let r := s.gloop c
  let part := glPart r
  let ctx := glCtx r
  if glEnable r = false ∨ (s.loopAt c).serves.isSome then s
  else match (if s.partActive part then s.nodeNow part ctx else .bad 0x0D) with
    | .val v =>
      let x := BitVec.ofNat 2048 v
      if rcbPart x ≠ part ∨ rcbKind x ≠ 2 ∨ rcbGeyser x = false then s.bindRefused c 0x56 0x81 part 0
      else
        let s0 := s.modNode part ctx fun n => { n with image := x }
        let y := s0.readCfg part ctx
        let cfg := y.1
        let s1 := y.2
        let dom := (nearest s.regs.root ((s1.ctxNodes part ctx).map fun a => (a, s1.image part a)) 1).extractLsb' 32 16 |>.toNat
        if !cfg.valid then s1.bindRefused c 0x57 0 part dom
        else match s1.admission part ctx cfg.usable cfg with
          | some a => s1.bindRefused c 0x56 a part dom
          | none =>
            if (s1.server part ctx).isSome then s1.bindRefused c 0x56 0x80 part dom
            else if 1 < glMembers r ∧ s1.unsynced = true then s1.bindRefused c 0x56 0x82 part dom
            else
              let l : Loop :=
                { Loop.reset with
                  serves := some (part, ctx), members := glMembers r, integrator := toSigned 32 (bget x 640 32)
                  lastError := toSigned 32 (bget x 672 32), lastBeats := bget x 704 32, position := bget x 736 32
                  mins := Vector.ofFn fun k => cfg.min_ k.val, request := spend cfg (min (bget x 736 32) cfg.total), periodIndex := bget x 832 64
                  granted := Vector.ofFn fun k => bget x (768 + 8 * k.val) 8, clampUp := decide (cfg.total < bget x 736 32), fresh := true
                  others := (List.range (glMembers r - 1)).map fun k => { Loop.reset.own with dev := (s1.podMembers c)[k]? } }
              let s2 := ((s1.ensureBeats part ctx).modLoop c fun _ => l).setBound c true false
              (s2.writeNode part ctx 896 2 0).bindPass part
    | _ => (if s.partActive part then s.walkNote part ctx else s).bindRefused c 0x56 0x81 part 0

def execGloopBind (s : State) : Out := .next (s.bind_ s.ev.m)

/-- GLOOP_UNBIND: a write clears enable (R267): the loop words are written, the grants go back, bound is
cleared. The ways that the pass, put off, has not given to others yet are unassigned until then (R277).
(Log entry 39.) -/
def State.unbind (s : State) (c : Nat) : State :=
  match (s.loopAt c).serves with
  | none => s
  | some (part, _) =>
    if glEnable (s.gloop c) then s
    else
      let t := (((s.writeLoop c true).modLoop c fun _ => Loop.reset).setBound c false (bbit (s.gloop c) 90)).bindPass part
      ((List.range 8).foldl (fun u w => if (u.poolWay part (8 + w)).last = c + 1 then u.moveWay part (8 + w) 0 else u) t).forgetNodes

def execGloopUnbind (s : State) : Out := .next (s.unbind s.ev.m)

end Sys2Proof.Machine
end

