-- ==== Sys2Proof/Machine/Placement.lean ====
section
/-! DEFINITION. Placement: candidates in key order, the five checks, spreads, placing and restoring blocks;
budgets, buckets, gated clusters (R25, R26, R40 to R42, R60, R251, R253 to R257, R284 to R288, R299, R399). -/

namespace Sys2Proof.Machine

/-! ### What a core has free -/

/-- The groups that hold slots of a core. -/
def State.onCore (s : State) (core : Nat) : List Group := s.groups.filter fun g => g.core = core && !g.service

/-- Free group slots of a core. -/
def State.freeSlots (s : State) (core : Nat) : List Nat :=
  let used := (s.onCore core).map fun g => g.slot
  (List.range Config.slotsPerCore).filter fun n => !(used.contains n)

/-- Register-file bytes in use on a core (R26). -/
def State.regUsed (s : State) (core : Nat) : Nat :=
  ((s.onCore core).map fun g => match s.launchOf g.launch with
    | some l => l.regs * 128
    | none => 0).sum

/-- The scratchpad ranges in use on a core: first byte and the byte behind. -/
def State.scratchUsed (s : State) (core : Nat) : List (Nat × Nat) :=
  s.blocks.filterMap fun b => ((b.cores.zip b.bases).find? fun x => x.1 = core).map fun x => (x.2, x.2 + b.share)

/-- The lowest multiple of 256 at which a share fits a core's free scratchpad (R26). (Log entry 40.) -/
def State.scratchRoom (s : State) (core n : Nat) : Option Nat :=
  let used := s.scratchUsed core
  let free := fun (a : Nat) => decide (a + n ≤ Config.scratchBytes) && used.all fun r => decide (a + n ≤ r.1) || decide (r.2 ≤ a)
  ((0 :: used.map fun r => (r.2 + 255) / 256 * 256).filter free).min?

/-! ### Candidates -/

/-- A block that a launch would place next. -/
inductive Pick where
  | frozen (fb : FrozenBlk) (rec_ : Nat)
  | fresh (index : Nat)
  deriving DecidableEq, Repr

/-- A launch has blocks to place, and may (R253, R298). -/
def Launch.wants (l : Launch) : Bool :=
  l.rcb = l.head && (l.state = 1 || l.state = 2) && !l.freezing &&
  (!l.frozen.isEmpty || !l.relaunch.isEmpty || decide (l.gridPos < l.total))

/-- One launch stands before another in key order (R253). -/
def Launch.before (a b : Launch) : Bool :=
  decide (b.eff.priority < a.eff.priority) || (a.eff.priority = b.eff.priority &&
    (decide (a.ctxCreated < b.ctxCreated) || (a.ctxCreated = b.ctxCreated && decide (a.created < b.created))))

/-- A launch enters an ordered list, behind those that stand equal. -/
def enterKey (x : Launch) : List Launch → List Launch
  | [] => [x]
  | y :: r => if x.before y then x :: y :: r else y :: enterKey x r

/-- The launches in key order. -/
def State.keyOrder (s : State) : List Launch := (s.launches.filter Launch.wants).foldl (fun l x => enterKey x l) []

/-- The next block of a launch (R253); none when a saved block cannot be read now. -/
def State.nextPick (s : State) (l : Launch) : Option Pick :=
  match l.frozen with
  | fb :: _ => match s.areaRead l.part fb.addr fb.size with
    | .val v => some (.frozen fb v)
    | _ => none
  | [] => match l.relaunch with
    | i :: _ => some (.fresh i)
    | [] => some (.fresh l.gridPos)

/-! ### The checks -/

/-- A set of cores that could hold a block: the cluster, its cores in order, and what each is given. (Log entry 40.) -/
structure Spot where
  cl : Nat
  cores : List Nat
  bases : List Nat
  seats : List Seat
  share : Nat
  charge : Nat
  free : Nat
  heat : List (Nat × Nat)
  deriving DecidableEq, Repr

/-- The sets of n core-within-cluster numbers, in the order of R254. -/
def coreSets : Nat → List (List Nat)
  | 1 => [[0], [1], [2], [3]]
  | 2 => [[0, 1], [0, 2], [0, 3], [1, 2], [1, 3], [2, 3]]
  | 3 => [[0, 1, 2], [0, 1, 3], [0, 2, 3], [1, 2, 3]]
  | 4 => [[0, 1, 2, 3]]
  | _ => []

/-- The lanes launched of group i of a block of n lanes (R25). -/
def launchedMask (n i : Nat) : Mask := maskOf fun l => decide (32 * i + l.val < n)

/-- The seats of a block's groups on n cores (R26), with the free slots of each core. (Log entry 40.) -/
def State.seatsOn (s : State) (ls : List Launch) (cores : List Nat) : List Seat :=
  let gs := (blockGroups ls).zipIdx
  let n := cores.length
  cores.zipIdx.flatMap fun c =>
    let lo := (gs.length * c.2 + n - 1) / n
    let hi := (gs.length * (c.2 + 1) + n - 1) / n
    (((gs.drop lo).take (hi - lo)).zip (s.freeSlots c.1)).map fun x =>
      { producer := x.1.2, core := c.1, slot := x.2, launch := x.1.1.1.rcb, groupix := x.1.1.2, regs := x.1.1.1.regs
        launched := launchedMask x.1.1.1.lanes x.1.1.2 }

/-- Check 3 of R254: the positions that a geyser grants the context. -/
def State.positionsHold (s : State) (l : Launch) (geyser : Bool) (counts : List (Nat × Nat)) : Bool :=
  match (if geyser then s.server l.part l.ctx else none) with
  | none => true
  | some c =>
    let g := (s.loopAt c).granted
    let mine := s.ctxGroups l.part l.ctx
    let holds := counts.filter fun x => x.2 ≠ 0
    decide ((mine.map (fun x => x.core) ++ holds.map fun x => x.1).eraseDups.length ≤ vget g 1 0) &&
    holds.all fun x => decide ((mine.filter fun y => y.core = x.1).length + x.2 ≤ 4 * vget g 0 0)

/-- What a spot comes to: it holds the block, or the number of the first check that fails. -/
inductive Trial where
  | holds (x : Spot)
  | fails (check : Nat)
  deriving DecidableEq, Repr

/-- What a decision knows of a candidate beside its launch (R254): whether its context runs a geyser loop, the context's
effective refresh allowance (R287), and the cores it may have. (Log entry 40.) -/
structure Terms where
  geyser : Bool
  allowance : Nat
  allowed : BitVec 256
  deriving DecidableEq, Repr

/-- Checks 2 to 5 for one set of cores (R254). -/
def State.try_ (s : State) (ls : List Launch) (l : Launch) (x : Terms) (p : Pick) (cl : Nat) (set : List Nat) : Trial :=
  let cores := set.map fun k => clusterCore cl k
  let gs := blockGroups ls
  let n := cores.length
  let counts := cores.zipIdx.map fun c => (c.1, (shareOf gs n c.2).length)
  let share := scratchShare ls n
  let bases := cores.map fun c => s.scratchRoom c share
  let seats := s.seatsOn ls cores
  let room := (bases.all fun b => b.isSome) && seats.length = gs.length &&
    cores.zipIdx.all (fun c => decide (s.regUsed c.1 + regBytes (shareOf gs n c.2) ≤ Config.regFileBytes)) &&
    match p with
    | .fresh _ => true
    | .frozen fb _ => s.pantryHolds fb seats
  let heat := heatOf (cores.zipIdx.map fun c => (c.1, ((shareOf gs n c.2).map fun x => x.1.eff.heatClass).sum))
  let charge := s.refreshCharge heat
  if !(cores.all fun c => x.allowed.getLsbD c) then .fails 2
  else if !s.positionsHold l x.geyser counts then .fails 3
  else if !room then .fails 4
  else if !s.floorsHold heat || !s.allowanceHolds l.part l.ctx x.allowance charge then .fails 5
  else .holds
    { cl := cl, cores := cores, bases := bases.filterMap fun b => b, seats := seats, share := share, charge := charge
      free := ((List.range 4).map fun k => (s.freeSlots (clusterCore cl k)).length).sum, heat := heat }

/-- A spot is chosen before another that was found ahead of it (R254). -/
def Spot.better (a b : Spot) : Bool := decide (a.charge < b.charge) || (a.charge = b.charge && decide (b.free < a.free))

/-- All the trials of one spread. -/
def State.trials (s : State) (ls : List Launch) (l : Launch) (x : Terms) (p : Pick) (n : Nat) :
    List (Nat × Trial) :=
  (List.range 64).flatMap fun cl => (coreSets n).map fun set => (cl, s.try_ ls l x p cl set)

/-- The best spot of some trials. -/
def bestSpot (l : List (Nat × Trial)) : Option Spot :=
  l.foldl (fun best x => match x.2, best with
    | .holds y, none => some y
    | .holds y, some z => if y.better z then some y else some z
    | _, b => b) none

/-- The refusals of some trials at check 5 are counted (R366). (Log entry 40.) -/
def State.countFive (s : State) (l : List (Nat × Trial)) : State :=
  l.foldl (fun t x => if x.2 = .fails 5 then t.tally 11 1 none (x.1 / 8) else t) s

/-- The spreads are tried in ascending order (R254): the first spot, whether check 4 refused some, whether check 3 or 5
did, and the count of refusals. -/
def State.search (s : State) (ls : List Launch) (l : Launch) (k : Terms) (p : Pick) :
    List Nat → Option Spot × Bool × Bool × State
  | [] => (none, false, false, s)
  | n :: r =>
    let ts := s.trials ls l k p n
    let s1 := s.countFive ts
    match bestSpot ts with
    | some x => (some x, false, false, s1)
    | none =>
      let y := s1.search ls l k p r
      (y.1, y.2.1 || ts.any (fun t => t.2 = .fails 4), y.2.2.1 || ts.any (fun t => t.2 = .fails 3 || t.2 = .fails 5), y.2.2.2)

/-! ### Placing -/

/-- A resident group enters the device. -/
def State.addGroup (s : State) (g : Group) : State :=
  if s.g.live then { s with others := s.others ++ [g] } else { s with g := g }

/-- A group of a fresh block, at its kernel's entry with all its lanes (R25, R257). -/
def freshGroup (l : Launch) (blk age : Nat) (x : Seat) : Group :=
  { Group.empty with
    live := true, core := x.core, slot := x.slot, block := blk, launch := x.launch, groupix := x.groupix, producer := x.producer
    age := age, launched := x.launched
    sp := { Split.empty with pc := l.code.entry, mask := x.launched } }

/-- The groups of a fresh block come to be, with ages in order (R257). -/
def State.spawn (s : State) (ls : List Launch) (blk : Nat) (seats : List Seat) : State :=
  seats.foldl (fun t x =>
    match ls.find? fun l => l.rcb = x.launch with
    | none => t
    | some l =>
      let age := (t.coreAt x.core).nextAge
      (t.modCore x.core fun c => { c with nextAge := c.nextAge + 1 }).addGroup (freshGroup l blk age x)) s

/-- The block takes its place, its heat is pending, and a gated cluster wakes for it (R284, R285, R287, R399); its launch
runs, unless the block has still to wait for its engine (R299). -/
def State.settle (s : State) (l : Launch) (x : Spot) (geyser wait : Bool) : State :=
  let c := s.clusterAt x.cl
  let s1 := if c.gated || c.gating then s.modCluster x.cl fun k => { k with waking := true } else s
  let incs : List HeatInc := (x.heat.filter (fun h => h.2 ≠ 0)).map (fun h => ⟨h.1, h.2, 4⟩)
  let s2 := { s1 with heat := s1.heat ++ incs }
  let s3 := (s2.ensureBeats l.part l.ctx).modBeats l.part l.ctx fun k => { k with idle := false }
  let noted := s3.beats.any fun k => k.part = l.part && k.ctx = l.ctx && k.noted
  let s4 := if geyser && (s3.server l.part l.ctx).isNone && !noted then
      (s3.modBeats l.part l.ctx fun k => { k with noted := true }).post
        { Event.of 0x5C 0 0 with part := l.part, domain := l.eff.faultDomain, launch := l.rcb }
    else s3
  let s5 := s4.modBundle l.head fun y => { y with waitSince := none, reserving := false }
  let s6 := if l.state = 2 ∨ wait = true then s5 else s5.setStates l.head 2
  { s6 with placing := true }

/-- A block is placed at a spot (R40, R254, R299, R361); one placed again starts with cleared storage (R404). -/
def State.place (s : State) (ls : List Launch) (l : Launch) (p : Pick) (x : Spot) (geyser : Bool) : State :=
  let b : Block :=
    { id := s.nextId, head := l.head, part := l.part, ctx := l.ctx, index := 0, groups := (blockGroups ls).length, cores := x.cores
      bases := x.bases, share := x.share, regs := recordRegs ls, tiles := Vector.replicate 8 0, charge := x.charge, ending := none
      waking := (s.clusterAt x.cl).gated || (s.clusterAt x.cl).gating, restoring := none }
  match p with
  | .fresh i =>
    let b1 := { b with index := i }
    let s0 := if l.relaunch = [] then s else s.clearShares b1
    let s1 := { s0 with nextId := s0.nextId + 1, blocks := s0.blocks ++ [b1] }
    let s2 := s1.modBundle l.head fun y =>
      if y.relaunch = [] then { y with gridPos := y.gridPos + 1 } else { y with relaunch := y.relaunch.tail }
    ((s2.spawn ls b1.id x.seats).settle l x geyser false)
  | .frozen fb v =>
    let b1 := { b with id := fb.id, index := fb.index }
    let s1 := s.restoreBlock fb b1 v (recordRegs ls) (ls.map fun y => y.scratchBytes).sum x.seats
    s1.settle l x geyser ((s1.block fb.id).any fun y => y.restoring.isSome)

/-! ### Decisions -/

/-- Check 1 of R254: no node of a path has used up a nonzero budget. -/
def budgetLeft (path : List (Nat × BitVec 2048)) : Bool :=
  path.all fun y => rcbBudget y.2 = 0 || decide (rcbConsumed y.2 < rcbBudget y.2)

/-- Cores kept from the launches of a partition by a reserving candidate ahead of them (R255). -/
abbrev Reserved := List (Nat × BitVec 256)

/-- The reserved cores of a partition. -/
def reservedFor (r : Reserved) (part : Nat) : BitVec 256 :=
  r.foldl (fun m x => if x.1 = part then m ||| x.2 else m) 0

/-- A candidate's core set: that of every sub-launch (R38, R255). (Log entry 40.) -/
def bundleCores (ls : List Launch) : BitVec 256 := ls.foldl (fun m x => m &&& x.eff.coreSet) (BitVec.allOnes 256)

/-- A launch's core set in a decision (R254 check 2, R317): that of every sub-launch, less the rail cores.
(Log entry 40.) -/
def allowedCores (ls : List Launch) (rails : List Nat) (reserved : BitVec 256) : BitVec 256 :=
  rails.foldl (fun m c => m &&& ~~~(1#256 <<< c)) (bundleCores ls &&& ~~~reserved)

/-- The candidate of one launch is tried, and placed where it can be (R254, R255). (Log entry 40.) -/
def State.tryLaunch (s : State) (r : Reserved) (head : Nat) : State × Reserved :=
  match s.launchOf head with
  | none => (s, r)
  | some l =>
    let ls := s.bundle head
    let p := (ls.flatMap fun x => x.path).eraseDups.foldl (fun (acc : List (Nat × BitVec 2048) × State) va =>
      let y := acc.2.readNode l.part va
      (acc.1 ++ [(va, y.1)], y.2)) ([], s)
    let en := p.2.collEn l.part
    let t := en.2
    let geyser := rcbGeyser (((p.1.find? fun y => y.1 = l.ctx).getD (0, 0)).2)
    let up := (p.1.filter fun y => l.path.contains y.1).dropWhile fun y => y.1 ≠ l.ctx
    let allowance := (effOf s.regs.root up).refreshAllowance
    let refused := fun (u : State) (four : Bool) =>
      let v := u.modBundle head fun x =>
        { x with waitSince := if four then some (x.waitSince.getD u.timer) else none }
      (v, if l.reserving then r ++ [(l.part, bundleCores ls)] else r)
    if !budgetLeft p.1 then refused t false
    else match t.nextPick l with
      | none => refused (match l.frozen with
          | fb :: _ => t.areaNote l.part fb.addr ((fb.size + 127) / 128)
          | [] => t) false
      | some pick =>
        let broken := match pick with
          | .frozen fb v =>
            if recordBad fb v (recordRegs ls) (ls.map fun y => y.scratchBytes).sum (blockGroups ls).length then some fb else none
          | .fresh _ => none
        match broken with
        | some fb => (t.dropFrozen l fb, r)
        | none =>
        let ns := match pick with
          | .frozen fb _ => [fb.spread]
          | .fresh _ => (List.range l.maxCores).map fun k => k + 1
        let k : Terms := ⟨geyser, allowance, allowedCores ls (t.railCores l.part en.1) (reservedFor r l.part)⟩
        let f := t.search ls l k pick ns
        match f.1 with
        | some x => (f.2.2.2.place ls l pick x geyser, r)
        | none => refused f.2.2.2 (f.2.1 && !f.2.2.1)

/-- PLACEMENT_DECISION: placed blocks take the banks and ranges that have become free (R299); then the launches that have
blocks to place are considered in key order, one block of each; after a placement another decision follows (R253 to
R256). (Log entry 40.) -/
def State.placeAll (s0 : State) : State :=
  let s := s0.blocks.foldl (fun t b => t.restoreStep b.id) s0
  ((s.keyOrder.map fun l => l.head).foldl (fun (acc : State × Reserved) h => acc.1.tryLaunch acc.2 h)
    ({ s with placing := false }, [])).1

def execPlacementDecision (s : State) : Out := .next s.passes.placeAll.retryAll

/-- BLOCK_RESERVING: the candidate of a launch has been refused at check 4 only for more than 2^20 ticks
(R255). -/
def execBlockReserving (s : State) : Out :=
  .next (match s.launchOf s.ev.rcb with
    | none => s
    | some l => match l.waitSince with
      | some t => if t + 2 ^ 20 < s.timer then s.modBundle l.head fun x => { x with reserving := true } else s
      | none => s)

/-! ### Budgets and buckets -/

/-- BUDGET_REACHED: a node has consumed its budget, and no candidate beneath it counts as refused for capacity
alone any more (R41, R255). -/
def execBudgetReached (s : State) : Out :=
  .next (let r := s.readNode s.ev.part s.ev.va
    if budgetLeft [(s.ev.va, r.1)] then r.2
    else { r.2 with launches := r.2.launches.map fun l =>
      if l.part = s.ev.part ∧ l.path.contains s.ev.va then { l with waitSince := none } else l })

/-- TOKEN_REFILL: at each multiple of 2^20 ticks every bucket gains its rate, once, up to its depth (R251); queues and
launches of devices no longer dry go on. (Log entry 41.) -/
def execTokenRefill (s : State) : Out :=
  let fill := fun (t : State) (v : Nat) =>
    let r := t.vdsched v
    let n := min (min (vsLevel r + (bget r 0 32 : Nat)) (bget r 32 32 : Nat)) (2 ^ 31 - 1)
    t.setVdsched v (bset r 64 32 (ofSigned 32 n))
  .next (if s.timer % 2 ^ 20 ≠ 0 ∨ s.timer = s.refilled then s
    else ((((List.range 32).foldl fill { s with refilled := s.timer }).selfResumes).mapPending))

/-- BUCKET_DRY: a virtual device that is dry or throttled drains its launches, and its queues without launches in states 1
to 3 leave their slots (R251, R297, R324). -/
def execBucketDry (s : State) : Out :=
  .next (if s.vdHeld s.ev.vd then
      let s1 := (s.launches.filter fun l => l.rcb = l.head && l.vd = some s.ev.vd && (l.state = 1 || l.state = 2)).foldl
        (fun t l => t.beginDrain l.head true) s
      (s1.slots.filter fun y => s1.queueVd y.2.queue = some s.ev.vd).foldl (fun t y => t.unmapHeld y.2.queue) s1
    else s)

/-! ### Gated clusters -/

/-- CLUSTER_GATE: gating of an idle cluster begins, and the cluster is gated once no access of it is in flight (R399).
(Log entry 42.) -/
def execClusterGate (s : State) : Out :=
  let cl := s.ev.cl
  let c := s.clusterAt cl
  let here := fun (core : Nat) => coreCluster core = cl
  .next (if c.unitOwner.isEmpty && c.bankOwner.isEmpty && !(s.groups.any fun g => here g.core) && !c.gated then
      if (s.flights.any fun f => here f.core) || s.reqs.any fun r => here r.core && !r.done then
        s.modCluster cl fun k => { k with gating := true }
      else s.modCluster cl fun k => { k with gated := true, gating := false }
    else s)

/-- CLUSTER_WAKE_COMPLETE: a gated cluster runs again, and the groups of the blocks placed on it become ready
(R399). (Log entry 42.) -/
def execClusterWakeComplete (s : State) : Out :=
  .next (if (s.clusterAt s.ev.cl).waking then
      let s1 := s.modCluster s.ev.cl fun k => { k with gated := false, gating := false, waking := false }
      let wake := fun (b : Block) => if coreCluster (b.cores.headD 0) = s.ev.cl then { b with waking := false } else b
      { s1 with blocks := s1.blocks.map wake }.retryAll
    else s)

end Sys2Proof.Machine
end

