-- ==== Sys2Proof/Machine/Fabric.lean ====
section
/-! DEFINITION. Walks and retries of translations (R307, R311, R370, R371, R376, R378), requests from outside
(R317, R322, R329, R399), and rail ports (R314, R328, R398). -/

namespace Sys2Proof.Machine

/-! ### Walks -/

/-- PAGE_WALK: the walker of a core walks an address (R307, R369, R370). No group is named, so its events name the
partition's fault domain. (Log entry 43.) -/
def execPageWalk (s : State) : Out :=
  let e := s.ev
  .next (s.runWalk e.core e.part e.va e.w e.f (s.partDomain e.part)).2.retryAll

/-- The front end tries the slots that hold for an absent page again, and the completion stores that wait
(R249, R371, R398). -/
def State.retryFrontEnd (s : State) : State :=
  let free := fun (x : QSlot) =>
    match x.held with
    | none => x
    | some a => match s.reach (qdPart (s.qdesc x.queue)) a with
      | .absent => x
      | _ => { x with held := none }
  { s with slots := s.slots.map fun (y : Nat × QSlot) => (y.1, free y.2) }.retryCompletions.mapPending

/-- PAGE_REQUEST_REWALK: the standing requests of a core are walked again, for one page or for all (R370). -/
def execPageRequestRewalk (s : State) : Out :=
  let e := s.ev
  .next (s.rewalkCore e.core fun r => !e.ok || (r.part = e.part && r.page = e.va / 2 ^ 16)).retryFrontEnd

/-- PANTRY_REPLAY: the entries of a core on a page are retried in entry order (R311, R376). -/
def execPantryReplay (s : State) : Out := .next (s.replayPage s.ev.core s.ev.part (s.ev.va / 2 ^ 16))

/-! ### Requests from outside -/

/-- The record of a request from outside is entered, in place of an older one of its number. -/
def State.setRemote (s : State) (r : Remote) : State :=
  { s with remotes := s.remotes.filter (fun x => x.id ≠ r.id) ++ [r] }

/-- The retry-after hint at a time (R378). -/
def retryHint (t : Nat) : Nat := max 1000 (2 ^ 16 - t % 2 ^ 16)

/-- A request from outside is refused with a hint; at the 64th refusal in a row it is answered as refused
(R378). (Log entry 43.) -/
def Remote.hinted (r : Remote) (again : Nat) : Remote :=
  { r with again := again, refused := r.refused + 1, answered := if 64 ≤ r.refused + 1 then some false else none }

/-- A request from outside reaches a cluster's TLBs (R378, R399): a miss joins the page request that a core of the cluster has
standing, or a walk is made for it (R382). (Log entry 43.) -/
def State.remoteTry (s : State) (r : Remote) : State :=
  let core := clusterCore r.cl 0
  let page := r.va / 2 ^ 16
  if (s.clusterAt r.cl).gated || (s.clusterAt r.cl).gating then s.setRemote (r.hinted (s.timer + 2000))
  else
    let hit := fun (e : TlbEntry) => e.covers r.part r.va
    match ((List.range 4).flatMap fun k => (s.coreAt (clusterCore r.cl k)).tlb) ++ (s.clusterAt r.cl).tlb |>.find? hit with
    | some e =>
      match s.checkLeaf core r.part r.va e r.write false false with
      | (.ok _, t) => t.setRemote { r with answered := some true }
      | (_, t) => t.setRemote { r with answered := some false }
    | none =>
      if (List.range 4).any fun k => (s.coreAt (clusterCore r.cl k)).pageReqs.any fun x => x.on r.part page then
        s.setRemote (r.hinted (s.timer + retryHint s.timer))
      else match s.runWalk core r.part r.va r.write false (s.partDomain r.part) with
      | (.absent, t) =>
        (t.modCore core fun k => { k with pageReqs := k.pageReqs.map fun x => if x.on r.part page then { x with remote := true } else x }).setRemote
          (r.hinted (t.timer + retryHint t.timer))
      | (.leaf _, t) => t.setRemote (r.hinted (t.timer + retryHint t.timer))
      | (_, t) => t.setRemote { r with answered := some false }

/-- REMOTE_REQUEST (R378). -/
def execRemoteRequest (s : State) : Out :=
  let e := s.ev
  .next (s.remoteTry { id := e.id, cl := e.cl, part := e.part, va := e.va, write := e.w, again := 0, refused := 0
                       answered := none, value := 0 }).retryAll

/-- REMOTE_RETRY: an initiator sends its request again, not before the hinted time (R378). -/
def execRemoteRetry (s : State) : Out :=
  .next (match s.remotes.find? fun r => r.id = s.ev.id with
    | none => s
    | some r => if r.answered.isSome ∨ s.timer < r.again then s else (s.remoteTry r).retryAll)

/-- n bytes from a physical address lie in an active partition's window: the partition. -/
def State.windowOf (s : State) (pa n : Nat) : Option Nat :=
  (List.range 16).find? fun p => s.partActive p && s.inWindow p pa && s.inWindow p (pa + n - 1)

/-- One of n bytes from a physical address lies on a poisoned line. -/
def State.poisonAt (s : State) (pa n : Nat) : Bool :=
  (List.range n).any fun k => s.poisoned ((pa + k) / 128)

/-- A plain answer to a request from outside. -/
def answerOf (id : Nat) (pa : Nat) (w ok : Bool) (v : Nat) : Remote :=
  { id := id, cl := 0, part := 0, va := pa, write := w, again := 0, refused := 0, answered := some ok, value := v }

/-- The lanes of an atomic at a place in memory, one after the other (R48, R200): the values they find, the bytes they
write, and the memory they leave. -/
def peerAtomic (major minor n pa : Nat) : List (Nat × Nat × Nat) → Memory → List Nat × List (Nat × Byte) × Memory
  | [], m => ([], [], m)
  | x :: r, m =>
    let a := pa + x.1
    let old := Memory.readLE m a n
    let y := atomicNew major minor n old x.2.1 x.2.2
    let rest := peerAtomic major minor n pa r (if y.2 then Memory.writeLE m a n y.1 else m)
    (old :: rest.1, (if y.2 then bytesAt a n y.1 else []) ++ rest.2.1, rest.2.2)

/-- PEER_REQUEST: a peer's request is accepted only into the window of an active partition with its pod tag, from a device
of another number, and acts at the home slice: the lanes of an atomic that reach one line as one registering write (R79,
R200, R314, R329); one that its window or pod tag turns away posts event 0x4C (R368). Each response leaves as a flit of channel
1 (R328). (Log entry 43.) -/
def execPeerRequest (s : State) : Out :=
  let e := s.ev
  let p := e.peer
  let rail := (s.dieAt e.die).rail
  let n := match p.op with
    | .store l => l.length
    | .load => p.width
    | .atomic _ _ l => p.width + l.foldl (fun m x => max m x.1) 0
  let heard := bbit s.regs.devnum 8 && bget s.regs.devnum 0 8 != p.sender && !rail.failed && decide (0 < n)
  let ok := match s.windowOf p.pa n with
    | some q => decide (s.podtag q = p.podtag)
    | none => false
  let t := (s.modDie e.die fun d => { d with rail := d.rail.send 1 1 }).revealAt (.dev p.pa)
  .next (if !heard then s.setRemote (answerOf e.id p.pa false false 0)
    else if !rail.takes 1 then s
    else if !ok then
      (s.modDie e.die fun d => { d with rail := d.rail.send 1 1 }).setRemote (answerOf e.id p.pa false false 0) |>.post
        { Event.of 0x4C 0 p.pa with part := (s.windowOf p.pa n).getD 0, die := e.die }
    else match p.op with
      | .load => t.setRemote (answerOf e.id p.pa false (!t.poisonAt p.pa n) (Memory.readLE t.dev p.pa n))
      | .store l =>
        (t.homeWrite (l.zipIdx.map fun x => (p.pa + x.2, BitVec.ofNat 8 x.1)) none).setRemote (answerOf e.id p.pa true true 0)
      | .atomic major minor l =>
        if t.poisonAt p.pa n then t.setRemote (answerOf e.id p.pa true false 0)
        else
          let x := peerAtomic major minor p.width p.pa l t.dev
          (t.homeWrite x.2.1 none).setRemote
            { answerOf e.id p.pa true true (x.1.headD 0) with more := x.1.drop 1 }).retryAll

/-- BAR2_ACCESS: a host access through a virtual function's BAR2 to its partition's window (R317, R322, R368); a port that
start-up has disabled serves none (R418). (Log entry 43.) -/
def execBar2Access (s : State) : Out :=
  let e := s.ev
  let r := s.vdbind e.vd
  let p := vbPart r
  let pa := s.windowLo p + e.off
  let n := if e.store then e.bytes.length else e.size
  let t := s.revealAt (.dev pa)
  .next (if n = 0 then s
    else if !s.vfLive e.vd then s.setRemote (answerOf e.id pa e.store false 0)
    else if !s.partActive p then
      (s.setRemote (answerOf e.id pa e.store false 0)).post { Event.of 0x4C 0 0 with part := p }
    else if !vbEnabled r || !s.inWindow p pa || !s.inWindow p (pa + n - 1) then s.setRemote (answerOf e.id pa e.store false 0)
    else if e.store then
      ((t.homeWrite (e.bytes.zipIdx.map fun x => (pa + x.2, BitVec.ofNat 8 x.1)) none).setRemote
        (answerOf e.id pa true true 0)).retryAll
    else t.setRemote (answerOf e.id pa false (!s.poisonAt pa n) (Memory.readLE s.dev pa n)))

/-! ### Rail ports -/

/-- A die's rail changed. -/
def State.modRail (s : State) (die : Nat) (f : Rail → Rail) : State := s.modDie die fun d => { d with rail := f d.rail }

/-- RAIL_FLIT_RECEIVE: a flit arrives at a die's port (R314, R328): one of the device's own number is
discarded with event 0x4C; one that is sound, addressed to the device and next in order is delivered. -/
def execRailFlitReceive (s : State) : Out :=
  let f := s.ev.flit
  let own := bget s.regs.devnum 0 8
  let r := (s.dieAt s.ev.die).rail
  .next (if bbit s.regs.devnum 8 = false ∨ r.failed = true ∨ r.retraining.isSome = true ∨ f.ok = false then s
    else if f.sender = own then s.post { Event.of 0x4C 0xFFFF 0 with die := s.ev.die }
    else if f.receiver ≠ own ∨ f.seq ≠ r.recvSeq then s
    else s.modRail s.ev.die fun x => { x with recvSeq := (x.recvSeq + 1) % 2 ^ 32 })

/-- The fetches of a die's groups that the rail held are tried again (R398). (Log entry 52.) -/
def State.railFetch (s : State) (die : Nat) : State :=
  let wake := fun (g : Group) (z : Split) => match z.wait with
    | .fetch p => if (s.coreAt g.core).pageReqs.any fun r => r.on (s.partOf g) p then z else { z with wait := .none }
    | _ => z
  let f := fun (g : Group) => if g.live && coreDie g.core = die then g.mapSplits (wake g) else g
  { s with g := f s.g, others := s.others.map f }

/-- A port whose resends are spent retrains its link, with event 0x4D (R398). -/
def State.retrain (s : State) (die : Nat) : State :=
  if (s.dieAt die).rail.spent then
    (s.modRail die fun x => { x with retraining := some s.timer }).post { Event.of 0x4D 0 0 with die := die }
  else s

/-- FLIT_RESEND: the oldest flit that is not acknowledged is sent again from the replay store (R328); where 16 resends are
behind it the link retrains instead (R398). ok says that the receiver has acknowledged every flit up to a number, which leave
the store. -/
def execFlitResend (s : State) : Out :=
  let r := (s.dieAt s.ev.die).rail
  .next (if s.ev.ok then ((s.modRail s.ev.die fun x => x.acknowledge s.ev.value).railFetch s.ev.die).retryFrontEnd
    else if r.store.isEmpty || r.failed || r.retraining.isSome then s
    else if r.spent then s.retrain s.ev.die
    else s.modRail s.ev.die fun x => { x with resends := x.resends + 1 })

/-- RAIL_RETRAIN: 16 resends did not deliver a flit (R398). -/
def execRailRetrain (s : State) : Out := .next (s.retrain s.ev.die)

/-- RAIL_RETRAIN_COMPLETE: the link is back, and its channels go on (R398). -/
def execRailRetrainComplete (s : State) : Out :=
  .next (((s.modRail s.ev.die fun x => if x.retraining.isSome then { x with retraining := none, resends := 0 } else x).railFetch
    s.ev.die).retryFrontEnd.retryAll)

/-- The peer lanes of a flight are refused (R372, R378, R398). (Log entry 44.) -/
def State.refusePeers (s : State) (f : Flight) : State :=
  s.refuseLanes f 0x0D 0 (f.lanes.filter fun a => match a.tgt with
    | .peer _ _ => true
    | _ => false)

/-- RAIL_PORT_FAILED: a link has been down for 1,000,000 ticks (R398): the peer requests in flight are refused,
and each collective that needs the rail receives code 6. (Log entry 44.) -/
def execRailPortFailed (s : State) : Out :=
  let die := s.ev.die
  .next (match (s.dieAt die).rail.retraining with
    | none => s
    | some t =>
      if s.timer < t + 1000000 then s
      else
        let s1 := (s.modRail die fun x => { x with failed := true, retraining := none }).post { Event.of 0x4E 0 0 with die := die }
        let s2 := (s1.flights.filter fun f => coreDie f.core = die).foldl State.refusePeers s1
        let needs := fun (r : CollRun) => r.started && decide (1 < commDevices (s.comm r.comm)) && (commDies (s.comm r.comm)).contains die
        (((s2.colls.filter needs).foldl (fun t r => t.collFail r 6) s2).railFetch die).retryFrontEnd.retryAll)

end Sys2Proof.Machine
end

