-- ==== Sys2Proof/Machine/Parcels.lean ====
section
/-! DEFINITION. The parcels of ops 0 to 15 (R119, R126): each has the effect of a 32-bit instruction
with D = A. -/

namespace Sys2Proof.Machine

/-- A parcel's selector as a source field with action 0, and as a destination field (R119, R126). -/
def src5 (p : BitVec 5) : BitVec 8 := BitVec.ofNat 8 (parcelSel p)
def dst5 (p : BitVec 5) : BitVec 7 := BitVec.ofNat 7 (parcelSel p)

/-- A parcel with the effect of a two-source lane instruction (R126). -/
def parcel2 (i : Instr) (s : State) (b d : BitVec 5) (f : State → Word → Word → Word × BitVec 6) : Out :=
  bin i s (src5 b) (src5 d) (dst5 d) f

/-- A parcel with the effect of an instruction of major 5 (R126). -/
def parcelF (i : Instr) (s : State) (b d : BitVec 5) (minor : Nat) : Out :=
  single i s (src5 b) (src5 d) (dst5 d) minor

/-- Parcel ADD: IADD d, d, b (R126). -/
def execAdd (b d : BitVec 5) (s : State) : Out :=
  parcel2 (.add b d) s b d addI

/-- Parcel SUB: ISUB d, d, b (R126). -/
def execSub (b d : BitVec 5) (s : State) : Out :=
  parcel2 (.sub b d) s b d subI

/-- Parcel AND: AND d, d, b (R126). -/
def execAndParcel (b d : BitVec 5) (s : State) : Out :=
  parcel2 (.andParcel b d) s b d fun _ a b => (a &&& b, 0)

/-- Parcel OR: OR d, d, b (R126). -/
def execOrParcel (b d : BitVec 5) (s : State) : Out :=
  parcel2 (.orParcel b d) s b d fun _ a b => (a ||| b, 0)

/-- Parcel XOR: XOR d, d, b (R126). -/
def execXorParcel (b d : BitVec 5) (s : State) : Out :=
  parcel2 (.xorParcel b d) s b d fun _ a b => (a ^^^ b, 0)

/-- Parcel SHL: SHL d, d, b (R126). -/
def execShlParcel (b d : BitVec 5) (s : State) : Out :=
  parcel2 (.shlParcel b d) s b d fun _ a b => (shiftLeft32 a b.toNat, 0)

/-- Parcel SHR: SHR d, d, b (R126). -/
def execShrParcel (b d : BitVec 5) (s : State) : Out :=
  parcel2 (.shrParcel b d) s b d fun _ a b => (shiftRight32 a b.toNat, 0)

/-- Parcel IMUL: IMUL d, d, b (R126). -/
def execImulParcel (b d : BitVec 5) (s : State) : Out :=
  parcel2 (.imulParcel b d) s b d mulI

/-- Parcel FADD: FADD d, d, b (R126). -/
def execFaddParcel (b d : BitVec 5) (s : State) : Out :=
  parcelF (.faddParcel b d) s b d 0

/-- Parcel FSUB: FSUB d, d, b (R126). -/
def execFsubParcel (b d : BitVec 5) (s : State) : Out :=
  parcelF (.fsubParcel b d) s b d 1

/-- Parcel FMUL: FMUL d, d, b (R126). -/
def execFmulParcel (b d : BitVec 5) (s : State) : Out :=
  parcelF (.fmulParcel b d) s b d 2

/-- Parcel FMIN: FMIN d, d, b (R126). -/
def execFminParcel (b d : BitVec 5) (s : State) : Out :=
  parcelF (.fminParcel b d) s b d 5

/-- Parcel FMAX: FMAX d, d, b (R126). -/
def execFmaxParcel (b d : BitVec 5) (s : State) : Out :=
  parcelF (.fmaxParcel b d) s b d 6

/-- Parcel MOV: OR d, b, nul (R126). -/
def execMov (b d : BitVec 5) (s : State) : Out :=
  una (.mov b d) s (src5 b) (dst5 d) fun _ a => (a, 0)

/-- Parcel ADDI: IADDI d, d, imm5 (R126). -/
def execAddi (n d : BitVec 5) (s : State) : Out :=
  una (.addi n d) s (src5 d) (dst5 d) fun t a => addI t a (n.signExtend 32)

/-- Parcel MOVI: IADDI d, nul, imm5 (R126). -/
def execMovi (n d : BitVec 5) (s : State) : Out :=
  laneOp (.movi n d) s (dst5 d).toNat fun _ _ => (n.signExtend 32, 0)

end Sys2Proof.Machine
end

