-- ==== Sys2Proof/Machine/Registers.lean ====
section
/-! DEFINITION. The two register spaces and their writes (R5, R312 to R325, R330, R421 to R424), partitions
coming and going (R69, R317, R320, R415), and start-up with recovery (R418 to R420). -/

namespace Sys2Proof.Machine

/-! ### Where the registers lie -/

/-- The registers of BAR0 and BAR4 (R312, R421). -/
inductive Reg where
  | part (p : Nat)
  | vdsched (v : Nat)
  | vdbind (v : Nat)
  | vdlog (v : Nat)
  | gloop (c : Nat)
  | comm (m : Nat)
  | preempt
  | qnotify
  | devnum
  | root
  | qdesc (q : Nat)
  | steprec (k : Nat)
  | evtring
  | cellarHead
  | recovery
  | cellar (i : Nat)
  | devCounter (k : Nat)
  | dieCounter (die k : Nat)
  | coreCounter (core k : Nat)
  | image (a : Nat)
  deriving DecidableEq, Repr

/-- The register at an offset of BAR0, and the byte of it (R312). -/
def bar0Reg (o : Nat) : Option (Reg × Nat) :=
  if 0x10000 ≤ o ∧ o < 0x10800 then some (.part ((o - 0x10000) / 0x80), o % 0x80)
  else if 0x20000 ≤ o ∧ o < 0x20800 then
    let v := (o - 0x20000) / 0x40
    let k := o % 0x40
    if k < 0x10 then some (.vdsched v, k)
    else if k < 0x18 then some (.vdbind v, k - 0x10)
    else if k < 0x20 then none
    else some (.vdlog v, k - 0x20)
  else if 0x30000 ≤ o ∧ o < 0x30800 then some (.gloop ((o - 0x30000) / 0x10), o % 0x10)
  else if 0x40000 ≤ o ∧ o < 0x40800 then some (.comm ((o - 0x40000) / 0x20), o % 0x20)
  else if 0x50000 ≤ o ∧ o < 0x50008 then some (.preempt, o % 8)
  else if o = 0x60000 then some (.qnotify, 0)
  else if 0x60008 ≤ o ∧ o < 0x60010 then some (.devnum, o % 8)
  else if 0x70000 ≤ o ∧ o < 0x70100 then some (.root, o % 0x100)
  else if 0x80000 ≤ o ∧ o < 0x90000 then some (.qdesc ((o - 0x80000) / 0x10), o % 0x10)
  else none

/-- The register at an offset of BAR4, and the byte of it (R421). -/
def bar4Reg (o : Nat) : Option (Reg × Nat) :=
  if o < 0x40 then some (.steprec (o / 4), o % 4)
  else if 0x100 ≤ o ∧ o < 0x120 then some (.evtring, o % 0x20)
  else if 0x200 ≤ o ∧ o < 0x204 then some (.cellarHead, o % 4)
  else if 0x400 ≤ o ∧ o < 0x408 then some (.recovery, o % 8)
  else if 0x10000 ≤ o ∧ o < 0x50000 then some (.cellar ((o - 0x10000) / 32), o % 32)
  else if 0x60000 ≤ o ∧ o < 0x60100 then some (.devCounter (o % 0x100 / 0x10), o % 0x10)
  else if 0x61000 ≤ o ∧ o < 0x62000 then some (.dieCounter ((o - 0x61000) / 0x200) (o % 0x200 / 0x10), o % 0x10)
  else if 0x62000 ≤ o ∧ o < 0x6A000 then some (.coreCounter ((o - 0x62000) / 0x80) (o % 0x80 / 0x10), o % 0x10)
  else if 0x100000 ≤ o ∧ o < 0x1100000 then some (.image (o - 0x100000), 0)
  else none

/-- The register that a write reaches: naturally aligned and of 4 or 8 bytes (R312), in BAR0 only once
start-up has exposed it (R418, R420). (Log entry 45.) -/
def State.regOf (s : State) (e : EvArgs) : Option (Reg × Nat) :=
  if !(e.size = 4 || e.size = 8) || e.off % e.size != 0 then none
  else if e.bar = 0 then (if s.power = .up then bar0Reg e.off else none)
  else if e.bar = 4 then bar4Reg e.off
  else none

/-! ### The bits a write replaces -/

/-- The mask of some fields, each by its lowest bit and width. -/
def fieldsMask (n : Nat) (l : List (Nat × Nat)) : BitVec n :=
  l.foldl (fun (m : BitVec n) f => bset m f.1 f.2 (2 ^ f.2 - 1)) 0

/-- A record as a write leaves it: the written bits of writable fields are replaced, the others stay, and
reserved and read-only fields are not touched (R5). -/
def wrote {n : Nat} (old : BitVec n) (fields : List (Nat × Nat)) (byte : Nat) (e : EvArgs) : BitVec n :=
  let m := fieldsMask n fields
  (old &&& ~~~m) ||| (bset old (8 * byte) (8 * e.size) e.value &&& m)

/-- A write covers a bit of its record. -/
def coversBit (byte : Nat) (e : EvArgs) (i : Nat) : Bool := decide (8 * byte ≤ i) && decide (i < 8 * (byte + e.size))

/-- A ring's size field holds a value outside its range, or its enable bit is 1 with the size 0 (R313). -/
def sizeBad (size lo hi : Nat) (en : Bool) : Bool :=
  (size != 0 && (decide (size < lo) || decide (hi < size))) || (en && size = 0)

/-- A refused write (R313): event 0x5E with the register's offset, and nothing else. (Log entry 45.) -/
def State.writeRefused (s : State) : State :=
  let byte := match s.regOf s.ev with
    | some x => x.2
    | none => 0
  s.postHost (Event.of 0x5E ((s.ev.off - byte) % 2 ^ 16) (s.ev.value % 2 ^ 56))

/-! ### Partitions -/

/-- The masks of the vaults and cores of fenced dies (R418). -/
def State.fencedMask (s : State) : BitVec 256 :=
  (List.range 8).foldl (fun (m : BitVec 256) d => if (s.dieAt d).fenced then bset m (32 * d) 32 (2 ^ 32 - 1) else m) 0

/-- PART's writable fields while its partition is active and while it is not (R316, R317). -/
def partFields (active : Bool) : List (Nat × Nat) :=
  if active then [(618, 1), (781, 1), (832, 32)]
  else [(0, 256), (256, 256), (512, 10), (528, 18), (560, 52), (616, 1), (617, 1), (618, 1), (624, 8), (632, 16),
    (656, 56), (720, 56), (776, 5), (781, 1), (832, 32)]

/-- A PART record after a write: what a fenced die holds leaves its masks (R418). -/
def State.partAfter (s : State) (p byte : Nat) : BitVec 1024 :=
  let old := s.partRec p
  let new := wrote old (partFields (s.partActive p)) byte s.ev
  let f := s.fencedMask.toNat
  if s.partActive p then new
  else
    let v := bset new 0 256 ((BitVec.ofNat 256 (bget new 0 256) &&& ~~~(BitVec.ofNat 256 f)).toNat)
    bset v 256 256 ((BitVec.ofNat 256 (bget new 256 256) &&& ~~~(BitVec.ofNat 256 f)).toNat)

/-- A value of a PART record that R313 refuses. -/
def partBad (r : BitVec 1024) : Bool :=
  decide (256000 < bget r 528 18) || bget r 560 52 % 2048 != 0 || bget r 656 56 % 256 != 0 ||
  bget r 720 56 % 4096 != 0 || sizeBad (bget r 776 5) 6 16 (bbit r 781)

/-- Two masks share a bit. -/
def overlapMask (a b : Nat) : Bool := (BitVec.ofNat 256 a &&& BitVec.ofNat 256 b) != 0

/-- The window of a PART record: its first byte, and the first past it (R317). -/
def recWindow (r : BitVec 1024) : Nat × Nat :=
  let lo := bget r 512 10 * gib
  (lo, lo + 3 * (bits256 (bget r 0 256)).length * gib)

/-- Two windows share a byte; a window without vaults is empty and shares none (R317). -/
def windowsMeet (a b : Nat × Nat) : Bool := decide (max a.1 b.1 < min a.2 b.2)

/-- Why an activation is refused: the lowest number of R415 whose condition holds. -/
def State.activationRefused (s : State) (p : Nat) (r : BitVec 1024) : Option Nat :=
  let others := ((List.range 16).filter fun q => q ≠ p && s.partActive q).map fun q => s.partRec q
  let w := recWindow r
  let no : List (Bool × Nat) :=
    [(!bbit r 619, 1),
     (others.any (fun o => overlapMask (bget r 0 256) (bget o 0 256) || overlapMask (bget r 256 256) (bget o 256 256)), 2),
     (decide (768 * gib < w.2) || others.any (fun o => windowsMeet w (recWindow o)), 3),
     (bget r 0 256 = 0, 4),
     ((bits256 (bget r 0 256)).any fun v => (s.vaultAt v).fenced, 5)]
  (no.find? fun x => x.1).map fun x => x.2

/-- PART of a partition replaced. -/
def State.setPart (s : State) (p : Nat) (r : BitVec 1024) : State :=
  { s with regs := { s.regs with part := vset s.regs.part p r } }

/-- A partition begins to exist: every line of its vaults is at version 0 (R69). (Log entry 47.) -/
def State.activate (s : State) (p : Nat) (r : BitVec 1024) : State :=
  let w := recWindow r
  let s1 := s.setPart p r
  { { s1 with versions := Smap.without s1.versions (w.1 / 128) (w.2 / 128) }.inherit p with placing := true }

/-- A partition may end (R320). -/
def State.partitionIdle (s : State) (p : Nat) : Bool :=
  !(s.launches.any fun l => l.part = p && ((decide (1 ≤ l.state) && decide (l.state ≤ 4)) || l.state = 6)) &&
  !((List.range 32).any fun v => vbEnabled (s.vdbind v) && vbPart (s.vdbind v) = p) &&
  !((List.range 64).any fun m => commBound (s.comm m) && commPart (s.comm m) = p)

/-- A partition ends (R69, R320): its key is discarded in every die, so what its vaults hold cannot be read
again. (Log entry 47.) -/
def State.deactivate (s : State) (p : Nat) (r : BitVec 1024) : State :=
  let w := (s.windowLo p, s.windowHi p)
  let l := Config.lineBytes
  let s1 := (s.discard p).setPart p (bset r 619 1 0)
  { s1 with
    dies := s1.dies.map fun d => { d with keys := d.keys &&& ~~~(1#16 <<< p) }
    cores := s1.cores.map fun c => { c with l1 := c.l1.filter fun x => decide (x.line * l < w.1) || decide (w.2 ≤ x.line * l) } }

/-- PARTITION_KEY_LOAD: the Kamus core loads a partition's key into every die (R69, R316). -/
def execPartitionKeyLoad (s : State) : Out :=
  let p := s.ev.part
  .next (if 16 ≤ p then s
    else { s.setPart p (bset (s.partRec p) 619 1 1) with dies := s.dies.map fun d => { d with keys := d.keys ||| (1#16 <<< p) } })

/-! ### Virtual devices, logs and queues -/

/-- VDBIND after a write, and whether it is refused (R313, R321). -/
def vdbindFields : List (Nat × Nat) := [(0, 4), (4, 1), (8, 12), (20, 12), (32, 1)]
def rangesMeet (a b : BitVec 64) : Bool :=
  decide (0 < vbCount a) && decide (0 < vbCount b) && decide (vbBase a < vbBase b + vbCount b) && decide (vbBase b < vbBase a + vbCount a)
def State.vdbindBad (s : State) (v : Nat) (r : BitVec 64) : Bool :=
  decide (4096 < vbBase r + vbCount r) ||
  (vbEnabled r && (!s.partActive (vbPart r) || vbPort r != s.hostPort (vbPart r) ||
    (List.range 32).any fun u => u ≠ v && vbEnabled (s.vdbind u) && rangesMeet r (s.vdbind u)))

/-- VDLOG's fields but for tail; and a written record that is refused (R313, R322, R323). -/
def vdlogFields : List (Nat × Nat) := [(0, 64), (64, 5), (72, 1), (160, 32)]
def State.vdlogBad (s : State) (v byte : Nat) (r : BitVec 256) : Bool :=
  bget r 0 64 % 4096 != 0 || sizeBad (bget r 64 5) 9 20 (bbit r 72) ||
  (bbit r 72 && coversBit byte s.ev 72 && !s.hostEn (vbPart (s.vdbind v)))

/-- VDLOG replaced, its throttled bit as R324 gives it. -/
def State.setVdlog (s : State) (v : Nat) (r : BitVec 256) : State :=
  { s with regs := { s.regs with vdlog := vset s.regs.vdlog v (bset r 73 1 (b2n (vdlogThrottled r))) } }

/-- A virtual device that supplies launches again: its drained launches return, its queues may be mapped.
(Log entry 21.) -/
def State.vdFree (s : State) (v : Nat) : State := if s.vdHeld v then s else s.selfResumes.mapPending

/-- tail moves: entries it has passed are forgotten, and writes that wait for room go on (R324, R417). A value
that would leave more entries than the ring holds, or fewer than none, is ignored. (Log entry 45.) -/
def State.moveTail (s : State) (v tail : Nat) : State :=
  let r := s.vdlog v
  let head := bget r 96 32
  let left := (head + 2 ^ 32 - tail) % 2 ^ 32
  if 2 ^ bget r 64 5 < left then s
  else
    let s1 := s.setVdlog v (bset r 128 32 tail)
    { s1 with
      logged := s1.logged.filter fun x => x.vd ≠ v || decide ((head + 2 ^ 32 - x.index) % 2 ^ 32 ≤ left)
      logFull := if left < 2 ^ bget r 64 5 then s1.logFull.filter fun x => x ≠ v else s1.logFull }.vdFree v |>.retryCompletions |>.retryAll

/-- QDESC after a write: fields other than en are accepted only while en is 0 and the queue is unmapped (R248). -/
def State.qdescAfter (s : State) (q byte : Nat) : BitVec 128 :=
  let old := s.qdesc q
  let open_ := !qdEnabled old && !(s.slots.any fun y => y.2.queue = q)
  wrote old (if open_ then [(0, 56), (56, 4), (64, 5), (69, 1)] else [(69, 1)]) byte s.ev
def qdescBad (r : BitVec 128) : Bool := qdRing r % 4096 != 0 || sizeBad (qdSize r) 4 16 (qdEnabled r)

/-! ### Communicators, the root, and the rest -/

/-- A collective of a communicator is in progress (R330). (Log entry 46.) -/
def State.commBusy (s : State) (m : Nat) : Bool := s.colls.any fun r => r.started && r.comm = m

/-- COMM after a write (R330). (Log entry 46.) -/
def State.commAfter (s : State) (m byte : Nat) : BitVec 256 :=
  let old := s.comm m
  let fields := if !commBound old then [(0, 4), (4, 1), (5, 3), (8, 2), (10, 8), (18, 8), (26, 8)]
    else if s.commBusy m then [] else [(4, 1)]
  wrote old fields byte s.ev

/-- A COMM record that is refused (R313, R330): 0, the reset value, stands in channel and diemask only while
the communicator is not bound. (Log entry 46.) -/
def State.commBad (s : State) (r : BitVec 256) : Bool :=
  commChannel r = 1 || (commBound r && commChannel r = 0) ||
  !((if commBound r then [1, 2, 4, 8] else [0, 1, 2, 4, 8]).contains (commDies r).length) ||
  decide (bget r 18 8 < commDevrank r) || (commBound r && !(s.collEn (commPart r)).1)

/-- The fields of the device root that software writes (R315, R38). -/
def rootFields : List (Nat × Nat) :=
  [(32, 16), (48, 2), (50, 1), (51, 3), (54, 1), (56, 8), (192, 56), (320, 32), (352, 16), (368, 16), (384, 32),
    (416, 15), (432, 16), (448, 80), (576, 32), (608, 16), (624, 6), (1536, 256), (1920, 32), (1952, 32)]

/-- The range of an actuator as far as the root can tell: the bottom, and the top of R272; a partition bounds cores further.
(Log entry 45.) -/
def actuatorRange (a : Nat) : Nat × Nat := [(1, 48), (1, 255), (0, 8), (0, 32), (0, 30)].getD a (0, 0)

/-- A value of the root that is refused (R313, R315): out of the ranges of R37 and of those that R359 names for the bit-10
fields, as the root's literal bit has them read. A reset value is never refused. (Log entry 45.) -/
def rootBad (r : BitVec 2048) : Bool :=
  let p := bget r 56 8
  let order := bget r 416 15
  let limits := fun (a : Nat) =>
    let lo := bget r (448 + 16 * a) 8
    let hi := bget r (456 + 16 * a) 8
    let top := if hi = 0 ∧ rcbLiteral r = false then 0xFF else hi
    lo != 0 && decide (min top (actuatorRange a).2 < max lo (actuatorRange a).1)
  (p != 0 && (decide (p < 16) || decide (26 < p))) ||
  (order != 0 && (List.range 5).any fun a => !(List.range 5).any fun k => fld order (3 * k) 3 = a) || (List.range 5).any limits

/-- PREEMPT acts when its op is written (R325). (Log entry 45.) -/
def State.preempt (s : State) (r : BitVec 64) : State :=
  let e : EvArgs := { rcb := nodeKey (bget r 56 4) (bget r 0 56) }
  let op := bget r 60 2
  if op = 0 then s
  else
    let i : Instr := if op = 1 then .preemptDrain else if op = 2 then .preemptFreeze else .preemptResume
    { s with agenda := .event i e :: s.agenda }

/-- A counter's slot as 128 bits, and after a write (R422). -/
def counterAfter (sel cnt byte : Nat) (e : EvArgs) : Nat × Nat :=
  let r := wrote (BitVec.ofNat 128 (sel + cnt * 2 ^ 64)) [(0, 8), (64, 48)] byte e
  (bget r 0 8, bget r 64 48)

/-- Counter k's selectors still in effect after a write that leaves another selector (R422): the first one replaced since
the last clock of the counter's scope. -/
def heldAfter (held : List (Nat × Nat)) (k old new : Nat) : List (Nat × Nat) :=
  if old = new ∨ (held.any fun x => x.1 = k) = true then held else (k, old) :: held

/-- The record at entry i of the cellar ring (R365, R421): the newest stands just below cellar_head, and an entry never
written is zero. (Log entry 45.) -/
def State.cellarEntry (s : State) (i : Nat) : Nat :=
  match s.cellar[(s.cellarHead + 8191 - i) % 8192]? with
  | some e => e.bits
  | none => 0

/-- A STEPREC is cleared by a write of 0 and keeps its value on any other (R423). (Log entry 45.) -/
def State.clearStep (s : State) (k v : Nat) : State :=
  if v = 0 then { s with regs := { s.regs with steprec := vset s.regs.steprec k 0 } } else s

/-! ### The kinds of write -/

/-- Which row of the table a write is: one of those with a row of their own, or any other. (Log entry 45.) -/
def State.writeRow (s : State) : Instr :=
  match s.regOf s.ev with
  | some (.part p, byte) =>
    let new := bbit (s.partAfter p byte) 618
    if !s.partActive p && new then .partActivate else if s.partActive p && !new then .partDeactivate else .registerWrite
  | some (.vdbind v, byte) =>
    if !vbEnabled (s.vdbind v) && vbEnabled (wrote (s.vdbind v) vdbindFields byte s.ev) then .vdbindEnable else .registerWrite
  | some (.vdlog _, byte) => if coversBit byte s.ev 128 then .vdlogTailWrite else .registerWrite
  | some (.qdesc q, byte) =>
    if !coversBit byte s.ev 69 then .registerWrite
    else if qdEnabled (s.qdescAfter q byte) then (if qdEnabled (s.qdesc q) then .registerWrite else .queueEnable)
    else .queueDisable
  | some (.recovery, byte) =>
    if coversBit byte s.ev 0 && s.ev.value % 2 = 1 then .recoveryGo else .registerWrite
  | _ => .registerWrite

/-- PART_ACTIVATE: a write sets active (R313, R317, R415). -/
def execPartActivate (s : State) : Out :=
  .next (match s.regOf s.ev with
    | some (.part p, byte) =>
      let r := s.partAfter p byte
      if s.partActive p = true ∨ bbit r 618 = false then s
      else if partBad r then s.writeRefused
      else match s.activationRefused p r with
        | some d => s.post { Event.of 0x59 d 0 with part := p }
        | none => s.activate p r
    | _ => s)

/-- PART_DEACTIVATE: a write clears active (R320, R415). -/
def execPartDeactivate (s : State) : Out :=
  .next (match s.regOf s.ev with
    | some (.part p, byte) =>
      let r := s.partAfter p byte
      if s.partActive p = false ∨ bbit r 618 = true then s
      else if partBad r then s.writeRefused
      else if s.partitionIdle p then s.deactivate p r
      else s.post { Event.of 0x59 6 0 with part := p }
    | _ => s)

/-- VDBIND_ENABLE: a write sets enable (R313, R321). -/
def execVdbindEnable (s : State) : Out :=
  .next (match s.regOf s.ev with
    | some (.vdbind v, byte) =>
      let r := wrote (s.vdbind v) vdbindFields byte s.ev
      if vbEnabled (s.vdbind v) = true ∨ vbEnabled r = false then s
      else if s.vdbindBad v r then s.writeRefused
      else { s with regs := { s.regs with vdbind := vset s.regs.vdbind v r } }.mapPending
    | _ => s)

/-- QUEUE_ENABLE: en is written 1 (R248, R313). -/
def execQueueEnable (s : State) : Out :=
  .next (match s.regOf s.ev with
    | some (.qdesc q, byte) =>
      let r := s.qdescAfter q byte
      if coversBit byte s.ev 69 = false ∨ qdEnabled (s.qdesc q) = true ∨ qdEnabled r = false then s
      else if qdescBad r then s.writeRefused
      else s.setQdesc q r
    | _ => s)

/-- QUEUE_DISABLE: en is written 0 (R247 to R249): the queue leaves its slot, and stopped is cleared. (Log entry 45.) -/
def execQueueDisable (s : State) : Out :=
  .next (match s.regOf s.ev with
    | some (.qdesc q, byte) =>
      let r := s.qdescAfter q byte
      if coversBit byte s.ev 69 = false ∨ qdEnabled r = true then s
      else if qdescBad r then s.writeRefused
      else
        let s1 := s.setQdesc q (bset r 70 1 0)
        ({ s1 with pending := s1.pending.filter fun x => x.queue ≠ q }.unmapQueue q).mapPending
    | _ => s)

/-- VDLOG_TAIL_WRITE: a write reaches tail (R323, R324, R417). -/
def execVdlogTailWrite (s : State) : Out :=
  .next (match s.regOf s.ev with
    | some (.vdlog v, byte) =>
      if coversBit byte s.ev 128 = false then s
      else
        let r := wrote (s.vdlog v) vdlogFields byte s.ev
        if s.vdlogBad v byte r then s.writeRefused
        else (s.setVdlog v r).moveTail v (bget (wrote (s.vdlog v) [(128, 32)] byte s.ev) 128 32)
    | _ => s)

/-- A write without a row of its own takes effect (R312 to R325, R330, R421 to R424). (Log entry 45.) -/
def State.plainWrite (s : State) (r : Reg) (byte : Nat) : State :=
  let e := s.ev
  match r with
  | .part p =>
    let n := s.partAfter p byte
    if partBad n then s.writeRefused else s.setPart p n
  | .vdsched v => (s.setVdsched v (wrote (s.vdsched v) [(0, 32), (32, 32), (64, 32)] byte e)).vdFree v
  | .vdbind v =>
    let n := wrote (s.vdbind v) vdbindFields byte e
    if s.vdbindBad v n then s.writeRefused else { s with regs := { s.regs with vdbind := vset s.regs.vdbind v n } }.mapPending
  | .vdlog v =>
    let n := wrote (s.vdlog v) vdlogFields byte e
    if s.vdlogBad v byte n then s.writeRefused else (s.setVdlog v n).vdFree v
  | .gloop c =>
    let n := wrote (s.gloop c) [(0, 56), (56, 4), (64, 16), (80, 8), (88, 1)] byte e
    let s1 := { s with regs := { s.regs with gloop := vset s.regs.gloop c n } }
    if coversBit byte e 88 then
      { s1 with agenda := .event (if glEnable n then .gloopBind else .gloopUnbind) { m := c } :: s1.agenda }
    else s1
  | .comm m =>
    let n := s.commAfter m byte
    if s.commBad n then s.writeRefused else s.setComm m n
  | .preempt =>
    let n := wrote s.regs.preempt [(0, 56), (56, 4), (60, 2)] byte e
    let s1 := { s with regs := { s.regs with preempt := n } }
    if coversBit byte e 60 then s1.preempt n else s1
  | .qnotify =>
    let q := e.value % 2 ^ 32
    if 4096 ≤ q then s.writeRefused else { s with agenda := .event .qnotify { q := q } :: s.agenda }
  | .devnum =>
    if (List.range 16).any s.partActive then s.writeRefused
    else { s with regs := { s.regs with devnum := wrote s.regs.devnum [(0, 8), (8, 1)] byte e } }
  | .root =>
    let n := wrote s.regs.root rootFields byte e
    if rootBad n then s.writeRefused else { s with regs := { s.regs with root := n }, placing := true }
  | .qdesc q =>
    let n := s.qdescAfter q byte
    if qdescBad n then s.writeRefused else s.setQdesc q n
  | .steprec k =>
    let s1 := s.clearStep k (e.value % 2 ^ 32)
    if e.size = 8 then s1.clearStep (k + 1) (e.value / 2 ^ 32 % 2 ^ 32) else s1
  | .evtring =>
    let n := wrote s.regs.evtring [(0, 64), (64, 5), (69, 1), (70, 1), (128, 32)] byte e
    if bget n 0 64 % 4096 != 0 || sizeBad (bget n 64 5) 6 16 (bbit n 69) then s.writeRefused
    else { s with regs := { s.regs with evtring := n } }
  | .cellarHead | .cellar _ => s
  | .recovery => { s with regs := { s.regs with recovery := wrote s.regs.recovery [(0, 1), (1, 1)] byte e } }
  | .devCounter k =>
    let x := counterAfter (vget s.regs.devSel k 0) (vget s.regs.devCnt k 0) byte e
    { s with regs := { s.regs with
        devSel := vset s.regs.devSel k x.1, devCnt := vset s.regs.devCnt k x.2
        devHeld := heldAfter s.regs.devHeld k (vget s.regs.devSel k 0) x.1 } }
  | .dieCounter d k =>
    s.modDie d fun y =>
      let x := counterAfter (vget y.sel k 0) (vget y.cnt k 0) byte e
      { y with sel := vset y.sel k x.1, cnt := vset y.cnt k x.2, held := heldAfter y.held k (vget y.sel k 0) x.1 }
  | .coreCounter c k =>
    s.modCore c fun y =>
      let x := counterAfter (vget y.sel k 0) (vget y.cnt k 0) byte e
      { y with sel := vset y.sel k x.1, cnt := vset y.cnt k x.2, held := heldAfter y.held k (vget y.sel k 0) x.1 }
  | .image a => { s with regs := { s.regs with image := Memory.writeLE s.regs.image a e.size e.value } }

/-- REGISTER_WRITE: a write to a register space arrives; one that has a row of its own comes next as that. -/
def execRegisterWrite (s : State) : Out :=
  .next (match s.regOf s.ev with
    | none => s
    | some (r, byte) =>
      if s.writeRow = .registerWrite then s.plainWrite r byte
      else { s with agenda := .event s.writeRow s.ev :: s.agenda })

/-! ### Start-up -/

/-- Start-up steps without an alternative, and those that may be skipped (R418). -/
def noAlternative (n : Nat) : Bool := [1, 8, 10, 15, 16].contains n
def maySkip (n : Nat) : Bool := n = 7 || (decide (11 ≤ n) && decide (n ≤ 14))
/-- Steps whose alternative fences the unit and cannot fail. -/
def fences (n : Nat) : Bool := n = 5 || n = 6 || n = 7

/-- The step record of step n, and the record changed (R423). -/
def State.stepRec (s : State) (n : Nat) : BitVec 32 := vget s.regs.steprec (n - 1) 0
def State.setStepRec (s : State) (n : Nat) (r : BitVec 32) : State :=
  { s with regs := { s.regs with steprec := vset s.regs.steprec (n - 1) r } }

/-- The dies on the two sides of die boundary k, which is unit k of step 4 and entry k of links (R23).
(Log entry 48.) -/
def boundaryDies (k : Nat) : Nat × Nat :=
  if k < 3 then (k, k + 1) else if k < 6 then (k + 1, k + 2) else (k - 6, k - 2)

/-- The dies that traffic from one die to another passes, the last included: along its row first, then across (R327). -/
def dieRoute (a b : Nat) : List Nat :=
  let row := a / 4 * 4
  let i := a % 4
  let j := b % 4
  let along := if i ≤ j then (List.range (j - i)).map fun k => row + i + 1 + k else (List.range (i - j)).map fun k => row + i - 1 - k
  along ++ if a / 4 = b / 4 then [] else [b]

/-- The rate in tenths of GT/s and the width at which a host port trains by the alternative (R21, R418): a lower rate or
width that the world outside gives, or 32 GT/s over 16 lanes. (Log entry 48.) -/
def State.lowerPort (s : State) (n : Nat) : Nat × Nat :=
  match s.ev.results.find? fun x => x.step = n with
  | some x =>
    if [640, 320, 160, 80, 50, 25].contains x.rate && [16, 8, 4].contains x.width && (x.rate, x.width) != (640, 16) then
      (x.rate, x.width)
    else (320, 16)
  | none => (320, 16)

/-- What is out of use after a step: some units fail now; some run the alternative. (Log entry 48.) -/
def State.unitsAfter (s : State) (n : Nat) (dead slow : List Nat) : State :=
  match n with
  | 3 => if slow = [] then s else { s with cellar := [], cellarHead := 0 }
  | 4 => { s with links := Vector.ofFn fun k => if dead.contains k.val then 0 else if slow.contains k.val then 16 else 32 }
  | 5 | 6 => { s with dies := Vector.ofFn fun d =>
      { s.dieAt d.val with fenced := s.down.any fun x => (x.1 = 5 || x.1 = 6) && x.2 = d.val } }
  | 7 => { s with vaults := Vector.ofFn fun v =>
      { s.vaultAt v.val with fenced := s.down.any fun x => x.1 = 7 && x.2 = v.val } }
  | 8 => { s with versions := [], poison := []
                  vaults := s.vaults.map fun v => { v with clearStamp := 0, stale := v.stale.map fun x => (x.1, 1) } }
  | 9 =>
    let k := if slow = [] then 16 else 12
    { s with dies := s.dies.map fun d => { d with step := k, caldera := k } }
  | 10 => { s with dies := s.dies.map fun d => { d with keys := 0 } }
  | 11 | 12 =>
    let x := if slow = [] then (640, 16) else s.lowerPort n
    { s with ports := vset s.ports (n - 11) { die := if n = 11 then 0 else 7, rate := x.1, width := x.2, enabled := dead.isEmpty } }
  | 13 => { s with dies := Vector.ofFn fun d =>
      let x := s.dieAt d.val
      { x with rail := { x.rail with rate := if slow.contains d.val then 112 else 224, failed := dead.contains d.val || x.fenced } } }
  | 14 => { s with unsynced := !dead.isEmpty || !slow.isEmpty }
  | 16 => { s.post (Event.of 0x5A 0 0) with power := .up }
  | _ => s

/-- One step of the list (R418): the units of an earlier failure run the alternative, those whose alternative failed too are
skipped, the others run the step. (Log entry 48.) -/
def State.startStep (s : State) (n : Nat) : State :=
  let rec_ := s.stepRec n
  let retry := bbit rec_ 0 && !noAlternative n
  let of := fun (l : List (Nat × Nat)) => (l.filter fun x => x.1 = n).map fun x => x.2
  let s0 := if retry then s
    else { s with down := s.down.filter fun x => x.1 ≠ n, altDown := s.altDown.filter fun x => x.1 ≠ n }
  let was := of s0.down
  let gone := of s0.altDown
  if gone ≠ [] ∧ maySkip n = false then { s0 with power := .recovery }
  else
    let mine := s0.ev.results.filter fun x => x.step = n && x.outcome ≠ .pass && !gone.contains x.unit
    let dead := ((mine.map fun x => x.unit).filter fun u => !was.contains u).eraseDups
    let again := if fences n then [] else
      ((mine.filter fun x => was.contains x.unit && x.outcome = .altFail).map fun x => x.unit).eraseDups
    let bad := dead ++ again
    let slow := was.filter fun u => !again.contains u && !gone.contains u
    let s1 := { s0 with down := s0.down ++ dead.map fun u => (n, u), altDown := s0.altDown ++ again.map fun u => (n, u) }
    if bad = [] then
      if n = 2 ∧ retry = true then { s1 with power := .recovery }
      else (s1.setStepRec n (if retry then bset rec_ 2 1 (b2n (gone != [])) else bset rec_ 0 3 0)).unitsAfter n gone slow
    else
      let r := bset (bset (bset rec_ 0 1 1) 1 1 (b2n (again != [] || gone != []))) 2 1 (b2n (gone != []))
      let s2 := (s1.setStepRec n (bset r 16 16 (bget rec_ 16 16 + 1))).post (Event.of 0x5A n 0)
      if noAlternative n then { s2 with power := .halted }
      else if n = 2 then { s2.post (Event.of 0x5B 0 0) with power := .recovery }
      else if again ≠ [] ∧ maySkip n = false then { s2 with power := .recovery }
      else s2.unitsAfter n (bad ++ gone) slow

/-- The steps of a list in order, until one of them stops start-up. (Log entry 48.) -/
def State.startSteps : List Nat → State → State
  | [], s => s
  | n :: r, s => if s.power = .starting then State.startSteps r (s.startStep n) else s

/-- Device reset (R19, R290, R365, R418, R423): what the always-on domain and the world outside hold stays; what the vaults hold
passes to no key, as at a teardown (R69). (Log entry 48.) -/
def State.deviceReset (s : State) : State :=
  let t := ((List.range 16).filter s.partActive).foldl State.discard s
  { State.reset with
    timer := s.timer, powerAt := s.timer, dies := Vector.replicate 8 { Die.reset with measured := s.timer }
    vaults := Vector.ofFn fun v => { Vault.reset with refreshAt := 2 * s.timer + 7800, stale := (t.vaultAt v.val).stale }
    cellar := s.cellar, cellarHead := s.cellarHead, host := s.host, peers := s.peers
    imageStore := s.imageStore, down := s.down, altDown := s.altDown, links := s.links, ports := s.ports, free := s.free
    agenda := s.agenda, ev := s.ev, env := s.env, regs := { Regs.reset with steprec := s.regs.steprec } }

/-- START_UP: the Kamus core runs the steps in order, after power-on or a device reset (R418).
(Log entries 3 and 48.) -/
def execStartUp (s : State) : Out :=
  .next (State.startSteps (List.range' 1 16) (if s.power = .starting then s else s.deviceReset))

/-- RECOVERY_GO: the host's image is verified, stored when the host asks for it, and start-up goes on from
step 3; or recovery waits for the next image (R419, R420). ok says that the signature verifies.
(Log entries 30 and 48.) -/
def execRecoveryGo (s : State) : Out :=
  .next (match s.regOf s.ev with
    | some (.recovery, byte) =>
      let r := wrote s.regs.recovery [(0, 1), (1, 1)] byte s.ev
      let s1 := { s with regs := { s.regs with recovery := r } }
      if bbit r 0 = false ∨ s.power ≠ .recovery then s1
      else if s.ev.ok = false then s1.post (Event.of 0x5B 0 0)
      else
        let s2 := if bbit r 1 then { s1 with imageStore := s1.regs.image } else s1
        State.startSteps (List.range' 3 14) { s2 with power := .starting }
    | _ => s)

end Sys2Proof.Machine
end

