-- ==== Sys2Proof/Machine/Dispatch.lean ====
section
/-! DEFINITION. One arm for every row of spec/opcode_table.json: each arm is one call of that row's
meaning. -/

namespace Sys2Proof.Machine

/-- What one instruction or device step does to the machine. -/
def exec (i : Instr) (s : State) : Host.Outcome State Fault Refusal :=
  match i with
  | .iadd b a d => Sys2Proof.Machine.execIadd b a d s
  | .isub b a d => Sys2Proof.Machine.execIsub b a d s
  | .imul b a d => Sys2Proof.Machine.execImul b a d s
  | .imulhS b a d => Sys2Proof.Machine.execImulhS b a d s
  | .imulhU b a d => Sys2Proof.Machine.execImulhU b a d s
  | .imad b a d => Sys2Proof.Machine.execImad b a d s
  | .iaddc b a d => Sys2Proof.Machine.execIaddc b a d s
  | .isubb b a d => Sys2Proof.Machine.execIsubb b a d s
  | .and b a d => Sys2Proof.Machine.execAnd b a d s
  | .or b a d => Sys2Proof.Machine.execOr b a d s
  | .xor b a d => Sys2Proof.Machine.execXor b a d s
  | .andn b a d => Sys2Proof.Machine.execAndn b a d s
  | .shl b a d => Sys2Proof.Machine.execShl b a d s
  | .shr b a d => Sys2Proof.Machine.execShr b a d s
  | .sar b a d => Sys2Proof.Machine.execSar b a d s
  | .rotl b a d => Sys2Proof.Machine.execRotl b a d s
  | .iminS b a d => Sys2Proof.Machine.execIminS b a d s
  | .imaxS b a d => Sys2Proof.Machine.execImaxS b a d s
  | .iminU b a d => Sys2Proof.Machine.execIminU b a d s
  | .imaxU b a d => Sys2Proof.Machine.execImaxU b a d s
  | .popc a d => Sys2Proof.Machine.execPopc a d s
  | .clz a d => Sys2Proof.Machine.execClz a d s
  | .brev a d => Sys2Proof.Machine.execBrev a d s
  | .iabs a d => Sys2Proof.Machine.execIabs a d s
  | .bfxU b a d => Sys2Proof.Machine.execBfxU b a d s
  | .bfxS b a d => Sys2Proof.Machine.execBfxS b a d s
  | .bfi b a d => Sys2Proof.Machine.execBfi b a d s
  | .bshuf b a d => Sys2Proof.Machine.execBshuf b a d s
  | .shld b a d => Sys2Proof.Machine.execShld b a d s
  | .shrd b a d => Sys2Proof.Machine.execShrd b a d s
  | .iaddi im a d => Sys2Proof.Machine.execIaddi im a d s
  | .andi im a d => Sys2Proof.Machine.execAndi im a d s
  | .ori im a d => Sys2Proof.Machine.execOri im a d s
  | .xori im a d => Sys2Proof.Machine.execXori im a d s
  | .shli im a d => Sys2Proof.Machine.execShli im a d s
  | .shri im a d => Sys2Proof.Machine.execShri im a d s
  | .sari im a d => Sys2Proof.Machine.execSari im a d s
  | .imuli im a d => Sys2Proof.Machine.execImuli im a d s
  | .fadd b a d => Sys2Proof.Machine.execFadd b a d s
  | .fsub b a d => Sys2Proof.Machine.execFsub b a d s
  | .fmul b a d => Sys2Proof.Machine.execFmul b a d s
  | .ffma b a d => Sys2Proof.Machine.execFfma b a d s
  | .ffms b a d => Sys2Proof.Machine.execFfms b a d s
  | .fmin b a d => Sys2Proof.Machine.execFmin b a d s
  | .fmax b a d => Sys2Proof.Machine.execFmax b a d s
  | .fnma b a d => Sys2Proof.Machine.execFnma b a d s
  | .dadd b a d => Sys2Proof.Machine.execDadd b a d s
  | .dsub b a d => Sys2Proof.Machine.execDsub b a d s
  | .dmul b a d => Sys2Proof.Machine.execDmul b a d s
  | .dfma b a d => Sys2Proof.Machine.execDfma b a d s
  | .dfms b a d => Sys2Proof.Machine.execDfms b a d s
  | .dmin b a d => Sys2Proof.Machine.execDmin b a d s
  | .dmax b a d => Sys2Proof.Machine.execDmax b a d s
  | .dnma b a d => Sys2Proof.Machine.execDnma b a d s
  | .hadd2F16 b a d => Sys2Proof.Machine.execHadd2F16 b a d s
  | .hmul2F16 b a d => Sys2Proof.Machine.execHmul2F16 b a d s
  | .hfma2F16 b a d => Sys2Proof.Machine.execHfma2F16 b a d s
  | .hmin2F16 b a d => Sys2Proof.Machine.execHmin2F16 b a d s
  | .hadd2Bf16 b a d => Sys2Proof.Machine.execHadd2Bf16 b a d s
  | .hmul2Bf16 b a d => Sys2Proof.Machine.execHmul2Bf16 b a d s
  | .hfma2Bf16 b a d => Sys2Proof.Machine.execHfma2Bf16 b a d s
  | .hmin2Bf16 b a d => Sys2Proof.Machine.execHmin2Bf16 b a d s
  | .frcp a d => Sys2Proof.Machine.execFrcp a d s
  | .frsq a d => Sys2Proof.Machine.execFrsq a d s
  | .fsqrt a d => Sys2Proof.Machine.execFsqrt a d s
  | .fex2 a d => Sys2Proof.Machine.execFex2 a d s
  | .flg2 a d => Sys2Proof.Machine.execFlg2 a d s
  | .fsinr a d => Sys2Proof.Machine.execFsinr a d s
  | .fcosr a d => Sys2Proof.Machine.execFcosr a d s
  | .dsqrt a d => Sys2Proof.Machine.execDsqrt a d s
  | .icmpS b a c p => Sys2Proof.Machine.execIcmpS b a c p s
  | .icmpU b a c p => Sys2Proof.Machine.execIcmpU b a c p s
  | .fcmp b a c p => Sys2Proof.Machine.execFcmp b a c p s
  | .dcmp b a c p => Sys2Proof.Machine.execDcmp b a c p s
  | .hcmp2F16 b a c p => Sys2Proof.Machine.execHcmp2F16 b a c p s
  | .hcmp2Bf16 b a c p => Sys2Proof.Machine.execHcmp2Bf16 b a c p s
  | .plop l b a d => Sys2Proof.Machine.execPlop l b a d s
  | .sel p b a d => Sys2Proof.Machine.execSel p b a d s
  | .cvt m t sx e a d => Sys2Proof.Machine.execCvt m t sx e a d s
  | .shflIdx b a d => Sys2Proof.Machine.execShflIdx b a d s
  | .shflUp b a d => Sys2Proof.Machine.execShflUp b a d s
  | .shflDn b a d => Sys2Proof.Machine.execShflDn b a d s
  | .shflXor b a d => Sys2Proof.Machine.execShflXor b a d s
  | .voteAny sx p d => Sys2Proof.Machine.execVoteAny sx p d s
  | .voteAll sx p d => Sys2Proof.Machine.execVoteAll sx p d s
  | .ballot sx p d => Sys2Proof.Machine.execBallot sx p d s
  | .matchL a d => Sys2Proof.Machine.execMatchL a d s
  | .rdaddF32 a d => Sys2Proof.Machine.execRdaddF32 a d s
  | .rdaddF64 a d => Sys2Proof.Machine.execRdaddF64 a d s
  | .rdaddI32 a d => Sys2Proof.Machine.execRdaddI32 a d s
  | .rdminF32 a d => Sys2Proof.Machine.execRdminF32 a d s
  | .rdmaxF32 a d => Sys2Proof.Machine.execRdmaxF32 a d s
  | .rdminI32 a d => Sys2Proof.Machine.execRdminI32 a d s
  | .rdmaxI32 a d => Sys2Proof.Machine.execRdmaxI32 a d s
  | .scanI32 e a d => Sys2Proof.Machine.execScanI32 e a d s
  | .ldk im d => Sys2Proof.Machine.execLdk im d s
  | .ldkh im d => Sys2Proof.Machine.execLdkh im d s
  | .ldB h x r d => Sys2Proof.Machine.execLdB h x r d s
  | .ldBs h x r d => Sys2Proof.Machine.execLdBs h x r d s
  | .ldH h x r d => Sys2Proof.Machine.execLdH h x r d s
  | .ldHs h x r d => Sys2Proof.Machine.execLdHs h x r d s
  | .ldW h x r d => Sys2Proof.Machine.execLdW h x r d s
  | .ldD h x r d => Sys2Proof.Machine.execLdD h x r d s
  | .ldQ h x r d => Sys2Proof.Machine.execLdQ h x r d s
  | .ldpW h x d => Sys2Proof.Machine.execLdpW h x d s
  | .stB h x r d => Sys2Proof.Machine.execStB h x r d s
  | .stH h x r d => Sys2Proof.Machine.execStH h x r d s
  | .stW h x r d => Sys2Proof.Machine.execStW h x r d s
  | .stD h x r d => Sys2Proof.Machine.execStD h x r d s
  | .stQ h x r d => Sys2Proof.Machine.execStQ h x r d s
  | .stpW h x d => Sys2Proof.Machine.execStpW h x d s
  | .pref h x r => Sys2Proof.Machine.execPref h x r s
  | .ldsW x d => Sys2Proof.Machine.execLdsW x d s
  | .ldsD x d => Sys2Proof.Machine.execLdsD x d s
  | .ldsQ x d => Sys2Proof.Machine.execLdsQ x d s
  | .stsW x d => Sys2Proof.Machine.execStsW x d s
  | .stsD x d => Sys2Proof.Machine.execStsD x d s
  | .stsQ x d => Sys2Proof.Machine.execStsQ x d s
  | .ldsB x d => Sys2Proof.Machine.execLdsB x d s
  | .stsB x d => Sys2Proof.Machine.execStsB x d s
  | .atomAdd sx x r d => Sys2Proof.Machine.execAtomAdd sx x r d s
  | .atomMinS sx x r d => Sys2Proof.Machine.execAtomMinS sx x r d s
  | .atomMaxS sx x r d => Sys2Proof.Machine.execAtomMaxS sx x r d s
  | .atomAnd sx x r d => Sys2Proof.Machine.execAtomAnd sx x r d s
  | .atomOr sx x r d => Sys2Proof.Machine.execAtomOr sx x r d s
  | .atomXor sx x r d => Sys2Proof.Machine.execAtomXor sx x r d s
  | .atomExch sx x r d => Sys2Proof.Machine.execAtomExch sx x r d s
  | .atomCas sx x r d => Sys2Proof.Machine.execAtomCas sx x r d s
  | .redAdd sx x r d => Sys2Proof.Machine.execRedAdd sx x r d s
  | .redMinS sx x r d => Sys2Proof.Machine.execRedMinS sx x r d s
  | .redMaxS sx x r d => Sys2Proof.Machine.execRedMaxS sx x r d s
  | .redAnd sx x r d => Sys2Proof.Machine.execRedAnd sx x r d s
  | .redOr sx x r d => Sys2Proof.Machine.execRedOr sx x r d s
  | .redXor sx x r d => Sys2Proof.Machine.execRedXor sx x r d s
  | .redExch sx x r d => Sys2Proof.Machine.execRedExch sx x r d s
  | .atomAddF32 sx x r d => Sys2Proof.Machine.execAtomAddF32 sx x r d s
  | .atomAddD sx x r d => Sys2Proof.Machine.execAtomAddD sx x r d s
  | .atomCasD sx x r d => Sys2Proof.Machine.execAtomCasD sx x r d s
  | .atomExchD sx x r d => Sys2Proof.Machine.execAtomExchD sx x r d s
  | .atomMinU sx x r d => Sys2Proof.Machine.execAtomMinU sx x r d s
  | .atomMaxU sx x r d => Sys2Proof.Machine.execAtomMaxU sx x r d s
  | .atomIncWrap sx x r d => Sys2Proof.Machine.execAtomIncWrap sx x r d s
  | .atomAddF64 sx x r d => Sys2Proof.Machine.execAtomAddF64 sx x r d s
  | .redAddF32 sx x r d => Sys2Proof.Machine.execRedAddF32 sx x r d s
  | .redAddD sx x r d => Sys2Proof.Machine.execRedAddD sx x r d s
  | .redExchD sx x r d => Sys2Proof.Machine.execRedExchD sx x r d s
  | .redMinU sx x r d => Sys2Proof.Machine.execRedMinU sx x r d s
  | .redMaxU sx x r d => Sys2Proof.Machine.execRedMaxU sx x r d s
  | .redIncWrap sx x r d => Sys2Proof.Machine.execRedIncWrap sx x r d s
  | .redAddF64 sx x r d => Sys2Proof.Machine.execRedAddF64 sx x r d s
  | .ldv x r d => Sys2Proof.Machine.execLdv x r d s
  | .ldvsW x r d => Sys2Proof.Machine.execLdvsW x r d s
  | .ldvsD x r d => Sys2Proof.Machine.execLdvsD x r d s
  | .vrd x r d => Sys2Proof.Machine.execVrd x r d s
  | .casvW x r d => Sys2Proof.Machine.execCasvW x r d s
  | .casvD x r d => Sys2Proof.Machine.execCasvD x r d s
  | .vchk p => Sys2Proof.Machine.execVchk p s
  | .waitc c n => Sys2Proof.Machine.execWaitc c n s
  | .sleept a => Sys2Proof.Machine.execSleept a s
  | .cpoll r a d => Sys2Proof.Machine.execCpoll r a d s
  | .cpy b a d => Sys2Proof.Machine.execCpy b a d s
  | .cpy2d b a d => Sys2Proof.Machine.execCpy2d b a d s
  | .gath b a d => Sys2Proof.Machine.execGath b a d s
  | .scat b a d => Sys2Proof.Machine.execScat b a d s
  | .abarInit b a => Sys2Proof.Machine.execAbarInit b a s
  | .abarArv b a d => Sys2Proof.Machine.execAbarArv b a d s
  | .abarWait b a => Sys2Proof.Machine.execAbarWait b a s
  | .abarTry b a d => Sys2Proof.Machine.execAbarTry b a d s
  | .qinit b a => Sys2Proof.Machine.execQinit b a s
  | .qpush b a => Sys2Proof.Machine.execQpush b a s
  | .qpop a d => Sys2Proof.Machine.execQpop a d s
  | .qpushTry b a d => Sys2Proof.Machine.execQpushTry b a d s
  | .qtpop a d => Sys2Proof.Machine.execQtpop a d s
  | .qallow b a => Sys2Proof.Machine.execQallow b a s
  | .qclose a => Sys2Proof.Machine.execQclose a s
  | .qstat a d => Sys2Proof.Machine.execQstat a d s
  | .ores b a d => Sys2Proof.Machine.execOres b a d s
  | .orel d => Sys2Proof.Machine.execOrel d s
  | .allock a d => Sys2Proof.Machine.execAllock a d s
  | .freek b a => Sys2Proof.Machine.execFreek b a s
  | .mld a d => Sys2Proof.Machine.execMld a d s
  | .mlds b a d => Sys2Proof.Machine.execMlds b a d s
  | .mlease a => Sys2Proof.Machine.execMlease a s
  | .mma b a d => Sys2Proof.Machine.execMma b a d s
  | .mmap b a d => Sys2Proof.Machine.execMmap b a d s
  | .mzero a => Sys2Proof.Machine.execMzero a s
  | .maccr a d => Sys2Proof.Machine.execMaccr a d s
  | .maccw b a => Sys2Proof.Machine.execMaccw b a s
  | .mst a => Sys2Proof.Machine.execMst a s
  | .accsave a => Sys2Proof.Machine.execAccsave a s
  | .accload a => Sys2Proof.Machine.execAccload a s
  | .bra o sx p => Sys2Proof.Machine.execBra o sx p s
  | .brc o sx p => Sys2Proof.Machine.execBrc o sx p s
  | .call o sx p => Sys2Proof.Machine.execCall o sx p s
  | .brx r sx p => Sys2Proof.Machine.execBrx r sx p s
  | .callx r sx p => Sys2Proof.Machine.execCallx r sx p s
  | .jset o => Sys2Proof.Machine.execJset o s
  | .loop o n => Sys2Proof.Machine.execLoop o n s
  | .trapi im => Sys2Proof.Machine.execTrapi im s
  | .signal im a => Sys2Proof.Machine.execSignal im a s
  | .rdsr im d => Sys2Proof.Machine.execRdsr im d s
  | .wrsr im a => Sys2Proof.Machine.execWrsr im a s
  | .brec o a n => Sys2Proof.Machine.execBrec o a n s
  | .vstat im a d => Sys2Proof.Machine.execVstat im a d s
  | .rlaunch a => Sys2Proof.Machine.execRlaunch a s
  | .tlbfill l a => Sys2Proof.Machine.execTlbfill l a s
  | .tlbinv sx a => Sys2Proof.Machine.execTlbinv sx a s
  | .plogrd p k d => Sys2Proof.Machine.execPlogrd p k d s
  | .actset a => Sys2Proof.Machine.execActset a s
  | .philox b a d => Sys2Proof.Machine.execPhilox b a d s
  | .coll b a t => Sys2Proof.Machine.execColl b a t s
  | .add b d => Sys2Proof.Machine.execAdd b d s
  | .sub b d => Sys2Proof.Machine.execSub b d s
  | .andParcel b d => Sys2Proof.Machine.execAndParcel b d s
  | .orParcel b d => Sys2Proof.Machine.execOrParcel b d s
  | .xorParcel b d => Sys2Proof.Machine.execXorParcel b d s
  | .shlParcel b d => Sys2Proof.Machine.execShlParcel b d s
  | .shrParcel b d => Sys2Proof.Machine.execShrParcel b d s
  | .mov b d => Sys2Proof.Machine.execMov b d s
  | .faddParcel b d => Sys2Proof.Machine.execFaddParcel b d s
  | .fsubParcel b d => Sys2Proof.Machine.execFsubParcel b d s
  | .fmulParcel b d => Sys2Proof.Machine.execFmulParcel b d s
  | .fminParcel b d => Sys2Proof.Machine.execFminParcel b d s
  | .fmaxParcel b d => Sys2Proof.Machine.execFmaxParcel b d s
  | .imulParcel b d => Sys2Proof.Machine.execImulParcel b d s
  | .addi im d => Sys2Proof.Machine.execAddi im d s
  | .movi im d => Sys2Proof.Machine.execMovi im d s
  | .grd c sx p => Sys2Proof.Machine.execGrd c sx p s
  | .xm d e sx r b m a n => Sys2Proof.Machine.execXm d e sx r b m a n s
  | .beat im => Sys2Proof.Machine.execBeat im s
  | .brs o => Sys2Proof.Machine.execBrs o s
  | .waitcParcel n c => Sys2Proof.Machine.execWaitcParcel n c s
  | .sleep n => Sys2Proof.Machine.execSleep n s
  | .vclr => Sys2Proof.Machine.execVclr s
  | .acq => Sys2Proof.Machine.execAcq s
  | .rel => Sys2Proof.Machine.execRel s
  | .acqrel => Sys2Proof.Machine.execAcqrel s
  | .fenceEng => Sys2Proof.Machine.execFenceEng s
  | .mrel => Sys2Proof.Machine.execMrel s
  | .rtt => Sys2Proof.Machine.execRtt s
  | .nop => Sys2Proof.Machine.execNop s
  | .yield => Sys2Proof.Machine.execYield s
  | .tfence => Sys2Proof.Machine.execTfence s
  | .exit => Sys2Proof.Machine.execExit s
  | .ret => Sys2Proof.Machine.execRet s
  | .join => Sys2Proof.Machine.execJoin s
  | .longLatencyFill => Sys2Proof.Machine.execLongLatencyFill s
  | .accessPerformed => Sys2Proof.Machine.execAccessPerformed s
  | .requestRetire => Sys2Proof.Machine.execRequestRetire s
  | .engineRequestStop => Sys2Proof.Machine.execEngineRequestStop s
  | .deferredReportTrap => Sys2Proof.Machine.execDeferredReportTrap s
  | .copyPromiseMiss => Sys2Proof.Machine.execCopyPromiseMiss s
  | .sleeptWake => Sys2Proof.Machine.execSleeptWake s
  | .sleepWake => Sys2Proof.Machine.execSleepWake s
  | .yieldEnd => Sys2Proof.Machine.execYieldEnd s
  | .groupEnd => Sys2Proof.Machine.execGroupEnd s
  | .activityWindow => Sys2Proof.Machine.execActivityWindow s
  | .boostCeiling => Sys2Proof.Machine.execBoostCeiling s
  | .arbiterPass => Sys2Proof.Machine.execArbiterPass s
  | .leaseIdleEnd => Sys2Proof.Machine.execLeaseIdleEnd s
  | .collectiveChunkSend => Sys2Proof.Machine.execCollectiveChunkSend s
  | .chunkCreditReturn => Sys2Proof.Machine.execChunkCreditReturn s
  | .collectiveResume => Sys2Proof.Machine.execCollectiveResume s
  | .collectiveComplete => Sys2Proof.Machine.execCollectiveComplete s
  | .pageWalk => Sys2Proof.Machine.execPageWalk s
  | .pageRequestRewalk => Sys2Proof.Machine.execPageRequestRewalk s
  | .pantryReplay => Sys2Proof.Machine.execPantryReplay s
  | .remoteRequest => Sys2Proof.Machine.execRemoteRequest s
  | .remoteRetry => Sys2Proof.Machine.execRemoteRetry s
  | .peerRequest => Sys2Proof.Machine.execPeerRequest s
  | .bar2Access => Sys2Proof.Machine.execBar2Access s
  | .railFlitReceive => Sys2Proof.Machine.execRailFlitReceive s
  | .flitResend => Sys2Proof.Machine.execFlitResend s
  | .railRetrain => Sys2Proof.Machine.execRailRetrain s
  | .railPortFailed => Sys2Proof.Machine.execRailPortFailed s
  | .qnotify => Sys2Proof.Machine.execQnotify s
  | .vfDoorbell => Sys2Proof.Machine.execVfDoorbell s
  | .frontEndTurn => Sys2Proof.Machine.execFrontEndTurn s
  | .noOperation => Sys2Proof.Machine.execNoOperation s
  | .launch => Sys2Proof.Machine.execLaunch s
  | .queueIdleUnmap => Sys2Proof.Machine.execQueueIdleUnmap s
  | .notifyWaitExpiry => Sys2Proof.Machine.execNotifyWaitExpiry s
  | .tokenRefill => Sys2Proof.Machine.execTokenRefill s
  | .bucketDry => Sys2Proof.Machine.execBucketDry s
  | .budgetReached => Sys2Proof.Machine.execBudgetReached s
  | .placementDecision => Sys2Proof.Machine.execPlacementDecision s
  | .blockReserving => Sys2Proof.Machine.execBlockReserving s
  | .clusterGate => Sys2Proof.Machine.execClusterGate s
  | .preemptDrain => Sys2Proof.Machine.execPreemptDrain s
  | .preemptFreeze => Sys2Proof.Machine.execPreemptFreeze s
  | .preemptResume => Sys2Proof.Machine.execPreemptResume s
  | .drainHandler => Sys2Proof.Machine.execDrainHandler s
  | .drainDeadline => Sys2Proof.Machine.execDrainDeadline s
  | .blockFreeze => Sys2Proof.Machine.execBlockFreeze s
  | .periodBoundary => Sys2Proof.Machine.execPeriodBoundary s
  | .mergedBeats => Sys2Proof.Machine.execMergedBeats s
  | .mergeWindowExpiry => Sys2Proof.Machine.execMergeWindowExpiry s
  | .geyserStep => Sys2Proof.Machine.execGeyserStep s
  | .poolWayChangeDone => Sys2Proof.Machine.execPoolWayChangeDone s
  | .poolWayChangeSlow => Sys2Proof.Machine.execPoolWayChangeSlow s
  | .gloopBind => Sys2Proof.Machine.execGloopBind s
  | .gloopUnbind => Sys2Proof.Machine.execGloopUnbind s
  | .clockStepSwitch => Sys2Proof.Machine.execClockStepSwitch s
  | .sensorSample => Sys2Proof.Machine.execSensorSample s
  | .refreshCommand => Sys2Proof.Machine.execRefreshCommand s
  | .currentCapWindow => Sys2Proof.Machine.execCurrentCapWindow s
  | .currentCapRise => Sys2Proof.Machine.execCurrentCapRise s
  | .powerCapWindow => Sys2Proof.Machine.execPowerCapWindow s
  | .scrub => Sys2Proof.Machine.execScrub s
  | .partActivate => Sys2Proof.Machine.execPartActivate s
  | .partDeactivate => Sys2Proof.Machine.execPartDeactivate s
  | .vdbindEnable => Sys2Proof.Machine.execVdbindEnable s
  | .queueEnable => Sys2Proof.Machine.execQueueEnable s
  | .queueDisable => Sys2Proof.Machine.execQueueDisable s
  | .vdlogTailWrite => Sys2Proof.Machine.execVdlogTailWrite s
  | .registerWrite => Sys2Proof.Machine.execRegisterWrite s
  | .recoveryGo => Sys2Proof.Machine.execRecoveryGo s
  | .startUp => Sys2Proof.Machine.execStartUp s
  | .railRetrainComplete => Sys2Proof.Machine.execRailRetrainComplete s
  | .clusterWakeComplete => Sys2Proof.Machine.execClusterWakeComplete s
  | .partitionKeyLoad => Sys2Proof.Machine.execPartitionKeyLoad s

end Sys2Proof.Machine
end

