-- ==== Sys2Proof/Machine/Schedule.lean ====
section
/-! DEFINITION. Time passing (R41, R251, R264, R290, R291, R366), the steps of the device that are due, issue slots
(R34, R257 to R261, R387), and a machine with an instruction laid where it fetches next. -/

namespace Sys2Proof.Machine

/-! ### An instruction acts -/

/-- What a fetch that finds no instruction comes to (R371, R353). -/
def State.noInstr (t : State) : Fetched → State
  | .instr _ => t
  | .undef w => if t.noLane then t.modSp fun sp => sp.finish (if w % 2 = 0 then 2 else 4)
      else t.takeTrap (t.frame 0x02 0 (BitVec.ofNat 32 w) 0 0 0)
  | .trap f => t.takeTrap (if f.cause = 0x01 then f else { f with pc := t.issuePc })
  | .held p => t.park (.fetch p)

/-- An instruction acts; behind an XM, what it modifies acts with it (R131). Where the page of that is absent the pair waits
at the XM. (Log entry 11.) -/
def State.act_ (t : State) (i : Instr) : Out :=
  match exec i t with
  | .next v =>
    if i.head ≠ .p16 18 ∨ v.g.sp.xm.isNone then .next v
    else match v.fetch v.g v.g.sp with
      | (.instr j, u) => exec j u
      | (.held p, u) => .next ({ u with g := t.g }.park (.fetch p))
      | (f, u) => .next (u.noInstr f)
  | x => x

/-- The instruction was not issued: its split waits and will try again (R34, R371). -/
def State.notIssued (s : State) (age : Nat) : Bool :=
  s.g.sp.age = age && match s.g.sp.wait with
    | .empty tried => tried
    | .record tried => tried
    | .blocked tried => tried
    | .fetch _ => true
    | _ => false

/-- A split whose wait something may have ended would wait on, were its instruction tried now (R34). (Log entry 9.) -/
def State.stillWaits (s : State) (g : Group) (sp : Split) : Bool :=
  let t := s.focus g.core g.slot sp.age
  match t.fetch t.g t.g.sp with
  | (.instr i, u) => match u.act_ i with
    | .next v => v.notIssued sp.age
    | _ => false
  | _ => false

/-- The waits that have not ended stay, so that what is ready now shows (R34, R175, R257). (Log entry 9.) -/
def State.probe (s : State) : State :=
  let f := fun (g : Group) => g.mapSplits fun sp =>
    if sp.wait = .blocked false ∧ s.stillWaits g sp = true then { sp with wait := .blocked true } else sp
  { s with g := f s.g, others := s.others.map f }

/-! ### Time -/

/-- Thousandths of a clock by which a die's domain moves in so many ticks (R17). -/
def State.dieGain (s : State) (die n : Nat) : Nat := n * stepMHz (s.dieAt die).step

/-- What is still to come of a tick for a cluster's clock (R291). -/
def State.tickGain (s : State) (cl n : Nat) : Nat := s.dieGain (cl / 8) n - (s.clusterAt cl).early

/-- Clocks by which a cluster's count moves in so many ticks (R291). -/
def State.clocks (s : State) (cl n : Nat) : Nat :=
  let c := (s.clusterAt cl).clock
  if s.clockStopped cl then 0 else (c + s.tickGain cl n) / 1000 - c / 1000

/-- The next edge of a running cluster's clock comes before the running tick ends. -/
def State.edgeDue (s : State) (cl : Nat) : Bool :=
  !s.clockStopped cl && decide (1000 < (s.clusterAt cl).clock % 1000 + s.tickGain cl 1)

/-- The slots of an issue partition among the places from lo to hi of a clock. -/
def slotsIn (part lo hi : Nat) : Nat := ((List.range' lo (hi - lo)).filter fun p => 0 < p && (p + 1) / 2 = part).length

/-- The places from lo to hi of a core's clock go to nobody: the groups that were ready there and did not issue have waited
(R257), and slots for which only splits held by the budget were left are counted (R366); u is the machine as those slots
found it. (Log entry 54.) -/
def State.skip (s u : State) (core lo hi : Nat) : State :=
  if hi ≤ lo then s
  else
    let gs := u.groups.filter fun g => g.live && g.core = core && !g.service
    let up := (gs.filter fun g => slotsIn g.partNo lo hi != 0 && u.groupReady g).map fun g => g.slot
    let held := (List.range' 1 12).map fun part =>
      min (slotsIn part lo hi) ((gs.filter fun g => g.partNo = part && u.mayRun g).flatMap fun g =>
        g.splits.filter fun sp => u.splitOpen g sp && u.heldSplit g sp).length
    let f := fun (g : Group) =>
      if g.core = core && up.contains g.slot then { g with waitCount := g.waitCount + slotsIn g.partNo lo hi } else g
    { s with g := f s.g, others := s.others.map f }.tally 4 held.sum (some core) (coreDie core)

/-- Cores' clocks are over, and later ones' slots begin: clk gives the clocks of each (R257). -/
def State.newClocks (s : State) (clk : Nat → Nat) : State :=
  let s1 := (((s.groups.filter fun g => g.live).map fun g => g.core).eraseDups.filter fun c => clk c != 0).foldl
    (fun t c => t.skip s c (s.coreAt c).place 25) s
  { s1 with cores := Vector.ofFn fun k =>
      let c := s1.coreAt k.val
      if clk k.val == 0 then c
      else { c with cnt := bump [] c.sel c.cnt 1 (clk k.val), held := [], round := c.round + clk k.val, place := 0, first := none } }

/-- The clocks of so many ticks: each cluster's count, the slots of its cores, the counters of source 1, and each die's
window; a written selector takes effect (R422). (Log entry 6.) -/
def State.runClocks (s : State) (n : Nat) : State :=
  let s1 := s.newClocks fun c => s.clocks (coreCluster c) n
  { s1 with
    regs := { s1.regs with devHeld := if (List.range 64).any (fun cl => s.clocks cl n != 0) then [] else s1.regs.devHeld }
    clusters := Vector.ofFn fun cl =>
      let c := s.clusterAt cl.val
      if s.clockStopped cl.val then { c with early := 0 } else { c with clock := c.clock + s.tickGain cl.val n, early := 0 }
    dies := Vector.ofFn fun d =>
      let y := s1.dieAt d.val
      let m := ((List.range 8).map fun k => s.clocks (8 * d.val + k) n).sum
      { y with window := y.window + s.dieGain d.val n
               cnt := bump [] y.sel y.cnt 1 m, held := if m = 0 then y.held else [] } }

/-- Within a tick, the clocks whose next edge comes before its end move to that edge; the timer stands.
(Log entry 6.) -/
def State.runEdges (s : State) : State :=
  let step := fun (cl : Nat) => if s.edgeDue cl then 1000 - (s.clusterAt cl).clock % 1000 else 0
  let s1 := s.newClocks fun c => if s.edgeDue (coreCluster c) then 1 else 0
  { s1 with
    regs := { s1.regs with devHeld := if (List.range 64).any s.edgeDue then [] else s1.regs.devHeld }
    clusters := Vector.ofFn fun cl =>
      let c := s.clusterAt cl.val
      { c with clock := c.clock + step cl.val, early := c.early + step cl.val }
    dies := Vector.ofFn fun d =>
      let y := s1.dieAt d.val
      let m := ((List.range 8).filter fun k => s.edgeDue (8 * d.val + k)).length
      { y with cnt := bump [] y.sel y.cnt 1 m, held := if m = 0 then y.held else [] } }

/-- Residence is charged to a node; whole units of 2^16 go to its consumed field, and a budget that is reached is
noted (R41). (Log entry 41.) -/
def State.chargeNode (s : State) (part va n : Nat) : State :=
  let t := Smap.get 0 s.nodeTicks (nodeKey part va) + n
  let s2 := { s with nodeTicks := Smap.set 0 s.nodeTicks (nodeKey part va) (t % 2 ^ 16) }
  if t < 2 ^ 16 then s2
  else
    let s3 := s2.writeNode part va 1992 56 (rcbConsumed (s2.image part va) + t / 2 ^ 16)
    if budgetLeft [(va, s3.image part va)] then s3
    else { s3 with agenda := .event .budgetReached { part := part, va := va } :: s3.agenda }

/-- Residence is charged to a virtual device's bucket, in whole tokens (R251). (Log entry 41.) -/
def State.chargeBucket (s : State) (vd n : Nat) : State :=
  let t := Smap.get 0 s.residue vd + n
  let s1 := { s with residue := Smap.set 0 s.residue vd (t % 2 ^ 16) }
  if t < 2 ^ 16 then s1
  else
    let r := s1.vdsched vd
    s1.setVdsched vd (bset r 64 32 (ofSigned 32 (max (vsLevel r - (t / 2 ^ 16 : Nat)) (-(2 ^ 31)))))

/-- The group slots held for so many ticks are charged to their launches' nodes and virtual devices (R41, R251).
(Log entry 41.) -/
def State.chargeResidence (s : State) (ticks : Nat) : State :=
  s.launches.foldl (fun t l =>
    let n := (s.groups.filter fun g => g.live && !g.service && g.launch = l.rcb).length * ticks
    if n = 0 then t
    else
      let u := l.path.foldl (fun x va => x.chargeNode l.part va n) t
      match l.vd with
      | some v => u.chargeBucket v n
      | none => u) s

/-- The activity windows that have begun on cores where that shows (R191, R259). -/
def State.windows (s : State) : List Turn :=
  ((List.range 256).filter fun c =>
      (s.coreAt c).actWindow ≠ (s.clusterAt (coreCluster c)).cycle / 32 &&
        ((s.coreAt c).actNext.isSome || s.groups.any fun g => g.core = c)).map fun c => .event .activityWindow { core := c }

/-- The periods, merge windows and steps of loops that are due: nothing else at this timer value comes before them (R268 to
R271). -/
def State.loopsDue (s : State) : List Turn :=
  ((s.beats.filter fun b => decide (b.stop ≤ s.timer)).map fun b => .event .periodBoundary { part := b.part, ctx := b.ctx }) ++
  (((List.range 128).filter fun c => (s.loopAt c).window.any fun w => decide (w.close ≤ s.timer)).map
    fun c => .event .mergeWindowExpiry { m := c }) ++
  ((List.range 128).filter fun c => (s.loopAt c).step.isSome).map fun c => .event .geyserStep { m := c }

/-- The promises and the deadlines of drains that are reached: they are behind everything else of this timer value, and ahead of
the next, as is the retraining of a link whose resends are spent (R297, R392, R398, R400). -/
def State.deadlines (s : State) : List Turn :=
  ((s.reqs.filter fun r => r.cls = 0 && r.left != 0 && decide (r.promise ≤ s.timer)).map
    fun r => .event .copyPromiseMiss { id := r.id }) ++
  ((s.launches.filter fun l => !l.freezing && s.drainOver l).map fun l => .event .drainDeadline { rcb := l.rcb }) ++
  ((List.range 8).filter fun d => (s.dieAt d).rail.spent).map fun d => .event .railRetrain { die := d }

/-- No edge of a resident group's clock is left in the running tick (R257). -/
def State.edgesOver (s : State) : Bool := !(s.groups.any fun g => g.live && s.edgeDue (coreCluster g.core))

/-- The device steps that fall due at the timer's present value (R251, R264, R281, R282, R289, R311, R370, R398, R408, R409).
(Log entries 6 and 42.) -/
def State.timed (s : State) : List Turn :=
  let ev := fun (i : Instr) (a : EvArgs) => Turn.event i a
  let busy := (List.range 256).filter fun c =>
    !(s.coreAt c).pageReqs.isEmpty || s.groups.any fun g => g.live && g.core = c
  let walks := if busy = [] ∧ (s.slots.any (fun y => y.2.held.isSome) || !s.completions.isEmpty) = true then [0] else busy
  let pages := fun (c : Nat) =>
    (((s.coreAt c).pantry.filter fun e => !e.unmappable).map fun e => (e.part, e.vline * 128 / 2 ^ 16)).eraseDups
  s.windows ++
  (((List.range 256).filter fun v => decide ((s.vaultAt v).refreshAt ≤ 2 * s.timer)).map fun v => ev .refreshCommand { vault := v }) ++
  (((List.range 8).filter fun d => (s.dieAt d).rising.any fun x => decide (x.2 + 20000 ≤ s.timer)).map
    fun d => ev .clockStepSwitch { die := d }) ++
  (((List.range 8).filter fun d => (s.dieAt d).rail.retraining.any fun t => decide (t + 1000000 ≤ s.timer)).map
    fun d => ev .railPortFailed { die := d }) ++
  (((List.range 8).filter fun d => (s.dieAt d).capRises s.timer).map fun d => ev .currentCapRise { die := d }) ++
  ((s.ways.filter fun w => w.lasts s.timer).map fun w => ev .poolWayChangeSlow { part := w.part, way := w.way }) ++
  (if s.timer % 2 ^ 16 = 0 then
    ev .sensorSample {} :: (walks.map (fun c => ev .pageRequestRewalk { core := c }) ++
      (List.range 256).flatMap fun c => (pages c).map fun p =>
        ev .pantryReplay { core := c, part := p.1, va := p.2 * 2 ^ 16 })
  else []) ++ (if s.timer % 2 ^ 20 = 0 then [ev .tokenRefill {}] else []) ++
  (if s.timer % 2 ^ 16 = 0 then s.env.latent.map (fun x =>
    ev .scrub { line := x.1, scrub := if x.2 = 2 then .corrected else .uncorrectable }) else []) ++
  ((List.range 8).filter fun d => decide (4096000 ≤ (s.dieAt d).window)).map fun d => ev .boostCeiling { die := d }

/-- The ticks to the next instant at which a device step falls due, at least 1 (R251, R264, R268, R270, R281, R282, R289,
R297, R392, R398, R408, R409). While a group is resident no instant is passed over: its core's clocks come one by one.
(Log entry 6.) -/
def State.untilDue (s : State) : Nat :=
  if s.groups.any fun g => g.live then 1
  else
    let less := fun (a n : Nat) => min a n
    let next := fun (a due : Nat) => if s.timer < due then min a (due - s.timer) else a
    let t1 := s.beats.foldl (fun a b => less a (b.stop - s.timer)) (2 ^ 16 - s.timer % 2 ^ 16)
    let t2 := s.loops.toList.foldl (fun a m => m.window.elim a fun w => less a (w.close - s.timer)) t1
    let t3 := s.vaults.toList.foldl (fun a v => less a ((v.refreshAt + 1) / 2 - s.timer)) t2
    let t4 := s.dies.toList.foldl (fun a d => d.rising.elim a fun x => less a (x.2 + 20000 - s.timer)) t3
    let t5 := s.dies.toList.foldl (fun a d => less a ((4096000 - d.window + stepMHz d.step - 1) / stepMHz d.step)) t4
    let t6 := s.reqs.foldl (fun a r => if r.cls = 0 ∧ r.left ≠ 0 then next a r.promise else a) t5
    let t7 := s.launches.foldl (fun a l => l.drain.elim a fun d => next a (d.since + l.eff.drainDeadline)) t6
    let t8 := s.slots.foldl (fun a y => next a (y.2.idleSince + 2 ^ 16)) t7
    let t9 := s.dies.toList.foldl (fun a d =>
      let b := d.rail.retraining.elim a fun t => next a (t + 1000000)
      if d.currentCap < 30 then next b (d.quietSince + 2 ^ 16) else b) t8
    max 1 (s.ways.foldl (fun a w => if w.next ≠ [] ∧ w.slow = false then next a (w.since + 2 ^ 20) else a) t9)

/-- What this timer value still owes before time moves on: the caldera's passes, and the grants that a limit holds (R274,
R410). -/
def State.settled (s : State) : State := s.passes.relimit

/-- Time passes, by so many ticks but not past the next instant at which something falls due: the clocks, the residence,
the timer, and what has fallen due comes first; then the ticks that are left, when they are wanted (R41, R290, R291). Where a
group is resident and a clock's edge lies within the tick, the clocks move to that edge first, so that its issue slots come
before the tick is over (R257). (Log entry 6.) -/
def State.elapse (s0 : State) (ticks : Nat) (rest : Bool) : State :=
  let s := s0.settled.probe
  let n := min ticks s.untilDue
  let left := fun (k : Nat) => if rest ∧ k < ticks then [Turn.time (ticks - k)] else []
  if n = 0 then s
  else if s.edgesOver = false then
    let s1 := s.runEdges
    { s1 with agenda := s1.windows ++ (left 0 ++ s1.agenda) }
  else
    let s1 := (s.runClocks n).chargeResidence n
    let s2 := { s1 with timer := s.timer + n }
    { s2 with agenda := s2.timed ++ (left n ++ s2.agenda) }

/-! ### Device steps that are due -/

/-- The ends of waits that are over (R175, R207). -/
def State.wakes (s : State) : List Turn :=
  (s.groups.filter fun g => g.live).flatMap fun g => g.splits.filterMap fun x =>
    let a : EvArgs := { core := g.core, slot := g.slot, age := x.age }
    if !s.waitOver g x then none
    else match x.wait with
      | .sleep _ => some (.event .sleepWake a)
      | .sleept _ => some (.event .sleeptWake a)
      | .yielded _ _ => some (.event .yieldEnd a)
      | _ => none

/-- The device steps that may have something to do now, in the order in which this model takes them when nothing
outside decides it. (Log entry 5.) -/
def State.candidates (s : State) : List Turn :=
  let ev := fun (i : Instr) (a : EvArgs) => Turn.event i a
  let groups := s.groups.filter fun g => g.live
  (if s.power = .starting then [ev .startUp {}] else []) ++ (if s.sampleDue then [ev .sensorSample {}] else []) ++
  (((List.range 256).filter fun v => decide ((s.vaultAt v).refreshAt ≤ 2 * s.timer)).map fun v => ev .refreshCommand { vault := v }) ++
  s.wakes ++
  (s.ways.flatMap fun w =>
    [ev .poolWayChangeSlow { part := w.part, way := w.way }, ev .poolWayChangeDone { part := w.part, way := w.way }]) ++
  ((List.range 8).flatMap fun d =>
    [ev .railPortFailed { die := d }] ++ if (s.dieAt d).rising.isSome then [ev .clockStepSwitch { die := d }] else []) ++
  (((List.range 8).filter fun d => decide ((s.dieAt d).currentCap < 30)).map fun d => ev .currentCapRise { die := d }) ++
  (((List.range 64).filter fun c => (s.clusterAt c).waking).map fun c => ev .clusterWakeComplete { cl := c }) ++
  (((List.range 64).filter fun c => (s.clusterAt c).gating).map fun c => ev .clusterGate { cl := c }) ++
  (s.slots.map fun y => ev .queueIdleUnmap { q := y.2.queue }) ++ (s.pending.map fun p => ev .notifyWaitExpiry { q := p.queue }) ++
  ((List.range 32).map fun v => ev .bucketDry { vd := v }) ++
  (s.flights.flatMap fun f => [ev .longLatencyFill { id := f.id }, ev .accessPerformed { id := f.id }]) ++
  (s.reqs.flatMap fun r =>
    [ev .accessPerformed { id := r.id }, ev .requestRetire { id := r.id }]) ++
  ((List.range 64).flatMap fun m => [ev .collectiveResume { comm := m }, ev .collectiveComplete { comm := m }]) ++
  ((List.range 8).map fun d => ev .collectiveChunkSend { die := d }) ++
  (groups.flatMap fun g =>
    [ev .groupEnd { core := g.core, slot := g.slot }, ev .activityWindow { core := g.core }]) ++
  (s.launches.flatMap fun l =>
    [ev .drainHandler { rcb := l.rcb }, ev .blockReserving { rcb := l.rcb }]) ++
  (s.blocks.map fun b => ev .blockFreeze { blk := b.id }) ++
  ((List.range 64).flatMap fun c => [ev .leaseIdleEnd { cl := c }, ev .arbiterPass { cl := c }]) ++
  (s.slots.flatMap fun y => [ev .noOperation { slot := y.1 }, ev .launch { slot := y.1 }]) ++
  (if s.turnDue then [ev .frontEndTurn {}] else [])

/-- A device step does more than let what waits try again. -/
def State.worth (s : State) : Turn → Bool
  | .event i a =>
    let s0 := { s with ev := a }
    match exec i s0 with
    | .next t => decide (t.retryAll ≠ s0.retryAll)
    | _ => true
  | _ => true

/-- A placement decision is due: one was asked for, a placed block can have its banks and ranges, or system software has
changed a budget in memory, of a node that a decision would read (R41, R255, R299). -/
def State.placementDue (s : State) : Bool :=
  s.placing || s.blocks.any s.restorable || s.nodes.any fun n =>
    (s.launches.any fun l => l.part = n.part && l.path.contains n.va && s.launches.any fun h => h.rcb = l.head && h.wants) &&
    match s.nodeNow n.part n.va with
    | .val v => rcbBudget (BitVec.ofNat 2048 v) != rcbBudget n.image
    | _ => false

/-! ### Issue slots -/

/-- A split's wait is one that a report or a try may end. (Log entry 49.) -/
def Wait.open_ : Wait → Bool
  | .none => true
  | .empty _ => true
  | .record _ => true
  | .blocked _ => true
  | _ => false

/-- An unmappable pantry entry of a group whose trap has still to come (R376). (Log entry 15.) -/
def State.pantryReport (s : State) (g : Group) : Option PantryEntry :=
  (s.coreAt g.core).pantry.find? fun e => e.slot = g.slot && e.unmappable && !e.trapped

/-- The group with a split at the front and its arrivals made (R30). -/
def Group.arrived (g : Group) (age : Nat) : Group :=
  let x := g.focus age
  ({ x with sp := (x.sp.arrive x.exited 9).settle x.exited 9 }).dissolve

/-- A split has something to do at an issue slot (R34, R293, R376, R387); one that a freeze stops meets its next slot in
any case (R298). (Log entry 49.) -/
def State.splitDue (s : State) (g : Group) (sp : Split) : Bool :=
  sp.mask != 0 &&
  if g.stopped then g.halting.contains sp.age else
  (!g.trapMode && sp.wait.open_ && ((g.reportFor sp).isSome || (s.pantryReport g).isSome) ||
  let h := g.arrived sp.age
  (h.sp.age != sp.age && sp.wait.open_) || s.splitReady h h.sp)

/-- A group has something to do at an issue slot. -/
def State.groupDue (s : State) (g : Group) : Bool := s.mayRun g && g.splits.any (s.splitDue g)

/-- Two groups share an issue partition; the service slot stands outside all (R34, R258). -/
def samePart (a b : Group) : Bool :=
  a.core = b.core && a.service = b.service && (a.service || issuePart a.slot = issuePart b.slot)

/-- The older of the groups that come first in their issue partition (R257). -/
def firstGroup (d : Group) (l : List Group) : Group :=
  let late := l.filter fun g => decide (48 ≤ g.waitCount)
  (if late = [] then l else late).foldl (fun a x => if x.age < a.age then x else a)
    ((if late = [] then l else late).headD d)

/-- The split of lowest pc, and among equals the older (R34). -/
def firstSplit : List Split → Option Split
  | [] => none
  | x :: r =>
    match firstSplit r with
    | none => some x
    | some y => if x.pc < y.pc ∨ (x.pc = y.pc ∧ x.age < y.age) then some x else some y

/-- The merges of an issue slot, of splits that neither the budget nor a record being loaded holds (R32, R34). -/
def State.mergeAt (s : State) (g : Group) : Group :=
  if g.sp.trap then g else g.autoMerge ((g.splits.filter fun x => s.heldSplit g x || s.recordHeld g x).map fun x => x.age) 3

/-- The age of the split that a split of the group is once it has arrived and merged at its slot (R30, R32). -/
def State.mergedAge (s : State) (g : Group) (age : Nat) : Nat := (s.mergeAt (g.arrived age)).sp.age

/-- The splits of a group that have something to do, but for the one that took the first slot of the clock (R257). -/
def State.dueSplits (s : State) (taken : Option (Nat × Nat)) (g : Group) : List Split :=
  g.splits.filter fun sp => s.splitDue g sp && taken != some (g.slot, s.mergedAge g sp.age)

/-- What an issue slot comes to before the instruction acts. -/
inductive Slot where
  /-- it is used up -/
  | used (s : State)
  /-- an instruction acts, of that weight and that part of it from quarter-operations -/
  | run (i : Instr) (weight quarters : Nat) (s : State)

/-- The instruction at the split's pc is fetched, and held by the activity budget or not (R34, R115, R260, R368,
R371). -/
def State.fetchSlot (s : State) : Slot :=
  match s.fetch s.g s.g.sp with
  | (.instr i, t) =>
    let w := t.weightOf i
    if t.budgetHolds w.1 then .used (t.modAct t.g.core fun c => { c with actClosed := true })
    else .run i w.1 w.2 t
  | (f, t) => .used (t.noInstr f)

/-- An unmappable entry of the issuing group traps, once (R376). -/
def State.pantryTrap (s : State) (e : PantryEntry) : State :=
  (s.modCore s.g.core fun c =>
    { c with pantry := c.pantry.map fun x => if x.id = e.id then { x with trapped := true } else x }).takeTrap (s.pantryFrame e)

/-- An issue slot of a split (R30, R32, R34, R293, R376, R387). (Log entry 49.) -/
def State.slotFor (s : State) (core slot age : Nat) : Slot :=
  let s0 := s.focus core slot age
  let g := s0.g
  if g.core ≠ core ∨ g.slot ≠ slot ∨ g.sp.age ≠ age ∨ s0.mayRun g = false ∨ g.sp.mask = 0 then .used s
  else if g.trapMode = true ∧ g.sp.trap = false then .used s
  else if g.sp.wait.open_ = false then .used s
  else
    let h := g.arrived age
    if h.sp.age ≠ age then .used { s0 with g := h }
    else
      let s1 := { s0 with g := s0.mergeAt h }
      if !h.trapMode && (s1.g.reportFor s1.g.sp).isSome then .used (s1.reportTrap core slot s1.g.sp.age)
      else match (if h.trapMode then none else s1.pantryReport s1.g) with
        | some e => .used (s1.pantryTrap e)
        | none => s1.fetchSlot

/-- A split traps at the slot that it is given: it enters trap mode, or the fault ends its block. (Log entry 54.) -/
def State.trapsNow (s : State) (core slot age : Nat) : Bool :=
  let s0 := s.focus core slot age
  let raised := fun (t : State) => (t.g.sp.trap && !s0.g.sp.trap) || (t.endingOf t.g && !s0.endingOf s0.g)
  match s.slotFor core slot age with
  | .used t => raised t
  | .run i _ _ t => match t.act_ i with
    | .next v => raised v
    | _ => false

/-- A split that a freeze stops has met its slot (R298). -/
def State.halted (s : State) (core slot age : Nat) (stop : Bool) : State :=
  s.modGroup core slot fun g => { g with stopped := stop, halting := g.halting.erase age }

/-- An issue slot is given to a split. One that a freeze stops takes the trap that falls in the same slot, and else does
not issue (R298, R300). -/
def State.slotOn (s : State) (core slot age : Nat) : Slot :=
  let s0 := s.focus core slot age
  if s0.g.stopped then
    let t := s0.halted core slot age false
    if t.trapsNow core slot age then
      match t.slotFor core slot age with
      | .used v => .used (v.halted core slot age true)
      | .run i _ _ v => match v.act_ i with
        | .next u => .used (u.halted core slot age true)
        | _ => .used (s0.halted core slot age true)
    else .used (s0.halted core slot age true)
  else s.slotFor core slot age

/-- The split of a group that an issue slot goes to: the lowest pc, then the older (R34). Of two that would fill the slots of
one clock and both trap, the older (R293). (Log entry 54.) -/
def State.pickSplit (s : State) (taken : Option (Nat × Nat)) (g : Group) : Option Split :=
  let l := s.dueSplits taken g
  match firstSplit l with
  | none => none
  | some x =>
    match taken, firstSplit (l.filter fun y => y.age ≠ x.age) with
    | none, some y =>
      if y.age < x.age ∧ s.trapsNow g.core g.slot x.age = true ∧ s.trapsNow g.core g.slot y.age = true then some y
      else some x
    | _, _ => some x

/-- Who a slot of an issue partition goes to (R257). -/
def State.pickSlot (s : State) (due : List Group) (taken : Option (Nat × Nat)) : Option (Group × Split) :=
  match due.filter fun g => !(s.dueSplits taken g).isEmpty with
  | [] => none
  | x :: r =>
    let g := firstGroup x (x :: r)
    (s.pickSplit taken g).map fun sp => (g, sp)

/-- The next slot of a core's service slot (part 0) or of an issue partition (part 1 + its number) that goes to someone:
when, as the clock and the place in it, and to whom. -/
def State.nextIn (s : State) (core part : Nat) (due : List Group) : Option ((Nat × Nat) × Group × Split) :=
  let c := s.coreAt core
  let k := c.slotOf part
  match s.pickSlot due (c.takenAt k) with
  | some x => some (k, x)
  | none =>
    if (c.takenAt k).isSome then (s.pickSlot due none).map fun x => ((k.1 + 1, 2 * part - 1), x) else none

/-- The earlier of two slots. -/
def earlier {α : Type} (a b : Option ((Nat × Nat) × α)) : Option ((Nat × Nat) × α) :=
  match a, b with
  | none, y => y
  | some x, none => some x
  | some x, some y => if y.1.1 < x.1.1 ∨ (y.1.1 = x.1.1 ∧ y.1.2 < x.1.2) then some y else some x

/-- The issue of a core that comes next: within a clock the service slot, then the issue partitions in order with two
slots each; a split issues once in a clock, and no clock's slots come before the clock (R34, R257, R258, R260). -/
def State.pickCore (s : State) (core : Nat) : Option (Nat × Nat) :=
  let due := s.groups.filter fun g => g.core = core && s.groupDue g
  let parts := (due.map fun g => g.partNo).eraseDups
  let best := parts.foldl (fun b p => earlier b (s.nextIn core p (due.filter fun g => g.partNo = p))) none
  match best with
  | none => none
  | some (k, g, sp) =>
    if (s.clusterAt (coreCluster core)).cycle < k.1 then none else some (g.slot, sp.age)

/-- The issue that comes next: the cores' clocks run side by side, and the first core with an issue is taken.
(Log entry 5.) -/
def State.pickIssue (s : State) : Option Turn :=
  ((s.groups.filter fun g => g.live).map fun g => g.core).eraseDups.findSome? fun c =>
    (s.pickCore c).map fun x => .issue c x.1 x.2

/-- A wait that is over ends before the turn: before an issue, those of its core; before time passes, all.
(Log entry 5.) -/
def State.wakesFor (s : State) : Turn → Option Turn
  | .issue core _ _ => s.wakes.find? fun w => match w with
    | .event _ a => a.core = core
    | _ => false
  | .time _ => s.wakes.head?
  | .event _ _ => none

/-- What comes next: the steps of loops that are due; then what the world outside has decided, behind the ends of waits that it
would find, else a device step that is due, then a placement decision, then an issue slot; else nothing but time. Time passes
behind the issues of every clock of the tick, and then behind the deadlines that are reached. (Log entry 5.) -/
def State.choose (s0 : State) : Option Turn × State :=
  let s := s0.probe
  match s.loopsDue with
  | t :: _ => (some t, s)
  | [] =>
    match s.agenda with
    | t :: r =>
      match s.wakesFor t with
      | some w => (some w, s)
      | none =>
        match t with
        | .time _ =>
          match s.pickIssue with
          | some x => (some x, s)
          | none => match if s.edgesOver then s.deadlines.head? else none with
            | some d => (some d, s)
            | none => (some t, { s with agenda := r })
        | _ => (some t, { s with agenda := r })
    | [] =>
      (match s.candidates.find? s.worth with
        | some t => some t
        | none => if s.placementDue then some (.event .placementDecision {})
          else match s.pickIssue with
            | some x => some x
            | none => if s.edgesOver then s.deadlines.head? else none, s)

/-- An issue slot of a core goes to a split, when it is the one that R34 and R257 choose there. -/
def State.prepare (s : State) (core slot age : Nat) : Slot :=
  if s.pickCore core = some (slot, age) then s.slotOn core slot age else .used s

/-- The groups of an issue partition after one of them issued: wait counts and the groups that YIELDs wait for (R175,
R257). -/
def Group.afterSlot (due : List Nat) (slot : Nat) (g : Group) : Group :=
  let y := fun (x : Split) => match x.wait with
    | .yielded gs n => { x with wait := .yielded (gs.erase slot) n }
    | _ => x
  { g.mapSplits y with waitCount := if g.slot = slot then 0 else if due.contains g.slot then g.waitCount + 1 else g.waitCount }

/-- A slot of a core went to a split, which raised some flags: the clock and the place behind it, and who took the first
of two (R106, R257). -/
def Core.pass (c : Core) (part slot age : Nat) (raised : BitVec 6) : Core :=
  let k := c.slotOf part
  let second := (c.takenAt k).isSome
  let again := decide ((c.takenAt k) = some (slot, age))
  if second && !again then { c with round := k.1, place := k.2 + 1, first := none }
  else
    let r := if again then k.1 + 1 else k.1
    let f := if again then 2 * part - 1 else k.2
    { c with round := r, place := f + 1, first := if f % 2 = 1 then some (slot, age, raised) else none }

/-- The flags that an instruction of a group raises, when another split of the group may issue in the same clock; a WRSR
raises none (R106). -/
def State.raisedBy (u : State) (i : Instr) : BitVec 6 :=
  if u.g.rest = [] ∨ i.head = .w32 28 3 then 0
  else match { u with g := { u.g with arithFlags := 0 } }.act_ i with
    | .next v => v.g.arithFlags
    | _ => 0

/-- An instruction was issued from the front of u, and v is what became of it: the slots before it went to nobody, it is
counted and weighed, and the ready groups of its partition waited (R257, R259, R264, R366). One that was not issued stands
where it stood, its XM with it (R131). -/
def State.afterIssue (u v : State) (i : Instr) (w q : Nat) : State :=
  if v.notIssued u.g.sp.age then v.modSp fun sp => { sp with pc := u.g.sp.pc, xm := u.g.sp.xm }
  else
    let core := u.g.core
    let die := coreDie core
    let part := fun (g : Group) => g.live && samePart u.g g
    let c := u.coreAt core
    let k := c.slotOf u.g.partNo
    let due := (u.others.filter fun g => part g && u.groupReady g).map fun g => g.slot
    let v0 := v.skip u core c.place (if k.1 = c.round then k.2 else 25)
    let v1 := if u.g.service then v0 else
      { v0 with g := if part v0.g then v0.g.afterSlot due u.g.slot else v0.g
                others := v0.others.map fun g => if part g then g.afterSlot due u.g.slot else g }
    let v2 := (v1.modCore core fun c => c.pass u.g.partNo u.g.slot u.g.sp.age (u.raisedBy i)).tally 2 1 (some core) die
    let v3 := if w = 0 then v2 else
      (((v2.modAct core fun c => { c with actCount := c.actCount + w }).modDie die fun d =>
        { d with weight := d.weight + w, matrix := d.matrix + q }).tally 3 w (some core) die)
    v3.retryAll

/-! ### An instruction laid where the machine fetches next -/

/-- A partition that owns vault 0 and core 0 and the window of the first 3 GiB (R316, R317). -/
def seatPart : BitVec 1024 := bset (bset (bset (bset 0 0 1 1) 256 1 1) 618 1 1) 619 1 1

/-- A leaf that maps a partition's first GiB to the start of its window (R309). -/
def seatLeaf : TlbEntry := { part := 0, va := 0, size := 2, write := true, exec := true, reach := 0, peer := 0, pa := 0 }

/-- The code: 8 bytes at address 0x10000. -/
def seatCode : Kernel := { entry := 0x10000, size := 8, patches := [] }

/-- A launch in state 2 of one block of 32 lanes, with every register of a lane (R37). -/
def seatLaunch : Launch :=
  { rcb := nodeKey 0 0x20000, part := 0, queue := 0, vd := none, path := [], ctx := 0x20100
    eff := { priority := 0, faultDomain := 0, shedClass := 0, arithClass := 0, trapHandler := 0x10000, trapEnable := 0
             leasePasses := 1024, heatClass := 15000, refreshAllowance := 0xFFFFFFFF, coreSet := 1
             notifyWait := 1000000, drainDeadline := 4000000 }
    created := 0, ctxCreated := 0, state := 2, head := nodeKey 0 0x20000, bundleIndex := 0, bundleSize := 1
    code := seatCode, handler := some seatCode, gridX := 1, gridY := 1, gridZ := 1, lanes := 32, ownWords := 0
    privBase := 0, scratchBytes := 0, regs := 96, accBanks := 64, maxCores := 1, idempotent := false, leaseLen := 1024, codeLease := 0
    completion := 0, completionReach := 0, completionValue := 0, saveArea := 0, gridPos := 1, ended := 0
    failed := false, frozen := [], relaunch := [], relaunched := [], drain := none, selfResume := false
    freezing := false, waitSince := none, reserving := false, warned := false }

/-- Its block on core 0. -/
def seatBlock (id : Nat) : Block :=
  { id := id, head := seatLaunch.rcb, part := 0, ctx := 0x20100, index := 0, groups := 1, cores := [0], bases := [0]
    share := 0, regs := 96, tiles := Vector.replicate 8 0, charge := 0, ending := none, waking := false
    restoring := none }

/-- Its group in slot 0 of core 0, all 32 lanes at the code's entry. -/
def seatGroup (block : Nat) : Group :=
  { Group.empty with
    live := true, block := block, launch := seatLaunch.rcb, launched := BitVec.allOnes 32
    sp := { Split.empty with pc := seatCode.entry, mask := BitVec.allOnes 32 } }

/-- The machine with the bits of an instruction, and zeros behind them, at the pc of a resident group whose issue comes
next: no step of a loop is due before it. (Log entry 3.) -/
def State.seat (s : State) (nbits w : Nat) : State :=
  let id := s.nextId
  { s with
    power := .up, nextId := id + 1, regs := { s.regs with part := vset s.regs.part 0 seatPart }
    dev := Memory.writeLE s.dev 0x10000 4 (w % 2 ^ nbits), poison := s.poison.filter fun x => x.1 ≠ 0x200
    cores := vset s.cores 0
      { s.coreAt 0 with
        tlb := seatLeaf :: (s.coreAt 0).tlb, actClosed := false, actCount := 0, round := (s.clusterAt 0).cycle, place := 0
        first := none }
    clusters := vset s.clusters 0 { s.clusterAt 0 with gated := false, gating := false }
    vaults := Vector.ofFn fun v => { s.vaultAt v.val with hot := (s.vaultAt v.val).hot && coreCluster v.val != 0 }
    launches := seatLaunch :: s.launches.filter fun l => l.rcb ≠ seatLaunch.rcb
    blocks := seatBlock id :: s.blocks
    g := seatGroup id
    others := ((if s.g.live then [s.g] else []) ++ s.others).filter fun x => x.core ≠ 0
    env := { s.env with lineErrors := [], blockErrors := [], corrected := [], walkErrors := [] }
    beats := s.beats.filter fun b => decide (s.timer < b.stop)
    loops := s.loops.map fun l =>
      { l with step := none, window := l.window.filter fun w => decide (s.timer < w.close) }
    agenda := .issue 0 0 0 :: s.agenda }

end Sys2Proof.Machine
end

