-- ==== Sys2Proof/Machine/Step.lean ====
section
/-! DEFINITION. One step of the machine: what the agenda or the device's own order brings next acts, and time
passes. -/

namespace Sys2Proof.Machine

/-- A next state changed; a stop as it is. -/
def after (f : State → State) : Out → Out
  | .next t => .next (f t)
  | .fault r => .fault r
  | .refused r => .refused r

/-- One turn: a step of the device, an issue slot given to a split, or time. (Log entry 5.) -/
def State.take (s : State) : Turn → Out
  | .event i a => if i.head = .event then exec i { s with ev := a } else .next s
  | .issue core slot age =>
    match s.prepare core slot age with
    | .used t => .next t
    | .run i w q t => after (fun v => t.afterIssue v i w q) (t.act_ i)
  | .time n => .next (s.elapse n true)

/-- One step: errors that the world outside supplies are found, then the next turn is taken; with none left at this
instant, time passes. -/
def step (s : State) : Host.Outcome State Fault Refusal :=
  match s.findErrors.choose with
  | (none, t) => .next (t.elapse t.env.gap false)
  | (some x, t) => t.take x

/-- The machine with an instruction stored where step fetches its next one: bits above nbits are zero. (Log entry 3.) -/
def State.withFetchWord (s : State) (nbits w : Nat) : State := s.seat nbits w

end Sys2Proof.Machine
end

