-- ==== Sys2Proof/Safety.lean ====
section
/-! DEFINITION. What claims speak of: the conditions under which an instruction issues and acts, the
machine as a lane instruction leaves it, the canonical form of every memory, and the reads of a byte. -/

namespace Sys2Proof.Machine

/-- The instruction is one that a program holds: a row with an encoding, no step of the device. -/
def encoded (i : Instr) : Prop := i.head ≠ .event

/-- What an instruction needs to issue and act (R34, R50, R55, R131, R129, R187, R189, R359): it holds no
reserved value and no modifier it does not take, it may stand in the open guard window, its registers
are legal and full, it names no special register or reservation that it may not, no record it names is being loaded, the
mode permits it, and a re-issue has a lane left. -/
structure State.issues (s : State) (i : Instr) : Prop where
  legal : i.wf = true
  modifier : s.xmBad i = false
  window : s.g.sp.guardLeft = 0 ∨ guardable i = true
  operands : ∀ u ∈ uses i, u.ok s.regLimit = true
  predicates : predOk i = true
  named : s.useBad i = false
  mode : s.privileged i = true
  full : ∀ u ∈ uses i, s.useEmpty u = false
  records : ∀ n, recordOf i = some n → s.g.bPend.getLsbD n = false
  lanes : s.noLane = false

/-- The conditions of R105 that active lanes raise, together. -/
def State.raised (s : State) (f : Lane → BitVec 6) : BitVec 6 := (lanesOf s.act).foldl (fun acc l => acc ||| f l) 0

/-- The machine after a lane instruction with a 32-bit result: the active lanes' register D, one shift of
the q file, the flags raised, and the split behind the instruction (R53, R105, R137, R143). -/
def State.laneResult (s : State) (i : Instr) (d : Nat) (f : Lane → Word × BitVec 6) : State :=
  (s.modG fun g => (g.put d s.act fun l => (f l).1).flag (s.raised fun l => (f l).2)).finish i

/-- The same with a 64-bit result: low word to D, high word to the next register, two shifts (R50, R137). -/
def State.laneResult64 (s : State) (i : Instr) (d : Nat) (f : Lane → BitVec 64 × BitVec 6) : State :=
  (s.modG fun g => (g.put64 d s.act fun l => (f l).1).flag (s.raised fun l => (f l).2)).finish i

/-- The machine after a compare: predicate pd in the active lanes, and the flags (R143, R156). -/
def State.compared (s : State) (i : Instr) (pd : Nat) (f : Lane → Bool × BitVec 6) : State :=
  (s.modG fun g => (g.setPred pd s.act fun l => (f l).1).flag (s.raised fun l => (f l).2)).finish i

/-- The machine with the issuing split at an address, its instruction behind it. -/
def State.movedTo (s : State) (a : Addr) : State :=
  { s with g := { s.g with sp := { s.g.sp with pc := a, guardLeft := s.g.sp.guardLeft - 1, wait := .none, xm := none
                                               reissue := none } } }

/-- The machine with the issuing split waiting: its instruction has not issued, and nothing else has changed (R34). -/
def State.waiting (s : State) (w : Wait) : State := { s with g := { s.g with sp := { s.g.sp with wait := w } } }

/-- The register of a source field in a lane. -/
def State.srcOf (s : State) (f : BitVec 8) (l : Lane) : Word := s.g.read (selOf f) l

/-- The lookups of the active lanes all find their places, given with the addresses, and leave the machine as it is. -/
def LooksUp (s : State) (look : Lane → (LaneRes × Nat) × State) (tgt : Lane → Target × Nat) : Prop :=
  s.act ≠ 0 ∧ ∀ l, laneIn s.act l = true → look l = ((.ok (tgt l).1, (tgt l).2), s)

/-- The machine with a lane access issued (R54, R72): one flight of the active lanes behind the others, the destination
empty, the split behind the instruction. -/
def issued (s : State) (acc : Access) (dst : BitVec 7) (words : List Nat) (idx : Lane → Word) (v c : Lane → Nat)
    (tgt : Lane → Target × Nat) : State :=
  (({ s with
      nextId := s.nextId + 1
      flights := s.flights ++ [({
        id := s.nextId, core := s.g.core, slot := s.g.slot, split := s.g.sp.age, anc := s.g.sp.anc, pc := s.issuePc
        mask := s.act, acc := acc, part := s.partOf s.g, trap := s.g.sp.trap, held := [], results := [], performed := false
        done := 0, dst := dst, words := words, idx := (lanesOf s.act).map fun (l : Lane) => (l.val, idx l)
        lanes := (lanesOf s.act).map fun (l : Lane) => { lane := l.val, tgt := (tgt l).1, v := v l, c := c l, va := (tgt l).2 } } : Flight)] }).modG
    fun g => g.setFulls dst.toNat words false).movedTo (s.g.sp.pc + 4)

/-- Every memory has the canonical form: device memory, host memory, the image store and the recovery
image, every scratchpad and every peer's memory. -/
structure State.memOk (s : State) : Prop where
  dev : s.dev.wf = true
  host : s.host.wf = true
  store : s.imageStore.wf = true
  image : s.regs.image.wf = true
  scratch : ∀ c (h : c < 256), s.cores[c].scratch.wf = true
  peers : ∀ p ∈ s.peers, p.mem.wf = true

/-- No byte of any memory differs between two states: device, host, scratchpads and peers. -/
def State.sameMemory (s t : State) : Prop :=
  (∀ a, Memory.read t.dev a = Memory.read s.dev a) ∧ (∀ a, Memory.read t.host a = Memory.read s.host a) ∧
  (∀ c a, Memory.read (t.coreAt c).scratch a = Memory.read (s.coreAt c).scratch a) ∧ t.peers = s.peers

/-- A lane arithmetic instruction changes nothing beside the registers of its group that the rules name:
the machine differs in the issuing group alone, and that in its registers, q file, predicates, flags and
split alone. -/
def State.laneOnly (s t : State) : Prop :=
  t = { s with g := t.g } ∧
  t.g = { s.g with v := t.g.v, s := t.g.s, o := t.g.o, h := t.g.h, q := t.g.q, p := t.g.p
                   arithFlags := t.g.arithFlags, sp := t.g.sp }

end Sys2Proof.Machine
end

