-- ==== Sys2Proof/Certificates/Slice0/Obligations.lean ====
section
/-! DEFINITION. The statements about the machine, each after the rules of the spec it formalises. -/

open Sys2Proof Sys2Proof.Machine

/-! ### Encoding -/

/-- Words that the spec itself writes out decode to the instructions it gives them: R119 and R126 (parcels), R133's table,
R168, R174, R182, R207, R211, R225 and the programs of files 07 to 10, 16, 17, 18 and 22. -/
def Obligations.DecodeWords : Prop :=
  decodeTableWord 16 0x1F9E = some (.movi 3 0x1E) ∧
  decodeTableWord 16 0x085C = some (.addi 1 1) ∧
  decodeTableWord 32 0x1C604101 = some (.iadd 0xE3 2 4) ∧
  decodeTableWord 32 0x0FA0C053 = some (.icmpS 0x7D 6 0 1) ∧
  decodeTableWord 32 0x21FB605D = some (.ldk 0x10FDB 1) ∧
  decodeTableWord 32 0x10082221 = some (.ldW 0 2 1 8) ∧
  decodeTableWord 32 0x140C0123 = some (.stpW 0 3 4) ∧
  decodeTableWord 32 0xA0204427 = some (.redAdd 2 8 2 16) ∧
  decodeTableWord 32 0x1004422B = some (.casvW 1 2 8) ∧
  decodeTableWord 32 0x010080AF = some (.cpy 8 4 2) ∧
  decodeTableWord 32 0x4001E471 = some (.qpop 15 17) ∧
  decodeTableWord 32 0x00200033 = some (.ores 1 0 0) ∧
  decodeTableWord 32 0x202004B5 = some (.mmap 1 0 18) ∧
  decodeTableWord 32 0xFFFF4277 = some (.brc 0x7FFFA 0 1) ∧
  decodeTableWord 32 0x10400139 = some (.rdsr 0x10 4) ∧
  decodeTableWord 32 0x0040003B = some .rtt

/-- Every well-formed instruction that has a code is what the decoder reads from its bytes, whatever follows them. -/
def Obligations.DecodeOfEncode : Prop :=
  ∀ (i : Instr) (c : Code) (rest : List Byte), i.wf = true → encode i = some c →
    decode (c.bytes ++ rest) = .ok (i, rest)

/-- What the decoder reads from bytes is well-formed, and those bytes are its code: no two words mean one
instruction, and no reserved field is passed over (R5, R359). -/
def Obligations.EncodeOfDecode : Prop :=
  ∀ (bs rest : List Byte) (i : Instr), decode bs = .ok (i, rest) →
    i.wf = true ∧ ∃ c, encode i = some c ∧ bs = c.bytes ++ rest

/-! ### A step, and reset -/

/-- A step runs the instruction that the bytes at the split's pc decode to. Where the turn is the issue slot that the core
gives the split at the front (R34, R257), which may issue, stands in trap mode or in a group without one that does, has no
report, no join to complete and no wait to end, and the two or four bytes at its pc (read through the translation, no patch
lying there) decode to i, and the activity budget does not hold it, the step answers what exec answers for i on the machine
the fetch leaves, behind which the slot is accounted for; an XM and the instruction behind it act in that one step (R131).
Where the turn is a device step, the step answers exec of it with
its arguments; where nothing is to be done, time passes.
Where the spec leaves a point open it follows the model's choice (log entries 5 and 6). -/
def Obligations.StepRunsInstruction : Prop :=
  (∀ (s t u : State) (i : Instr),
    s.findErrors.choose = (some (.issue t.g.core t.g.slot t.g.sp.age), t) →
    t.pickCore t.g.core = some (t.g.slot, t.g.sp.age) → t.g.live = true → t.g.stopped = false → t.mayRun t.g = true →
    t.g.sp.mask ≠ 0 → (t.g.trapMode = true → t.g.sp.trap = true) → t.g.sp.wait.open_ = true →
    t.g.arrived t.g.sp.age = t.g → t.mergeAt t.g = t.g →
    (t.g.trapMode = false → t.g.reportFor t.g.sp = none ∧ t.pantryReport t.g = none) →
    t.fetch t.g t.g.sp = (.instr i, u) → u.budgetHolds (u.weightOf i).1 = false →
      let slot := fun (v : State) => u.afterIssue v i (u.weightOf i).1 (u.weightOf i).2
      (i.head ≠ .p16 18 → step s = after slot (exec i u)) ∧
      (∀ (j : Instr) (v w : State), i.head = .p16 18 → exec i u = .next v → v.g.sp.xm ≠ none →
        v.fetch v.g v.g.sp = (.instr j, w) → step s = after slot (exec j w))) ∧
  (∀ (s t u : State) (k : Kernel) (i : Instr) (lo hi : Nat),
    s.codeOf s.g s.g.sp = some k → s.fetchParcel s.g s.g.sp k s.g.sp.pc = (.inr lo, t) → lo < 2 ^ 16 →
      (lo % 2 = 0 → decode (bytesLE 2 lo) = .ok (i, []) → s.fetch s.g s.g.sp = (.instr i, t)) ∧
      (lo % 2 = 1 → t.fetchParcel s.g s.g.sp k (s.g.sp.pc + 2) = (.inr hi, u) → hi < 2 ^ 16 →
        (k.patches.find? fun p => p.parcel = (s.g.sp.pc.toNat - k.entry.toNat) / 2) = none →
        decode (bytesLE 2 lo ++ bytesLE 2 hi) = .ok (i, []) → s.fetch s.g s.g.sp = (.instr i, u))) ∧
  (∀ (s t : State) (i : Instr) (a : EvArgs),
    s.findErrors.choose = (some (.event i a), t) → i.head = .event → step s = exec i { t with ev := a }) ∧
  (∀ s t : State, s.findErrors.choose = (none, t) → step s = .next (t.elapse t.env.gap false))

/-- Reset leaves what the spec states: no group, no launch, no partition, empty rings; every core's activity budget at
384 (R191), CYCLE at 0 (R291), VDSCHED.depth all ones (R251), the root's core set all ones (R39), every other
register record 0 (R4), every die at clock step 16 and every vault's clear stamp 0 (R402, R418). Memory that
nothing has written reads 0, which is the model's choice (log entry 1). -/
def ResetValuesPart : Prop :=
  State.reset.groups = [] ∧ State.reset.launches = [] ∧ State.reset.blocks = [] ∧ State.reset.slots = [] ∧
  (∀ c, c < 256 → (State.reset.coreAt c).actBudget = 384) ∧
  (∀ c, c < 64 → (State.reset.clusterAt c).cycle = 0) ∧
  (∀ v, v < 32 → bget (vget State.reset.regs.vdsched v 0) 32 32 = 2 ^ 32 - 1 ∧ bget (vget State.reset.regs.vdsched v 0) 0 32 = 0) ∧
  (∀ p, p < 16 → State.reset.partRec p = 0) ∧ (∀ v, v < 32 → State.reset.vdbind v = 0) ∧
  bget State.reset.regs.root 1536 256 = 2 ^ 256 - 1 ∧ bget State.reset.regs.root 0 1536 = 0 ∧
  (∀ d, d < 8 → (State.reset.dieAt d).step = 16) ∧ (∀ v, v < 256 → (State.reset.vaultAt v).clearStamp = 0) ∧
  State.reset.regs.evtring = 0 ∧ (∀ q, State.reset.qdesc q = 0) ∧
  (∀ a, Memory.read State.reset.dev a = 0)

/-- After reset every memory has the canonical form. -/
def ResetMemoryPart : Prop := State.reset.memOk

/-- The machine right after reset: its registers, and every memory in canonical form.
Where the spec leaves a point open it follows the model's choice (log entry 2). -/
def Obligations.ResetState : Prop := ResetValuesPart ∧ ResetMemoryPart

/-- Every step keeps the canonical form of every memory: addresses strictly rising, no entry equal to what an
unlisted address reads as. -/
def Obligations.StepKeepsMemory : Prop := ∀ s t : State, s.memOk → step s = .next t → t.memOk

/-! ### What is checked at issue -/

/-- An encoded instruction that holds a reserved value, that takes not the modifier in force, or that may not stand in
the open guard window takes the trap of cause 0x02, code 0, with its bits in h0 (R353, R359). -/
def IllegalEncodingTrapsPart : Prop :=
  ∀ (i : Instr) (s : State), encoded i → s.noLane = false →
    (i.wf = false ∨ s.xmBad i = true ∨ (s.g.sp.guardLeft ≠ 0 ∧ guardable i = false)) →
    exec i s = .next (s.takeTrap
      { cause := 0x02, code := 0, write := false, pc := s.issuePc, mask := s.act, done := 0
        h0 := i.raw, h1 := 0, h2 := 0, h3 := 0 })

/-- One whose encoding is sound but whose registers are not legal (R50, R120, R157), or that names a special register or a
d register that it may not (R182, R229), takes the trap of cause 0x03, and one of major 29 outside the mode that permits it
(R187) the trap of cause 0x04. -/
def IllegalUseTrapsPart : Prop :=
  ∀ (i : Instr) (s : State), encoded i → s.noLane = false → s.encodingBad i = false →
    (((∃ u ∈ uses i, u.ok s.regLimit = false) ∨ predOk i = false ∨ s.useBad i = true) →
      exec i s = .next (s.takeTrap (s.illegal i 0x03))) ∧
    ((∀ u ∈ uses i, u.ok s.regLimit = true) → predOk i = true → s.useBad i = false → s.privileged i = false →
      exec i s = .next (s.takeTrap (s.illegal i 0x04)))

/-- Illegal encodings, illegal uses and instructions outside their mode all trap (R187, R353, R359). -/
def Obligations.IllegalTraps : Prop := IllegalEncodingTrapsPart ∧ IllegalUseTrapsPart

/-- A legal instruction with an empty register (R55): a source whose action is 1 traps with cause 0x05, naming the field
and the register, unless some other register makes it wait; an empty source with action 0, an empty
destination, an empty register read through a 7-bit field, or a record being loaded makes it wait, and
nothing else changes. A full register whose value already shows an illegal use has its lower cause 0x03 instead (R353). -/
def EmptyRegisterPart : Prop :=
  ∀ (i : Instr) (s : State), encoded i → s.noLane = false → s.encodingBad i = false →
    (∀ u ∈ uses i, u.ok s.regLimit = true) → predOk i = true → s.useBad i = false → s.privileged i = true →
    ((∃ u ∈ uses i, u.trap = false ∧ s.useEmpty u = true) → (∀ n, recordOf i = some n → s.g.bPend.getLsbD n = false) →
      exec i s = .next { s with g := { s.g with sp := { s.g.sp with wait := .empty true } } }) ∧
    ((∃ n, recordOf i = some n ∧ s.g.bPend.getLsbD n = true) →
      exec i s = .next { s with g := { s.g with sp := { s.g.sp with wait := .record true } } }) ∧
    (∀ sel field, (∀ u ∈ uses i, u.trap = false → s.useEmpty u = false) →
      (∀ n, recordOf i = some n → s.g.bPend.getLsbD n = false) → s.trapsOn i = some (sel, field) →
      s.g.full sel = false ∧
      (s.valueBad i = true → exec i s = .next (s.takeTrap (s.illegal i 0x03))) ∧
      (s.valueBad i = false → exec i s = .next (s.takeTrap
        { cause := 0x05, code := field, write := false, pc := s.issuePc, mask := s.act, done := 0
          h0 := BitVec.ofNat 32 sel, h1 := 0, h2 := 0, h3 := 0 })))

/-- A re-issue for no lane performs nothing and goes on behind the instruction (R189, R384). -/
def ReissueForNoLanePart : Prop :=
  ∀ (i : Instr) (s : State) (d : Mask), encoded i → (∀ a b c e f g h k, i ≠ .xm a b c e f g h k) →
    s.g.sp.reissue = some d → s.g.sp.mask &&& ~~~d = 0 →
    exec i s = .next { s with g := { s.g with sp :=
      { s.g.sp with pc := s.g.sp.pc + BitVec.ofNat 56 i.size, guardLeft := s.g.sp.guardLeft - 1, wait := .none
                    xm := none, reissue := none } } }

/-- An empty register holds the split or traps (R55, R357), and a re-issue without a lane goes past the instruction (R189, R384).
Where the spec leaves a point open it follows the model's choice (log entries 8 and 14). -/
def Obligations.EmptyRegistersAndReissue : Prop := EmptyRegisterPart ∧ ReissueForNoLanePart

/-! ### Traps -/

/-- Taking a trap on a split outside trap mode, in a launch with a handler (R292, R295): the frame is written,
TRAPCAUSE as cause, code and write bit; the split's state before the trap is kept for the return; it goes to the
handler's entry in trap mode with empty stacks and no guard window. No register of v, s, o, q, p, b or d changes, no
flag, no other split, and no byte of memory, in its canonical form before, but those of an event record when traps are traced (R364): in host memory
inside the host event ring, in device memory the 32 bytes at the head of the partition's fault-domain ring. DONEMASK of the
causes 0x10 and 0x11, behind whose instruction TRAPPC lies, holds no lane that a re-issue skips, which is the model's choice
(log entry 14). -/
def TrapEntryPart : Prop :=
  ∀ (s : State) (f : Frame) (k : Kernel), s.memOk → s.g.sp.trap = false → s.handler = some k →
    let t := s.takeTrap f
    t.g.trapCause = BitVec.ofNat 32 (f.cause % 256 + f.code % 256 * 256 + (if f.write then 65536 else 0)) ∧
    t.g.trapPc = f.pc ∧ t.g.trapMask = f.mask ∧
    t.g.doneMask = f.done ||| (if f.cause = 0x10 ∨ f.cause = 0x11 then 0 else s.g.sp.reissue.getD 0) ∧
    t.g.h = #v[f.h0, f.h1, f.h2, f.h3] ∧
    t.g.pre = some { pc := f.pc, mask := s.g.sp.mask, joins := s.g.sp.joins, calls := s.g.sp.calls
                     guardLeft := s.g.sp.guardLeft, guardPass := s.g.sp.guardPass } ∧
    t.g.sp.pc = k.entry ∧ t.g.sp.trap = true ∧ t.g.sp.joins = [] ∧ t.g.sp.calls = [] ∧ t.g.sp.guardLeft = 0 ∧
    t.g.sp.mask = s.g.sp.mask ∧ t.g.sp.wait = .none ∧ t.g.sp.xm = none ∧
    t.g.v = s.g.v ∧ t.g.s = s.g.s ∧ t.g.o = s.g.o ∧ t.g.q = s.g.q ∧ t.g.p = s.g.p ∧ t.g.b = s.g.b ∧ t.g.d = s.g.d ∧
    t.g.arithFlags = s.g.arithFlags ∧ t.g.rest = s.g.rest ∧ t.g.counters = s.g.counters ∧ t.g.snaps = s.g.snaps ∧
    t.timer = s.timer ∧ t.others = s.others ∧ (bbit s.regs.evtring 70 = false → s.sameMemory t) ∧
    t.peers = s.peers ∧ (∀ c a, Memory.read (t.coreAt c).scratch a = Memory.read (s.coreAt c).scratch a) ∧
    (∀ a, Memory.read t.host a ≠ Memory.read s.host a → s.hostRingOpen = true ∧
      bget s.regs.evtring 0 64 ≤ a ∧ a < bget s.regs.evtring 0 64 + 32 * 2 ^ bget s.regs.evtring 64 5) ∧
    (∀ a, Memory.read t.dev a ≠ Memory.read s.dev a →
      let r := s.partRec (s.partOf s.g)
      bbit r 781 = true ∧ ∃ pa,
        s.deviceLeaf (s.partOf s.g) (bget r 720 56 + 32 * (bget r 800 32 % 2 ^ bget r 776 5)) true = .inr pa ∧
        pa ≤ a ∧ a < pa + 32)

/-- A trap in trap mode, or in a launch without a handler, ends the block instead (R358, R361): the block keeps the cause
and the code of the first such end, and every resident group of the block stops. -/
def TrapEndsBlockPart : Prop :=
  ∀ (s : State) (f : Frame) (b : Block), (s.g.sp.trap = true ∨ s.handler = none) → s.block s.g.block = some b →
    b.ending = none → s.g.live = true →
    let t := s.takeTrap f
    t.g.stopped = true ∧ (∀ g ∈ t.others, g.block = s.g.block → g.stopped = true) ∧
    t.block s.g.block = some { b with ending := some (f.cause, f.code, s.g.sp.trap, s.issuePc.toNat) }

/-- Taking a trap (R292 to R295, R358, R361): with a handler, trap mode begins; without one, or in trap mode, the block ends. -/
def Obligations.TrapEntry : Prop := TrapEntryPart ∧ TrapEndsBlockPart

/-- RTT in trap mode (R189, R296): the mask, the stacks and the guard window are those kept at trap entry, and the
instruction at TRAPPC is issued again for the lanes outside DONEMASK; when DONEMASK covers the mask and the
handler has moved TRAPPC, the split goes on there with its whole mask. In the service slot RTT frees the slot.
Where the spec leaves a point open it follows the model's choice (log entry 14). -/
def Obligations.RttReturns : Prop :=
  (∀ (s : State) (k : PreTrap), s.issues .rtt → s.g.sp.trap = true → s.g.pre = some k →
    ∃ t, exec .rtt s = .next t ∧ t.g.sp.trap = false ∧ t.g.sp.pc = s.g.trapPc ∧
      t.g.sp.mask = k.mask &&& ~~~s.g.exited ∧ t.g.sp.joins = k.joins ∧ t.g.sp.calls = k.calls ∧
      t.g.sp.guardLeft = k.guardLeft ∧ t.g.sp.guardPass = k.guardPass ∧
      t.g.sp.reissue = (if s.g.doneMask &&& k.mask = k.mask ∧ s.g.trapPc ≠ k.pc then none
                        else some (s.g.doneMask &&& k.mask)) ∧
      t.g.v = s.g.v ∧ t.g.s = s.g.s ∧ t.g.o = s.g.o ∧ t.g.h = s.g.h ∧ t.g.p = s.g.p ∧ t.g.arithFlags = s.g.arithFlags ∧
      s.sameMemory t) ∧
  (∀ s : State, s.issues .rtt → s.g.service = true → s.g.sp.trap = false → s.g.core < 256 →
    ∃ t, exec .rtt s = .next t ∧ t.g.live = false ∧ (t.coreAt s.g.core).serviceBusy = false ∧ s.sameMemory t)

/-! ### Registers -/

/-- What a register reads after a lane operation's write (R49, R51, R53, R137): v and o registers take the active lanes'
results; an s register, and h0 to h3 in trap mode, the lowest active lane's, and keep their value when
none is active; nul reads 0 and LANE the lane whatever is written to them; the q file shifts once in the active
lanes; and every other register is unchanged. -/
def RegisterWritePart : Prop :=
  ∀ (g : Group) (d sel : Nat) (m : Mask) (f : Lane → Word) (l : Lane), sel < 126 →
    (g.put d m f).read sel l =
      if sel = 124 then 0
      else if sel = 125 then BitVec.ofNat 32 l.val
      else if 120 ≤ sel then
        (if laneIn m l then (if sel = 120 then f l else g.read (sel - 1) l) else g.read sel l)
      else if sel ≠ d then g.read sel l
      else if 96 ≤ sel ∧ sel < 112 then
        (match lowest m with
          | none => g.read sel l
          | some k => f k)
      else if laneIn m l then f l else g.read sel l

/-- What a predicate reads after a write (R52): p7 is always true, and a write reaches the active lanes alone. -/
def PredicateWritePart : Prop :=
  ∀ (g : Group) (n k : Nat) (m : Mask) (f : Lane → Bool) (l : Lane), n < 8 → k < 8 →
    (g.setPred n m f).pred k l = if k = 7 then true else if k = n ∧ laneIn m l = true then f l else g.pred k l

/-- The frame of the lane instructions of majors 0 to 15 and 30 minor 0, and of parcels 0 to 15: whenever one issues, it
answers a next state that differs in the issuing group alone, and there in the v, s, o, h and q files, the predicates, the
flags and the split alone; and no byte of any memory changes. -/
def Obligations.LaneFrame : Prop :=
  ∀ (i : Instr) (s : State), s.issues i →
    (match i.head with
      | .w32 major minor => major ≤ 15 ∨ (major = 30 ∧ minor = 0)
      | .p16 op => op ≤ 16
      | .event => False) →
    ∃ t, exec i s = .next t ∧ s.laneOnly t ∧ s.sameMemory t

/-! ### Arithmetic of the lanes -/

/-- The 32-bit result and flag of an exact integer (R97, R131, R145): modulo 2^32; with sat, the nearest end of the
signed range where the integer lies outside it, with the integer-overflow flag. -/
def exactResult (s : State) (x : Int) : Word × BitVec 6 :=
  if s.xmSat then
    if x < -2147483648 then (0x80000000, 0b100000)
    else if 2147483647 < x then (0x7FFFFFFF, 0b100000)
    else (BitVec.ofInt 32 x, 0)
  else (BitVec.ofInt 32 x, 0)

/-- IADD, ISUB, IMUL, IMULH.S, IMULH.U, IMAD, IABS, IADDI, IMULI and the parcels ADD, SUB, IMUL, ADDI, MOVI (R126, R145, R147,
R151): each active lane's D is the exact integer of the table, wrapped or saturated; the flag rises where
a saturation replaced a result; the instruction completes. -/
def IntegerResultsPart : Prop :=
  ∀ (b a k : BitVec 8) (d : BitVec 7) (x y : BitVec 5) (s : State),
    (s.issues (.iadd b a d) → exec (.iadd b a d) s = .next (s.laneResult (.iadd b a d) d.toNat fun l =>
      exactResult s ((s.srcOf a l).toInt + (s.srcOf b l).toInt))) ∧
    (s.issues (.isub b a d) → exec (.isub b a d) s = .next (s.laneResult (.isub b a d) d.toNat fun l =>
      exactResult s ((s.srcOf a l).toInt - (s.srcOf b l).toInt))) ∧
    (s.issues (.imul b a d) → exec (.imul b a d) s = .next (s.laneResult (.imul b a d) d.toNat fun l =>
      exactResult s ((s.srcOf a l).toInt * (s.srcOf b l).toInt))) ∧
    (s.issues (.imulhS b a d) → exec (.imulhS b a d) s = .next (s.laneResult (.imulhS b a d) d.toNat fun l =>
      (BitVec.ofInt 32 ((s.srcOf a l).toInt * (s.srcOf b l).toInt / 4294967296), 0))) ∧
    (s.issues (.imulhU b a d) → exec (.imulhU b a d) s = .next (s.laneResult (.imulhU b a d) d.toNat fun l =>
      (BitVec.ofNat 32 ((s.srcOf a l).toNat * (s.srcOf b l).toNat / 4294967296), 0))) ∧
    (s.issues (.imad b a d) → exec (.imad b a d) s = .next (s.laneResult (.imad b a d) d.toNat fun l =>
      exactResult s ((s.srcOf a l).toInt * (s.srcOf b l).toInt + (s.g.read d.toNat l).toInt))) ∧
    (s.issues (.iabs a d) → exec (.iabs a d) s = .next (s.laneResult (.iabs a d) d.toNat fun l =>
      exactResult s (if (s.srcOf a l).toInt < 0 then -(s.srcOf a l).toInt else (s.srcOf a l).toInt))) ∧
    (s.issues (.iaddi k a d) → exec (.iaddi k a d) s = .next (s.laneResult (.iaddi k a d) d.toNat fun l =>
      exactResult s ((s.srcOf a l).toInt + k.toInt))) ∧
    (s.issues (.imuli k a d) → exec (.imuli k a d) s = .next (s.laneResult (.imuli k a d) d.toNat fun l =>
      exactResult s ((s.srcOf a l).toInt * k.toInt))) ∧
    (s.issues (.add x y) → exec (.add x y) s = .next (s.laneResult (.add x y) (parcelSel y) fun l =>
      (s.g.read (parcelSel y) l + s.g.read (parcelSel x) l, 0))) ∧
    (s.issues (.sub x y) → exec (.sub x y) s = .next (s.laneResult (.sub x y) (parcelSel y) fun l =>
      (s.g.read (parcelSel y) l - s.g.read (parcelSel x) l, 0))) ∧
    (s.issues (.imulParcel x y) → exec (.imulParcel x y) s = .next (s.laneResult (.imulParcel x y) (parcelSel y) fun l =>
      (s.g.read (parcelSel y) l * s.g.read (parcelSel x) l, 0))) ∧
    (s.issues (.addi x y) → exec (.addi x y) s = .next (s.laneResult (.addi x y) (parcelSel y) fun l =>
      (s.g.read (parcelSel y) l + x.signExtend 32, 0))) ∧
    (s.issues (.movi x y) → exec (.movi x y) s = .next (s.laneResult (.movi x y) (parcelSel y) fun _ =>
      (x.signExtend 32, 0)))

/-- IADDC and ISUBB (R145): the low word of ua ± ub ± p6, and p6 the carry or borrow of each active lane, also where D is
nul; no flag. -/
def CarryResultsPart : Prop :=
  ∀ (b a : BitVec 8) (d : BitVec 7) (s : State),
    let c := fun l => if s.g.pred 6 l then 1 else 0
    let sum := fun l => (s.srcOf a l).toNat + (s.srcOf b l).toNat + c l
    let sub := fun l => (s.srcOf b l).toNat + c l
    (s.issues (.iaddc b a d) → exec (.iaddc b a d) s =
      .next ((s.modG fun g => (g.put d.toNat s.act fun l => BitVec.ofNat 32 (sum l)).setPred 6 s.act fun l =>
        decide (4294967296 ≤ sum l)).finish (.iaddc b a d))) ∧
    (s.issues (.isubb b a d) → exec (.isubb b a d) s =
      .next ((s.modG fun g => (g.put d.toNat s.act fun l => s.srcOf a l - BitVec.ofNat 32 (sub l)).setPred 6 s.act fun l =>
        decide ((s.srcOf a l).toNat < sub l)).finish (.isubb b a d)))

/-- The integer additions, subtractions and multiplications, with and without carry (R126, R145, R147, R151). -/
def Obligations.IntegerResults : Prop := IntegerResultsPart ∧ CarryResultsPart

/-- The logic and shifts of major 1, their immediate forms and parcels (R122, R126, R146, R151): the count is the whole
unsigned source, or the unsigned immediate; a count of 32 or more shifts everything out, SAR by at most 31, and
ROTL goes round; immediates of logic are sign-extended; no flag. MOV copies. -/
def LogicAndShiftsPart : Prop :=
  ∀ (b a k : BitVec 8) (d : BitVec 7) (x y : BitVec 5) (s : State),
    let A := fun l => s.srcOf a l
    let B := fun l => s.srcOf b l
    let r := fun (i : Instr) (f : Lane → Word) => Host.Outcome.next (s.laneResult i d.toNat fun l => (f l, 0))
    let q := fun (i : Instr) (f : Lane → Word) => Host.Outcome.next (s.laneResult i (parcelSel y) fun l => (f l, 0))
    let X := fun l => s.g.read (parcelSel x) l
    let Y := fun l => s.g.read (parcelSel y) l
    let left := fun (v : Word) (n : Nat) => BitVec.ofNat 32 (v.toNat * 2 ^ n)
    let right := fun (v : Word) (n : Nat) => BitVec.ofNat 32 (v.toNat / 2 ^ n)
    let arith := fun (v : Word) (n : Nat) => BitVec.ofInt 32 (v.toInt / 2 ^ min n 31)
    (s.issues (.and b a d) → exec (.and b a d) s = r (.and b a d) fun l => A l &&& B l) ∧
    (s.issues (.or b a d) → exec (.or b a d) s = r (.or b a d) fun l => A l ||| B l) ∧
    (s.issues (.xor b a d) → exec (.xor b a d) s = r (.xor b a d) fun l => A l ^^^ B l) ∧
    (s.issues (.andn b a d) → exec (.andn b a d) s = r (.andn b a d) fun l => A l &&& ~~~(B l)) ∧
    (s.issues (.shl b a d) → exec (.shl b a d) s = r (.shl b a d) fun l => left (A l) (B l).toNat) ∧
    (s.issues (.shr b a d) → exec (.shr b a d) s = r (.shr b a d) fun l => right (A l) (B l).toNat) ∧
    (s.issues (.sar b a d) → exec (.sar b a d) s = r (.sar b a d) fun l => arith (A l) (B l).toNat) ∧
    (s.issues (.rotl b a d) → exec (.rotl b a d) s = r (.rotl b a d) fun l => (A l).rotateLeft (B l).toNat) ∧
    (s.issues (.andi k a d) → exec (.andi k a d) s = r (.andi k a d) fun l => A l &&& k.signExtend 32) ∧
    (s.issues (.ori k a d) → exec (.ori k a d) s = r (.ori k a d) fun l => A l ||| k.signExtend 32) ∧
    (s.issues (.xori k a d) → exec (.xori k a d) s = r (.xori k a d) fun l => A l ^^^ k.signExtend 32) ∧
    (s.issues (.shli k a d) → exec (.shli k a d) s = r (.shli k a d) fun l => left (A l) k.toNat) ∧
    (s.issues (.shri k a d) → exec (.shri k a d) s = r (.shri k a d) fun l => right (A l) k.toNat) ∧
    (s.issues (.sari k a d) → exec (.sari k a d) s = r (.sari k a d) fun l => arith (A l) k.toNat) ∧
    (s.issues (.andParcel x y) → exec (.andParcel x y) s = q (.andParcel x y) fun l => Y l &&& X l) ∧
    (s.issues (.orParcel x y) → exec (.orParcel x y) s = q (.orParcel x y) fun l => Y l ||| X l) ∧
    (s.issues (.xorParcel x y) → exec (.xorParcel x y) s = q (.xorParcel x y) fun l => Y l ^^^ X l) ∧
    (s.issues (.shlParcel x y) → exec (.shlParcel x y) s = q (.shlParcel x y) fun l => left (Y l) (X l).toNat) ∧
    (s.issues (.shrParcel x y) → exec (.shrParcel x y) s = q (.shrParcel x y) fun l => right (Y l) (X l).toNat) ∧
    (s.issues (.mov x y) → exec (.mov x y) s = q (.mov x y) X)

/-- Minimum, maximum and bit counts of major 2 (R147): the lesser and the greater, signed and unsigned; POPC the number of 1
bits; CLZ the n for which the value lies below 2^(32 − n) and not below 2^(31 − n); BREV bit i to bit 31 − i. -/
def Obligations.CountsAndExtremes : Prop :=
  ∀ (b a : BitVec 8) (d : BitVec 7) (s : State),
    let A := fun l => s.srcOf a l
    let B := fun l => s.srcOf b l
    let r := fun (i : Instr) (f : Lane → Word) => Host.Outcome.next (s.laneResult i d.toNat fun l => (f l, 0))
    (s.issues (.iminS b a d) → exec (.iminS b a d) s = r (.iminS b a d) fun l => if (A l).slt (B l) then A l else B l) ∧
    (s.issues (.imaxS b a d) → exec (.imaxS b a d) s = r (.imaxS b a d) fun l => if (A l).slt (B l) then B l else A l) ∧
    (s.issues (.iminU b a d) → exec (.iminU b a d) s = r (.iminU b a d) fun l => if (A l).ult (B l) then A l else B l) ∧
    (s.issues (.imaxU b a d) → exec (.imaxU b a d) s = r (.imaxU b a d) fun l => if (A l).ult (B l) then B l else A l) ∧
    (s.issues (.popc a d) → ∃ f : Word → Nat, (∀ w, f w = ((List.range 32).countP fun i => w.getLsbD i)) ∧
      exec (.popc a d) s = r (.popc a d) fun l => BitVec.ofNat 32 (f (A l))) ∧
    (s.issues (.clz a d) → ∃ f : Word → Nat, f 0 = 32 ∧ (∀ w, w ≠ 0 → w.toNat < 2 ^ (32 - f w) ∧ 2 ^ (31 - f w) ≤ w.toNat ∧ f w < 32) ∧
      exec (.clz a d) s = r (.clz a d) fun l => BitVec.ofNat 32 (f (A l))) ∧
    (s.issues (.brev a d) → ∃ f : Word → Word, (∀ w i, i < 32 → (f w).getLsbD i = w.getLsbD (31 - i)) ∧
      exec (.brev a d) s = r (.brev a d) fun l => f (A l))

/-- BFX.U, BFX.S and BFI (R148), BSHUF (R149): a field of L = min(len, 32 − pos) bits at pos, empty where pos is 32 or
more or len is 0; BSHUF builds each byte from the byte its control byte names. -/
def BitFieldsPart : Prop :=
  ∀ (b a : BitVec 8) (d : BitVec 7) (s : State),
    let A := fun l => s.srcOf a l
    let B := fun l => s.srcOf b l
    let D := fun l => s.g.read d.toNat l
    let pos := fun l => (B l).toNat % 256
    let len := fun l => (B l).toNat / 256 % 256
    let L := fun l => min (len l) (32 - pos l)
    let none_ := fun l => 32 ≤ pos l ∨ len l = 0
    let r := fun (i : Instr) (f : Lane → Word) => Host.Outcome.next (s.laneResult i d.toNat fun l => (f l, 0))
    (s.issues (.bfxU b a d) → ∃ f : Lane → Word, exec (.bfxU b a d) s = r (.bfxU b a d) f ∧
      ∀ l, (none_ l → f l = 0) ∧ (¬ none_ l → ∀ i, i < 32 →
        (f l).getLsbD i = (decide (i < L l) && (A l).getLsbD (pos l + i)))) ∧
    (s.issues (.bfxS b a d) → ∃ f : Lane → Word, exec (.bfxS b a d) s = r (.bfxS b a d) f ∧
      ∀ l, (none_ l → f l = 0) ∧ (¬ none_ l → ∀ i, i < 32 →
        (f l).getLsbD i = (A l).getLsbD (pos l + min i (L l - 1)))) ∧
    (s.issues (.bfi b a d) → ∃ f : Lane → Word, exec (.bfi b a d) s = r (.bfi b a d) f ∧
      ∀ l, (none_ l → f l = D l) ∧ (¬ none_ l → ∀ i, i < 32 →
        (f l).getLsbD i = if pos l ≤ i ∧ i < pos l + L l then (A l).getLsbD (i - pos l) else (D l).getLsbD i)) ∧
    (s.issues (.bshuf b a d) → ∃ f : Lane → Word, exec (.bshuf b a d) s = r (.bshuf b a d) f ∧
      ∀ l k i, k < 4 → i < 8 →
        let c := (B l).toNat / 2 ^ (8 * k) % 256
        let src := if c / 4 % 2 = 0 then A l else D l
        let x := fun j => src.getLsbD (8 * (c % 4) + j)
        let op := c / 8 % 4
        let y := fun j => if op = 0 then x j else if op = 1 then false else if op = 2 then true else x 7
        (f l).getLsbD (8 * k + i) = y (if c / 32 % 2 = 1 then 7 - i else i))

/-- Bitwise results, shifts and bit fields (R122, R126, R146, R148, R149, R151). -/
def Obligations.LogicShiftsBitFields : Prop := LogicAndShiftsPart ∧ BitFieldsPart

/-- SHLD and SHRD (R150): with n = min(ub, 32), bits [63:32] of (d × 2^32 + ua) × 2^n mod 2^64, and bits [31:0] of
floor((ua × 2^32 + ud) / 2^n); n = 0 gives d and n = 32 gives a. Minors 6 and 7 of the major are reserved. -/
def Obligations.FunnelShifts : Prop :=
  (∀ (b a : BitVec 8) (d : BitVec 7) (s : State),
    let ua := fun l => (s.srcOf a l).toNat
    let ud := fun l => (s.g.read d.toNat l).toNat
    let n := fun l => min (s.srcOf b l).toNat 32
    (s.issues (.shld b a d) → exec (.shld b a d) s = .next (s.laneResult (.shld b a d) d.toNat fun l =>
      (BitVec.ofNat 32 ((ud l * 2 ^ 32 + ua l) * 2 ^ n l % 2 ^ 64 / 2 ^ 32), 0))) ∧
    (s.issues (.shrd b a d) → exec (.shrd b a d) s = .next (s.laneResult (.shrd b a d) d.toNat fun l =>
      (BitVec.ofNat 32 ((ua l * 2 ^ 32 + ud l) / 2 ^ n l % 2 ^ 32), 0)))) ∧
  (∀ x y : Word, BitVec.ofNat 32 ((y.toNat * 2 ^ 32 + x.toNat) * 2 ^ 0 % 2 ^ 64 / 2 ^ 32) = y ∧
    BitVec.ofNat 32 ((y.toNat * 2 ^ 32 + x.toNat) * 2 ^ 32 % 2 ^ 64 / 2 ^ 32) = x ∧
    BitVec.ofNat 32 ((x.toNat * 2 ^ 32 + y.toNat) / 2 ^ 0 % 2 ^ 32) = y ∧
    BitVec.ofNat 32 ((x.toNat * 2 ^ 32 + y.toNat) / 2 ^ 32 % 2 ^ 32) = x) ∧
  (∀ w, w % 64 = 7 → (w / 2 ^ 29 % 8 = 6 ∨ w / 2 ^ 29 % 8 = 7) → ∃ e, decode32 w = .error e)

/-- Majors 5 and 8 and the floating parcels (R126, R131, R152, R154): A and B as XM leaves them, D unmodified, one rounding
under the effective mode, the result's sign inverted where negr asks for it. -/
def SingleResultsPart : Prop :=
  ∀ (b a : BitVec 8) (d : BitVec 7) (s : State),
    let A := fun l => s.xmA fp32 (s.srcOf a l).toNat
    let B := fun l => s.xmB fp32 (s.srcOf b l).toNat
    let D := fun l => (s.g.read d.toNat l).toNat
    let neg := fun x => (x + 2 ^ 31) % 2 ^ 32
    let r := fun (i : Instr) (f : Lane → Rounded) => Host.Outcome.next (s.laneResult i d.toNat fun l =>
      (BitVec.ofNat 32 (s.xmR fp32 (f l)).1, (s.xmR fp32 (f l)).2))
    (s.issues (.fadd b a d) → exec (.fadd b a d) s = r (.fadd b a d) fun l => addF fp32 s.mode (A l) (B l)) ∧
    (s.issues (.fsub b a d) → exec (.fsub b a d) s = r (.fsub b a d) fun l => addF fp32 s.mode (A l) (neg (B l))) ∧
    (s.issues (.fmul b a d) → exec (.fmul b a d) s = r (.fmul b a d) fun l => mulF fp32 s.mode (A l) (B l)) ∧
    (s.issues (.ffma b a d) → exec (.ffma b a d) s = r (.ffma b a d) fun l => fmaF fp32 s.mode false false (A l) (B l) (D l)) ∧
    (s.issues (.ffms b a d) → exec (.ffms b a d) s = r (.ffms b a d) fun l => fmaF fp32 s.mode false true (A l) (B l) (D l)) ∧
    (s.issues (.fnma b a d) → exec (.fnma b a d) s = r (.fnma b a d) fun l => fmaF fp32 s.mode true false (A l) (B l) (D l)) ∧
    (s.issues (.fmin b a d) → exec (.fmin b a d) s = r (.fmin b a d) fun l => minmaxF fp32 false (A l) (B l)) ∧
    (s.issues (.fmax b a d) → exec (.fmax b a d) s = r (.fmax b a d) fun l => minmaxF fp32 true (A l) (B l)) ∧
    (s.issues (.frcp a d) → exec (.frcp a d) s = r (.frcp a d) fun l => sfu 0 s.mode (A l)) ∧
    (s.issues (.frsq a d) → exec (.frsq a d) s = r (.frsq a d) fun l => sfu 1 s.mode (A l)) ∧
    (s.issues (.fsqrt a d) → exec (.fsqrt a d) s = r (.fsqrt a d) fun l => sfu 2 s.mode (A l)) ∧
    (s.issues (.fex2 a d) → exec (.fex2 a d) s = r (.fex2 a d) fun l => sfu 3 s.mode (A l)) ∧
    (s.issues (.flg2 a d) → exec (.flg2 a d) s = r (.flg2 a d) fun l => sfu 4 s.mode (A l)) ∧
    (s.issues (.fsinr a d) → exec (.fsinr a d) s = r (.fsinr a d) fun l => sfu 5 s.mode (A l)) ∧
    (s.issues (.fcosr a d) → exec (.fcosr a d) s = r (.fcosr a d) fun l => sfu 6 s.mode (A l))

/-- The floating parcels (R126): D = A, no modifier, rounding to nearest even. -/
def FloatParcelsPart : Prop :=
  ∀ (x y : BitVec 5) (s : State),
    let X := fun l => (s.g.read (parcelSel x) l).toNat
    let Y := fun l => (s.g.read (parcelSel y) l).toNat
    let r := fun (i : Instr) (f : Lane → Rounded) =>
      Host.Outcome.next (s.laneResult i (parcelSel y) fun l => (BitVec.ofNat 32 (f l).1, (f l).2))
    (s.issues (.faddParcel x y) → exec (.faddParcel x y) s = r (.faddParcel x y) fun l => addF fp32 .rne (Y l) (X l)) ∧
    (s.issues (.fsubParcel x y) → exec (.fsubParcel x y) s =
      r (.fsubParcel x y) fun l => addF fp32 .rne (Y l) ((X l + 2 ^ 31) % 2 ^ 32)) ∧
    (s.issues (.fmulParcel x y) → exec (.fmulParcel x y) s = r (.fmulParcel x y) fun l => mulF fp32 .rne (Y l) (X l)) ∧
    (s.issues (.fminParcel x y) → exec (.fminParcel x y) s = r (.fminParcel x y) fun l => minmaxF fp32 false (Y l) (X l)) ∧
    (s.issues (.fmaxParcel x y) → exec (.fmaxParcel x y) s = r (.fmaxParcel x y) fun l => minmaxF fp32 true (Y l) (X l))

/-- Binary32 arithmetic in both lengths (R126, R131, R152, R154).
Where the spec leaves a point open it follows the model's choice (log entry 17). -/
def Obligations.SingleResults : Prop := SingleResultsPart ∧ FloatParcelsPart

/-- Major 6 and DSQRT (R152, R154): FP64 in pairs, the low word in the named register. -/
def DoubleResultsPart : Prop :=
  ∀ (b a : BitVec 8) (d : BitVec 7) (s : State),
    let A := fun l => s.xmA fp64 (s.g.read64 (selOf a) l).toNat
    let B := fun l => s.xmB fp64 (s.g.read64 (selOf b) l).toNat
    let D := fun l => (s.g.read64 d.toNat l).toNat
    let neg := fun x => (x + 2 ^ 63) % 2 ^ 64
    let r := fun (i : Instr) (f : Lane → Rounded) => Host.Outcome.next (s.laneResult64 i d.toNat fun l =>
      (BitVec.ofNat 64 (s.xmR fp64 (f l)).1, (s.xmR fp64 (f l)).2))
    (s.issues (.dadd b a d) → exec (.dadd b a d) s = r (.dadd b a d) fun l => addF fp64 s.mode (A l) (B l)) ∧
    (s.issues (.dsub b a d) → exec (.dsub b a d) s = r (.dsub b a d) fun l => addF fp64 s.mode (A l) (neg (B l))) ∧
    (s.issues (.dmul b a d) → exec (.dmul b a d) s = r (.dmul b a d) fun l => mulF fp64 s.mode (A l) (B l)) ∧
    (s.issues (.dfma b a d) → exec (.dfma b a d) s = r (.dfma b a d) fun l => fmaF fp64 s.mode false false (A l) (B l) (D l)) ∧
    (s.issues (.dfms b a d) → exec (.dfms b a d) s = r (.dfms b a d) fun l => fmaF fp64 s.mode false true (A l) (B l) (D l)) ∧
    (s.issues (.dnma b a d) → exec (.dnma b a d) s = r (.dnma b a d) fun l => fmaF fp64 s.mode true false (A l) (B l) (D l)) ∧
    (s.issues (.dmin b a d) → exec (.dmin b a d) s = r (.dmin b a d) fun l => minmaxF fp64 false (A l) (B l)) ∧
    (s.issues (.dmax b a d) → exec (.dmax b a d) s = r (.dmax b a d) fun l => minmaxF fp64 true (A l) (B l)) ∧
    (s.issues (.dsqrt a d) → exec (.dsqrt a d) s = r (.dsqrt a d) fun l => sfu 7 s.mode (A l))

/-- Major 7 (R153): each 16-bit half on its own, the flags of both together. -/
def PackedResultsPart : Prop :=
  ∀ (b a : BitVec 8) (d : BitVec 7) (s : State),
    let half := fun (w : Word) (k : Nat) => w.toNat / 2 ^ (16 * k) % 2 ^ 16
    let A := fun F l k => s.xmA F (half (s.srcOf a l) k)
    let B := fun F l k => s.xmB F (half (s.srcOf b l) k)
    let D := fun l k => half (s.g.read d.toNat l) k
    let r := fun (i : Instr) (F : Format) (f : Lane → Nat → Rounded) => Host.Outcome.next (s.laneResult i d.toNat fun l =>
      (BitVec.ofNat 32 ((s.xmR F (f l 0)).1 + (s.xmR F (f l 1)).1 * 2 ^ 16), (s.xmR F (f l 0)).2 ||| (s.xmR F (f l 1)).2))
    (s.issues (.hadd2F16 b a d) → exec (.hadd2F16 b a d) s =
      r (.hadd2F16 b a d) fp16 fun l k => addF fp16 s.mode (A fp16 l k) (B fp16 l k)) ∧
    (s.issues (.hmul2F16 b a d) → exec (.hmul2F16 b a d) s =
      r (.hmul2F16 b a d) fp16 fun l k => mulF fp16 s.mode (A fp16 l k) (B fp16 l k)) ∧
    (s.issues (.hfma2F16 b a d) → exec (.hfma2F16 b a d) s =
      r (.hfma2F16 b a d) fp16 fun l k => fmaF fp16 s.mode false false (A fp16 l k) (B fp16 l k) (D l k)) ∧
    (s.issues (.hmin2F16 b a d) → exec (.hmin2F16 b a d) s =
      r (.hmin2F16 b a d) fp16 fun l k => minmaxF fp16 false (A fp16 l k) (B fp16 l k)) ∧
    (s.issues (.hadd2Bf16 b a d) → exec (.hadd2Bf16 b a d) s =
      r (.hadd2Bf16 b a d) bf16 fun l k => addF bf16 s.mode (A bf16 l k) (B bf16 l k)) ∧
    (s.issues (.hmul2Bf16 b a d) → exec (.hmul2Bf16 b a d) s =
      r (.hmul2Bf16 b a d) bf16 fun l k => mulF bf16 s.mode (A bf16 l k) (B bf16 l k)) ∧
    (s.issues (.hfma2Bf16 b a d) → exec (.hfma2Bf16 b a d) s =
      r (.hfma2Bf16 b a d) bf16 fun l k => fmaF bf16 s.mode false false (A bf16 l k) (B bf16 l k) (D l k)) ∧
    (s.issues (.hmin2Bf16 b a d) → exec (.hmin2Bf16 b a d) s =
      r (.hmin2Bf16 b a d) bf16 fun l k => minmaxF bf16 false (A bf16 l k) (B bf16 l k))

/-- Binary64 and packed arithmetic (R131, R152 to R154). -/
def Obligations.DoubleAndPackedResults : Prop := DoubleResultsPart ∧ PackedResultsPart

/-- FMIN and FMAX and their other formats (R104): one NaN operand gives the other operand, two give the canonical
NaN, and otherwise the result is one of the operands, no greater (no less) than either as values, with −0 below +0; a signalling NaN operand
raises invalid, and no other flag rises. -/
def MinMaxRulePart : Prop :=
  ∀ (F : Format) (greater : Bool) (a b : Nat), F ∈ [fp64, fp32, fp16, bf16] →
    a < 2 ^ (1 + F.e + F.m) → b < 2 ^ (1 + F.e + F.m) →
    let x := decodeF F a
    let y := decodeF F b
    let r := minmaxF F greater a b
    (x.isNan = true → y.isNan = true → r.1 = nanOf F) ∧
    (x.isNan = true → y.isNan = false → r.1 = b) ∧ (x.isNan = false → y.isNan = true → r.1 = a) ∧
    (x.isNan = false → y.isNan = false → (r.1 = a ∨ r.1 = b) ∧
      (x.cmp y = some .lt → r.1 = if greater then b else a) ∧ (x.cmp y = some .gt → r.1 = if greater then a else b) ∧
      (x.cmp y = some .eq → r.1 = if greater then a &&& b else a ||| b)) ∧
    r.2 = x.sig ||| y.sig

/-- The rational number that a finite value is. -/
def exactOf (n : Bool) (m : Nat) (e : Int) : ℚ := (if n then -1 else 1) * (m : ℚ) * (2 : ℚ) ^ e

/-- Rounding (R99 to R102): where round gives a finite x for a nonzero v, no representable w is nearer in RNE, and of two as
near x has an even last fraction bit; RUP gives the least that is no less, RDN the greatest that is no greater, RTZ the
one of these two nearer zero. A sum, a product and a fused form are rounded once, from the exact value; one that the
format holds exactly is that value, with no flag. -/
def RoundingRulePart : Prop :=
  ∀ F : Format, F ∈ [fp64, fp32, fp16, bf16] → ∀ mode : Mode,
    (∀ (n : Bool) (m : Nat) (e : Int) (a : Nat) (n' nw : Bool) (m' mw : Nat) (e' ew : Int), m ≠ 0 →
      a < 2 ^ (1 + F.e + F.m) → decodeF F a = .fin nw mw ew →
      let r := (roundF F mode false (.fin n m e)).1
      decodeF F r = .fin n' m' e' →
      let v := exactOf n m e
      let x := exactOf n' m' e'
      let w := exactOf nw mw ew
      (mode = .rne → |x - v| ≤ |w - v| ∧ (|x - v| = |w - v| → x ≠ w → r % 2 = 0)) ∧
      (mode = .rup → v ≤ x ∧ (v ≤ w → x ≤ w)) ∧ (mode = .rdn → x ≤ v ∧ (w ≤ v → w ≤ x)) ∧
      (mode = .rtz → (0 < v → 0 ≤ x ∧ x ≤ v ∧ (w ≤ v → w ≤ x)) ∧ (v < 0 → x ≤ 0 ∧ v ≤ x ∧ (v ≤ w → x ≤ w))) ∧
      (v = w → x = v ∧ (roundF F mode false (.fin n m e)).2 = 0)) ∧
    (∀ (a b d : Nat) (na nb nd : Bool) (ma mb md : Nat) (ea eb ed : Int) (p q : Bool),
      decodeF F a = .fin na ma ea → decodeF F b = .fin nb mb eb → decodeF F d = .fin nd md ed →
      let A := exactOf na ma ea
      let B := exactOf nb mb eb
      let D := exactOf nd md ed
      (∃ n m e, exactOf n m e = A + B ∧ addF F mode a b = roundF F mode false (.fin n m e)) ∧
      (∃ n m e, exactOf n m e = A * B ∧ mulF F mode a b = roundF F mode false (.fin n m e)) ∧
      (∃ n m e, exactOf n m e = (if p then -(A * B) else A * B) + (if q then -D else D) ∧
        fmaF F mode p q a b d = roundF F mode false (.fin n m e)))

/-- The result r is the real number v rounded to a format in a mode (R99 to R102, R105): a finite result is the nearest representable
number, of two as near the one with an even last fraction bit, or the least that is no less, the greatest that is no greater, or of
these two the one nearer zero; it is v itself, with no flag, where the format holds v, and inexact is raised where it is not v. -/
def Rounds (F : Format) (mode : Mode) (r : Rounded) (v : ℝ) : Prop :=
  ∀ (n' : Bool) (m' : Nat) (e' : Int), decodeF F r.1 = .fin n' m' e' →
    let x : ℝ := exactOf n' m' e'
    (x ≠ v → r.2 &&& flInexact = flInexact) ∧
    ∀ (a : Nat) (nw : Bool) (mw : Nat) (ew : Int), a < 2 ^ (1 + F.e + F.m) → decodeF F a = .fin nw mw ew →
      let w : ℝ := exactOf nw mw ew
      (mode = .rne → |x - v| ≤ |w - v| ∧ (|x - v| = |w - v| → x ≠ w → r.1 % 2 = 0)) ∧
      (mode = .rup → v ≤ x ∧ (v ≤ w → x ≤ w)) ∧ (mode = .rdn → x ≤ v ∧ (w ≤ v → w ≤ x)) ∧
      (mode = .rtz → (0 < v → 0 ≤ x ∧ x ≤ v ∧ (w ≤ v → w ≤ x)) ∧ (v < 0 → x ≤ 0 ∧ v ≤ x ∧ (v ≤ w → x ≤ w))) ∧
      (v = w → x = v ∧ r.2 = 0)

/-- An encoding of this value, reached without a flag. -/
def IsExactly (F : Format) (r : Rounded) (v : ℚ) : Prop := (∃ n m e, decodeF F r.1 = .fin n m e ∧ exactOf n m e = v) ∧ r.2 = 0

/-- The special functions (R107, R108, R154; their minors in order: FRCP, FRSQ, FSQRT, FEX2, FLG2, FSINR, FCOSR, DSQRT). The
reciprocal, the square roots and the reciprocal root are correctly rounded; FEX2 of an integer, FLG2 of a power of two, and FSINR and
FCOSR of a quarter of an integer are exact, a zero of FSINR with the sign of its operand; zeros, infinities, operands below zero and NaNs give what
R108 lists. -/
def SpecialFunctionsPart : Prop :=
  ∀ mode : Mode,
    (∀ minor x, minor < 8 → let F := if minor = 7 then fp64 else fp32
      ∀ z, decodeF F x = .nan z → sfu minor mode x = (nanOf F, if z = true then flInvalid else 0)) ∧
    (∀ (x : Nat) (n : Bool) (m : Nat) (e : Int), m ≠ 0 → x < 2 ^ 32 → decodeF fp32 x = .fin n m e →
      let v := exactOf n m e
      Rounds fp32 mode (sfu 0 mode x) ((1 / v : ℚ) : ℝ) ∧
      (0 < v → Rounds fp32 mode (sfu 1 mode x) (1 / Real.sqrt (v : ℝ)) ∧ Rounds fp32 mode (sfu 2 mode x) (Real.sqrt (v : ℝ)))) ∧
    (∀ (x m : Nat) (e : Int), m ≠ 0 → x < 2 ^ 64 → decodeF fp64 x = .fin false m e →
      Rounds fp64 mode (sfu 7 mode x) (Real.sqrt ((exactOf false m e : ℚ) : ℝ))) ∧
    (∀ (x : Nat) (n : Bool) (m : Nat) (e k : Int), x < 2 ^ 32 → decodeF fp32 x = .fin n m e →
      let v := exactOf n m e
      (v = k → -149 ≤ k → k ≤ 127 → IsExactly fp32 (sfu 3 mode x) ((2 : ℚ) ^ k)) ∧
      (v = (2 : ℚ) ^ k → IsExactly fp32 (sfu 4 mode x) k) ∧
      (4 * v = k →
        sfu 5 mode x = (if k % 4 = 1 then 0x3F800000 else if k % 4 = 3 then 0xBF800000 else if n = true then 0x80000000 else 0, 0) ∧
        sfu 6 mode x = (if k % 4 = 0 then 0x3F800000 else if k % 4 = 2 then 0xBF800000 else 0, 0))) ∧
    (sfu 0 mode 0 = (0x7F800000, flDivZero) ∧ sfu 0 mode 0x80000000 = (0xFF800000, flDivZero) ∧
      sfu 0 mode 0x7F800000 = (0, 0) ∧ sfu 0 mode 0xFF800000 = (0x80000000, 0)) ∧
    (sfu 1 mode 0 = (0x7F800000, flDivZero) ∧ sfu 1 mode 0x80000000 = (0xFF800000, flDivZero) ∧ sfu 1 mode 0x7F800000 = (0, 0)) ∧
    (sfu 2 mode 0 = (0, 0) ∧ sfu 2 mode 0x80000000 = (0x80000000, 0) ∧ sfu 2 mode 0x7F800000 = (0x7F800000, 0)) ∧
    (sfu 3 mode 0x7F800000 = (0x7F800000, 0) ∧ sfu 3 mode 0xFF800000 = (0, 0)) ∧
    (sfu 4 mode 0 = (0xFF800000, flDivZero) ∧ sfu 4 mode 0x80000000 = (0xFF800000, flDivZero) ∧ sfu 4 mode 0x3F800000 = (0, 0) ∧
      sfu 4 mode 0x7F800000 = (0x7F800000, 0)) ∧
    (∀ minor, minor = 5 ∨ minor = 6 → sfu minor mode 0x7F800000 = (0x7FC00000, flInvalid) ∧ sfu minor mode 0xFF800000 = (0x7FC00000, flInvalid)) ∧
    (∀ minor x, minor = 1 ∨ minor = 2 ∨ minor = 4 → 0x80000000 < x → x ≤ 0xFF800000 → sfu minor mode x = (0x7FC00000, flInvalid)) ∧
    (sfu 7 mode 0 = (0, 0) ∧ sfu 7 mode 0x8000000000000000 = (0x8000000000000000, 0) ∧ sfu 7 mode 0x7FF0000000000000 = (0x7FF0000000000000, 0)) ∧
    (∀ x, 0x8000000000000000 < x → x ≤ 0xFFF0000000000000 → sfu 7 mode x = (0x7FF8000000000000, flInvalid))

/-- k is the integer to which v rounds in a mode (R100, R103). -/
def RoundsToInt (mode : Mode) (v : ℚ) (k : Int) : Prop :=
  (mode = .rne → |(k : ℚ) - v| ≤ 1 / 2 ∧ (|(k : ℚ) - v| = 1 / 2 → k % 2 = 0)) ∧ (mode = .rup → v ≤ k ∧ (k : ℚ) < v + 1) ∧
  (mode = .rdn → (k : ℚ) ≤ v ∧ v < k + 1) ∧ (mode = .rtz → |(k : ℚ)| ≤ |v| ∧ |v| < |(k : ℚ)| + 1 ∧ 0 ≤ k * v)

/-- What CVT makes of a pattern (R94, R102, R103, R160, R161), by the codes of R160: floating to another format is one rounding, saturated at
the largest finite numbers where that is asked for; to the same format, the integral value of the mode; to an integer, the integer of the mode, or the
nearest end of the range with invalid, 0 for a NaN; an integer to floating, one rounding; to another integer, the value where it fits, else the
nearest end with integer overflow, or the low bits; E4M3 and E5M2 to FP32, exactly. -/
def ConversionsPart : Prop :=
  ∀ (mode : Mode) (sat : Bool),
    let floats := [(0, fp32), (1, fp64), (2, fp16), (3, bf16)]
    let ints := [(4, 32, true), (5, 32, false), (6, 64, true), (7, 64, false)]
    let lo := fun (n : Nat) (signed : Bool) => if signed = true then -(2 : Int) ^ (n - 1) else 0
    let hi := fun (n : Nat) (signed : Bool) => if signed = true then (2 : Int) ^ (n - 1) - 1 else 2 ^ n - 1
    let bits := fun (n : Nat) (k : Int) => (k % 2 ^ n).toNat
    let flag := fun (c : Prop) (f : BitVec 6) (r : BitVec 6) => (c → r = f) ∧ (¬ c → r = 0)
    (∀ c F d G, (c, F) ∈ floats → (d, G) ∈ floats ++ [(8, e4m3), (9, e5m2)] → c ≠ d → (sat = true → d = 8 ∨ d = 9) →
      ∀ x, x < 2 ^ (1 + F.e + F.m) →
      let r := cvtValue mode sat c d x
      (∀ n m e, decodeF F x = .fin n m e → m ≠ 0 →
        (sat = false ∨ |exactOf n m e| ≤ (if d = 8 then 448 else 57344) → Rounds G mode r ((exactOf n m e : ℚ) : ℝ)) ∧
        (sat = true → (if d = 8 then 448 else 57344) < |exactOf n m e| → r.1 = maxOf G n ∧ r.2 &&& flInexact = flInexact)) ∧
      (∀ n e, decodeF F x = .fin n 0 e → r = (signBit G n, 0)) ∧
      (∀ n, decodeF F x = .inf n → r = if sat = true then (maxOf G n, flOverflow ||| flInexact)
        else if d = 8 then (nanOf G, flInvalid) else (infOf G n, 0)) ∧
      (∀ z, decodeF F x = .nan z → r = (nanOf G, if z = true then flInvalid else 0))) ∧
    (∀ c F, (c, F) ∈ floats → ∀ x, x < 2 ^ (1 + F.e + F.m) →
      let r := cvtValue mode sat c c x
      (∀ n m e, decodeF F x = .fin n m e → ∃ (k : Int) (m' : Nat) (e' : Int), RoundsToInt mode (exactOf n m e) k ∧
        decodeF F r.1 = .fin n m' e' ∧ exactOf n m' e' = k ∧ flag (exactOf n m e ≠ k) flInexact r.2) ∧
      (∀ n, decodeF F x = .inf n → r = (infOf F n, 0)) ∧
      (∀ z, decodeF F x = .nan z → r = (nanOf F, if z = true then flInvalid else 0))) ∧
    (∀ c F d w signed, (c, F) ∈ floats → (d, w, signed) ∈ ints ++ [(10, 8, true), (11, 8, false)] → ∀ x, x < 2 ^ (1 + F.e + F.m) →
      let r := cvtValue mode sat c d x
      (∀ n m e, decodeF F x = .fin n m e → ∃ k : Int, RoundsToInt mode (exactOf n m e) k ∧
        (k < lo w signed → r = (bits w (lo w signed), flInvalid)) ∧ (hi w signed < k → r = (bits w (hi w signed), flInvalid)) ∧
        (lo w signed ≤ k → k ≤ hi w signed → r.1 = bits w k ∧ flag (exactOf n m e ≠ k) flInexact r.2)) ∧
      (∀ n, decodeF F x = .inf n → r = (bits w (if n = true then lo w signed else hi w signed), flInvalid)) ∧
      (∀ z, decodeF F x = .nan z → r = (0, flInvalid))) ∧
    (∀ c w signed, (c, w, signed) ∈ ints → ∀ v : Int, lo w signed ≤ v → v ≤ hi w signed →
      (∀ d G, (d, G) ∈ floats ++ [(8, e4m3), (9, e5m2)] → (sat = true → d = 8 ∨ d = 9) →
        let r := cvtValue mode sat c d (bits w v)
        (v ≠ 0 → sat = false ∨ |v| ≤ (if d = 8 then 448 else 57344) → Rounds G mode r v) ∧ (v = 0 → r = (0, 0)) ∧
        (sat = true → (if d = 8 then 448 else 57344) < |v| → r.1 = maxOf G (decide (v < 0)) ∧ r.2 &&& flInexact = flInexact)) ∧
      (∀ d n s', (d, n, s') ∈ ints ++ [(10, 8, true), (11, 8, false)] → d ≠ c →
        let r := cvtValue mode sat c d (bits w v)
        (lo n s' ≤ v → v ≤ hi n s' → r = (bits n v, 0)) ∧
        (sat = true → v < lo n s' → r = (bits n (lo n s'), flIntOverflow)) ∧
        (sat = true → hi n s' < v → r = (bits n (hi n s'), flIntOverflow)) ∧ (sat = false → r = (bits n v, 0)))) ∧
    (∀ d G, (d, G) ∈ [(12, e4m3), (13, e5m2)] → ∀ x,
      let r := cvtValue mode sat 0 d x
      (∀ n m e, decodeF G (x % 256) = .fin n m e → m ≠ 0 → IsExactly fp32 r (exactOf n m e)) ∧
      (∀ n e, decodeF G (x % 256) = .fin n 0 e → r = (signBit fp32 n, 0)) ∧
      (∀ n, decodeF G (x % 256) = .inf n → r = (infOf fp32 n, 0)) ∧
      (∀ z, decodeF G (x % 256) = .nan z → r = (nanOf fp32, if z = true then flInvalid else 0)))

/-- Minimum and maximum of floating-point numbers (R104), rounding (R99 to R102), the special functions (R107, R108) and conversions (R103, R160, R161). -/
def Obligations.MinMaxRule : Prop := MinMaxRulePart ∧ RoundingRulePart ∧ SpecialFunctionsPart ∧ ConversionsPart

/-- Compares (R131, R156, R157): each active lane's predicate is the truth of the condition; a signalling NaN raises
invalid; the q file does not shift. -/
def ComparesPart : Prop :=
  ∀ (b a : BitVec 8) (c p : BitVec 3) (s : State),
    let A := fun l => s.srcOf a l
    let B := fun l => s.srcOf b l
    let int := fun (x y : Int) => match c.toNat with
      | 0 => decide (x = y)
      | 1 => decide (x ≠ y)
      | 2 => decide (x < y)
      | 3 => decide (x ≤ y)
      | 4 => decide (x > y)
      | _ => decide (x ≥ y)
    let flt := fun (F : Format) (x y : Nat) => (condF c.toNat (decodeF F (s.xmA F x)) (decodeF F (s.xmB F y)),
      (decodeF F (s.xmA F x)).sig ||| (decodeF F (s.xmB F y)).sig)
    let half := fun (w : Word) (k : Nat) => w.toNat / 2 ^ (16 * k) % 2 ^ 16
    let two := fun (F : Format) (i : Instr) => Host.Outcome.next ((s.modG fun g =>
      ((g.setPred p.toNat s.act fun l => (flt F (half (A l) 0) (half (B l) 0)).1).setPred (p.toNat + 1) s.act
        fun l => (flt F (half (A l) 1) (half (B l) 1)).1).flag
          (s.raised fun l => (flt F (half (A l) 0) (half (B l) 0)).2 ||| (flt F (half (A l) 1) (half (B l) 1)).2)).finish i)
    (s.issues (.icmpS b a c p) → exec (.icmpS b a c p) s =
      .next (s.compared (.icmpS b a c p) p.toNat fun l => (int (A l).toInt (B l).toInt, 0))) ∧
    (s.issues (.icmpU b a c p) → exec (.icmpU b a c p) s =
      .next (s.compared (.icmpU b a c p) p.toNat fun l => (int (A l).toNat (B l).toNat, 0))) ∧
    (s.issues (.fcmp b a c p) → exec (.fcmp b a c p) s =
      .next (s.compared (.fcmp b a c p) p.toNat fun l => flt fp32 (A l).toNat (B l).toNat)) ∧
    (s.issues (.dcmp b a c p) → exec (.dcmp b a c p) s = .next (s.compared (.dcmp b a c p) p.toNat fun l =>
      flt fp64 (s.g.read64 (selOf a) l).toNat (s.g.read64 (selOf b) l).toNat)) ∧
    (s.issues (.hcmp2F16 b a c p) → exec (.hcmp2F16 b a c p) s = two fp16 (.hcmp2F16 b a c p)) ∧
    (s.issues (.hcmp2Bf16 b a c p) → exec (.hcmp2Bf16 b a c p) s = two bf16 (.hcmp2Bf16 b a c p))

/-- The truth of a floating-point condition (R156): NE and UNO hold of an unordered pair and no other code does; on ordered
pairs the six relations are those of the values, ORD holds and UNO does not. -/
def FloatConditionsPart : Prop :=
  ∀ (x y : FVal), (x.cmp y = none ↔ (x.isNan = true ∨ y.isNan = true)) ∧
    (x.cmp y = none → ∀ c, c < 8 → condF c x y = decide (c = 1 ∨ c = 7)) ∧
    (∀ o, x.cmp y = some o → condF 0 x y = decide (o = .eq) ∧ condF 1 x y = decide (o ≠ .eq) ∧
      condF 2 x y = decide (o = .lt) ∧ condF 3 x y = decide (o ≠ .gt) ∧ condF 4 x y = decide (o = .gt) ∧
      condF 5 x y = decide (o ≠ .lt) ∧ condF 6 x y = true ∧ condF 7 x y = false)

/-- Compares, and the conditions that floating-point compares test (R155 to R157). -/
def Obligations.Compares : Prop := ComparesPart ∧ FloatConditionsPart

/-- SEL (R159): a where the predicate is true and b otherwise, the bits unchanged; minor p7 always selects a; q shifts,
and no flag rises. -/
def Obligations.Select : Prop :=
  ∀ (p : BitVec 3) (b a : BitVec 8) (d : BitVec 7) (s : State), s.issues (.sel p b a d) →
    exec (.sel p b a d) s = .next (s.laneResult (.sel p b a d) d.toNat fun l =>
      (if p = 7 ∨ laneIn (vget s.g.p p.toNat 0) l = true then s.srcOf a l else s.srcOf b l, 0)) ∧
    (∀ t, exec (.sel p b a d) s = .next t → t.g.arithFlags = s.g.arithFlags)

/-- PLOP (R158), LDK and LDKH (R162), CVT (R160, R161) and PHILOX (R113, R164). -/
def Obligations.PredicatesAndConstants : Prop :=
  (∀ (x : BitVec 8) (b a d : BitVec 3) (s : State), s.issues (.plop x b a d) →
    exec (.plop x b a d) s = .next ((s.modG fun g => g.setPred d.toNat s.act fun l =>
      x.getLsbD ((if s.g.pred a.toNat l then 1 else 0) + (if s.g.pred b.toNat l then 2 else 0) +
        (if s.g.pred d.toNat l then 4 else 0))).finish (.plop x b a d))) ∧
  (∀ (k : BitVec 19) (d : BitVec 7) (s : State), s.issues (.ldk k d) →
    exec (.ldk k d) s = .next (s.laneResult (.ldk k d) d.toNat fun _ => (BitVec.ofInt 32 k.toInt, 0))) ∧
  (∀ (k : BitVec 13) (d : BitVec 7) (s : State), s.issues (.ldkh k d) →
    exec (.ldkh k d) s = .next (s.laneResult (.ldkh k d) d.toNat fun l =>
      (BitVec.ofNat 32 (k.toNat * 2 ^ 19 + (s.g.read d.toNat l).toNat % 2 ^ 19), 0))) ∧
  (∀ (m : BitVec 2) (t : BitVec 1) (x : BitVec 3) (e : BitVec 4) (a : BitVec 8) (d : BitVec 7) (s : State),
    s.issues (.cvt m t x e a d) →
    let src := fun l => if cvtWords x.toNat = 2 then (s.g.read64 (selOf a) l).toNat else (s.srcOf a l).toNat
    let v := fun l => cvtValue (modeOf m.toNat) (t = 1#1) x.toNat e.toNat (src l)
    exec (.cvt m t x e a d) s = .next (if cvtWords e.toNat = 2
      then s.laneResult64 (.cvt m t x e a d) d.toNat fun l => (BitVec.ofNat 64 (v l).1, (v l).2)
      else s.laneResult (.cvt m t x e a d) d.toNat fun l => (BitVec.ofNat 32 (v l).1, (v l).2))) ∧
  (∀ (b a : BitVec 8) (d : BitVec 7) (s : State), s.issues (.philox b a d) →
    ∃ t, exec (.philox b a d) s = .next t ∧ s.laneOnly t ∧ t.g.arithFlags = s.g.arithFlags ∧
      ∀ l, laneIn s.act l = true →
        let A := fun k => s.g.readWord (selOf a) k l
        let r := philox #v[A 0, A 1, A 2, A 3] (s.g.readWord (selOf b) 0 l) (s.g.readWord (selOf b) 1 l)
        (∀ k : Fin 4, t.g.read (120 + k.val) l = r[3 - k.val]) ∧
        (d.toNat < 96 → d.toNat % 4 = 0 → ∀ k : Fin 4, t.g.read (d.toNat + k.val) l = r[k])) ∧
  philox #v[0, 0, 0, 0] 0 0 = #v[0x6627E8D5, 0xE169C58D, 0xBC57AC4C, 0x9B00DBD8]

/-- The shuffles (R46, R166): each active lane receives A of its source lane j, whatever that lane's state, and its own A
where j lies outside 0 to 31; no flag. -/
def Obligations.Shuffles : Prop :=
  ∀ (b a : BitVec 8) (d : BitVec 7) (s : State),
    let from_ := fun (j : Int) (l : Lane) =>
      if h : 0 ≤ j ∧ j < 32 then s.srcOf a ⟨j.toNat, by omega⟩ else s.srcOf a l
    let B := fun l => (s.srcOf b l)
    let r := fun (i : Instr) (j : Lane → Int) => Host.Outcome.next (s.laneResult i d.toNat fun l => (from_ (j l) l, 0))
    (s.issues (.shflIdx b a d) → exec (.shflIdx b a d) s = r (.shflIdx b a d) fun l => (B l).toNat) ∧
    (s.issues (.shflUp b a d) → exec (.shflUp b a d) s = r (.shflUp b a d) fun l => (l.val : Int) - (B l).toNat) ∧
    (s.issues (.shflDn b a d) → exec (.shflDn b a d) s = r (.shflDn b a d) fun l => (l.val : Int) + (B l).toNat) ∧
    (s.issues (.shflXor b a d) → exec (.shflXor b a d) s =
      r (.shflXor b a d) fun l => ((BitVec.ofNat 32 l.val ^^^ B l).toNat : Int))

/-- The votes and MATCH (R47, R167, R168): every active lane receives the same answer over the active lanes' conditions;
MATCH gives each active lane the active lanes whose A equals its own. -/
def VotesPart : Prop :=
  ∀ (n : BitVec 1) (p : BitVec 3) (a : BitVec 8) (d : BitVec 7) (s : State),
    let c := fun l => s.g.pred p.toNat l != (n = 1#1)
    (s.issues (.voteAny n p d) → exec (.voteAny n p d) s = .next (s.laneResult (.voteAny n p d) d.toNat fun _ =>
      (if ∃ l, laneIn s.act l = true ∧ c l = true then 1 else 0, 0))) ∧
    (s.issues (.voteAll n p d) → exec (.voteAll n p d) s = .next (s.laneResult (.voteAll n p d) d.toNat fun _ =>
      (if ∀ l, laneIn s.act l = true → c l = true then 1 else 0, 0))) ∧
    (s.issues (.ballot n p d) → ∃ m : Word, (∀ l : Lane, m.getLsbD l.val = (laneIn s.act l && c l)) ∧
      exec (.ballot n p d) s = .next (s.laneResult (.ballot n p d) d.toNat fun _ => (m, 0))) ∧
    (s.issues (.matchL a d) → ∃ f : Lane → Word,
      (∀ l j : Lane, (f l).getLsbD j.val = (laneIn s.act j && decide (s.srcOf a j = s.srcOf a l))) ∧
      exec (.matchL a d) s = .next (s.laneResult (.matchL a d) d.toNat fun l => (f l, 0)))

/-- The reductions (R104, R109, R169): every active lane receives the combination of the active lanes in the tree of
R109; the integer ones are the sum modulo 2^32 and the signed extremes over the active lanes. -/
def ReductionsPart : Prop :=
  ∀ (a : BitVec 8) (d : BitVec 7) (s : State),
    let A := fun l => (s.srcOf a l).toNat
    let tree := fun {α : Type} (op : α → α → α × BitVec 6) (x : Lane → α) => reduceLanes op s.act x
    let one := fun (i : Instr) (z : Nat × BitVec 6) => Host.Outcome.next
      ((s.modG fun g => (g.put d.toNat s.act fun _ => BitVec.ofNat 32 z.1).flag (if s.act = 0 then 0 else z.2)).finish i)
    (s.issues (.rdaddF32 a d) → exec (.rdaddF32 a d) s = one (.rdaddF32 a d)
      (finishReduce fp32 (tree (fun x y => addF fp32 s.mode x y) fun l => s.xmA fp32 (A l)))) ∧
    (s.issues (.rdminF32 a d) → exec (.rdminF32 a d) s = one (.rdminF32 a d)
      (finishReduce fp32 (tree (fun x y => minmaxF fp32 false x y) fun l => s.xmA fp32 (A l)))) ∧
    (s.issues (.rdmaxF32 a d) → exec (.rdmaxF32 a d) s = one (.rdmaxF32 a d)
      (finishReduce fp32 (tree (fun x y => minmaxF fp32 true x y) fun l => s.xmA fp32 (A l)))) ∧
    (s.issues (.rdaddF64 a d) → ∃ z : Nat × BitVec 6,
      z = finishReduce fp64 (tree (fun x y => addF fp64 s.mode x y) fun l => s.xmA fp64 (s.g.read64 (selOf a) l).toNat) ∧
      exec (.rdaddF64 a d) s = .next ((s.modG fun g => (g.put64 d.toNat s.act fun _ => BitVec.ofNat 64 z.1).flag
        (if s.act = 0 then 0 else z.2)).finish (.rdaddF64 a d))) ∧
    (s.issues (.rdaddI32 a d) → exec (.rdaddI32 a d) s = .next (s.laneResult (.rdaddI32 a d) d.toNat fun _ =>
      (((lanesOf s.act).map fun l => s.srcOf a l).sum, 0))) ∧
    (s.issues (.rdminI32 a d) → ∃ m : Word, exec (.rdminI32 a d) s = .next (s.laneResult (.rdminI32 a d) d.toNat fun _ => (m, 0)) ∧
      (s.act ≠ 0 → (∃ l, laneIn s.act l = true ∧ m = s.srcOf a l) ∧ ∀ l, laneIn s.act l = true → m.toInt ≤ (s.srcOf a l).toInt)) ∧
    (s.issues (.rdmaxI32 a d) → ∃ m : Word, exec (.rdmaxI32 a d) s = .next (s.laneResult (.rdmaxI32 a d) d.toNat fun _ => (m, 0)) ∧
      (s.act ≠ 0 → (∃ l, laneIn s.act l = true ∧ m = s.srcOf a l) ∧ ∀ l, laneIn s.act l = true → (s.srcOf a l).toInt ≤ m.toInt))

/-- The tree of R109: level k + 1 combines the neighbours of level k, an empty one leaving the other as it is, and the fifth
level's first is the result; the flags are those of every combination. A floating-point result that is a NaN is canonical, and
a signalling one, which only a lone operand can be, raises invalid (R94, R169). -/
def ReductionTreePart : Prop :=
  (∀ (α : Type) (op : α → α → α × BitVec 6) (m : Mask) (x : Lane → α), ∃ t : Nat → Nat → Option α,
    (∀ l : Lane, t 0 l.val = if laneIn m l = true then some (x l) else none) ∧
    (∀ k i, k < 5 → i < 2 ^ (4 - k) → t (k + 1) i = match t k (2 * i), t k (2 * i + 1) with
      | some a, some b => some (op a b).1
      | some a, none => some a
      | none, b => b) ∧
    (reduceLanes op m x).1 = t 5 0 ∧
    ∀ c, (reduceLanes op m x).2.getLsbD c = true ↔ ∃ k i a b, k < 5 ∧ i < 2 ^ (4 - k) ∧ t k (2 * i) = some a ∧
      t k (2 * i + 1) = some b ∧ (op a b).2.getLsbD c = true) ∧
  (∀ (F : Format) (x : Nat) (f : BitVec 6),
    (∀ z, decodeF F x = .nan z → finishReduce F (some x, f) = (nanOf F, f ||| if z = true then flInvalid else 0)) ∧
    ((∀ z, decodeF F x ≠ .nan z) → finishReduce F (some x, f) = (x, f)))

/-- Votes and reductions across a split, and the tree that combines them (R47, R94, R109, R167 to R169). -/
def Obligations.VotesAndReductions : Prop := VotesPart ∧ ReductionsPart ∧ ReductionTreePart

/-- SCAN.I32 (R170): to each active lane the sum modulo 2^32 of A over the active lanes up to it, or with ex below it, so
that the lowest active lane receives 0; inactive lanes contribute nothing and receive nothing; no flag. -/
def Obligations.Scan : Prop :=
  ∀ (e : BitVec 1) (a : BitVec 8) (d : BitVec 7) (s : State), s.issues (.scanI32 e a d) →
    let upTo := fun (l : Lane) => (lanesOf s.act).filter fun j => if e = 1#1 then j.val < l.val else j.val ≤ l.val
    exec (.scanI32 e a d) s = .next (s.laneResult (.scanI32 e a d) d.toNat fun l =>
      (((upTo l).map fun j => s.srcOf a j).sum, 0)) ∧
    (e = 1#1 → ∀ l, lowest s.act = some l → upTo l = [])

/-! ### Control flow -/

/-- BRA, BRS, BRX (R117, R124, R171, R173, R175): taken when the condition holds in the lowest active lane; the target lies
2 × offset bytes from the branch, modulo 2^56, or, for BRX, so many parcels from the entry point of the code; a
branch not taken, and one with no active lane, goes past itself. Nothing else changes. -/
def BranchesPart : Prop :=
  (∀ (o : BitVec 19) (n : BitVec 1) (p : BitVec 3) (s : State), s.issues (.bra o n p) →
    exec (.bra o n p) s = .next (s.movedTo (match lowest s.act with
      | none => s.g.sp.pc + 4
      | some l => if (s.g.pred p.toNat l != (n = 1#1)) = true
          then BitVec.ofInt 56 (s.g.sp.pc.toNat + 2 * o.toInt) else s.g.sp.pc + 4))) ∧
  (∀ (o : BitVec 10) (s : State), s.issues (.brs o) →
    exec (.brs o) s = .next (s.movedTo (BitVec.ofInt 56 (s.g.sp.pc.toNat + 2 * o.toInt)))) ∧
  (∀ (r : BitVec 7) (n : BitVec 1) (p : BitVec 3) (s : State) (k : Kernel), s.issues (.brx r n p) →
    s.codeOf s.g s.g.sp = some k →
    exec (.brx r n p) s = .next (s.movedTo (match lowest s.act with
      | none => s.g.sp.pc + 4
      | some l => if (s.g.pred p.toNat l != (n = 1#1)) = true
          then BitVec.ofNat 56 (k.entry.toNat + 2 * (s.g.read r.toNat l).toNat) else s.g.sp.pc + 4)))

/-- CALL, CALLX and RET (R171 to R173, R175, R359): a taken call pushes the address behind it and goes to the target; a ninth
entry, and a RET on an empty stack, is an illegal use; RET goes to the address it pops. -/
def CallsPart : Prop :=
  (∀ (o : BitVec 19) (n : BitVec 1) (p : BitVec 3) (s : State), s.issues (.call o n p) →
    (s.lowCond p n = false → exec (.call o n p) s = .next (s.movedTo (s.g.sp.pc + 4))) ∧
    (s.lowCond p n = true → s.g.sp.calls.length < 8 → ∃ t, exec (.call o n p) s = .next t ∧
      t = { s.movedTo (BitVec.ofInt 56 (s.g.sp.pc.toNat + 2 * o.toInt)) with g := t.g } ∧
      t.g = { (s.movedTo (BitVec.ofInt 56 (s.g.sp.pc.toNat + 2 * o.toInt))).g with sp := t.g.sp } ∧
      t.g.sp = { (s.movedTo (BitVec.ofInt 56 (s.g.sp.pc.toNat + 2 * o.toInt))).g.sp with
        calls := (s.g.sp.pc + 4) :: s.g.sp.calls }) ∧
    (s.lowCond p n = true → 8 ≤ s.g.sp.calls.length →
      exec (.call o n p) s = .next (s.takeTrap (s.illegal (.call o n p) 0x03)))) ∧
  (∀ (r : BitVec 7) (n : BitVec 1) (p : BitVec 3) (s : State) (k : Kernel), s.issues (.callx r n p) →
    s.codeOf s.g s.g.sp = some k →
    (s.lowCond p n = false → exec (.callx r n p) s = .next (s.movedTo (s.g.sp.pc + 4))) ∧
    (∀ l, lowest s.act = some l → s.lowCond p n = true → s.g.sp.calls.length < 8 →
      ∃ t, exec (.callx r n p) s = .next t ∧ t.g.sp.pc = BitVec.ofNat 56 (k.entry.toNat + 2 * (s.g.read r.toNat l).toNat) ∧
        t.g.sp.calls = (s.g.sp.pc + 4) :: s.g.sp.calls ∧ t.g.sp.mask = s.g.sp.mask ∧ t.g.sp.joins = s.g.sp.joins ∧
        t = { s with g := { s.g with sp := t.g.sp } }) ∧
    (s.lowCond p n = true → 8 ≤ s.g.sp.calls.length →
      exec (.callx r n p) s = .next (s.takeTrap (s.illegal (.callx r n p) 0x03)))) ∧
  (∀ s : State, s.issues .ret →
    (∀ a r, s.g.sp.calls = a :: r → ∃ t, exec .ret s = .next t ∧ t.g.sp = { (s.movedTo a).g.sp with calls := r } ∧
      t = { s with g := { s.g with sp := t.g.sp } }) ∧
    (s.g.sp.calls = [] → exec .ret s = .next (s.takeTrap (s.illegal .ret 0x03))))

/-- Branches, calls and returns (R117, R124, R171 to R173, R175, R359). -/
def Obligations.BranchesAndCalls : Prop := BranchesPart ∧ CallsPart

/-- LOOP (R174): s0 to s7 falls by one modulo 2^32, once for the split; the branch is taken while it is not zero, and q does
not shift. JSET (R27, R171): an entry with the target as join PC and an empty deferral; a fifth entry is an
illegal use. -/
def Obligations.LoopsAndJoinPoints : Prop :=
  (∀ (o : BitVec 19) (n : BitVec 3) (s : State), s.issues (.loop o n) →
    let x := vget s.g.s n.toNat 0 - 1
    ∃ t, exec (.loop o n) s = .next t ∧ vget t.g.s n.toNat 0 = x ∧
      (∀ j, j ≠ n.toNat → vget t.g.s j 0 = vget s.g.s j 0) ∧
      t.g.sp = (s.movedTo (if x = 0 then s.g.sp.pc + 4 else BitVec.ofInt 56 (s.g.sp.pc.toNat + 2 * o.toInt))).g.sp ∧
      t = { s with g := { s.g with s := t.g.s, sp := t.g.sp } }) ∧
  (∀ (o : BitVec 19) (s : State), s.issues (.jset o) →
    (s.g.sp.joins.length < 4 → ∃ t, exec (.jset o) s = .next t ∧
      t.g.sp = { (s.movedTo (s.g.sp.pc + 4)).g.sp with joins :=
        { join := some (BitVec.ofInt 56 (s.g.sp.pc.toNat + 2 * o.toInt)), deferred := false, resume := 0, pending := 0
          whole := 0 } :: s.g.sp.joins } ∧ t = { s with g := { s.g with sp := t.g.sp } }) ∧
    (4 ≤ s.g.sp.joins.length → exec (.jset o) s = .next (s.takeTrap (s.illegal (.jset o) 0x03))))

/-- BRC (R28, R29, R171, R294): with no lane taken it goes on behind itself; with every active lane taken the split moves whole;
otherwise the split divides while the group holds fewer than four splits (the not-taken lanes stay, the taken
ones form a youngest split at the target with copies of both stacks), and else serialises: the taken lanes go on
at the target under an entry that keeps the whole mask and defers the not-taken lanes at the fall-through. -/
def DivergencePart : Prop :=
  ∀ (o : BitVec 19) (n : BitVec 1) (p : BitVec 3) (s : State) (taken : Mask), s.issues (.brc o n p) →
    (∀ l : Lane, laneIn taken l = (laneIn s.act l && (s.g.pred p.toNat l != (n = 1#1)))) →
    let target := BitVec.ofInt 56 (s.g.sp.pc.toNat + 2 * o.toInt)
    let fall := s.g.sp.pc + 4
    (taken = 0 → exec (.brc o n p) s = .next (s.movedTo fall)) ∧
    (taken ≠ 0 → taken = s.act → exec (.brc o n p) s = .next (s.movedTo target)) ∧
    (taken ≠ 0 → taken ≠ s.act → s.g.splitCount < 4 → s.g.sp.trap = false →
      ∃ t, exec (.brc o n p) s = .next t ∧ t.g.sp = { (s.movedTo fall).g.sp with mask := s.g.sp.mask &&& ~~~taken } ∧
        t.g.rest = s.g.rest ++ [{ (s.movedTo target).g.sp with mask := taken, age := s.g.nextAge, anc := s.g.nextAge :: s.g.sp.anc }] ∧
        t = { s with g := { s.g with sp := t.g.sp, rest := t.g.rest, nextAge := s.g.nextAge + 1 } }) ∧
    (taken ≠ 0 → taken ≠ s.act → (4 ≤ s.g.splitCount ∨ s.g.sp.trap = true) → s.g.sp.joins.length < 4 →
      ∃ t, exec (.brc o n p) s = .next t ∧
        t.g.sp = { (s.movedTo target).g.sp with mask := taken, joins :=
          { join := s.g.sp.joins.head?.bind JoinEntry.join, deferred := true, resume := fall
            pending := s.g.sp.mask &&& ~~~taken, whole := s.g.sp.mask } :: s.g.sp.joins } ∧
        t = { s with g := { s.g with sp := t.g.sp } }) ∧
    (taken ≠ 0 → taken ≠ s.act → (4 ≤ s.g.splitCount ∨ s.g.sp.trap = true) → 4 ≤ s.g.sp.joins.length →
      exec (.brc o n p) s = .next (s.takeTrap (s.illegal (.brc o n p) 0x03)))

/-- JOIN at J (R31, R73, R172): nothing where the top entry is not of J or holds a deferral; it waits while a split concerned
stands elsewhere; and when every split concerned stands at J they become one behind the JOIN: the masks together, the
oldest's age and call stack and its join stack less the top entry (and its guard window, the model's choice of log entry
12), and what preceded any of them precedes its descendants (R73). EXIT (R33, R175): its active lanes leave for good; where
none is left, the deferral of the top join entry runs, or else the lanes that wait at its join PC go on there; a split
without entries dissolves; outside trap mode only. -/
def ReconvergencePart : Prop :=
  (∀ s : State, s.issues .join →
    let mine := joiner s.g.sp.pc s.g.sp.calls
    (mine s.g.sp = false → exec .join s = .next (s.movedTo (s.g.sp.pc + 2))) ∧
    (∀ x ∈ s.g.splits, mine s.g.sp = true → x.mask ≠ 0 → mine x = true → standsAt s.g.sp.pc x = false →
      exec .join s = .next (s.waiting (.blocked true))) ∧
    (mine s.g.sp = true → (∀ x ∈ s.g.splits, x.mask ≠ 0 → mine x = true → standsAt s.g.sp.pc x = true) →
      ∃ t, exec .join s = .next t ∧ t.g.sp.pc = s.g.sp.pc + 2 ∧ t.g.sp.wait = .none ∧
        (∀ l, laneIn t.g.sp.mask l = (s.g.splits.any fun x => mine x && laneIn x.mask l)) ∧
        (∃ o ∈ s.g.splits, mine o = true ∧ (∀ x ∈ s.g.splits, x.mask ≠ 0 → mine x = true → o.age ≤ x.age) ∧
          t.g.sp = { o with pc := s.g.sp.pc + 2, mask := t.g.sp.mask, joins := o.joins.tail, wait := .none, xm := none
                            reissue := none, anc := t.g.sp.anc }) ∧
        (∀ a, a ∈ t.g.sp.anc ↔ ∃ x ∈ s.g.splits, x.mask ≠ 0 ∧ mine x = true ∧ a ∈ x.anc) ∧
        t.g.rest = (s.g.rest.filter fun x => !mine x).map (passAnc t.g.sp) ∧
        t = { s with g := { s.g with sp := t.g.sp, rest := t.g.rest } })) ∧
  (∀ s : State, s.issues .exit →
    (s.g.sp.trap = true → exec .exit s = .next (s.takeTrap (s.illegal .exit 0x03))) ∧
    (s.g.sp.trap = false → ∃ t, exec .exit s = .next t ∧ t.g.exited = s.g.exited ||| s.act ∧
      (s.g.sp.mask &&& ~~~s.act ≠ 0 → t.g.sp.mask = s.g.sp.mask &&& ~~~s.act ∧ t.g.sp.pc = s.g.sp.pc + 2 ∧ t.g.rest = s.g.rest) ∧
      (s.g.sp.mask &&& ~~~s.act = 0 → s.g.sp.joins = [] → ∀ x r, s.g.rest = x :: r → t.g.sp = x ∧ t.g.rest = r) ∧
      (s.g.sp.mask &&& ~~~s.act = 0 → ∀ e r, s.g.sp.joins = e :: r →
        let left := e.pending &&& ~~~t.g.exited
        let all := e.whole &&& ~~~t.g.exited
        let onward := fun (m : Mask) (a : Addr) (js : List JoinEntry) =>
          { s.g.sp with mask := m, pc := a, joins := js, wait := .none, xm := none, reissue := none }
        (e.deferred = true → left ≠ 0 →
          t.g.sp = onward left e.resume ({ e with deferred := false, pending := 0 } :: r) ∧ t.g.rest = s.g.rest) ∧
        ((e.deferred = false ∨ left = 0) → all ≠ 0 → ∀ j, e.join = some j →
          t.g.sp = onward all j r ∧ t.g.rest = s.g.rest)) ∧
      t.g.v = s.g.v ∧ t.g.s = s.g.s ∧ s.sameMemory t))

/-- Divergent branches, and where splits meet again (R27 to R33, R171).
Where the spec leaves a point open it follows the model's choice (log entry 13). -/
def Obligations.DivergenceAndReconvergence : Prop := DivergencePart ∧ ReconvergencePart

/-- GRD and XM (R128, R130, R131, R132): GRD samples its condition once in the active lanes and opens a window over the next
count instructions, in which only those lanes act; XM holds its payload for the next instruction of its split. -/
def GuardAndModifierPart : Prop :=
  (∀ (c : BitVec 2) (n : BitVec 1) (p : BitVec 3) (s : State), s.issues (.grd c n p) →
    ∃ t, exec (.grd c n p) s = .next t ∧ t.g.sp.guardLeft = c.toNat + 1 ∧
      (∀ l, laneIn t.act l = (laneIn s.act l && (s.g.pred p.toNat l != (n = 1#1)))) ∧ t.g.sp.mask = s.g.sp.mask ∧
      t.g.sp.pc = s.g.sp.pc + 2 ∧ t = { s with g := { s.g with sp := t.g.sp } }) ∧
  (∀ (d : BitVec 2) (e x r b m a n : BitVec 1) (s : State), s.issues (.xm d e x r b m a n) →
    ∃ t, exec (.xm d e x r b m a n) s = .next t ∧ t.g.sp.pc = s.g.sp.pc + 2 ∧
      t.g.sp.xm = some (BitVec.ofNat 10 (n.toNat + 2 * a.toNat + 4 * m.toNat + 8 * b.toNat + 16 * r.toNat + 32 * x.toNat +
        64 * e.toNat + 128 * d.toNat)) ∧
      t.g.sp.guardLeft = s.g.sp.guardLeft ∧ t.issuePc = s.g.sp.pc ∧ t = { s with g := { s.g with sp := t.g.sp } })

/-- NOP, BEAT, SLEEP, SLEEPT and YIELD (R175, R177, R207): the split goes past the instruction; BEAT adds imm10 + 1 to its
context's beats of the period, which stand at 2^32 − 1 at most; SLEEP n makes the split not ready for n cycles of its
cluster, SLEEPT until the timer reaches T, and each acts as a NOP for 0 and for a T that is not ahead; YIELD waits for
the other groups of its issue partition that are ready, at most 64 slots. -/
def ProgressParcelsPart : Prop :=
  (∀ s : State, s.issues .nop → exec .nop s = .next (s.movedTo (s.g.sp.pc + 2))) ∧
  (∀ (k : BitVec 10) (s : State) (l : Launch) (b : Beats), s.issues (.beat k) → s.launch = some l →
    s.beats.find? (fun x => x.part = l.part && x.ctx = l.ctx) = some b →
    ∃ t, exec (.beat k) s = .next t ∧ t.g = (s.movedTo (s.g.sp.pc + 2)).g ∧
      t.beats.find? (fun x => x.part = l.part && x.ctx = l.ctx) =
        some { b with count := min (b.count + (k.toNat + 1)) (2 ^ 32 - 1) } ∧ s.sameMemory t) ∧
  (∀ (k : BitVec 10) (s : State), s.issues (.sleep k) →
    exec (.sleep k) s = .next (if k = 0 then s.movedTo (s.g.sp.pc + 2)
      else (s.movedTo (s.g.sp.pc + 2)).waiting (.sleep ((s.clusterAt (coreCluster s.g.core)).cycle + k.toNat)))) ∧
  (∀ (a : BitVec 8) (s : State), s.issues (.sleept a) →
    exec (.sleept a) s = .next (if s.scalar64 (selOf a) ≤ s.timer then s.movedTo (s.g.sp.pc + 4)
      else (s.movedTo (s.g.sp.pc + 4)).waiting (.sleept (s.scalar64 (selOf a))))) ∧
  (∀ s : State, s.issues .yield →
    let ready := s.others.filter fun x =>
      !s.g.service && x.core = s.g.core && !x.service && issuePart x.slot = issuePart s.g.slot && s.groupReady x
    exec .yield s = .next (if ready = [] then s.movedTo (s.g.sp.pc + 2)
      else (s.movedTo (s.g.sp.pc + 2)).waiting (.yielded (ready.map Group.slot)
        ((s.coreAt s.g.core).slotNo s.g.partNo + 64))))

/-- GRD and XM, and the instructions that only let time pass or count (R128, R130 to R132, R175, R177, R207).
Where the spec leaves a point open it follows the model's choice (log entries 6, 11, 12 and 54). -/
def Obligations.GuardModifierProgress : Prop := GuardAndModifierPart ∧ ProgressParcelsPart

/-- TFENCE (R178, R353): no effect while no enabled flag stands; else the arithmetic trap, with the flags as its code,
resumed behind the TFENCE; it clears no flag. -/
def Obligations.ArithmeticFence : Prop :=
  ∀ (s : State) (l : Launch), s.issues .tfence → s.launch = some l →
    (s.g.arithFlags &&& l.eff.trapEnable = 0 → exec .tfence s = .next (s.movedTo (s.g.sp.pc + 2))) ∧
    (s.g.arithFlags &&& l.eff.trapEnable ≠ 0 → exec .tfence s = .next (s.takeTrap
      { cause := 0x11, code := (s.g.arithFlags &&& l.eff.trapEnable).toNat, write := false, pc := s.g.sp.pc + 2
        mask := s.act, done := 0, h0 := 0, h1 := 0, h2 := 0, h3 := 0 })) ∧
    (∀ t, exec .tfence s = .next t → t.g.arithFlags = s.g.arithFlags)

/-- TRAPI (R180): the issuing split traps at once with the deliberate cause and code imm; TRAPPC is the address after the
TRAPI and DONEMASK zero; in trap mode it is an illegal use; a word with D or A not zero is no TRAPI. -/
def Obligations.DeliberateTrap : Prop :=
  (∀ (k : BitVec 8) (s : State), s.issues (.trapi k) →
    (s.g.sp.trap = false → exec (.trapi k) s = .next (s.takeTrap
      { cause := 0x10, code := k.toNat, write := false, pc := s.g.sp.pc + 4, mask := s.act, done := 0
        h0 := 0, h1 := 0, h2 := 0, h3 := 0 })) ∧
    (s.g.sp.trap = true → exec (.trapi k) s = .next (s.takeTrap (s.illegal (.trapi k) 0x03)))) ∧
  (∀ (w : Nat) (k : BitVec 8), decode32 w = .ok (.trapi k) → w / 2 ^ 6 % 2 ^ 15 = 0)

/-! ### Memory accesses of the lanes -/

/-- Marking registers empty and full (R54): the named registers at the given offsets, and no others; nul, the q file and
LANE are always full. -/
def FullBitsPart : Prop :=
  ∀ (g : Group) (d sel : Nat) (offs : List Nat) (x : Bool), sel < 120 → g.sp.trap = false →
    (g.setFulls d offs x).full sel = (if d ≠ 124 ∧ ∃ k ∈ offs, sel = d + k then x else g.full sel) ∧
    (g.setFulls d offs x).full 124 = true ∧ (g.setFulls d offs x).full 120 = true ∧ (g.setFulls d offs x).full 125 = true

/-- Reading a register, a predicate and a full bit behind a write (R49 to R54, R137). -/
def Obligations.RegisterFile : Prop := RegisterWritePart ∧ PredicateWritePart ∧ FullBitsPart

/-- LD.B to LD.Q, LDP.W and LDS.B to LDS.Q (R54, R193, R195, R197): where every active lane's address passes its checks and
is translated, the access is issued and the destination registers are empty until it fills. -/
def LoadsIssuePart : Prop :=
  ∀ (h : BitVec 3) (x : BitVec 8) (r : BitVec 5) (d : BitVec 7) (s : State) (tgt : Lane → Target × Nat),
    let idx := fun l => s.srcOf x l
    let rec_ := fun (w : Nat) (sg : Bool) => LooksUp s (fun l =>
      s.laneRecord s.g (.load w sg h.toNat) (s.g.record r) (idx l).toNat w) tgt
    let spm := fun (w : Nat) => LooksUp s (fun l => (s.laneSpm s.g (idx l).toNat w false, s)) tgt
    let z := fun (_ : Lane) => 0
    (s.issues (.ldB h x r d) → rec_ 1 false → exec (.ldB h x r d) s = .next (issued s (.load 1 false h.toNat) d [0] idx z z tgt)) ∧
    (s.issues (.ldBs h x r d) → rec_ 1 true → exec (.ldBs h x r d) s = .next (issued s (.load 1 true h.toNat) d [0] idx z z tgt)) ∧
    (s.issues (.ldH h x r d) → rec_ 2 false → exec (.ldH h x r d) s = .next (issued s (.load 2 false h.toNat) d [0] idx z z tgt)) ∧
    (s.issues (.ldHs h x r d) → rec_ 2 true → exec (.ldHs h x r d) s = .next (issued s (.load 2 true h.toNat) d [0] idx z z tgt)) ∧
    (s.issues (.ldW h x r d) → rec_ 4 false → exec (.ldW h x r d) s = .next (issued s (.load 4 false h.toNat) d [0] idx z z tgt)) ∧
    (s.issues (.ldD h x r d) → rec_ 8 false → exec (.ldD h x r d) s = .next (issued s (.load 8 false h.toNat) d [0, 1] idx z z tgt)) ∧
    (s.issues (.ldQ h x r d) → rec_ 16 false → exec (.ldQ h x r d) s = .next (issued s (.load 16 false h.toNat) d [0, 1, 2, 3] idx z z tgt)) ∧
    (s.issues (.ldpW h x d) → LooksUp s (fun l => s.laneOwn s.g (.loadOwn h.toNat) l (idx l).toNat) tgt →
      exec (.ldpW h x d) s = .next (issued s (.loadOwn h.toNat) d [0] idx z (fun l => s.ownWordAt s.g l (idx l).toNat) tgt)) ∧
    (s.issues (.ldsB x d) → spm 1 → exec (.ldsB x d) s = .next (issued s (.load 1 false 0) d [0] idx z z tgt)) ∧
    (s.issues (.ldsW x d) → spm 4 → exec (.ldsW x d) s = .next (issued s (.load 4 false 0) d [0] idx z z tgt)) ∧
    (s.issues (.ldsD x d) → spm 8 → exec (.ldsD x d) s = .next (issued s (.load 8 false 0) d [0, 1] idx z z tgt)) ∧
    (s.issues (.ldsQ x d) → spm 16 → exec (.ldsQ x d) s = .next (issued s (.load 16 false 0) d [0, 1, 2, 3] idx z z tgt))

/-- ST.B to ST.Q, STP.W and STS.B to STS.Q (R194, R195, R197): the data register's low bytes go with the access; no register
becomes empty. PREF (R196) with an invalid record, or with hint 1, only goes past itself. -/
def StoresIssuePart : Prop :=
  ∀ (h : BitVec 3) (x : BitVec 8) (r : BitVec 5) (d : BitVec 7) (s : State) (tgt : Lane → Target × Nat),
    let idx := fun l => s.srcOf x l
    let v := fun (n : Nat) (l : Lane) => match n with
      | 1 => (s.g.readWord d.toNat 0 l).toNat % 256
      | 2 => (s.g.readWord d.toNat 0 l).toNat % 65536
      | 4 => (s.g.readWord d.toNat 0 l).toNat
      | 8 => (s.g.readWord d.toNat 0 l).toNat + (s.g.readWord d.toNat 1 l).toNat * 2 ^ 32
      | _ => (s.g.readWord d.toNat 0 l).toNat + (s.g.readWord d.toNat 1 l).toNat * 2 ^ 32 +
          (s.g.readWord d.toNat 2 l).toNat * 2 ^ 64 + (s.g.readWord d.toNat 3 l).toNat * 2 ^ 96
    let rec_ := fun (w : Nat) => LooksUp s (fun l =>
      s.laneRecord s.g (.store w h.toNat) (s.g.record r) (idx l).toNat w) tgt
    let spm := fun (w : Nat) => LooksUp s (fun l => (s.laneSpm s.g (idx l).toNat w false, s)) tgt
    let z := fun (_ : Lane) => 0
    (s.issues (.stB h x r d) → rec_ 1 → exec (.stB h x r d) s = .next (issued s (.store 1 h.toNat) 0x7C [] idx (v 1) z tgt)) ∧
    (s.issues (.stH h x r d) → rec_ 2 → exec (.stH h x r d) s = .next (issued s (.store 2 h.toNat) 0x7C [] idx (v 2) z tgt)) ∧
    (s.issues (.stW h x r d) → rec_ 4 → exec (.stW h x r d) s = .next (issued s (.store 4 h.toNat) 0x7C [] idx (v 4) z tgt)) ∧
    (s.issues (.stD h x r d) → rec_ 8 → exec (.stD h x r d) s = .next (issued s (.store 8 h.toNat) 0x7C [] idx (v 8) z tgt)) ∧
    (s.issues (.stQ h x r d) → rec_ 16 → exec (.stQ h x r d) s = .next (issued s (.store 16 h.toNat) 0x7C [] idx (v 16) z tgt)) ∧
    (s.issues (.stpW h x d) → LooksUp s (fun l => s.laneOwn s.g (.storeOwn h.toNat) l (idx l).toNat) tgt →
      exec (.stpW h x d) s = .next (issued s (.storeOwn h.toNat) 0x7C [] idx (fun l => (s.g.read d.toNat l).toNat)
        (fun l => s.ownWordAt s.g l (idx l).toNat) tgt)) ∧
    (s.issues (.stsB x d) → spm 1 → exec (.stsB x d) s = .next (issued s (.store 1 0) 0x7C [] idx (v 1) z tgt)) ∧
    (s.issues (.stsW x d) → spm 4 → exec (.stsW x d) s = .next (issued s (.store 4 0) 0x7C [] idx (v 4) z tgt)) ∧
    (s.issues (.stsD x d) → spm 8 → exec (.stsD x d) s = .next (issued s (.store 8 0) 0x7C [] idx (v 8) z tgt)) ∧
    (s.issues (.stsQ x d) → spm 16 → exec (.stsQ x d) s = .next (issued s (.store 16 0) 0x7C [] idx (v 16) z tgt)) ∧
    (s.issues (.pref h x r) → (h = 1 ∨ recordValid (s.g.record r) = false) →
      exec (.pref h x r) s = .next (s.movedTo (s.g.sp.pc + 4))) ∧
    (s.issues (.pref h x r) → ∃ t, exec (.pref h x r) s = .next t ∧ t.g = (s.movedTo (s.g.sp.pc + 4)).g ∧ t.flights = s.flights)

/-- Looking the active lanes up in ascending order (R59, R307) finds for each its place, or its page absent (none), at its
address, and leaves the machine u. -/
def LooksAway (s : State) (look : State → Lane → (LaneRes × Nat) × State) (tgt : Lane → Option Target × Nat) (u : State) : Prop :=
  lookLanes look (lanesOf s.act) s = ((lanesOf s.act).map fun l =>
    { lane := l, va := (tgt l).2, res := match (tgt l).1 with
        | some x => .ok x
        | none => .absent : LaneOut }, u)

/-- Absent pages at issue (R75, R311, R371, R374). The lanes of a load, or of an atomic with return, whose pages are absent hold: the
split waits for the access, whose destination is empty, and the other lanes are on their way at once. The lanes of a store or a RED
whose pages are absent enter the pantry while it has room, one entry for each line in the order of their lowest lanes, with the line,
the lanes and the bytes (of a byte that several lanes store, the highest lane's; of a RED each lane's operand and place), the other
lanes are on their way, and the split goes on. No memory changes. u is the machine that the look-ups leave. -/
def AbsentPagesPart : Prop :=
  ∀ (h : BitVec 3) (k : BitVec 2) (x : BitVec 8) (r : BitVec 5) (d : BitVec 7) (s u : State) (tgt : Lane → Option Target × Nat),
    u.g.core < 256 → s.act ≠ 0 → 2 ≤ k.toNat →
    let idx := fun l => (s.srcOf x l).toNat
    let found := (lanesOf s.act).filter fun l => (tgt l).1.isSome
    let away := (lanesOf s.act).filter fun l => (tgt l).1.isNone
    let lines := (away.map fun l => (tgt l).2 / 128).eraseDups
    let rec_ := fun (a : Access) (w : Nat) => LooksAway s (fun v l => v.laneRecord s.g a (s.g.record r) (idx l) w) tgt u
    let own := fun (a : Access) => LooksAway s (fun v l => v.laneOwn s.g a l (idx l)) tgt u
    let onWay := fun (a : Access) (f : Flight) => f.acc = a ∧ f.core = u.g.core ∧ f.slot = u.g.slot ∧ f.split = u.g.sp.age ∧
      f.lanes.map (fun y => (y.lane, some y.tgt, y.va)) = found.map fun l => (l.val, (tgt l).1, (tgt l).2)
    let holds := fun (i : Instr) (a : Access) (n : Nat) => s.issues i → away ≠ [] →
      ∃ t f, exec i s = .next t ∧ t.flights.getLast? = some f ∧ t.flights.length = u.flights.length + 1 ∧
        (∀ y ∈ u.flights, y.id ≠ u.nextId → y ∈ t.flights) ∧ onWay a f ∧ f.id = u.nextId ∧ f.dst = d ∧ f.performed = false ∧
        f.held.map (fun y => (y.lane, y.va)) = away.map (fun l => (l.val, (tgt l).2)) ∧
        t.g.sp.wait = .held f.id ∧ t.g.sp.pc = u.g.sp.pc ∧
        (d ≠ 124 → u.g.sp.trap = false → ∀ j, j < n → d.toNat + j < 120 → t.g.full (d.toNat + j) = false) ∧ u.sameMemory t
    let parks := fun (i : Instr) (a : Access) (entry : PantryEntry → Prop) => s.issues i →
      (u.coreAt u.g.core).pantry.length + lines.length ≤ 512 →
      ∃ t es, exec i s = .next t ∧ (t.coreAt u.g.core).pantry = (u.coreAt u.g.core).pantry ++ es ∧
        es.map (fun e => e.vline) = lines ∧
        (∀ e ∈ es, e.core = u.g.core ∧ e.slot = u.g.slot ∧ e.split = u.g.sp.age ∧ e.part = u.partOf u.g ∧ e.unmappable = false ∧
          (∀ l, laneIn e.lanes l = (laneIn s.act l && (tgt l).1.isNone && decide ((tgt l).2 / 128 = e.vline))) ∧ entry e) ∧
        (found = [] → t.flights = u.flights) ∧ (found ≠ [] → ∃ f, onWay a f ∧ f.held = [] ∧ t.flights = u.flights ++ [f]) ∧
        t.g.sp = (u.movedTo (u.g.sp.pc + 4)).g.sp ∧ u.sameMemory t
    let here := fun (e : PantryEntry) (l : Lane) => l ∈ away ∧ (tgt l).2 / 128 = e.vline
    let stored := fun (w : Nat) (v : Lane → Nat) (e : PantryEntry) => e.kind = 0 ∧
      (∀ o, o < 128 → (e.bytemask.getLsbD o = true ↔ ∃ l, here e l ∧ (tgt l).2 % 128 ≤ o ∧ o < (tgt l).2 % 128 + w)) ∧
      (∀ l j, here e l → j < w → (∀ m, here e m → l.val < m.val →
          (tgt l).2 % 128 + j < (tgt m).2 % 128 ∨ (tgt m).2 % 128 + w ≤ (tgt l).2 % 128 + j) →
        e.data.getD ((tgt l).2 % 128 + j) 0 = BitVec.ofNat 8 (v l / 256 ^ j))
    let reduced := fun (op n : Nat) (e : PantryEntry) => e.kind = 1 ∧ e.op = op ∧ e.site = k.toNat - 2 ∧
      (∀ l j, here e l → j < n → ∀ b, b < 4 → e.data.getD (4 * n * l.val + 4 * j + b) 0 =
        BitVec.ofNat 8 ((s.g.readWord d.toNat j l).toNat / 256 ^ b)) ∧
      (∀ l, here e l → e.word.toNat / 2 ^ (5 * l.val) % 32 = (tgt l).2 % 128 / 4)
    let words := fun (n : Nat) (l : Lane) => ((List.range n).map fun j => (s.g.readWord d.toNat j l).toNat * 2 ^ (32 * j)).sum
    let ld := fun (i : Instr) (w : Nat) (sg : Bool) => rec_ (.load w sg h.toNat) w → holds i (.load w sg h.toNat) ((w + 3) / 4)
    let st := fun (i : Instr) (w : Nat) => rec_ (.store w h.toNat) w →
      parks i (.store w h.toNat) (stored w fun l => words ((w + 3) / 4) l % 256 ^ w)
    let atom := fun (i : Instr) (major minor n : Nat) => rec_ (.atomic major minor (4 * n) k.toNat true) (4 * n) →
      holds i (.atomic major minor (4 * n) k.toNat true) n
    let red := fun (i : Instr) (major minor n : Nat) => rec_ (.atomic major minor (4 * n) k.toNat false) (4 * n) →
      parks i (.atomic major minor (4 * n) k.toNat false) (reduced (if major = 19 then minor else 8 + minor) n)
    ld (.ldB h x r d) 1 false ∧ ld (.ldBs h x r d) 1 true ∧ ld (.ldH h x r d) 2 false ∧ ld (.ldHs h x r d) 2 true ∧
    ld (.ldW h x r d) 4 false ∧ ld (.ldD h x r d) 8 false ∧ ld (.ldQ h x r d) 16 false ∧
    (own (.loadOwn h.toNat) → holds (.ldpW h x d) (.loadOwn h.toNat) 1) ∧
    st (.stB h x r d) 1 ∧ st (.stH h x r d) 2 ∧ st (.stW h x r d) 4 ∧ st (.stD h x r d) 8 ∧ st (.stQ h x r d) 16 ∧
    (own (.storeOwn h.toNat) → parks (.stpW h x d) (.storeOwn h.toNat) (stored 4 fun l => (s.g.read d.toNat l).toNat)) ∧
    atom (.atomAdd k x r d) 19 0 1 ∧ atom (.atomMinS k x r d) 19 1 1 ∧ atom (.atomMaxS k x r d) 19 2 1 ∧
    atom (.atomAnd k x r d) 19 3 1 ∧ atom (.atomOr k x r d) 19 4 1 ∧ atom (.atomXor k x r d) 19 5 1 ∧
    atom (.atomExch k x r d) 19 6 1 ∧ atom (.atomCas k x r d) 19 7 1 ∧ atom (.atomAddF32 k x r d) 20 0 1 ∧
    atom (.atomAddD k x r d) 20 1 2 ∧ atom (.atomCasD k x r d) 20 2 2 ∧ atom (.atomExchD k x r d) 20 3 2 ∧
    atom (.atomMinU k x r d) 20 4 1 ∧ atom (.atomMaxU k x r d) 20 5 1 ∧ atom (.atomIncWrap k x r d) 20 6 1 ∧
    atom (.atomAddF64 k x r d) 20 7 2 ∧
    red (.redAdd k x r d) 19 0 1 ∧ red (.redMinS k x r d) 19 1 1 ∧ red (.redMaxS k x r d) 19 2 1 ∧
    red (.redAnd k x r d) 19 3 1 ∧ red (.redOr k x r d) 19 4 1 ∧ red (.redXor k x r d) 19 5 1 ∧
    red (.redExch k x r d) 19 6 1 ∧ red (.redAddF32 k x r d) 20 0 1 ∧ red (.redAddD k x r d) 20 1 2 ∧
    red (.redExchD k x r d) 20 3 2 ∧ red (.redMinU k x r d) 20 4 1 ∧ red (.redMaxU k x r d) 20 5 1 ∧
    red (.redIncWrap k x r d) 20 6 1 ∧ red (.redAddF64 k x r d) 20 7 2

/-- Loads, stores and prefetch as they issue (R54, R193 to R197), and those whose pages are absent (R75, R311, R371, R374).
Where the spec leaves a point open it follows the model's choice (log entries 7, 15 and 43). -/
def Obligations.LoadsAndStoresIssue : Prop := LoadsIssuePart ∧ StoresIssuePart ∧ AbsentPagesPart

/-- The atomics of majors 19 and 20 and their no-return forms (R54, R123, R198): at .blk and .clu the index is a scratchpad
address, at .dev and .sys it indexes the record; CAS takes the compare value from the data register and the new
value from the one behind it; ATOM empties its data register until the old value comes back, RED does not.
Where the spec leaves a point open it follows the model's choice (log entries 7 and 15). -/
def Obligations.AtomicsIssue : Prop :=
  ∀ (k : BitVec 2) (x : BitVec 8) (r : BitVec 5) (d : BitVec 7) (s : State) (tgt : Lane → Target × Nat),
    let idx := fun l => s.srcOf x l
    let low := fun (n : Nat) (l : Lane) => match n with
      | 1 => (s.g.readWord d.toNat 0 l).toNat
      | _ => (s.g.readWord d.toNat 0 l).toNat + (s.g.readWord d.toNat 1 l).toNat * 2 ^ 32
    let high := fun (n : Nat) (l : Lane) => match n with
      | 1 => (s.g.readWord d.toNat 1 l).toNat
      | _ => (s.g.readWord d.toNat 2 l).toNat + (s.g.readWord d.toNat 3 l).toNat * 2 ^ 32
    let z := fun (_ : Lane) => 0
    let look := fun (a : Access) (w : Nat) => LooksUp s (fun l =>
      if k.toNat < 2 then (s.laneSpm s.g (idx l).toNat w (decide (k = 0)), s)
      else s.laneRecord s.g a (s.g.record r) (idx l).toNat w) tgt
    let atom := fun (i : Instr) (major minor n : Nat) => s.issues i → look (.atomic major minor (4 * n) k.toNat true) (4 * n) →
      exec i s = .next (issued s (.atomic major minor (4 * n) k.toNat true) d (List.range n) idx (low n) z tgt)
    let red := fun (i : Instr) (major minor n : Nat) => s.issues i → look (.atomic major minor (4 * n) k.toNat false) (4 * n) →
      exec i s = .next (issued s (.atomic major minor (4 * n) k.toNat false) 0x7C [] idx (low n) z tgt)
    let cas := fun (i : Instr) (major minor n : Nat) => s.issues i → look (.atomic major minor (4 * n) k.toNat true) (4 * n) →
      exec i s = .next (issued s (.atomic major minor (4 * n) k.toNat true) d (List.range n) idx (high n) (low n) tgt)
    atom (.atomAdd k x r d) 19 0 1 ∧ atom (.atomMinS k x r d) 19 1 1 ∧ atom (.atomMaxS k x r d) 19 2 1 ∧
    atom (.atomAnd k x r d) 19 3 1 ∧ atom (.atomOr k x r d) 19 4 1 ∧ atom (.atomXor k x r d) 19 5 1 ∧
    atom (.atomExch k x r d) 19 6 1 ∧ cas (.atomCas k x r d) 19 7 1 ∧
    atom (.atomAddF32 k x r d) 20 0 1 ∧ atom (.atomAddD k x r d) 20 1 2 ∧ cas (.atomCasD k x r d) 20 2 2 ∧
    atom (.atomExchD k x r d) 20 3 2 ∧ atom (.atomMinU k x r d) 20 4 1 ∧ atom (.atomMaxU k x r d) 20 5 1 ∧
    atom (.atomIncWrap k x r d) 20 6 1 ∧ atom (.atomAddF64 k x r d) 20 7 2 ∧
    red (.redAdd k x r d) 19 0 1 ∧ red (.redMinS k x r d) 19 1 1 ∧ red (.redMaxS k x r d) 19 2 1 ∧
    red (.redAnd k x r d) 19 3 1 ∧ red (.redOr k x r d) 19 4 1 ∧ red (.redXor k x r d) 19 5 1 ∧
    red (.redExch k x r d) 19 6 1 ∧ red (.redAddF32 k x r d) 20 0 1 ∧ red (.redAddD k x r d) 20 1 2 ∧
    red (.redExchD k x r d) 20 3 2 ∧ red (.redMinU k x r d) 20 4 1 ∧ red (.redMaxU k x r d) 20 5 1 ∧
    red (.redIncWrap k x r d) 20 6 1 ∧ red (.redAddF64 k x r d) 20 7 2

/-- The versioned instructions, CPOLL and BREC (R89, R184, R201 to R204, R208, R376): LDV, LDVS, VRD and CASV issue as the loads do,
LDV and LDVS while the snapshot set has room for their lanes (R380), CASV, which begins as a release, where the pantry
holds no unmappable entry of the group (R376); VCHK waits for its flight; VCLR removes every entry
of the active lanes; CPOLL reads one object for all active lanes; BREC loads 16 bytes into a record, which is pending
until they come.
Where the spec leaves a point open it follows the model's choice (log entries 7 and 22). -/
def Obligations.VersionedIssue : Prop :=
  ∀ (x : BitVec 8) (r : BitVec 5) (d : BitVec 7) (s : State) (tgt : Lane → Target × Nat),
    let idx := fun l => s.srcOf x l
    let rec_ := fun (a : Access) (w : Nat) => LooksUp s (fun l => s.laneRecord s.g a (s.g.record r) (idx l).toNat w) tgt
    let room := s.g.snaps.length + (s.snapsPending s.g).length + popcount s.act ≤ 64
    let mapped := ∀ e ∈ s.myPantry, e.unmappable = false
    let z := fun (_ : Lane) => 0
    (s.issues (.ldv x r d) → rec_ .ldv 4 → room → exec (.ldv x r d) s = .next (issued s .ldv d [0, 1] idx z z tgt)) ∧
    (s.issues (.ldvsW x r d) → rec_ (.ldvs 4) 4 → room → exec (.ldvsW x r d) s = .next (issued s (.ldvs 4) d [0] idx z z tgt)) ∧
    (s.issues (.ldvsD x r d) → rec_ (.ldvs 8) 8 → room → exec (.ldvsD x r d) s = .next (issued s (.ldvs 8) d [0, 1] idx z z tgt)) ∧
    (s.issues (.vrd x r d) → rec_ .vrd 4 → exec (.vrd x r d) s = .next (issued s .vrd d [0] idx z z tgt)) ∧
    (s.issues (.casvW x r d) → rec_ (.casv 4) 4 → mapped → exec (.casvW x r d) s = .next (issued s (.casv 4) d [0, 1] idx
      (fun l => (s.g.readWord d.toNat 0 l).toNat) (fun l => (s.g.readWord d.toNat 1 l).toNat) tgt)) ∧
    (s.issues (.casvD x r d) → rec_ (.casv 8) 8 → mapped → exec (.casvD x r d) s = .next (issued s (.casv 8) d [0, 2] idx
      (fun l => (s.g.readWord d.toNat 0 l).toNat + (s.g.readWord d.toNat 1 l).toNat * 2 ^ 32)
      (fun l => (s.g.readWord d.toNat 2 l).toNat) tgt)) ∧
    (∀ p, s.issues (.vchk p) → s.act ≠ 0 → ∃ t f, exec (.vchk p) s = .next t ∧ t.flights = s.flights ++ [f] ∧
      f.acc = .vchk p.toNat ∧ f.mask = s.act ∧ t.g.sp.wait = .check f.id ∧ t.g.sp.pc = s.g.sp.pc + 4 ∧ s.sameMemory t) ∧
    (s.issues .vclr → ∃ t, exec .vclr s = .next t ∧ t.g.sp = (s.movedTo (s.g.sp.pc + 4)).g.sp ∧
      t.g.snaps = s.g.snaps.filter (fun e => !((lanesOf s.act).any fun l => l.val = e.lane)) ∧
      t = { s with g := { s.g with snaps := t.g.snaps, sp := t.g.sp } }) ∧
    (∀ (a : BitVec 8) (l : Lane) (tg : Target) (va : Nat), s.issues (.cpoll r a d) → lowest s.act = some l →
      s.laneRecord s.g .cpoll (s.g.record r) (s.srcOf a l).toNat 8 = ((.ok tg, va), s) →
      ∃ t f, exec (.cpoll r a d) s = .next t ∧ t.flights = s.flights ++ [f] ∧ f.acc = .cpoll ∧ f.mask = s.act ∧
        f.lanes = [{ lane := l.val, tgt := tg, v := 0, c := 0, va := va }] ∧ f.dst = d ∧ f.words = [0, 1] ∧
        t.g = (((s.modG fun g => g.setFulls d.toNat [0, 1] false).movedTo (s.g.sp.pc + 4))).g) ∧
    (∀ (o a : BitVec 8) (n : BitVec 5) (l : Lane) (tg : Target), s.issues (.brec o a n) → lowest s.act = some l →
      let va := (BitVec.ofInt 56 ((s.g.read64 (selOf a) l).toNat + 16 * o.toInt)).toNat
      va % 16 = 0 → s.laneTranslate s.g (.brec n.toNat) false va = (.ok tg, s) →
      ∃ t f, exec (.brec o a n) s = .next t ∧ t.flights = s.flights ++ [f] ∧ f.acc = .brec n.toNat ∧
        f.lanes = [{ lane := l.val, tgt := tg, v := 0, c := 0, va := va }] ∧ t.g.bPend = s.g.bPend ||| (1#32 <<< n.toNat) ∧
        t.g.sp = (s.movedTo (s.g.sp.pc + 4)).g.sp)

/-- What a lane's access through a record meets, in this order (R57 to R59, R354, R367): an invalid record, cause 0x06; an
element at or behind the extent, 0x07; an address that is no multiple of the width, 0x09; the address is the record's
function of the index modulo 2^56. For a record without swizzle it is base + index × (stride, or the element size
where the stride is 0). -/
def Obligations.RecordChecks : Prop :=
  ∀ (s : State) (g : Group) (a : Access) (r : BitVec 128) (i width : Nat),
    let x := s.laneRecord g a r i width
    let va := recordEa r i
    (recordValid r = false → x = ((.bad 0x06 0, va), s)) ∧
    (recordValid r = true → recExtent r < i + max (width / recElem r) 1 → x = ((.bad 0x07 0, va), s)) ∧
    (recordValid r = true → i + max (width / recElem r) 1 ≤ recExtent r → va % width ≠ 0 → x = ((.bad 0x09 0, va), s)) ∧
    (recordValid r = true → i + max (width / recElem r) 1 ≤ recExtent r → va % width = 0 → recHost r = false →
      x.1.1 = (s.laneTranslate g a (a.isWrite && recReadOnly r) va).1 ∧ x.1.2 = va) ∧
    (bget r 111 4 = 0 → va = (bget r 0 56 + i * (if bget r 88 20 = 0 then 2 ^ bget r 108 3 else bget r 88 20)) % 2 ^ 56) ∧
    va < 2 ^ 56

/-- A lane memory instruction of which every active lane is refused (R353 to R356), be it a load, a store, an atomic, a
versioned access or an access to the scratchpad or to a lane's own words: the trap has the lowest cause number, the mask of
the lanes that raised it, no lane done, and h0 to h3 tell the lowest such lane's address, index and number; before the trap
is taken nothing else changes, but that words of a lost line of which a lane has now heard are no longer among the lost
(R402). CPOLL and BREC, one access for the whole split, name all active lanes and the lowest. -/
def Obligations.LaneCauseTraps : Prop :=
  ∀ (h : BitVec 3) (k : BitVec 2) (x : BitVec 8) (r : BitVec 5) (d : BitVec 7) (s : State) (cause code va : Nat) (low : Lane)
    (res : Lane → Nat × Nat × Nat),
    laneIn s.act low = true → res low = (cause, code, va) →
    (∀ l, laneIn s.act l = true → cause ≤ (res l).1 ∧ ((res l).1 = cause → low.val ≤ l.val)) →
    let idx := fun l => s.srcOf x l
    let traps := fun (i : Instr) (w : Bool) (m : Mask) (index : Word) => ∃ u : State,
      { u with lost := s.lost } = s ∧ (cause ≠ 0x0E ∨ s.lost = [] → u = s) ∧
      exec i s = .next (u.takeTrap
        { cause := cause, code := code, write := w, pc := s.issuePc, mask := m, done := 0
          h0 := BitVec.ofNat 32 va, h1 := BitVec.ofNat 32 (va / 2 ^ 32 % 2 ^ 24), h2 := index
          h3 := BitVec.ofNat 32 low.val })
    let lanes := fun (i : Instr) (w : Bool) (look : Lane → (LaneRes × Nat) × State) => s.issues i →
      (∀ l, laneIn s.act l = true → look l = ((.bad (res l).1 (res l).2.1, (res l).2.2), s)) →
      ∃ m : Mask, (∀ l, laneIn m l = (laneIn s.act l && decide ((res l).1 = cause))) ∧ traps i w m (idx low)
    let rec_ := fun (i : Instr) (w : Bool) (a : Access) (n : Nat) =>
      lanes i w fun l => s.laneRecord s.g a (s.g.record r) (idx l).toNat n
    let spm := fun (i : Instr) (w : Bool) (n : Nat) => lanes i w fun l => (s.laneSpm s.g (idx l).toNat n false, s)
    let own := fun (i : Instr) (w : Bool) (a : Access) => lanes i w fun l => s.laneOwn s.g a l (idx l).toNat
    let atomic := fun (i : Instr) (major minor n : Nat) (ret : Bool) => lanes i true fun l =>
      if k.toNat < 2 then (s.laneSpm s.g (idx l).toNat (4 * n) (decide (k = 0)), s)
      else s.laneRecord s.g (.atomic major minor (4 * n) k.toNat ret) (s.g.record r) (idx l).toNat (4 * n)
    let mapped := ∀ e ∈ s.myPantry, e.unmappable = false
    rec_ (.ldB h x r d) false (.load 1 false h.toNat) 1 ∧ rec_ (.ldBs h x r d) false (.load 1 true h.toNat) 1 ∧
    rec_ (.ldH h x r d) false (.load 2 false h.toNat) 2 ∧ rec_ (.ldHs h x r d) false (.load 2 true h.toNat) 2 ∧
    rec_ (.ldW h x r d) false (.load 4 false h.toNat) 4 ∧ rec_ (.ldD h x r d) false (.load 8 false h.toNat) 8 ∧
    rec_ (.ldQ h x r d) false (.load 16 false h.toNat) 16 ∧
    rec_ (.stB h x r d) true (.store 1 h.toNat) 1 ∧ rec_ (.stH h x r d) true (.store 2 h.toNat) 2 ∧
    rec_ (.stW h x r d) true (.store 4 h.toNat) 4 ∧ rec_ (.stD h x r d) true (.store 8 h.toNat) 8 ∧
    rec_ (.stQ h x r d) true (.store 16 h.toNat) 16 ∧
    own (.ldpW h x d) false (.loadOwn h.toNat) ∧ own (.stpW h x d) true (.storeOwn h.toNat) ∧
    spm (.ldsB x d) false 1 ∧ spm (.ldsW x d) false 4 ∧ spm (.ldsD x d) false 8 ∧ spm (.ldsQ x d) false 16 ∧
    spm (.stsB x d) true 1 ∧ spm (.stsW x d) true 4 ∧ spm (.stsD x d) true 8 ∧ spm (.stsQ x d) true 16 ∧
    atomic (.atomAdd k x r d) 19 0 1 true ∧ atomic (.atomMinS k x r d) 19 1 1 true ∧ atomic (.atomMaxS k x r d) 19 2 1 true ∧
    atomic (.atomAnd k x r d) 19 3 1 true ∧ atomic (.atomOr k x r d) 19 4 1 true ∧ atomic (.atomXor k x r d) 19 5 1 true ∧
    atomic (.atomExch k x r d) 19 6 1 true ∧ atomic (.atomCas k x r d) 19 7 1 true ∧
    atomic (.atomAddF32 k x r d) 20 0 1 true ∧ atomic (.atomAddD k x r d) 20 1 2 true ∧
    atomic (.atomCasD k x r d) 20 2 2 true ∧ atomic (.atomExchD k x r d) 20 3 2 true ∧
    atomic (.atomMinU k x r d) 20 4 1 true ∧ atomic (.atomMaxU k x r d) 20 5 1 true ∧
    atomic (.atomIncWrap k x r d) 20 6 1 true ∧ atomic (.atomAddF64 k x r d) 20 7 2 true ∧
    atomic (.redAdd k x r d) 19 0 1 false ∧ atomic (.redMinS k x r d) 19 1 1 false ∧ atomic (.redMaxS k x r d) 19 2 1 false ∧
    atomic (.redAnd k x r d) 19 3 1 false ∧ atomic (.redOr k x r d) 19 4 1 false ∧ atomic (.redXor k x r d) 19 5 1 false ∧
    atomic (.redExch k x r d) 19 6 1 false ∧ atomic (.redAddF32 k x r d) 20 0 1 false ∧
    atomic (.redAddD k x r d) 20 1 2 false ∧ atomic (.redExchD k x r d) 20 3 2 false ∧
    atomic (.redMinU k x r d) 20 4 1 false ∧ atomic (.redMaxU k x r d) 20 5 1 false ∧
    atomic (.redIncWrap k x r d) 20 6 1 false ∧ atomic (.redAddF64 k x r d) 20 7 2 false ∧
    rec_ (.ldv x r d) false .ldv 4 ∧ rec_ (.ldvsW x r d) false (.ldvs 4) 4 ∧ rec_ (.ldvsD x r d) false (.ldvs 8) 8 ∧
    rec_ (.vrd x r d) false .vrd 4 ∧ (mapped → rec_ (.casvW x r d) true (.casv 4) 4) ∧
    (mapped → rec_ (.casvD x r d) true (.casv 8) 8) ∧
    (∀ a, s.issues (.cpoll r a d) → lowest s.act = some low →
      s.laneRecord s.g .cpoll (s.g.record r) (s.srcOf a low).toNat 8 = ((.bad cause code, va), s) →
      traps (.cpoll r a d) false s.act (s.srcOf a low)) ∧
    (∀ (o a : BitVec 8) (n : BitVec 5), s.issues (.brec o a n) → lowest s.act = some low →
      va = (BitVec.ofInt 56 ((s.g.read64 (selOf a) low).toNat + 16 * o.toInt)).toNat → va % 16 = 0 →
      s.laneTranslate s.g (.brec n.toNat) false va = (.bad cause code, s) →
      traps (.brec o a n) false s.act 0)

/-- ACCESS_PERFORMED of a store to device memory (R59, R72, R74, R88, R194): where the flight may be performed, no earlier request
stands at its places, no entry of a dirty log is owed, no line of the core is dirty and none of its group's own words wait in
the pantry for the lines reached, every byte a lane stores takes the value of the highest such lane, every
other byte of device memory keeps its own, each line rises by one version for each line of virtual addresses by which lanes reach it,
and the flight is over. Host memory and scratchpads do not change.
Where the spec leaves a point open it follows the model's choice (log entry 7). -/
def Obligations.StorePerformed : Prop :=
  ∀ (s : State) (f : Flight) (w hint : Nat) (l : List (Nat × Nat × Nat)) (va : Nat × Nat × Nat → Nat),
    s.memOk → Smap.wf 0 s.versions = true → s.flight s.ev.id = some f → s.mayPerform f = true → s.ev.line = 0 →
    f.acc = .store w hint → w ∈ [1, 2, 4, 8, 16] → f.held = [] → s.flightBehind f = false →
    f.lanes = l.map (fun x => { lane := x.1, tgt := .dev x.2.1, v := x.2.2, c := 0, va := va x : LaneAcc }) → l ≠ [] →
    (∀ x ∈ l, x.2.1 % w = 0 ∧ s.poisoned (x.2.1 / 128) = false) →
    (∀ x ∈ (s.coreAt f.core).l1, x.dirty = 0) → (∀ x ∈ l, s.ownParked f.core f.slot (x.2.1 / 128) = false) →
    s.logTargets (match s.groupAt f.core f.slot with
      | some g => s.vdOf g.launch
      | none => s.vdOf 0) (l.map fun x => .dev x.2.1) = some s →
    ∃ t, exec .accessPerformed s = .next t ∧
      (∀ a, (∀ x ∈ l, a < x.2.1 ∨ x.2.1 + w ≤ a) → Memory.read t.dev a = Memory.read s.dev a) ∧
      (∀ p x q k, l = p ++ x :: q → k < w → (∀ y ∈ q, x.2.1 + k < y.2.1 ∨ y.2.1 + w ≤ x.2.1 + k) →
        Memory.read t.dev (x.2.1 + k) = BitVec.ofNat 8 (x.2.2 / 256 ^ k)) ∧
      (∀ ln, Smap.get 0 t.versions ln = Smap.get 0 s.versions ln +
        BitVec.ofNat 32 ((l.filter fun x => x.2.1 / 128 = ln).map fun x => va x / 128).eraseDups.length) ∧
      (∀ y ∈ t.flights, y.id ≠ f.id) ∧ t.host = s.host ∧ t.peers = s.peers ∧
      (∀ c a, Memory.read (t.coreAt c).scratch a = Memory.read (s.coreAt c).scratch a)

/-- What an atomic leaves of an old value m, an operand v and a compare value c, all below 2^32 (R199): the sum modulo
2^32, the signed extremes, the bitwise results, the exchange, and the exchange where m = c; the unsigned extremes; INC.WRAP 0
where v ≤ m and m + 1 otherwise; and the 64-bit sum modulo 2^64. -/
def AtomicResultsPart : Prop :=
  (∀ m v c : Word,
    let f := fun (major minor : Nat) => (atomicNew major minor 4 m.toNat v.toNat c.toNat)
    f 19 0 = ((m + v).toNat, true) ∧ f 19 1 = ((if m.slt v then m else v).toNat, true) ∧
    f 19 2 = ((if m.slt v then v else m).toNat, true) ∧ f 19 3 = ((m &&& v).toNat, true) ∧
    f 19 4 = ((m ||| v).toNat, true) ∧ f 19 5 = ((m ^^^ v).toNat, true) ∧ f 19 6 = (v.toNat, true) ∧
    f 19 7 = (if m = c then (v.toNat, true) else (m.toNat, false)) ∧
    f 20 4 = ((if m.ult v then m else v).toNat, true) ∧ f 20 5 = ((if m.ult v then v else m).toNat, true) ∧
    f 20 6 = ((if v ≤ m then 0 else m + 1).toNat, true) ∧ f 20 0 = ((addF fp32 .rne m.toNat v.toNat).1, true)) ∧
  (∀ m v c : BitVec 64,
    let f := fun (minor : Nat) => (atomicNew 20 minor 8 m.toNat v.toNat c.toNat)
    f 1 = ((m + v).toNat, true) ∧ f 2 = (if m = c then (v.toNat, true) else (m.toNat, false)) ∧ f 3 = (v.toNat, true) ∧
    f 7 = ((addF fp64 .rne m.toNat v.toNat).1, true))

/-- Two lanes of one atomic at one scratchpad word follow one another, the lower lane first (R48, R199): the second finds what
the first left, each receives what it found, and every byte outside the word keeps its value. -/
def AtomicsFollowPart : Prop :=
  ∀ (s : State) (core major minor o : Nat) (x y : Nat × Nat × Nat), s.memOk → core < 256 →
    let old := Memory.readLE (s.coreAt core).scratch o 4
    let n1 := atomicNew major minor 4 old x.2.1 x.2.2
    let n2 := atomicNew major minor 4 (n1.1 % 2 ^ 32) y.2.1 y.2.2
    n1.2 = true → n2.2 = true →
    let l := [x, y].map fun z => { lane := z.1, tgt := .spm core o, v := z.2.1, c := z.2.2 : LaneAcc }
    let r := s.atomicLanes core major minor 4 l
    r.1 = [(x.1, old), (y.1, n1.1 % 2 ^ 32)] ∧ Memory.readLE (r.2.coreAt core).scratch o 4 = n2.1 % 2 ^ 32 ∧
    (∀ a, a < o ∨ o + 4 ≤ a → Memory.read (r.2.coreAt core).scratch a = Memory.read (s.coreAt core).scratch a) ∧
    r.2.dev = s.dev ∧ r.2.host = s.host

/-- What an atomic leaves, and that lanes follow one another (R48, R199).
Where the spec leaves a point open it follows the model's choice (log entry 7). -/
def Obligations.Atomics : Prop := AtomicResultsPart ∧ AtomicsFollowPart

/-- LONG_LATENCY_FILL of a performed access (R51, R54, R193, R202, R203, R294): each lane with a result receives it in the
destination registers, bytes and halves extended by zeros or by their sign, pairs and quads low word first; an s register
and, in trap mode, h0 to h3 take the lowest such lane's; the destination is full, every other register keeps its value, the
flight is over, and no memory changes. BREC's record is loaded, and CPOLL's object goes to every active lane. A flight not performed yet is left alone. -/
def LoadFillsPart : Prop :=
  (∀ (s : State) (f : Flight) (word : Nat → Nat → Word), s.flight s.ev.id = some f → f.performed = true →
    (((f.acc = .ready ∨ (∃ h, f.acc = .loadOwn h) ∨ (∃ w h, f.acc = .load w false h) ∨
        (∃ w, f.acc = .ldvs w) ∨ ∃ major minor w k, f.acc = .atomic major minor w k true) ∧ word = fun k v => BitVec.ofNat 32 (v / 2 ^ (32 * k))) ∨
      (∃ w h, (w = 1 ∨ w = 2) ∧ f.acc = .load w true h ∧ word = fun _ v => (BitVec.ofNat (8 * w) v).signExtend 32) ∨
      ((f.acc = .ldv ∨ ∃ w, f.acc = .casv w) ∧ word = fun k v => BitVec.ofNat 32 (if k = 0 then v else v / 2 ^ 64)) ∨
      (f.acc = .vrd ∧ word = fun _ v => BitVec.ofNat 32 (v / 2 ^ 64))) →
    s.g.live = true → s.g.core = f.core → s.g.slot = f.slot → s.g.waiter f.id = none →
    ∃ t, exec .longLatencyFill s = .next t ∧
      t.flights = s.flights.filter (fun x => x.id ≠ f.id) ∧ t.g.p = s.g.p ∧ t.g.q = s.g.q ∧ t.g.b = s.g.b ∧ t.g.d = s.g.d ∧
      t.g.arithFlags = s.g.arithFlags ∧ s.sameMemory t ∧
      let d := f.dst.toNat
      let has := fun (l : Lane) (v : Nat) => f.results.lookup l.val = some v ∧ ∀ j : Lane, j.val < l.val → f.results.lookup j.val = none
      ((∀ k ∈ f.words, d + k < 96) ∨ (112 ≤ d ∧ ∀ k ∈ f.words, d + k < 120) →
        (∀ k ∈ f.words, t.g.full (d + k) = true ∧ ∀ l : Lane, t.g.read (d + k) l = match f.results.lookup l.val with
          | some v => word k v
          | none => s.g.read (d + k) l) ∧
        (∀ sel (l : Lane), (∀ k ∈ f.words, sel ≠ d + k) → t.g.read sel l = s.g.read sel l)) ∧
      (96 ≤ d → (∀ k ∈ f.words, d + k < if f.trap then 108 else 112) →
        (∀ k ∈ f.words, t.g.feS.getLsbD (d - 96 + k) = true ∧ ∀ l v, has l v → vget t.g.s (d - 96 + k) 0 = word k v) ∧
        (∀ j, (∀ k ∈ f.words, j ≠ d - 96 + k) → vget t.g.s j 0 = vget s.g.s j 0) ∧
        t.g.v = s.g.v ∧ t.g.o = s.g.o ∧ t.g.h = s.g.h) ∧
      (f.trap = true → 108 ≤ d → (∀ k ∈ f.words, d + k < 112) →
        (∀ k ∈ f.words, ∀ l v, has l v → vget t.g.h (d - 108 + k) 0 = word k v) ∧
        (∀ j, (∀ k ∈ f.words, j ≠ d - 108 + k) → vget t.g.h j 0 = vget s.g.h j 0) ∧
        t.g.v = s.g.v ∧ t.g.o = s.g.o ∧ t.g.s = s.g.s) ∧
      (d = 124 → t.g.v = s.g.v ∧ t.g.s = s.g.s ∧ t.g.o = s.g.o ∧ t.g.h = s.g.h)) ∧
  (∀ (s : State) (f : Flight) (n l v : Nat), s.flight s.ev.id = some f → f.performed = true → f.acc = .brec n → n < 32 →
    f.results = [(l, v)] → s.g.live = true → s.g.core = f.core → s.g.slot = f.slot → s.g.waiter f.id = none →
    ∃ t, exec .longLatencyFill s = .next t ∧ vget t.g.b n 0 = BitVec.ofNat 128 v ∧
      (∀ j, j ≠ n → vget t.g.b j 0 = vget s.g.b j 0 ∧ t.g.bPend.getLsbD j = s.g.bPend.getLsbD j) ∧
      t.g.bPend.getLsbD n = false ∧ t.g.v = s.g.v ∧ t.g.s = s.g.s ∧ t.g.o = s.g.o ∧ s.sameMemory t) ∧
  (∀ (s : State) (f : Flight) (n v : Nat), s.flight s.ev.id = some f → f.performed = true → f.acc = .cpoll → f.words = [0, 1] →
    f.results = [(n, v)] → s.g.live = true → s.g.core = f.core → s.g.slot = f.slot → s.g.waiter f.id = none → f.dst.toNat + 1 < 96 →
    ∃ t, exec .longLatencyFill s = .next t ∧ s.sameMemory t ∧
      ∀ k, k < 2 → t.g.full (f.dst.toNat + k) = true ∧ ∀ l : Lane, t.g.read (f.dst.toNat + k) l =
        if laneIn f.mask l = true then BitVec.ofNat 32 (v / 2 ^ (32 * k)) else s.g.read (f.dst.toNat + k) l) ∧
  (∀ (s : State) (f : Flight), s.flight s.ev.id = some f → f.performed = false → exec .longLatencyFill s = .next s)

/-- ACCESS_PERFORMED of a load (R59, R62, R71, R72, R89, R193, R195, R197, R202 to R204, R208). Where it may be performed, no line of its core
is dirty, no line that it reaches is poisoned, and none of its group's own words wait in the pantry for those lines, each lane
finds: with LD and LDP, on lines that the L1 does not hold, the bytes of device memory, and on a line that the L1 holds the words it holds; BREC's are a load of 16
bytes; a load of the scratchpad, of host memory or of a peer finds the bytes there; with LDV, LDVS and VRD the bytes and the line's version, LDV and LDVS entering each lane's line in the
snapshot set, with that version and the timer, where it is not there; with CPOLL the object. CASV of one lane writes when the lane has an entry for the line that is younger than 2^32 ticks and
not older than the vault's clear stamp, and the line's version is the one expected: its bytes change, the version rises, the entry takes the
new version and the timer, and the lane finds outcome 1 and the new version; else nothing changes and the lane finds outcome 0 and the version.
VCHK finds for each lane whether every entry of it still holds, and LONG_LATENCY_FILL gives that to its predicate. No memory but
CASV's bytes changes. -/
def LoadsPerformedPart : Prop :=
  (∀ (s : State) (f : Flight) (l : List LaneAcc), s.flight s.ev.id = some f → s.mayPerform f = true → s.ev.line = 0 → f.held = [] →
    f.lanes = l → l ≠ [] → s.g.live = true → f.core = s.g.core → f.slot = s.g.slot → s.g.core < 256 →
    (∀ x ∈ (s.coreAt f.core).l1, x.dirty = 0) →
    let lineOf := fun (x : LaneAcc) => match x.tgt with
      | .dev pa => some (pa / 128)
      | _ => none
    (∀ x ∈ l, ∀ ln, lineOf x = some ln → s.poisoned ln = false ∧ s.ownParked f.core f.slot ln = false) →
    let finds := fun (t : State) (v : LaneAcc → Nat) => ∃ y, t.flight f.id = some y ∧ y.performed = true ∧ y.lanes = [] ∧
      y.results = f.results ++ l.map fun x => (x.lane, v x)
    let dev := fun (w : Nat) => ∀ x ∈ l, ∃ pa, x.tgt = .dev pa ∧ pa % w = 0
    let away := ∀ x ∈ l, ∀ ln, lineOf x = some ln → (s.coreAt f.core).line ln = none
    let bytes := fun (w : Nat) (x : LaneAcc) => s.peek x.tgt w
    let version := fun (x : LaneAcc) => match lineOf x with
      | some ln => (Smap.get 0 s.versions ln).toNat
      | none => 0
    let entered := fun (t : State) => (∀ e ∈ s.g.snaps, e ∈ t.g.snaps) ∧
      ∀ x ∈ l, ∀ ln, lineOf x = some ln → ∃ e ∈ t.g.snaps, e.lane = x.lane ∧ e.line = ln ∧
        (s.g.snap x.lane ln = none → e.version = Smap.get 0 s.versions ln ∧ e.stamp = s.timer)
    (∀ w sg hint, w ∈ [1, 2, 4, 8, 16] → f.acc = .load w sg hint → dev w → away →
      ∃ t, exec .accessPerformed s = .next t ∧ finds t (bytes w) ∧ t.g.snaps = s.g.snaps ∧ s.sameMemory t) ∧
    (∀ w sg hint ln (y : L1Line), w ∈ [1, 2, 4, 8, 16] → f.acc = .load w sg hint → dev w → (∀ x ∈ l, lineOf x = some ln) →
      (s.coreAt f.core).line ln = some y → y.own = none → y.valid = BitVec.allOnes 32 →
      ∃ t, exec .accessPerformed s = .next t ∧ s.sameMemory t ∧ finds t fun x => match x.tgt with
        | .dev pa => ofBytes ((List.range w).map fun j =>
            BitVec.extractLsb' (8 * ((pa + j) % 4)) 8 (vget y.data ((pa + j) % 128 / 4) 0))
        | _ => 0) ∧
    (∀ n, f.acc = .brec n → dev 16 → away → ∃ t, exec .accessPerformed s = .next t ∧ finds t (bytes 16) ∧ s.sameMemory t) ∧
    (∀ w sg hint, f.acc = .load w sg hint → (∀ x ∈ l, lineOf x = none) →
      ∃ t, exec .accessPerformed s = .next t ∧ finds t (bytes w) ∧ s.sameMemory t) ∧
    (∀ hint, f.acc = .loadOwn hint → dev 4 → (s.coreAt f.core).l1 = [] →
      (l.filterMap lineOf).eraseDups.length ≤ 12 →
      ∃ t z, exec .accessPerformed s = .next t ∧ t.flight f.id = some z ∧ z.performed = true ∧ z.lanes = [] ∧
        z.results.Perm (f.results ++ l.map fun x => (x.lane, bytes 4 x)) ∧ s.sameMemory t ∧
        ∀ x ∈ l, ∀ ln, lineOf x = some ln → ∃ y, (t.coreAt f.core).line ln = some y ∧ y.own.isSome = true) ∧
    ((s.g.snaps.length + l.length ≤ 64) → f.acc = .ldv → dev 4 →
      ∃ t, exec .accessPerformed s = .next t ∧ (finds t fun x => bytes 4 x + 2 ^ 64 * version x) ∧ entered t ∧ s.sameMemory t) ∧
    (∀ w, (w = 4 ∨ w = 8) → s.g.snaps.length + l.length ≤ 64 → f.acc = .ldvs w → dev w →
      ∃ t, exec .accessPerformed s = .next t ∧ (finds t fun x => bytes w x + 2 ^ 64 * version x) ∧ entered t ∧ s.sameMemory t) ∧
    (f.acc = .vrd → dev 4 → ∃ t, exec .accessPerformed s = .next t ∧ (finds t fun x => bytes 4 x + 2 ^ 64 * version x) ∧
      t.g.snaps = s.g.snaps ∧ s.sameMemory t) ∧
    (f.acc = .cpoll → dev 8 → ∃ t, exec .accessPerformed s = .next t ∧ finds t (bytes 8) ∧ s.sameMemory t) ∧
    (∀ w pa ln (x : LaneAcc), (w = 4 ∨ w = 8) → f.acc = .casv w → l = [x] → x.tgt = .dev pa → pa % w = 0 → ln = pa / 128 →
      s.memOk → Smap.wf 0 s.versions = true → s.flightBehind f = false →
      s.logTargets (s.vdOf s.g.launch) [.dev pa] = some s →
      let v := Smap.get 0 s.versions ln
      (∀ e, s.g.snap x.lane ln = some e → s.timer < e.stamp + 2 ^ 32 → s.clearOf ln ≤ e.stamp → v.toNat = x.c →
        ∃ t e', exec .accessPerformed s = .next t ∧ (finds t fun _ => 1 + 2 ^ 64 * (v + 1).toNat) ∧
          Memory.readLE t.dev pa w = x.v % 256 ^ w ∧ (∀ a, a < pa ∨ pa + w ≤ a → Memory.read t.dev a = Memory.read s.dev a) ∧
          (∀ n, Smap.get 0 t.versions n = if n = ln then v + 1 else Smap.get 0 s.versions n) ∧
          t.g.snap x.lane ln = some e' ∧ e'.version = v + 1 ∧ e'.stamp = s.timer ∧ t.host = s.host) ∧
      ((∀ e, s.g.snap x.lane ln = some e → e.stamp + 2 ^ 32 ≤ s.timer ∨ e.stamp < s.clearOf ln ∨ v.toNat ≠ x.c) →
        ∃ t, exec .accessPerformed s = .next t ∧ (finds t fun _ => 2 ^ 64 * v.toNat) ∧ t.versions = s.versions ∧
          t.g.snaps = s.g.snaps ∧ s.sameMemory t))) ∧
  (∀ (s : State) (f : Flight) (n : Nat), s.flight s.ev.id = some f → f.acc = .vchk n → s.g.live = true → f.core = s.g.core →
    f.slot = s.g.slot → n < 7 →
    (s.mayPerform f = true → s.ev.line = 0 → f.held = [] → f.lanes = [] → ∃ t y, exec .accessPerformed s = .next t ∧ t.flight f.id = some y ∧
      y.performed = true ∧ s.sameMemory t ∧ ∃ res : Lane → Nat,
        y.results = f.results ++ (lanesOf f.mask).map (fun l => (l.val, res l)) ∧ ∀ l, laneIn f.mask l = true →
          (res l = 0 ∨ res l = 1) ∧ (res l = 1 ↔ ∀ e ∈ s.g.snaps, e.lane = l.val → s.poisoned e.line = false ∧
            Smap.get 0 s.versions e.line = e.version ∧ s.timer < e.stamp + 2 ^ 32 ∧ s.clearOf e.line ≤ e.stamp ∧
            s.windowLo f.part ≤ e.line * 128 ∧ e.line * 128 < s.windowHi f.part)) ∧
    (f.performed = true → (s.g.waiter f.id = none ∨ s.g.waiter f.id = some s.g.sp ∧ s.g.sp.wait = .check f.id) →
      ∃ t, exec .longLatencyFill s = .next t ∧ (s.g.sp.wait = .check f.id → t.g.sp.wait = .none) ∧
        (∀ l : Lane, t.g.pred n l = match f.results.lookup l.val with
          | some v => v != 0
          | none => s.g.pred n l) ∧
        t.g.v = s.g.v ∧ t.g.s = s.g.s ∧ t.flights = s.flights.filter (fun x => x.id ≠ f.id) ∧ s.sameMemory t))

/-- What loads and versioned accesses find when they are performed, and the registers filled (R51, R54, R72, R89, R193 to R204).
Where the spec leaves a point open it follows the model's choice (log entries 7 and 22). -/
def Obligations.LoadFills : Prop := LoadFillsPart ∧ LoadsPerformedPart

/-! ### Ordering, barriers and queues -/

/-- An access of the issuing split, or of one that it descends from, that is not performed yet (R73). -/
def Earlier (s : State) (f : Flight) : Prop :=
  f ∈ s.flights ∧ f.core = s.g.core ∧ f.slot = s.g.slot ∧ f.split ∈ s.g.sp.anc ∧ f.performed = false

/-- Every earlier engine request of the split has read its sources (R75). -/
def ReadsDone (s : State) : Prop :=
  ∀ r ∈ s.reqs, r.core = s.g.core → r.slot = s.g.slot → r.split ∈ s.g.sp.anc → r.done = true

/-- What REL waits for (R75): every earlier store and atomic is performed, those in the pantry too, and every engine request of
the split has read its sources. -/
def Released (s : State) : Prop :=
  (∀ f, Earlier s f → f.acc.isWrite = false) ∧ (∀ e ∈ (s.coreAt s.g.core).pantry, e.slot ≠ s.g.slot) ∧ ReadsDone s

/-- What ACQ waits for (R75): every earlier load, and every earlier atomic with return, is performed. -/
def Acquirable (s : State) : Prop := ∀ f, Earlier s f → f.acc.isLoad = false ∧ f.acc.returns = false

/-- ACQ, REL, ACQREL, FENCE.ENG and WAITC (R75, R83, R205, R206): each completes when what it waits for is done, ACQ, ACQREL and a
WAITC below 63 with an acquire, for which the split's earlier loads must be performed too, and until then the split waits and
nothing else changes; a WAITC with n = 63 never waits. An acquire keeps of the issuing core's L1 only lines of lanes' own memory and words that the core owns, and of
other cores' everything; no byte of memory changes.
Where the spec leaves a point open it follows the model's choice (log entries 9 and 50). -/
def Obligations.FencesAndWaits : Prop :=
  (∀ s : State, s.issues .acq → (Acquirable s → exec .acq s = .next ((s.acquire s.g.core).movedTo (s.g.sp.pc + 4))) ∧
    (¬ Acquirable s → exec .acq s = .next (s.waiting (.blocked true)))) ∧
  (∀ s : State, s.issues .rel → (∀ e ∈ (s.coreAt s.g.core).pantry, e.slot = s.g.slot → e.unmappable = false) →
    (Released s → exec .rel s = .next (s.movedTo (s.g.sp.pc + 4))) ∧
    (¬ Released s → exec .rel s = .next (s.waiting (.blocked true)))) ∧
  (∀ s : State, s.issues .acqrel → (∀ e ∈ (s.coreAt s.g.core).pantry, e.slot ≠ s.g.slot) → ReadsDone s →
    ((∀ f, ¬ Earlier s f) → exec .acqrel s = .next ((s.acquire s.g.core).movedTo (s.g.sp.pc + 4))) ∧
    ((∃ f, Earlier s f) → exec .acqrel s = .next (s.waiting (.blocked true)))) ∧
  (∀ s : State, s.issues .fenceEng → (ReadsDone s → exec .fenceEng s = .next (s.movedTo (s.g.sp.pc + 4))) ∧
    (¬ ReadsDone s → exec .fenceEng s = .next (s.waiting (.blocked true)))) ∧
  (∀ (c : BitVec 2) (n : BitVec 6) (s : State),
    let x := vget s.g.counters c.toNat 0
    (s.issues (.waitc c n) →
      (n = 63 → exec (.waitc c n) s = .next (s.movedTo (s.g.sp.pc + 4))) ∧
      (n ≠ 63 → x ≤ n.toNat → Acquirable s → exec (.waitc c n) s = .next ((s.acquire s.g.core).movedTo (s.g.sp.pc + 4))) ∧
      (n ≠ 63 → (n.toNat < x ∨ ¬ Acquirable s) → exec (.waitc c n) s = .next (s.waiting (.blocked true)))) ∧
    (s.issues (.waitcParcel n c) →
      (n = 63 → exec (.waitcParcel n c) s = .next (s.movedTo (s.g.sp.pc + 2))) ∧
      (n ≠ 63 → x ≤ n.toNat → Acquirable s →
        exec (.waitcParcel n c) s = .next ((s.acquire s.g.core).movedTo (s.g.sp.pc + 2))) ∧
      (n ≠ 63 → (n.toNat < x ∨ ¬ Acquirable s) → exec (.waitcParcel n c) s = .next (s.waiting (.blocked true))))) ∧
  (∀ (s : State) (c : Nat), c < 256 →
    (∀ k, k ≠ c → (s.acquire c).coreAt k = s.coreAt k) ∧ s.sameMemory (s.acquire c) ∧
    (∀ x ∈ ((s.acquire c).coreAt c).l1, x.own = none → ∀ w : Fin 32, x.valid.getLsbD w.val = true →
      s.ownerOf (32 * x.line + w.val) = some c) ∧
    (∀ x ∈ (s.coreAt c).l1, x.own.isSome = true → x ∈ ((s.acquire c).coreAt c).l1))

/-- The address that the lowest active lane gives is 16-byte aligned and lies with n bytes in the block's scratchpads, from the
place o on (R60, R209). -/
def Within (s : State) (a : BitVec 8) (n : Nat) (o : Nat × Nat) : Prop :=
  ∃ l, lowest s.act = some l ∧ s.object (s.srcOf a l) n = some o

/-- The issuing split reaches an object of n bytes: it lies in the block's scratchpads, every load, scratchpad access and acquiring
access of the split is performed, and no earlier request of the split has still to act on its bytes (R74, R209). -/
def Reaches (s : State) (a : BitVec 8) (n : Nat) (o : Nat × Nat) : Prop :=
  (∀ f, Earlier s f → f.acc.isLoad = false ∧ f.acc.acquires = false ∧ f.toSpm = false) ∧ Within s a n o ∧
  s.writesBehind s.g.core s.g.slot s.nextId s.g.sp.anc (s.g.sp.trap || s.g.stopped) [(.spm o.1 o.2, n)] = false

/-- The object at a place is an arrival barrier with count C, L arrivals left and phase P (R216). -/
def IsBarrier (s : State) (o : Nat × Nat) (c l p : Nat) : Prop :=
  0 < l ∧ l ≤ c ∧ c < 2 ^ 16 ∧ p < 2 ^ 32 ∧ s.spmRead o 16 = c + l * 2 ^ 32 + p * 2 ^ 64

/-- Barrier objects (R216, R217): ABAR.INIT makes a barrier of B arrivals in phase 0; ABAR.ARV counts B arrivals, the last of
them opening the next phase, and answers the phase before; ABAR.WAIT passes as an acquire when the phase is not B and
waits while it is, or while an earlier load or atomic with return is not performed; ABAR.TRY answers which.
Where the spec leaves a point open it follows the model's choice (log entries 7 and 16). -/
def Obligations.BarrierObjects : Prop :=
  ∀ (b a : BitVec 8) (d : BitVec 7) (s : State) (o : Nat × Nat) (x : Lane), Reaches s a 16 o → lowest s.act = some x →
    let n := (s.srcOf b x).toNat
    (s.issues (.abarInit b a) → 0 < n → n < 2 ^ 16 →
      exec (.abarInit b a) s = .next ((s.spmWrite o 16 (n + n * 2 ^ 32)).movedTo (s.g.sp.pc + 4)).retryAll) ∧
    (∀ c l p, IsBarrier s o c l p → s.issues (.abarArv b a d) → Released s → n ≤ l →
      exec (.abarArv b a d) s = .next (((s.spmWrite o 16 (if n = l then c + c * 2 ^ 32 + (p + 1) % 2 ^ 32 * 2 ^ 64
        else c + (l - n) * 2 ^ 32 + p * 2 ^ 64)).promise d [0] fun _ => p).movedTo (s.g.sp.pc + 4)).retryAll) ∧
    (∀ c l p, IsBarrier s o c l p → s.issues (.abarWait b a) →
      (p ≠ n → Acquirable s → exec (.abarWait b a) s = .next ((s.acquire s.g.core).movedTo (s.g.sp.pc + 4))) ∧
      ((p = n ∨ ¬ Acquirable s) → exec (.abarWait b a) s = .next (s.waiting (.blocked true)))) ∧
    (∀ c l p, IsBarrier s o c l p → s.issues (.abarTry b a d) → (p = n ∨ Acquirable s) →
      exec (.abarTry b a d) s = .next (if p = n then (s.promise d [0] fun _ => 0).movedTo (s.g.sp.pc + 4)
        else ((s.acquire s.g.core).promise d [0] fun _ => 1).movedTo (s.g.sp.pc + 4)))

/-- The object is a queue whose header is x, whole in the block's shares and sound (R218, R393). -/
def IsQueue (s : State) (a : BitVec 8) (o : Nat × Nat) (x : Nat) : Prop :=
  Reaches s a 400 o ∧ x = s.spmRead o 16 ∧ qBad x = false ∧ Within s a (400 + qDepth x * qSize x) o

/-- The register pair, or quad, that a queue of 8-byte elements asks for is legal and full. -/
def UseReady (s : State) (u : Use) : Prop := u.ok s.regLimit = true ∧ s.useEmpty u = false

/-- Queues (R218 to R220): QINIT writes the header and 64 allowances of 0; QPUSH and QPUSH.TRY, of a group with an allowance, push B;
without one QPUSH waits and QPUSH.TRY answers 0; QPOP takes the oldest element as an acquire when no split waits
before it, answers all ones on a closed empty queue, and joins the waiters on an open one and while an earlier load or atomic with
return is not performed; QTPOP answers an element with outcome 1, or outcome 0; QALLOW sets an allowance; QCLOSE closes; QSTAT answers count, closed bit and allowance.
Where the spec leaves a point open it follows the model's choice (log entries 7 and 16). -/
def Obligations.QueueObjects : Prop :=
  ∀ (b a : BitVec 8) (d : BitVec 7) (s : State) (o : Nat × Nat) (l : Lane), lowest s.act = some l →
    let n := (s.srcOf b l).toNat
    let past := fun (t : State) => t.movedTo (s.g.sp.pc + 4)
    let q := s.g.producer
    (s.issues (.qinit b a) → Reaches s a 400 o → Within s a (400 + qDepth n * qSize n) o → n < 2 ^ 9 →
      exec (.qinit b a) s = .next (past ((s.spmWrite o 16 n).spmWrite (o.1, o.2 + 16) 128 0)).retryAll) ∧
    (∀ x, IsQueue s a o x →
      (s.issues (.qpush b a) → (qSize x = 8 → UseReady s (srcUse b 1 2)) → qClosed x = false → Released s →
        exec (.qpush b a) s = .next (if s.allowance o q = 0 then s.waiting (.blocked true)
          else (past (s.qPush o x (s.scalar64 (selOf b)) q)).retryAll)) ∧
      (s.issues (.qpushTry b a d) → (qSize x = 8 → UseReady s (srcUse b 1 2)) → qClosed x = false → Released s →
        exec (.qpushTry b a d) s = .next (if s.allowance o q = 0 then past (s.promise d [0] fun _ => 0)
          else (past ((s.qPush o x (s.scalar64 (selOf b)) q).promise d [0] fun _ => 1)).retryAll)) ∧
      (s.issues (.qpop a d) → (qSize x = 8 → UseReady s (writeUse d.toNat 2)) → s.popWait = [] → ¬ Acquirable s →
        exec (.qpop a d) s =
          .next (({ s with popWait := [⟨s.g.core, s.g.slot, s.g.sp.age, objKey o⟩] }).waiting (.blocked true))) ∧
      (s.issues (.qpop a d) → (qSize x = 8 → UseReady s (writeUse d.toNat 2)) → s.popWait = [] → Acquirable s →
        exec (.qpop a d) s = .next (
          if 0 < qCount x then
            (past (((s.qPop o x).2.acquire s.g.core).promise d (List.range (qSize x / 4)) fun _ => (s.qPop o x).1)).retryAll
          else if qClosed x = true then
            (past ((s.acquire s.g.core).promise d (List.range (qSize x / 4)) fun _ => 2 ^ 64 - 1)).retryAll
          else ({ s with popWait := [⟨s.g.core, s.g.slot, s.g.sp.age, objKey o⟩] }).waiting (.blocked true))) ∧
      (s.issues (.qtpop a d) → (qSize x = 8 → UseReady s (writeUse d.toNat 4)) → (0 < qCount x → Acquirable s) →
        let words := if qSize x = 8 then [0, 1, 2, 3] else [0, 1]
        exec (.qtpop a d) s = .next (
          if 0 < qCount x then
            (past (((s.qPop o x).2.acquire s.g.core).promise d words fun _ => (s.qPop o x).1 + 2 ^ (8 * qSize x))).retryAll
          else past (s.promise d words fun _ => if qClosed x = true then 2 ^ (8 * qSize x) - 1 else 0))) ∧
      (∀ k m groups, s.issues (.qallow b a) → n = k + m * 2 ^ 16 → k < groups → groups ≤ 64 → m < 2 ^ 9 →
        (s.block s.g.block).map (fun y => y.groups) = some groups →
        ((List.range 64).map fun j => if j = k then m else s.allowance o j).sum + qCount x ≤ qDepth x →
        exec (.qallow b a) s = .next (past (s.setAllowance o k m)).retryAll) ∧
      (s.issues (.qclose a) → Released s →
        exec (.qclose a) s = .next (past (s.spmWrite o 16 (qHeader x (qHead x) (qTail x) (qCount x) true))).retryAll) ∧
      (s.issues (.qstat a d) → exec (.qstat a d) s = .next (past (s.promise d [0] fun _ =>
        qCount x + b2n (qClosed x) * 2 ^ 9 + s.allowance o q * 2 ^ 16))))

/-- A push onto a queue with room leaves a sound header of one element more, the element in the tail slot, its owner beside it,
one allowance less, and every other slot and owner as it was; the element leaves behind those before it, and a lone one comes
back. A pop takes the element in the head slot, gives its owner the allowance back, and leaves every slot as it was (R218,
R219, R220). -/
def Obligations.QueueOrder : Prop :=
  ∀ (s : State) (o : Nat × Nat) (x v q : Nat), s.memOk → o.1 < 256 → o.2 % 16 = 0 → qBad x = false → x = s.spmRead o 16 →
    let slot := fun (u : State) (j : Nat) => u.spmRead (o.1, o.2 + 400 + j * qSize x) (qSize x)
    let owner := fun (u : State) (j : Nat) => u.spmRead (o.1, o.2 + 144 + j) 1
    let inside := fun (u : State) => s.dev = u.dev ∧ s.host = u.host ∧
      ∀ c k, (∀ j, j < 400 + qDepth x * qSize x → spmPlace (o.1, o.2 + j) ≠ (c, k)) →
        Memory.read (u.coreAt c).scratch k = Memory.read (s.coreAt c).scratch k
    (qCount x < qDepth x → q < 64 → v < 2 ^ (8 * qSize x) → 0 < s.allowance o q →
      let t := s.qPush o x v q
      let y := t.spmRead o 16
      qBad y = false ∧ qCount y = qCount x + 1 ∧ qHead y = qHead x ∧ qTail y = (qTail x + 1) % qDepth x ∧
      qDepth y = qDepth x ∧ qSize y = qSize x ∧ qClosed y = qClosed x ∧ t.allowance o q = s.allowance o q - 1 ∧
      (∀ k, k < 64 → k ≠ q → t.allowance o k = s.allowance o k) ∧
      (∀ j, j < qDepth x → slot t j = if j = qTail x then v else slot s j) ∧
      (∀ j, j < 256 → owner t j = if j = qTail x then q else owner s j) ∧
      (0 < qCount x → (t.qPop o y).1 = slot s (qHead x)) ∧
      (qCount x = 0 → (t.qPop o y).1 = v ∧ (t.qPop o y).2.allowance o q = s.allowance o q ∧
        qCount ((t.qPop o y).2.spmRead o 16) = 0 ∧ qBad ((t.qPop o y).2.spmRead o 16) = false) ∧
      inside t) ∧
    (0 < qCount x →
      let u := (s.qPop o x).2
      let y := u.spmRead o 16
      (s.qPop o x).1 = slot s (qHead x) ∧ qBad y = false ∧ qCount y = qCount x - 1 ∧
      qHead y = (qHead x + 1) % qDepth x ∧ qTail y = qTail x ∧ qDepth y = qDepth x ∧ qClosed y = qClosed x ∧
      (∀ j, j < qDepth x → slot u j = slot s j) ∧ (∀ j, j < 256 → owner u j = owner s j) ∧
      (∀ k, k < 64 → u.allowance o k =
        if k = owner s (qHead x) then (s.allowance o k + 1) % 2 ^ 16 else s.allowance o k) ∧
      inside u)

/-! ### Engine requests -/

/-- An engine request may issue at once (R83): its class's counter is below 63, and the split has not waited for that. -/
def MayRequest (s : State) (cls : Nat) : Prop := vget s.g.counters cls 0 < 63 ∧ ∀ b, s.g.sp.wait ≠ .blocked b

/-- No record that a control word names is being loaded (R184). -/
def NoRecordPending (s : State) : Prop := s.g.bPend = 0

/-- A request entered the machine (R81, R83, R214): it is the last of the requests, its class's counter is one higher, its
promised completion time p is on its way to the pair D, which is empty until then; nothing else of the group but the split
has changed, and no memory. -/
structure Entered (s t : State) (cls : Nat) (kind : ReqKind) (compl : Option (BitVec 128 × Nat × Nat)) (d : BitVec 7)
    (p : Nat) : Prop where
  request : ∃ r, t.reqs = s.reqs ++ [r] ∧ r.kind = kind ∧ r.cls = cls ∧ r.compl = compl ∧ r.pos = 0 ∧ r.done = false ∧
    r.promise = p ∧ r.core = s.g.core ∧ r.slot = s.g.slot ∧ r.block = s.g.block
  counter : vget t.g.counters cls 0 = vget s.g.counters cls 0 + 1
  others : ∀ c, c ≠ cls → vget t.g.counters c 0 = vget s.g.counters c 0
  promised : ∃ f, t.flights = s.flights ++ [f] ∧ f.acc = .ready ∧ f.performed = true ∧ f.dst = d ∧ f.words = [0, 1] ∧
    f.results = (lanesOf s.act).map fun l => (l.val, p)
  group : t.g = { ((s.modG fun g => g.setFulls d.toNat [0, 1] false).movedTo (s.g.sp.pc + 4)).g with counters := t.g.counters }
  memory : s.sameMemory t

/-- CPY, CPY2D, GATH and SCAT (R83, R210 to R215): a legal control word makes the request enter its class, with the sides, rows and
lanes that the operands name; an illegal one is an illegal use; while the counter of its class stands at 63 it waits. Copies count in
class 0, gathers and scatters in class 1; the completion object is named when the control word asks for it; the promise is the time
of R214. -/
def CopiesIssuePart : Prop :=
  ∀ (b a : BitVec 8) (d : BitVec 7) (s : State) (l : Lane), lowest s.act = some l → NoRecordPending s →
    let wa := fun (k : Nat) => (s.g.readWord (selOf a) k l).toNat
    let wb := fun (k : Nat) => (s.g.readWord (selOf b) k l).toNat
    let side := fun (scr : Bool) (r i : Nat) => ({ scr := scr, rcd := if scr = true then 0 else vget s.g.b r 0, idx := i } : Side)
    let idx := (lanesOf s.act).map fun x => (x.val, s.srcOf a x)
    let compl := fun (w i n : Nat) => if fld w 17 1 = 1 then some (vget s.g.b (fld w 12 5) 0, i, n) else none
    let p := fun (k : ReqKind) => s.promiseAt (s.partOf s.g) s.g.core k s.timer
      (s.queuedBytes (copyEngine s.g.core) s.nextId) k.bytes
    (s.issues (.cpy b a d) → MayRequest s 0 →
      (controlBad (wa 3) = true → exec (.cpy b a d) s = .next (s.takeTrap (s.illegal (.cpy b a d) 0x03))) ∧
      (controlBad (wa 3) = false →
        let k := ReqKind.copy (side (decide (fld (wa 3) 5 1 = 1)) (fld (wa 3) 0 5) (wa 0))
          (side (decide (fld (wa 3) 11 1 = 1)) (fld (wa 3) 6 5) (wa 1)) 1 (wa 2) 0 0
        ∃ t, exec (.cpy b a d) s = .next t ∧ Entered s t 0 k (compl (wa 3) (wb 0) (wb 1)) d (p k))) ∧
    (s.issues (.cpy2d b a d) → MayRequest s 0 → controlBad (wa 3) = false → wa 7 = 0 →
      let k := ReqKind.copy (side (decide (fld (wa 3) 5 1 = 1)) (fld (wa 3) 0 5) (wa 0))
        (side (decide (fld (wa 3) 11 1 = 1)) (fld (wa 3) 6 5) (wa 1)) (wa 4) (wa 2) (wa 5) (wa 6)
      ∃ t, exec (.cpy2d b a d) s = .next t ∧ Entered s t 0 k (compl (wa 3) (wb 0) (wb 1)) d (p k)) ∧
    (s.issues (.cpy2d b a d) → MayRequest s 0 → (controlBad (wa 3) = true ∨ wa 7 ≠ 0) →
      exec (.cpy2d b a d) s = .next (s.takeTrap (s.illegal (.cpy2d b a d) 0x03))) ∧
    (s.issues (.gath b a d) → MayRequest s 1 → gatherBad (wb 3) false = false →
      let k := ReqKind.gather (vget s.g.b (fld (wb 3) 0 5) 0) idx (wb 2)
      ∃ t, exec (.gath b a d) s = .next t ∧ Entered s t 1 k (compl (wb 3) (wb 0) (wb 1)) d (p k)) ∧
    (s.issues (.gath b a d) → MayRequest s 1 → gatherBad (wb 3) false = true →
      exec (.gath b a d) s = .next (s.takeTrap (s.illegal (.gath b a d) 0x03))) ∧
    (s.issues (.scat b a d) → MayRequest s 1 → gatherBad (wb 3) true = false →
      let k := ReqKind.scatter (vget s.g.b (fld (wb 3) 6 5) 0) idx (wb 2)
      ∃ t, exec (.scat b a d) s = .next t ∧ Entered s t 1 k (compl (wb 3) (wb 0) (wb 1)) d (p k)) ∧
    (s.issues (.scat b a d) → MayRequest s 1 → gatherBad (wb 3) true = true →
      exec (.scat b a d) s = .next (s.takeTrap (s.illegal (.scat b a d) 0x03))) ∧
    (∀ i cls, ((i = .cpy b a d ∨ i = .cpy2d b a d) ∧ cls = 0 ∨ (i = .gath b a d ∨ i = .scat b a d) ∧ cls = 1) → s.issues i →
      63 ≤ vget s.g.counters cls 0 → exec i s = .next (s.waiting (.blocked true)))

/-- The promised time of a request (R214): now, the delay of the path, and the bytes queued ahead and its own at the rate, rounded
up; the rate is the least of the cap of the path and the bandwidths of the vaults touched. -/
def PromisedTimePart : Prop :=
  (∀ (s : State) (part core : Nat) (k : ReqKind) (now q n : Nat),
    let x := s.pathOf part (coreDie core) k.paths
    let lp := match x.1 with
      | 0 => 600
      | 1 => 1200
      | 2 => 3000
      | _ => 4000
    let c := s.promiseAt part core k now q n
    0 < s.rate x → now + lp ≤ c ∧ q + n ≤ (c - now - lp) * s.rate x ∧
      (0 < q + n → (c - now - lp - 1) * s.rate x < q + n)) ∧
  (∀ (s : State) (x : Nat × List Nat), s.rate x ≤ (match x.1 with
      | 0 => 512
      | 1 => 512
      | 2 => 448
      | _ => 128) ∧ (∀ v ∈ x.2, s.rate x ≤ bandwidth (s.vaultAt v).band / 1000) ∧
    (s.rate x = (match x.1 with
      | 0 => 512
      | 1 => 512
      | 2 => 448
      | _ => 128) ∨ ∃ v ∈ x.2, s.rate x = bandwidth (s.vaultAt v).band / 1000))

/-- Copies, gathers and scatters as they issue, and the time they promise (R210 to R215).
Where the spec leaves a point open it follows the model's choice (log entries 9 and 53). -/
def Obligations.CopiesIssue : Prop := CopiesIssuePart ∧ PromisedTimePart

/-- COLL (R222, R224): the group's request enters class 3, and the group joins its block's oldest collective that it has not
issued, or begins one; no byte of memory changes while other groups of the block have still to join. The last group of the
block starts the collective, with the tile register as it stands, or has it reported when it cannot start (R396). -/
def CollectiveIssuesPart : Prop :=
  ∀ (b a : BitVec 8) (n : BitVec 3) (s : State) (l : Lane), s.issues (.coll b a n) → MayRequest s 3 → lowest s.act = some l →
    (∃ t, exec (.coll b a n) s = .next t) ∧
    (∀ k, s.colls = [] → (s.block s.g.block).map (fun y => y.groups) = some k → 1 < k →
      ∃ t c x, exec (.coll b a n) s = .next t ∧ t.colls = [c] ∧ c.args = [x] ∧ c.block = s.g.block ∧ c.started = false ∧
        x.producer = s.g.producer ∧ x.treg = n.toNat ∧ x.desc = s.srcOf a l ∧ x.obj = s.srcOf b l ∧
        vget t.g.counters 3 0 = vget s.g.counters 3 0 + 1 ∧ (∃ r, t.reqs = s.reqs ++ [r] ∧ r.cls = 3 ∧ r.id = x.req) ∧
        t.g.sp.pc = s.g.sp.pc + 4 ∧ s.sameMemory t) ∧
    (∀ y, s.block s.g.block = some y → (∀ c ∈ s.colls, ∀ z ∈ c.args, z.req ≠ s.nextId) →
      let x : CollArg :=
        { producer := s.g.producer, req := s.nextId, treg := n.toNat, desc := s.srcOf a l, obj := s.srcOf b l }
      let v := (s.addRequest 3 1 (.coll (collComm x.desc)) none 0 0).movedTo (s.g.sp.pc + 4)
      let mine := fun (c : CollRun) => c.block = s.g.block ∧ ∀ z ∈ c.args, z.producer ≠ x.producer
      ((∀ c ∈ s.colls, ¬ mine c) → 1 < y.groups → exec (.coll b a n) s = .next (State.retryAll { v with
        collSeq := s.collSeq + 1
        colls := s.colls ++ [{ block := s.g.block, order := s.collSeq, args := [x], started := false, die := 0, comm := 0
                               tile := 0, stopped := false, owing := 0, touched := [] }] })) ∧
      (∀ p c q, s.colls = p ++ c :: q → (∀ z ∈ p, ¬ mine z) → mine c →
        let r : CollRun := { c with args := c.args ++ [x] }
        let u : State := { v with colls := p ++ r :: q }
        (r.args.length < y.groups → exec (.coll b a n) s = .next u.retryAll) ∧
        (∀ z rest, r.args.length = y.groups → r.args = z :: rest → (∀ w ∈ p, w.order ≠ c.order) →
          u.collEn y.part = (true, u) → u.collBad r = 0 →
          exec (.coll b a n) s = .next (State.retryAll { u with colls := p ++ { r with
            started := true, die := s.blockDie s.g.block, comm := collComm z.desc, tile := vget y.tiles z.treg 0 } :: q })) ∧
        (∀ e code, r.args.length = y.groups → u.collEn y.part = (e, u) → u.collBad r = code → code ≠ 0 →
          exec (.coll b a n) s = .next (u.collFail r code).retryAll)))

/-- The registers of a group behind a write of n words at D that shifts no q file (R49, R51, R54): the named v and o registers hold the active lanes'
values, an s register (h0 to h3 in trap mode) the lowest active lane's, and every other register reads as before. -/
def Received (g t : Group) (d n : Nat) (m : Mask) (f : Nat → Lane → Word) : Prop :=
  ∀ (sel : Nat) (l : Lane), sel < 126 → t.read sel l =
    if d ≤ sel ∧ sel < d + n ∧ sel < 120 then
      (if 96 ≤ sel ∧ sel < 112 then (match lowest m with
        | none => g.read sel l
        | some k => f (sel - d) k)
      else if laneIn m l = true then f (sel - d) l else g.read sel l)
    else g.read sel l

/-! ### The matrix engine -/

/-- A reservation record of d (R228). -/
def DReg (s : State) (d : BitVec 4) : BitVec 64 := vget s.g.d d.toNat 0

/-- No ACCLOAD into a d register of the group is outstanding (R243). -/
def NoDPending (s : State) : Prop := ∀ n, s.dPending s.g.core s.g.slot n = false

/-- ORES, OREL, ALLOCK and FREEK (R228, R229, R231): the lowest run of free units, or banks, becomes the group's when nobody waits
before it; the record names base, units, format, group length, layout, scale and zero-point offsets; OREL and FREEK give
back what no earlier request of the group still acts on. What the handed-out places hold is a free value.
Where the spec leaves a point open it follows the model's choice (log entries 4 and 23). -/
def Obligations.ReservationsAndBanks : Prop :=
  (∀ (b a : BitVec 8) (d : BitVec 4) (s : State) (l : Lane) (k : Nat), s.issues (.ores b a d) → lowest s.act = some l →
    let w := (s.srcOf a l).toNat
    let o := (s.srcOf b l).toNat
    let units := fld w 0 9
    let key := ownerKey s.g.core s.g.slot
    let e := s.engine s.g.core
    fld w 16 16 = 0 → 0 < units → units + heldBy e.unitOwner key ≤ 256 → formatOk (fld w 9 4) (fld w 13 2) = true →
    NoDPending s → resValid (DReg s d) = false → e.oresQ = [] → freeRun e.unitOwner 256 units = some k → s.g.core < 256 →
    ∃ t, exec (.ores b a d) s = .next t ∧
      DReg t d = resRecord k units (fld w 9 4) (fld w 13 2) (fld w 15 1) (fld o 0 16) (fld o 16 16) ∧
      (∀ n, n < 16 → n ≠ d.toNat → vget t.g.d n 0 = vget s.g.d n 0) ∧
      (t.engine s.g.core).unitOwner = setRun e.unitOwner k units key ∧ t.g.sp.pc = s.g.sp.pc + 4 ∧
      t.g.v = s.g.v ∧ t.g.s = s.g.s ∧ t.g.b = s.g.b ∧ s.sameMemory t) ∧
  (∀ (d : BitVec 4) (s : State), s.issues (.orel d) → NoDPending s → resValid (DReg s d) = true → s.g.core < 256 →
    (∀ r ∈ s.reqs, r.core = s.g.core → r.owner = s.g.slot → r.done = true) →
    ∃ t, exec (.orel d) s = .next t ∧ DReg t d = 0 ∧ (∀ n, n < 16 → n ≠ d.toNat → vget t.g.d n 0 = vget s.g.d n 0) ∧
      (t.engine s.g.core).unitOwner = setRun (s.engine s.g.core).unitOwner (resBase (DReg s d)) (resUnits (DReg s d)) 0 ∧
      t.g.sp.pc = s.g.sp.pc + 4 ∧ s.sameMemory t) ∧
  (∀ (a : BitVec 8) (d : BitVec 7) (s : State) (l : Lane) (k : Nat), s.issues (.allock a d) → lowest s.act = some l →
    let n := (s.srcOf a l).toNat
    let key := ownerKey s.g.core s.g.slot
    let e := s.engine s.g.core
    0 < n → n ≤ 64 → n + heldBy e.bankOwner key ≤ s.bankLimit → s.blockBanks s.g.core s.g.block + n ≤ s.bankLimit →
    e.allockQ = [] → freeRun e.bankOwner 64 n = some k → s.g.core < 256 →
    ∃ t, exec (.allock a d) s = .next t ∧ Received s.g t.g d.toNat 1 s.act (fun _ _ => BitVec.ofNat 32 k) ∧
      (t.engine s.g.core).bankOwner = setRun e.bankOwner k n key ∧ t.g.sp.pc = s.g.sp.pc + 4 ∧ t.g.d = s.g.d ∧ s.sameMemory t) ∧
  (∀ (b a : BitVec 8) (s : State) (l : Lane), s.issues (.freek b a) → lowest s.act = some l →
    let first := (s.srcOf a l).toNat
    let n := (s.srcOf b l).toNat
    let key := ownerKey s.g.core s.g.slot
    (0 < n → first + n ≤ 64 → (s.engine s.g.core).owns key first n = true → s.g.core < 256 →
      (∀ r ∈ s.reqs, r.core = s.g.core → r.owner = s.g.slot → r.done = true) →
      ∃ t, exec (.freek b a) s = .next t ∧ (t.engine s.g.core).bankOwner = setRun (s.engine s.g.core).bankOwner first n 0 ∧
        t.g.sp.pc = s.g.sp.pc + 4 ∧ t.g.v = s.g.v ∧ s.sameMemory t) ∧
    ((n = 0 ∨ 64 < first + n ∨ (s.engine s.g.core).owns key first n = false) →
      exec (.freek b a) s = .next (s.takeTrap (s.illegal (.freek b a) 0x03))))

/-- The matrix-class requests (R225, R232, R233, R240 to R243): with a legal operand each enters class 2, MACCR and MACCW
no class; MACCR empties its destination until the bank has been read, and no other register; MACCW takes the values of its issue; ACCSAVE and ACCLOAD act for
the issuing group, or in the service slot for the group that the handler serves: banks that it owns, a d register that holds a
reservation, or none, and its state.
Where the spec leaves a point open it follows the model's choice (log entry 23). -/
def Obligations.MatrixRequests : Prop :=
  ∀ (b a : BitVec 8) (d : BitVec 4) (v : BitVec 7) (s : State) (l : Lane), lowest s.act = some l → NoDPending s →
    let w := fun (k : Nat) => (s.g.readWord (selOf a) k l).toNat
    let va := w 0 + 2 ^ 32 * w 1
    let r := DReg s d
    let key := ownerKey s.g.core s.g.slot
    let owns := fun (first n : Nat) => (s.engine s.g.core).owns key first n = true
    let enters := fun (i : Instr) (k : ReqKind) => s.issues i → MayRequest s 2 →
      exec i s = .next ((s.addRequest 2 1 k none 0 0).movedTo (s.g.sp.pc + 4))
    (resValid r = true → w 1 < 2 ^ 24 → va % 16 = 0 → w 2 % 16 = 0 →
      (resStrided r = false ∨ fld (w 3) 16 16 ≤ 128) →
      areaFits r 0 (fld (w 3) 0 16) (if resStrided r = true then (if fld (w 3) 16 16 = 0 then 0 else 128) else fld (w 3) 16 16)
        (sliceBytes (resFmt r)) = true →
      enters (.mld a d) (.mld r va (w 2) (fld (w 3) 0 16) (fld (w 3) 16 16))) ∧
    (∀ z : Bool, s.srcOf b l = (if z = true then 1 else 0) → resValid r = true → w 1 < 2 ^ 24 → va % 16 = 0 → w 2 % 16 = 0 →
      let bytes := if z = true then zpBytes (resFmt r) (resGlen r) else scaleBytes (resFmt r) (resGlen r)
      0 < bytes → areaFits r (if z = true then resZp r else resScale r) (fld (w 3) 0 16) (fld (w 3) 16 16) bytes = true →
      enters (.mlds b a d) (.mlds r z va (w 2) (fld (w 3) 0 16) (fld (w 3) 16 16))) ∧
    (∀ first n, s.srcOf a l = BitVec.ofNat 32 (first + 64 * n) → first < 64 → n ≤ 64 → (n = 0 ∨ owns first n) →
      enters (.mzero a) (.mzero first n)) ∧
    (∀ first n conv sat, w 3 = first + 64 * (n - 1) + 256 * conv + 4096 * b2n sat → first < 64 → 0 < n → n ≤ 4 → conv ≤ 5 →
      (sat = true → conv = 3 ∨ conv = 4) → w 1 < 2 ^ 24 →
      w 2 % 16 = 0 → va % convBytes conv = 0 → owns first n → enters (.mst a) (.mst va (w 2) first n conv sat)) ∧
    (∀ first n, w 1 < 2 ^ 24 → va % 128 = 0 → w 2 = 0 → w 3 = first + 64 * n → first < 64 → 0 < n → n ≤ 64 →
      (s.engine s.g.core).owns (ownerKey s.g.core s.served.2) first n = true →
      enters (.accsave a) (.accSave 0 va (w 3)) ∧ enters (.accload a) (.accLoad 0 va (w 3))) ∧
    (w 1 < 2 ^ 24 → va % 128 = 0 → w 2 = 1 → w 3 < 16 → s.dPending s.g.core s.served.2 (w 3) = false →
      let o := vget ((s.groupAt s.served.1 s.served.2).getD s.g).d (w 3) 0
      (resValid o = true → enters (.accsave a) (.accSave 1 va o.toNat)) ∧
      (resValid o = false → enters (.accload a) (.accLoad 1 va (w 3)))) ∧
    (w 1 < 2 ^ 24 → va % 128 = 0 → w 2 = 2 → w 3 = 0 →
      enters (.accsave a) (.accSave 2 va 0) ∧ enters (.accload a) (.accLoad 2 va 0)) ∧
    (∀ bank row chunk, s.srcOf a l = BitVec.ofNat 32 (bank + 64 * row + 512 * chunk) → bank < 64 → row < 8 → chunk < 4 →
      owns bank 1 → s.issues (.maccr a v) → ∃ t f q, exec (.maccr a v) s = .next t ∧ t.flights = s.flights ++ [f] ∧
        f.acc = .ready ∧ f.performed = false ∧ f.dst = v ∧ f.words = [0] ∧ t.reqs = s.reqs ++ [q] ∧
        q.kind = .maccr bank row chunk f.id ∧ (v.toNat < 120 → s.g.sp.trap = false → t.g.full v.toNat = false) ∧
        t.g = ((s.modG fun g => g.setFulls v.toNat [0] false).movedTo (s.g.sp.pc + 4)).g ∧ s.sameMemory t) ∧
    (∀ bank row chunk, s.srcOf b l = BitVec.ofNat 32 (bank + 64 * row + 512 * chunk) → bank < 64 → row < 8 → chunk < 4 →
      owns bank 1 → s.issues (.maccw b a) → ∃ t q, exec (.maccw b a) s = .next t ∧ t.reqs = s.reqs ++ [q] ∧
        q.kind = .maccw bank row chunk ((lanesOf s.act).map fun x => (x.val, s.srcOf a x)) ∧
        t.g = (s.movedTo (s.g.sp.pc + 4)).g ∧ s.sameMemory t)

/-- MMA, MMAP, MLEASE and MREL (R235, R236, R239): with legal reservations and quarter descriptors, one quarter-operation for each
quarter with an active lane enters the reservation table and class 2 while both have room; MLEASE of a block
that holds the lease renews it at once, and of another enters the table, with the passes it asks for, and waits; MREL ends a lease of the block.
Where the spec leaves a point open it follows the model's choice (log entry 23). -/
def Obligations.MatrixOperations : Prop :=
  (∀ (b a : BitVec 4) (d : BitVec 7) (s : State) (z : Bool), NoDPending s → (∀ c, s.g.sp.wait ≠ .blocked c) →
    let i := if z = true then Instr.mmap b a d else Instr.mma b a d
    let qs := (quarterLanes s.act).map fun l => ((s.g.readWord d.toNat 0 l).toNat, (s.g.readWord d.toNat 1 l).toNat)
    s.issues i → resValid (DReg s a) = true → resValid (DReg s b) = true → pairOk z s.classA (DReg s a) (DReg s b) = true →
    (∀ q ∈ qs, s.quarterOk z (DReg s a) (DReg s b) q.1 q.2 = true) → vget s.g.counters 2 0 + qs.length ≤ 63 →
    (s.engine s.g.core).table.length + qs.length ≤ 64 → s.g.core < 256 →
    ∃ t rs, exec i s = .next t ∧ t.reqs = s.reqs ++ rs ∧ rs.length = qs.length ∧
      (∀ k (h : k < rs.length) q, qs[k]? = some q →
        rs[k].kind = .mma z (DReg s a) (DReg s b) (fld q.1 0 16) (fld q.1 16 6) (fld q.2 0 16) ∧ rs[k].cls = 2) ∧
      vget t.g.counters 2 0 = vget s.g.counters 2 0 + qs.length ∧
      (t.engine s.g.core).table.length = (s.engine s.g.core).table.length + qs.length ∧
      t.g.sp.pc = s.g.sp.pc + 4 ∧ t.g.v = s.g.v ∧ s.sameMemory t) ∧
  (∀ (a : BitVec 8) (s : State) (l : Lane) (x : Lease), s.issues (.mlease a) → lowest s.act = some l →
    (s.engine s.g.core).lease = some x → x.block = s.g.block → (s.engine s.g.core).leaseOver = false →
    (∀ e ∈ (s.engine s.g.core).table, e.lease = none) → s.g.core < 256 →
    let len := s.leaseLen s.g.core s.g.slot
    let n := if s.srcOf a l = 0 then len else min (s.srcOf a l).toNat len
    ∃ t, exec (.mlease a) s = .next t ∧ t.g.sp.pc = s.g.sp.pc + 4 ∧
      (t.engine s.g.core).lease = some { x with left := n } ∧
      s.sameMemory t) ∧
  (∀ (a : BitVec 8) (s : State) (l : Lane), s.issues (.mlease a) → lowest s.act = some l → s.g.core < 256 →
    (∀ x, (s.engine s.g.core).lease = some x → x.block ≠ s.g.block ∨ (s.engine s.g.core).leaseOver = true) →
    (∀ e ∈ (s.engine s.g.core).table, e.lease ≠ none → e.core = s.g.core → e.slot = s.g.slot → e.split ≠ s.g.sp.age) →
    (64 ≤ (s.engine s.g.core).table.length → exec (.mlease a) s = .next (s.waiting (.blocked true))) ∧
    ((s.engine s.g.core).table.length < 64 → ∃ t e, exec (.mlease a) s = .next t ∧ t.g = (s.waiting (.blocked true)).g ∧
      (t.engine s.g.core).table = (s.engine s.g.core).table ++ [e] ∧ e.core = s.g.core ∧ e.slot = s.g.slot ∧
      e.split = s.g.sp.age ∧ e.block = s.g.block ∧
      e.lease = some (if s.srcOf a l = 0 then s.leaseLen s.g.core s.g.slot
        else min (s.srcOf a l).toNat (s.leaseLen s.g.core s.g.slot)) ∧
      (t.engine s.g.core).lease = (s.engine s.g.core).lease ∧ s.sameMemory t)) ∧
  (∀ s : State, s.issues .mrel → s.g.core < 256 → ∃ t, exec .mrel s = .next t ∧ t.g = (s.movedTo (s.g.sp.pc + 4)).g ∧
    (t.engine s.g.core).lease = (match (s.engine s.g.core).lease with
      | some x => if x.block = s.g.block then none else some x
      | none => none) ∧ (t.engine s.g.core).table = (s.engine s.g.core).table ∧ s.sameMemory t)

/-! ### Special registers, signals and privileged instructions -/

/-- No load and no scratchpad access of the issuing split is still outstanding (R74, R183). -/
def TileReady (s : State) : Prop := ∀ f, Earlier s f → f.acc.isLoad = false ∧ f.acc.acquires = false ∧ f.toSpm = false

/-- A request of the issuing group that MROW counts: an MLD, MLDS or MST (R234). -/
def RowOf (s : State) (r : EngReq) : Prop :=
  r.core = s.g.core ∧ r.slot = s.g.slot ∧ ((∃ a b c d e, r.kind = .mld a b c d e) ∨ (∃ a b c d e f, r.kind = .mlds a b c d e f) ∨
    ∃ a b c d e f, r.kind = .mst a b c d e f)

/-- RDSR and WRSR (R40, R106, R177, R182, R183, R221, R234): the words of the special register of each active lane go to D and, of a register of two
words, the next; ARITHFLAGS, the tile registers and, in trap mode, TRAPCAUSE, TRAPPC, TRAPMASK, DONEMASK and MROW take a written
value, ARITHFLAGS beside it what another split of the group raises in the same clock; a register that may not be read or written, or a
value it may not take, is an illegal use. A tile register is a scratchpad location: its access waits for the split's earlier loads
and scratchpad accesses.
Where the spec leaves a point open it follows the model's choice (log entries 14 and 57). -/
def Obligations.SpecialRegisters : Prop :=
  (∀ (i : BitVec 8) (d : BitVec 7) (s : State), s.issues (.rdsr i d) →
    ((srTile i.toNat = true → TileReady s) → ∃ t, exec (.rdsr i d) s = .next t ∧
      Received s.g t.g d.toNat (srWords i.toNat) s.act (fun k l => BitVec.ofNat 32 ((s.readSr i.toNat l).getD 0 / 2 ^ (32 * k))) ∧
      t.g.sp = (s.movedTo (s.g.sp.pc + 4)).g.sp ∧ t.g.p = s.g.p ∧ t.g.arithFlags = s.g.arithFlags ∧ s.sameMemory t) ∧
    (srTile i.toNat = true → ¬ TileReady s → exec (.rdsr i d) s = .next (s.waiting (.blocked true)))) ∧
  (∀ (i a : BitVec 8) (d : BitVec 7) (s : State), s.noLane = false →
    (s.encodingBad (.rdsr i d) = false → srReadable i.toNat s.g.sp.trap = false →
      exec (.rdsr i d) s = .next (s.takeTrap (s.illegal (.rdsr i d) 0x03))) ∧
    (s.encodingBad (.wrsr i a) = false → srWritable i.toNat s.g.sp.trap = false →
      exec (.wrsr i a) s = .next (s.takeTrap (s.illegal (.wrsr i a) 0x03)))) ∧
  (∀ n trap, (srReadable n trap = true ↔ n ≤ 8 ∨ n ∈ [0x10, 0x12, 0x14, 0x18, 0x28, 0x30, 0x31, 0x32, 0x33, 0x38] ∨
      (0x40 ≤ n ∧ n ≤ 0x4F) ∨ (trap = true ∧ n ∈ [0x20, 0x22, 0x24, 0x25])) ∧
    (srWritable n trap = true ↔ n = 0x18 ∨ (0x40 ≤ n ∧ n ≤ 0x4F) ∨ (trap = true ∧ n ∈ [0x20, 0x22, 0x24, 0x25, 0x38]))) ∧
  (∀ (s : State) (l : Lane),
    s.readSr 0x00 l = some l.val ∧ s.readSr 0x01 l = some s.g.groupix ∧ s.readSr 0x08 l = some s.g.sp.mask.toNat ∧
    s.readSr 0x10 l = some s.timer ∧ s.readSr 0x18 l = some s.g.arithFlags.toNat ∧
    s.readSr 0x12 l = some (s.engine s.g.core).cycle ∧ s.readSr 0x28 l = some (s.actNow s.g.core).actBudget ∧
    s.readSr 0x30 l = some s.g.core ∧ s.readSr 0x31 l = some (coreCluster s.g.core) ∧ s.readSr 0x32 l = some (coreDie s.g.core) ∧
    (s.g.sp.trap = false → s.readSr 0x20 l = none) ∧ (s.g.sp.trap = true → s.readSr 0x20 l = some s.g.trapCause.toNat ∧
      s.readSr 0x22 l = some s.g.trapPc.toNat ∧ s.readSr 0x24 l = some s.g.trapMask.toNat ∧
      s.readSr 0x25 l = some s.g.doneMask.toNat) ∧
    s.readSr 0x33 l = some (bget s.regs.devnum 0 8) ∧
    (∀ b y, s.block s.g.block = some b → s.launch = some y →
      s.readSr 0x02 l = some (b.index % y.gridX) ∧ s.readSr 0x03 l = some (b.index / y.gridX % y.gridY) ∧
      s.readSr 0x04 l = some (b.index / y.gridX / y.gridY) ∧
      s.readSr 0x05 l = some y.gridX ∧ s.readSr 0x06 l = some y.gridY ∧ s.readSr 0x07 l = some y.gridZ) ∧
    (∀ y, s.launch = some y →
      (∀ p b q, s.beats = p ++ b :: q → (∀ x ∈ p, x.part ≠ y.part ∨ x.ctx ≠ y.ctx) → b.part = y.part → b.ctx = y.ctx →
        s.readSr 0x14 l = some b.count) ∧
      ((∀ x ∈ s.beats, x.part ≠ y.part ∨ x.ctx ≠ y.ctx) → s.readSr 0x14 l = some 0)) ∧
    ((∀ x ∈ s.reqs, ¬ RowOf s x) → s.readSr 0x38 l = some 0) ∧
    (∀ p r q b, s.reqs = p ++ r :: q → (∀ x ∈ p, ¬ RowOf s x) → RowOf s r → r.pos < 2 ^ 16 → b < 2 →
      (b = 1 ↔ ∃ c d e f g h, r.kind = .mst c d e f g h) → s.readSr 0x38 l = some (r.pos + b * 2 ^ 30 + 2 ^ 31)) ∧
    (∀ b n, s.block s.g.block = some b → n < 16 → s.readSr (0x40 + n) l = some (bget (vget b.tiles (n / 2) 0) (32 * (n % 2)) 32))) ∧
  (∀ (i a : BitVec 8) (s : State) (l : Lane), s.issues (.wrsr i a) → lowest s.act = some l →
    let v := s.g.readWord (selOf a) 0 l
    let hi := s.g.readWord (selOf a) 1 l
    let past := fun (g : Group) => ({ s with g := g }).movedTo (s.g.sp.pc + 4)
    let refused := exec (.wrsr i a) s = .next (s.takeTrap (s.illegal (.wrsr i a) 0x03))
    let tile := (i.toNat - 0x40) / 2
    let tileOk := if i.toNat % 2 = 0 then v.toNat < 2 ^ 21 ∧ v.toNat % 128 = 0 else v.toNat ≤ 2097152 ∧ v.toNat % 128 = 0
    (i = 0x18#8 → v.toNat < 64 → exec (.wrsr i a) s = .next (past
      { s.g with arithFlags := BitVec.ofNat 6 v.toNat ||| s.raisedFirst })) ∧
    (i = 0x18#8 → 64 ≤ v.toNat → refused) ∧
    (s.g.sp.trap = true → i = 0x20#8 → v.toNat < 2 ^ 17 → exec (.wrsr i a) s = .next (past { s.g with trapCause := v })) ∧
    (s.g.sp.trap = true → i = 0x20#8 → 2 ^ 17 ≤ v.toNat → refused) ∧
    (s.g.sp.trap = true → i = 0x22#8 → hi.toNat < 2 ^ 24 → v.toNat % 2 = 0 →
      exec (.wrsr i a) s = .next (past { s.g with trapPc := BitVec.ofNat 56 (v.toNat + 2 ^ 32 * hi.toNat) })) ∧
    (s.g.sp.trap = true → i = 0x22#8 → (2 ^ 24 ≤ hi.toNat ∨ v.toNat % 2 = 1) → refused) ∧
    (s.g.sp.trap = true → i = 0x24#8 → exec (.wrsr i a) s = .next (past { s.g with trapMask := v })) ∧
    (s.g.sp.trap = true → i = 0x25#8 → exec (.wrsr i a) s = .next (past { s.g with doneMask := v })) ∧
    (s.g.sp.trap = true → i = 0x38#8 → s.rowRequest s.g = none →
      (v = 0 → exec (.wrsr i a) s = .next (s.movedTo (s.g.sp.pc + 4))) ∧ (v ≠ 0 → refused)) ∧
    (∀ r, s.g.sp.trap = true → i = 0x38#8 → s.rowRequest s.g = some r → fld v.toNat 16 14 = 0 → fld v.toNat 0 16 ≤ r.kind.rows →
      exec (.wrsr i a) s = .next (({ s with reqs := s.reqs.map fun (x : EngReq) =>
        if x.id = r.id then { x with pos := fld v.toNat 0 16 } else x }).movedTo (s.g.sp.pc + 4))) ∧
    (∀ r, s.g.sp.trap = true → i = 0x38#8 → s.rowRequest s.g = some r →
      (fld v.toNat 16 14 ≠ 0 ∨ r.kind.rows < fld v.toNat 0 16) → refused) ∧
    (srTile i.toNat = true → tileOk → ¬ TileReady s → exec (.wrsr i a) s = .next (s.waiting (.blocked true))) ∧
    (∀ b, srTile i.toNat = true → tileOk → TileReady s → s.block s.g.block = some b → ∃ t c, exec (.wrsr i a) s = .next t ∧
      t.block s.g.block = some c ∧ (∀ k, k < 8 → vget c.tiles k 0 =
        if k = tile then bset (vget b.tiles k 0) (32 * (i.toNat % 2)) 32 v.toNat else vget b.tiles k 0) ∧
      t.g = (s.movedTo (s.g.sp.pc + 4)).g ∧ s.sameMemory t) ∧
    (srTile i.toNat = true → ¬ tileOk → refused))

/-- SIGNAL and RLAUNCH (R181, R186), behind a release: the queue named is notified, or the bits of the wake register are set; the launch
of the address in the pair A joins the launches of the issuing queue, which is woken, or marked pending where it has no slot. VSTAT
(R185): one item of the vaults that the lanes name, all ones for a vault that is not the partition's. ACTSET (R191): the next
window's budget, held between 32 and 1,024, and the one in force stays. -/
def SystemInstructionsPart : Prop :=
  (∀ (a : BitVec 8) (s : State) (l : Lane), lowest s.act = some l → Released s →
    (s.issues (.signal 0 a) → s.signalOk (s.srcOf a l) = true →
      exec (.signal 0 a) s = .next ((s.notify (s.srcOf a l).toNat).movedTo (s.g.sp.pc + 4))) ∧
    (s.issues (.signal 0 a) → s.signalOk (s.srcOf a l) = false →
      exec (.signal 0 a) s = .next (s.takeTrap (s.illegal (.signal 0 a) 0x03))) ∧
    (s.issues (.signal 1 a) → exec (.signal 1 a) s = .next
      (({ s with regs := { s.regs with wake := s.regs.wake ||| s.srcOf a l } }).movedTo (s.g.sp.pc + 4))) ∧
    (∀ y, s.issues (.rlaunch a) → s.launch = some y → (∃ z ∈ s.slots, z.2.queue = y.queue) → ∃ t,
      exec (.rlaunch a) s = .next t ∧ t.rlaunches = s.rlaunches ++ [{ queue := y.queue, ctx := y.ctx, rcb :=
        ((s.g.readWord (selOf a) 0 l).toNat + 2 ^ 32 * (s.g.readWord (selOf a) 1 l).toNat) % 2 ^ 56 : RLaunch }] ∧
        t = { (s.movedTo (s.g.sp.pc + 4)) with rlaunches := t.rlaunches, slots := t.slots } ∧
        t.slots = s.slots.map fun z => (z.1, { z.2 with awake := if z.2.queue = y.queue then true else z.2.awake })) ∧
    (∀ y, s.issues (.rlaunch a) → s.launch = some y → (∀ z ∈ s.slots, z.2.queue ≠ y.queue) →
      exec (.rlaunch a) s = .next ((({ s with rlaunches := s.rlaunches ++ [{ queue := y.queue, ctx := y.ctx, rcb :=
        ((s.g.readWord (selOf a) 0 l).toNat + 2 ^ 32 * (s.g.readWord (selOf a) 1 l).toNat) % 2 ^ 56 : RLaunch }] }).setPending
          y.queue).mapPending.movedTo (s.g.sp.pc + 4)))) ∧
  (∀ (i a : BitVec 8) (d : BitVec 7) (s : State), s.issues (.vstat i a d) →
    ∃ t, exec (.vstat i a d) s = .next t ∧ s.sameMemory t ∧ t.g.sp = (s.movedTo (s.g.sp.pc + 4)).g.sp ∧
      Received s.g t.g d.toNat 1 s.act fun _ l =>
        let u := (s.srcOf a l).toNat
        if 256 ≤ u ∨ (s.vaultAt u).fenced = true ∨ s.vaultOwner u ≠ some (s.partOf s.g) then BitVec.allOnes 32
        else if i = 0 then BitVec.ofInt 32 (s.vaultAt u).temp
        else if i = 1 then BitVec.ofNat 32 (s.vaultAt u).band
        else if i = 2 then BitVec.ofNat 32 (bandwidth (s.vaultAt u).band)
        else if i = 3 then BitVec.ofNat 32 (s.vaultFloor u)
        else BitVec.ofNat 32 ((s.vaultAt u).sampled.getD 0 / 2 ^ 16)) ∧
  (∀ (a : BitVec 8) (s : State) (l : Lane), s.issues (.actset a) → lowest s.act = some l → s.g.core < 256 →
    ∃ t, exec (.actset a) s = .next t ∧
      (t.coreAt s.g.core).actNext = some (if (s.srcOf a l).toNat < 32 then 32 else if 1024 < (s.srcOf a l).toNat then 1024
        else (s.srcOf a l).toNat) ∧
      t.g = (s.movedTo (s.g.sp.pc + 4)).g ∧ (∀ c, c ≠ s.g.core → t.coreAt c = s.coreAt c) ∧
      (t.coreAt s.g.core).actBudget = (s.actNow s.g.core).actBudget)

/-- TLBFILL, TLBINV and PLOGRD (R188, R190, R377): a valid leaf enters the TLBs its level names, ahead of the others; TLBINV drops what its
scope names, in the cores' TLBs and the clusters', and nothing else; PLOGRD returns a part of the group's oldest unmappable pantry entry, zeros when there is none, and
part 0 marks it reported, or removes it. -/
def TranslationInstructionsPart : Prop :=
  (∀ (n : BitVec 2) (a : BitVec 8) (s : State) (l : Lane), s.issues (.tlbfill n a) → lowest s.act = some l → s.g.core < 256 →
    let va := ((s.g.readWord (selOf a) 0 l).toNat + 2 ^ 32 * (s.g.readWord (selOf a) 1 l).toNat) % 2 ^ 56
    let e := (s.g.readWord (selOf a) 2 l).toNat + 2 ^ 32 * (s.g.readWord (selOf a) 3 l).toNat
    let x := leafEntry (s.partOf s.g) va e
    ∃ t, exec (.tlbfill n a) s = .next t ∧ t.g = (s.movedTo (s.g.sp.pc + 4)).g ∧ s.sameMemory t ∧
      (fld e 0 2 ≠ 3 → t = s.movedTo (s.g.sp.pc + 4)) ∧
      (fld e 0 2 = 3 → ((t.coreAt s.g.core).tlb.head? = some x ↔ (n ≠ 1#2 ∨ (s.coreAt s.g.core).tlb.head? = some x)) ∧
        ((t.clusterAt (coreCluster s.g.core)).tlb.head? = some x ↔
          (n ≠ 0#2 ∨ (s.clusterAt (coreCluster s.g.core)).tlb.head? = some x)))) ∧
  (∀ (k : BitVec 2) (a : BitVec 8) (s : State) (l : Lane), s.issues (.tlbinv k a) → lowest s.act = some l → s.g.core < 256 →
    let va := ((s.g.readWord (selOf a) 0 l).toNat + 2 ^ 32 * (s.g.readWord (selOf a) 1 l).toNat) % 2 ^ 56
    let drops := fun (cl : Nat) (e : TlbEntry) =>
      if k = 1#2 then decide (cl = coreCluster s.g.core)
      else (k = 2#2 || k = 3#2 || decide (cl = coreCluster s.g.core)) && e.covers (s.partOf s.g) va
    ∃ t, exec (.tlbinv k a) s = .next t ∧ t.g = (s.movedTo (s.g.sp.pc + 4)).g ∧ s.sameMemory t ∧
      (∀ c, c < 256 → (t.coreAt c).tlb = (s.coreAt c).tlb.filter fun e => !drops (coreCluster c) e) ∧
      (∀ j, j < 64 → (t.clusterAt j).tlb = (s.clusterAt j).tlb.filter fun e => !drops j e)) ∧
  (∀ (p : BitVec 5) (k : BitVec 1) (d : BitVec 7) (s : State), s.issues (.plogrd p k d) → s.served.1 < 256 →
    (∀ f ∈ s.flights, f.core = s.served.1 → f.held = []) →
    let w := s.served
    let e := (s.coreAt w.1).pantry.find? fun x => x.slot = w.2 && x.unmappable
    ∃ t, exec (.plogrd p k d) s = .next t ∧
      Received s.g t.g d.toNat 4 s.act (fun j _ => match e with
        | none => 0
        | some x => BitVec.ofNat 32 (x.piece p.toNat / 2 ^ (32 * j))) ∧
      (e = none ∨ p ≠ 0 → (t.coreAt w.1).pantry = (s.coreAt w.1).pantry) ∧
      (∀ x, e = some x → p = 0 → (t.coreAt w.1).pantry = (if k = 1#1
        then (s.coreAt w.1).pantry.map fun y => if y.id = x.id then { y with reported := true } else y
        else (s.coreAt w.1).pantry.filter fun y => y.id ≠ x.id)))

/-- Signals, launches, vault facts, the budget, and the instructions of the walker and of fault handlers (R181, R185, R186, R188, R190, R191).
Where the spec leaves a point open it follows the model's choice (log entries 18, 55 and 57). -/
def Obligations.SystemInstructions : Prop := SystemInstructionsPart ∧ TranslationInstructionsPart

/-! ### The device's own steps -/

/-- The step's event names the issuing group, and its front split. -/
def EventHere (s : State) : Prop :=
  s.g.live = true ∧ s.ev.core = s.g.core ∧ s.ev.slot = s.g.slot ∧ s.ev.age = s.g.sp.age

/-- A request of the issuing group that the step's event names. -/
def RequestHere (s : State) (r : EngReq) : Prop :=
  s.g.live = true ∧ r.core = s.g.core ∧ r.slot = s.g.slot ∧ r.slot < 1000 ∧ s.reqs.find? (fun x => x.id = s.ev.id) = some r

/-- Steps on engine requests (R83, R84, R387, R388, R390, R392): a finished request, the only one of its class, retires and its
counter falls; one whose next piece fails is stopped, and its group receives a report with the cause; a copy whose promise is
reached with bytes unplaced receives a new promise and the group a report of cause 0x12; while the cluster's clock runs the
oldest report that the split may take traps before the instruction that it would issue, one about an access that was refused
later with that access's own frame (log entry 44). -/
def RequestStepsPart : Prop :=
  (∀ (s : State) (r : EngReq), RequestHere s r → r.done = true → r.stopped = none → r.compl = none → r.cls < 4 →
    s.reqs.filter (fun x => x.core = r.core && x.slot = r.slot && x.cls = r.cls) = [r] →
    ∃ t, exec .requestRetire s = .next t ∧ t.reqs = s.reqs.filter (fun x => x.id ≠ r.id) ∧
      vget t.g.counters r.cls 0 = vget s.g.counters r.cls 0 - 1 ∧
      (∀ c, c < 4 → c ≠ r.cls → vget t.g.counters c 0 = vget s.g.counters c 0) ∧ t.flights = s.flights ∧ s.sameMemory t) ∧
  (∀ (s : State) (r : EngReq) (x : Stop), RequestHere s r → r.done = false → s.piece r = .stops x s →
    ∃ t f, exec .engineRequestStop s = .next t ∧ t.g.reports = enterReport { req := r.id, frame := f } s.g.reports ∧
      f.cause = x.cause ∧ f.code = x.code ∧ f.write = x.write ∧ t.g.sp = s.g.sp ∧ t.flights = s.flights ∧
      (t.reqs.find? fun y => y.id = r.id) = some { r with stopped := some x, waiting := false } ∧ s.sameMemory t) ∧
  (∀ (s : State) (r : EngReq), RequestHere s r → r.cls = 0 → r.left ≠ 0 → r.promise ≤ s.timer →
    let p := s.promiseAt r.part r.core r.kind r.promise (s.queuedBytes r.engine r.id) r.left
    ∃ t f, exec .copyPromiseMiss s = .next t ∧ t.g.reports = enterReport { req := r.id, frame := f } s.g.reports ∧
      f.cause = 0x12 ∧ f.h0 = BitVec.ofNat 32 p ∧ f.h1 = BitVec.ofNat 32 (p / 2 ^ 32) ∧ f.h3 = BitVec.ofNat 32 r.left ∧
      (t.reqs.find? fun y => y.id = r.id) = some { r with promise := p } ∧ s.sameMemory t) ∧
  (∀ (s : State) (x : Report), EventHere s → s.g.trapMode = false → s.clockStopped (coreCluster s.g.core) = false →
    (s.g.reports.find? fun y => y.split.all fun a => a ∈ s.g.sp.anc) = some x →
    exec .deferredReportTrap s = .next (({ s with g := { s.g with
      reports := s.g.reports.erase x
      curReport := if x.frame.cause = 0x12 ∨ x.split.isSome = true then none else some x.req } }).takeTrap
        (if x.split.isSome = true then x.frame else { x.frame with pc := s.issuePc, mask := s.act })))

/-- Ends of waits (R175, R207, R239, R259): a SLEEPT at its time, a SLEEP at its cycle, and a YIELD when no other is left or its 64
slots are past, go on, and earlier they stay; a new activity window opens with an empty count and the budget set for it; a lease of which no entry has stood in
the table for 256 clocks ends. -/
def WaitsEndPart : Prop :=
  (∀ (s : State) (x : Nat), EventHere s → s.g.sp.wait = .sleept x → ∃ t, exec .sleeptWake s = .next t ∧
    t.g.sp = { s.g.sp with wait := if x ≤ s.timer then .none else .sleept x } ∧ t.dev = s.dev ∧ t.g.v = s.g.v) ∧
  (∀ (s : State) (x : Nat), EventHere s → s.g.sp.wait = .sleep x → ∃ t, exec .sleepWake s = .next t ∧
    t.g.sp = { s.g.sp with wait := if x ≤ (s.engine s.g.core).cycle then .none else .sleep x } ∧ t.dev = s.dev ∧ t.g.v = s.g.v) ∧
  (∀ (s : State) (l : List Nat) (n : Nat), EventHere s → s.g.sp.wait = .yielded l n → ∃ t, exec .yieldEnd s = .next t ∧
    t.g.sp = { s.g.sp with wait := if l = [] ∨ n < (s.coreAt s.g.core).slotNo s.g.partNo then .none else .yielded l n } ∧ t.dev = s.dev ∧ t.g.v = s.g.v) ∧
  (∀ s : State, s.ev.core < 256 → (s.coreAt s.ev.core).actWindow ≠ (s.engine s.ev.core).cycle / 32 →
    ∃ t, exec .activityWindow s = .next t ∧ (t.coreAt s.ev.core).actCount = 0 ∧ (t.coreAt s.ev.core).actClosed = false ∧
      (t.coreAt s.ev.core).actWindow = (s.engine s.ev.core).cycle / 32 ∧ (t.coreAt s.ev.core).actNext = none ∧
      (t.coreAt s.ev.core).actBudget = (match (s.coreAt s.ev.core).actNext with
        | some b => b
        | none => (s.coreAt s.ev.core).actBudget) ∧ (∀ c, c ≠ s.ev.core → t.coreAt c = s.coreAt c) ∧ s.sameMemory t) ∧
  (∀ (s : State) (x : Lease), s.ev.cl < 64 → (s.clusterAt s.ev.cl).lease = some x → x.left ≠ 0 →
    (∀ e ∈ (s.clusterAt s.ev.cl).table, e.block ≠ x.block) → ∃ t, exec .leaseIdleEnd s = .next t ∧
      (t.clusterAt s.ev.cl).lease =
        (if x.lastEntry + 256 ≤ (s.clusterAt s.ev.cl).cycle then none else some x) ∧
      (t.clusterAt s.ev.cl).table = (s.clusterAt s.ev.cl).table ∧ s.sameMemory t)

/-- GROUP_END (R33, R176, R246): a group of which no lane remains in any split, and of which nothing is outstanding, leaves its slot while other groups
of its block go on. ARBITER_PASS (R236, R238, R239): with one entry of the lease's block in the table, its quarter-operation acts
on its bank, its request is done, and the lease has one pass less; without a lease, the entry's block acquires it first, of its
lease length, or, where the entry is an MLEASE, of the passes that this asks for, and its split goes on; a cluster whose clock stands has no pass (R406). -/
def GroupsAndPassesPart : Prop :=
  (∀ s : State, EventHere s → s.g.service = false → (∀ x ∈ s.g.splits, x.mask = 0) → s.endingOf s.g = false →
    s.g.reports = [] → (∀ x ∈ (s.coreAt s.g.core).l1, x.own = none) → (∀ e ∈ (s.coreAt s.g.core).pantry, e.slot ≠ s.g.slot) →
    (∀ f ∈ s.flights, f.core = s.g.core → f.slot ≠ s.g.slot) → (∀ r ∈ s.reqs, r.core = s.g.core → r.slot ≠ s.g.slot) →
    (∃ b, s.block s.g.block = some b ∧ b.restoring = none) →
    (∃ x ∈ s.others, x.block = s.g.block ∧ ¬ (x.core = s.g.core ∧ x.slot = s.g.slot)) →
    ∃ t, exec .groupEnd s = .next t ∧ t.groupAt s.g.core s.g.slot = none ∧ t.blocks = s.blocks ∧ t.launches = s.launches ∧
      (t.engine s.g.core).bankOwner = (s.engine s.g.core).bankOwner.filter (fun x => x.2 ≠ ownerKey s.g.core s.g.slot) ∧
      (t.engine s.g.core).unitOwner = (s.engine s.g.core).unitOwner.filter (fun x => x.2 ≠ ownerKey s.g.core s.g.slot) ∧
      t.flights = s.flights ∧ t.reqs = s.reqs ∧ s.sameMemory t) ∧
  (∀ (s : State) (x : Lease) (e : QuarterOp) (r : EngReq) (z : Bool) (da db : BitVec 64) (a0 bank b0 : Nat),
    let cl := s.ev.cl
    let c := s.clusterAt cl
    cl < 64 → s.clockStopped cl = false → c.lease = some x → x.left ≠ 0 → c.table = [e] → e.block = x.block → e.lease = none →
    s.reqs.find? (fun q => q.id = e.req) = some r → r.kind = .mma z da db a0 bank b0 → s.engineTurn r = true → s.loadsDone r = true →
    ∃ t, exec .arbiterPass s = .next t ∧ (t.clusterAt cl).table = [] ∧
      (t.clusterAt cl).lease = some { x with left := x.left - 1, lastEntry := c.cycle } ∧
      (t.clusterAt cl).banks = (c.quarter z da db a0 bank b0).banks ∧ (t.clusterAt cl).opBuf = c.opBuf ∧
      t.reqs.find? (fun q => q.id = e.req) = some { r with done := true } ∧ s.sameMemory t) ∧
  (∀ (s : State) (e : QuarterOp) (r : EngReq) (z : Bool) (da db : BitVec 64) (a0 bank b0 : Nat),
    let cl := s.ev.cl
    let c := s.clusterAt cl
    cl < 64 → s.clockStopped cl = false → c.lease = none → c.table = [e] → e.lease = none →
    s.reqs.find? (fun q => q.id = e.req) = some r → r.kind = .mma z da db a0 bank b0 → s.engineTurn r = true → s.loadsDone r = true →
    ∃ t, exec .arbiterPass s = .next t ∧ (t.clusterAt cl).table = [] ∧
      (t.clusterAt cl).lease = some { block := e.block, left := s.leaseLen e.core e.slot - 1, lastEntry := c.cycle } ∧
      (t.clusterAt cl).banks = (c.quarter z da db a0 bank b0).banks ∧
      t.reqs.find? (fun q => q.id = e.req) = some { r with done := true } ∧ s.sameMemory t) ∧
  (∀ (s : State) (e : QuarterOp) (n : Nat),
    let cl := s.ev.cl
    let c := s.clusterAt cl
    cl < 64 → s.clockStopped cl = false → c.lease = none → c.table = [e] → e.lease = some n → s.g.live = true →
    e.core = s.g.core → e.slot = s.g.slot → e.split = s.g.sp.age → (∀ x ∈ s.g.splits.tail, x.age ≠ s.g.sp.age) →
    ∃ t, exec .arbiterPass s = .next t ∧ (t.clusterAt cl).table = [] ∧
      (t.clusterAt cl).lease = some { block := e.block, left := n, lastEntry := c.cycle } ∧
      t.g.sp = (s.movedTo (s.g.sp.pc + 4)).g.sp ∧ s.sameMemory t) ∧
  (∀ s : State, s.clockStopped s.ev.cl = true → exec .arbiterPass s = .next s)

/-- Byte o of the range that a reservation names (R228). -/
def rangeAt (c : Cluster) (d : BitVec 64) (o : Nat) : Nat := (c.opByte (16384 * (d.toNat % 256) + o)).toNat

/-- The format and the group length of a reservation (R228). -/
def fmtAt (d : BitVec 64) : Nat := d.toNat / 2 ^ 17 % 16

def groupAt (d : BitVec 64) : Nat := 32 * 2 ^ (d.toNat / 2 ^ 21 % 4)

/-- The bits of element k of slice n (R98, R227, R230). -/
def elementAt (c : Cluster) (d : BitVec 64) (n k : Nat) : Nat :=
  if fmtAt d = 2 ∨ fmtAt d = 3 then rangeAt c d (256 * n + 2 * k) + 256 * rangeAt c d (256 * n + 2 * k + 1)
  else if fmtAt d = 6 then rangeAt c d (64 * n + k / 2) / (if k % 2 = 0 then 1 else 16) % 16
  else rangeAt c d (128 * n + k)

/-- An integer element less the zero point of its group (R111, R227, R230). -/
def integerAt (c : Cluster) (d : BitVec 64) (n k : Nat) : Int :=
  let z := rangeAt c d (64 * (d.toNat / 2 ^ 48) + n * (128 / groupAt d) + k / groupAt d)
  if fmtAt d = 5 then (BitVec.ofNat 8 (elementAt c d n k)).toInt
  else (elementAt c d n k : Int) - (if fmtAt d = 6 then z % 16 else z : Nat)

/-- Scale b of slice n (R230): an E8M0 code of the MX formats, an FP16 encoding of the integer formats. -/
def scaleAt (c : Cluster) (d : BitVec 64) (n b : Nat) : Nat :=
  let at_ := 64 * (d.toNat / 2 ^ 32 % 2 ^ 16)
  if fmtAt d ≤ 1 then rangeAt c d (at_ + 4 * n + b)
  else rangeAt c d (at_ + n * (256 / groupAt d) + 2 * b) + 256 * rangeAt c d (at_ + n * (256 / groupAt d) + 2 * b + 1)

/-- An encoding of a finite number of this value. -/
def Means (F : Format) (x : Nat) (v : ℚ) : Prop := ∃ n m e, decodeF F x = .fin n m e ∧ exactOf n m e = v

/-- The FP32 encoding to which an exact value rounds to nearest (R100). -/
def Nearest (v : ℚ) (x : Nat) : Prop := ∃ n m e, exactOf n m e = v ∧ x = (roundF fp32 .rne false (.fin n m e)).1

/-- The element formats of codes 0 to 3 (R227). -/
def floatOf (f : Nat) : Format := if f = 0 then e4m3 else if f = 1 then e5m2 else if f = 2 then bf16 else fp16

/-- A quarter-operation (R110 to R112, R227, R230, R236) on finite operands. MMAP leaves in each element of the bank the exact sum of
the 128 integer products. MMA adds to it, one rounded addition after another in ascending k, the chunk values: each the exact sum of
products of 4 k (BF16, FP16), of 32 k times 2^(Xa + Xb − 254) (MX; NaN where a scale is 0xFF), or of a group times both its
scales (INT), rounded once to nearest. The words of other banks stay. -/
def MatrixSumsPart : Prop :=
  ∀ (c : Cluster) (da db : BitVec 64) (a0 bank b0 i j : Nat), Smap.wf none c.banks = true → bank < 64 → i < 8 → j < 128 →
    let a := a0 + i
    let b := b0 + j
    let old := c.bankWord bank i j
    let new := fun z => (c.quarter z da db a0 bank b0).bankWord bank i j
    let added := fun (n : Nat) (x : Nat → Nat) =>
      (new false).toNat = (List.range n).foldl (fun acc t => (addF fp32 .rne acc (x t)).1) old.toNat
    (4 ≤ fmtAt da → fmtAt da ≤ 6 → (fmtAt da = 6 ↔ fmtAt db = 6) → 4 ≤ fmtAt db → fmtAt db ≤ 6 → groupAt da = groupAt db → groupAt da ≤ 128 →
      new true = BitVec.ofInt 32 ((List.range 128).map fun k => integerAt c da a k * integerAt c db b k).sum ∧
      ∀ sa sb : Nat → ℚ,
        (∀ t, t < 128 / groupAt da → Means fp16 (scaleAt c da a t) (sa t) ∧ Means fp16 (scaleAt c db b t) (sb t)) →
        ∃ x : Nat → Nat, added (128 / groupAt da) x ∧ ∀ t, t < 128 / groupAt da →
          Nearest (sa t * sb t * (((List.range (groupAt da)).map fun k =>
            integerAt c da a (t * groupAt da + k) * integerAt c db b (t * groupAt da + k)).sum : Int)) (x t)) ∧
    (∀ va vb : Nat → ℚ,
      (∀ k, k < 128 → Means (floatOf (fmtAt da)) (elementAt c da a k) (va k) ∧ Means (floatOf (fmtAt db)) (elementAt c db b k) (vb k)) →
      ((fmtAt da = 2 ∨ fmtAt da = 3) → fmtAt db = fmtAt da → ∃ x : Nat → Nat, added 32 x ∧
        ∀ t, t < 32 → Nearest ((List.range 4).map fun k => va (t * 4 + k) * vb (t * 4 + k)).sum (x t)) ∧
      (fmtAt da ≤ 1 → fmtAt db ≤ 1 → ∃ x : Nat → Nat, added 4 x ∧ ∀ t, t < 4 →
        if scaleAt c da a t = 255 ∨ scaleAt c db b t = 255 then x t = 0x7FC00000
        else Nearest ((2 : ℚ) ^ ((scaleAt c da a t : Int) + scaleAt c db b t - 254) *
          ((List.range 32).map fun k => va (t * 32 + k) * vb (t * 32 + k)).sum) (x t))) ∧
    (∀ (z : Bool) (bank' i' j' : Nat), bank' < 64 → bank' ≠ bank → i' < 8 → j' < 128 →
      (c.quarter z da db a0 bank b0).bankWord bank' i' j' = c.bankWord bank' i' j')

/-- Ends of waits and of groups, a pass of the matrix engine, and its sums (R110 to R112, R175, R176, R207, R236 to R239, R259).
Where the spec leaves a point open it follows the model's choice (log entries 28 and 54). -/
def Obligations.WaitsGroupsPasses : Prop := WaitsEndPart ∧ GroupsAndPassesPart ∧ MatrixSumsPart

/-- Collective steps (R330 to R334, R397): the chunk that is next at a die's port moves every member on by one chunk; a credit frees
a buffer of the receiver; a stopped collective whose groups have all returned goes on with its tile as it now stands; a collective that
has moved every chunk ends, its progress is 0 again and its count one higher. Device, host and peer memory stay. -/
def CollectiveStepsPart : Prop :=
  (∀ (s : State) (m : Nat) (x : CollRun) (l : List CollRun), s.chunkChoice s.ev.die = some m → m < 64 → s.members m = x :: l → s.ev.store = false →
    ((x :: l).findSome? fun r => s.tileHole r.block r.tile (chunkRange (s.comm m) (tileLen x.tile) (commProgress (s.comm m))).1
      (chunkRange (s.comm m) (tileLen x.tile) (commProgress (s.comm m))).2) = none →
    ∃ t, exec .collectiveChunkSend s = .next t ∧
      commProgress (t.comm m) = (commProgress (s.comm m) + 1) % 2 ^ 32 ∧ t.colls = s.colls ∧ t.reqs = s.reqs ∧
      t.dev = s.dev ∧ t.host = s.host ∧ t.peers = s.peers) ∧
  (∀ s : State, s.ev.die < 8 → Smap.wf 0 (s.dieAt s.ev.die).rail.buffers = true → ∃ t, exec .chunkCreditReturn s = .next t ∧
    (∀ m, Smap.get 0 (t.dieAt s.ev.die).rail.buffers m =
      Smap.get 0 (s.dieAt s.ev.die).rail.buffers m - (if m = s.ev.comm then 1 else 0)) ∧
    (∀ d, d ≠ s.ev.die → t.dieAt d = s.dieAt d) ∧ s.sameMemory t) ∧
  (∀ (s : State) (r : CollRun) (b : Block) (a : CollArg) (l : List CollArg), s.colls = [r] → r.stopped = true → r.owing = 0 →
    r.comm = s.ev.comm → s.block r.block = some b → b.restoring = none → r.args = a :: l →
    exec .collectiveResume s = .next { s with colls :=
      [{ r with stopped := false, tile := vget b.tiles a.treg 0, die := s.blockDie r.block }] }) ∧
  (∀ s : State, s.collOver s.ev.comm = true → s.ev.comm < 64 → ∃ t, exec .collectiveComplete s = .next t ∧
    commProgress (t.comm s.ev.comm) = 0 ∧
    bget (t.comm s.ev.comm) 96 32 = (bget (s.comm s.ev.comm) 96 32 + 1) % 2 ^ 32 ∧
    (∀ m, m ≠ s.ev.comm → t.comm m = s.comm m) ∧ t.dev = s.dev ∧ t.host = s.host ∧ t.peers = s.peers)

/-- COLL as it issues, and the steps of a collective (R222 to R224, R330 to R334, R397).
Where the spec leaves a point open it follows the model's choice (log entries 25, 26 and 27). -/
def Obligations.Collectives : Prop := CollectiveIssuesPart ∧ CollectiveStepsPart

/-- Walks and pantries (R307, R311, R370, R376): a walk that finds a leaf fills it into both TLBs; a standing page request whose page has
come is over; a store of the pantry whose page is there is performed, byte by byte as its mask names them, and leaves the pantry. -/
def WalksAndReplaysPart : Prop :=
  (∀ (s : State) (e : TlbEntry), s.ev.core < 256 → s.walk s.ev.part s.ev.va = .leaf e → ∃ t, exec .pageWalk s = .next t ∧
    (t.coreAt s.ev.core).tlb.head? = some e ∧ (t.clusterAt (coreCluster s.ev.core)).tlb.head? = some e ∧ s.sameMemory t) ∧
  (∀ (s : State) (r : PageReq) (e : TlbEntry), s.ev.core < 256 → (s.coreAt s.ev.core).pageReqs = [r] → s.ev.ok = false →
    s.walk r.part (r.page * 2 ^ 16) = .leaf e → (∀ f ∈ s.flights, f.core = s.ev.core → f.held = []) → s.completions = [] →
    ∃ t, exec .pageRequestRewalk s = .next t ∧ (t.coreAt s.ev.core).pageReqs = [] ∧
      (t.coreAt s.ev.core).tlb.head? = some e ∧ s.sameMemory t) ∧
  (∀ (s : State) (e : PantryEntry) (lf : TlbEntry) (pa : Nat), s.memOk → s.ev.core < 256 → e.core = s.ev.core →
    (s.coreAt s.ev.core).pantry = [e] → (s.coreAt s.ev.core).l1 = [] → e.part = s.ev.part →
    e.vline * 128 / 2 ^ 16 = s.ev.va / 2 ^ 16 → e.unmappable = false → e.kind = 0 → s.flights = [] → s.reqs = [] →
    s.lookup e.core e.part (e.vline * 128) true false (s.slotDomain e.core e.slot) = (.leaf lf, s) → lf.write = true → pa % 128 = 0 → s.poisoned (pa / 128) = false →
    s.checkLeaf e.core e.part (e.vline * 128) lf true false true = (.ok (.dev pa), s) →
    (∀ l, s.logTargets (match s.groupAt e.core e.slot with
      | some g => s.vdOf g.launch
      | none => s.vdOf 0) l = some s) →
    ∃ t, exec .pantryReplay s = .next t ∧ (t.coreAt s.ev.core).pantry = [] ∧
      (∀ k, k < 128 → Memory.read t.dev (pa + k) =
        if e.bytemask.getLsbD k = true then e.data.getD k 0 else Memory.read s.dev (pa + k)) ∧
      (∀ a, a < pa ∨ pa + 128 ≤ a → Memory.read t.dev a = Memory.read s.dev a) ∧ t.host = s.host)

/-- Requests from outside (R317, R329, R378): a remote request that hits a TLB and whose leaf permits it is answered, at once or when it
is sent again; a peer's load reads, and its store and its atomic write, the window of the partition with its pod tag, and any other is
refused, with event 0x4C where it is the window or the pod tag that turns it away, and changes no byte of a window; so do the
host's accesses through BAR2, which meet a refusal and event 0x4C where the partition is not active. -/
def OutsideRequestsPart : Prop :=
  (∀ (s : State) (r : Remote) (e : TlbEntry) (x : Target), (s.clusterAt r.cl).gated = false → (s.clusterAt r.cl).gating = false →
    ((List.range 4).flatMap (fun k => (s.coreAt (clusterCore r.cl k)).tlb) ++ (s.clusterAt r.cl).tlb).find?
      (fun y => y.covers r.part r.va) = some e →
    s.checkLeaf (clusterCore r.cl 0) r.part r.va e r.write false false = (.ok x, s) →
    (r = { id := s.ev.id, cl := s.ev.cl, part := s.ev.part, va := s.ev.va, write := s.ev.w, again := 0, refused := 0
           answered := none, value := 0 } →
      exec .remoteRequest s = .next (s.setRemote { r with answered := some true }).retryAll) ∧
    (s.remotes.find? (fun y => y.id = s.ev.id) = some r → r.answered = none → r.again ≤ s.timer →
      exec .remoteRetry s = .next (s.setRemote { r with answered := some true }).retryAll)) ∧
  (∀ s : State,
    let p := s.ev.peer
    let u := s.modDie s.ev.die fun d => { d with rail := d.rail.send 1 1 }
    let size := match p.op with
      | .load => p.width
      | .store l => l.length
      | .atomic _ _ l => p.width + l.foldl (fun m x => max m x.1) 0
    let heard := bbit s.regs.devnum 8 = true ∧ bget s.regs.devnum 0 8 ≠ p.sender ∧
      (s.dieAt s.ev.die).rail.failed = false ∧ 0 < size
    let open_ := fun (n q : Nat) => heard ∧ (s.dieAt s.ev.die).rail.takes 1 = true ∧ s.hushed = [] ∧ s.windowOf p.pa n = some q ∧
      s.podtag q = p.podtag
    (∀ q, p.op = .load → open_ p.width q → exec .peerRequest s = .next (u.setRemote
      (answerOf s.ev.id p.pa false (!s.poisonAt p.pa p.width) (Memory.readLE s.dev p.pa p.width))).retryAll) ∧
    (∀ l q, s.memOk → p.op = .store l → open_ l.length q → ∃ t, exec .peerRequest s = .next t ∧
      (∀ k, k < l.length → Memory.read t.dev (p.pa + k) = BitVec.ofNat 8 (l.getD k 0)) ∧
      (∀ a, a < p.pa ∨ p.pa + l.length ≤ a → Memory.read t.dev a = Memory.read s.dev a) ∧
      t.remotes.getLast? = some (answerOf s.ev.id p.pa true true 0)) ∧
    (∀ (q major minor o v c : Nat), s.memOk → p.op = .atomic major minor [(o, v, c)] → open_ (p.width + o) q →
      s.poisonAt p.pa (p.width + o) = false →
      let old := Memory.readLE s.dev (p.pa + o) p.width
      let x := atomicNew major minor p.width old v c
      ∃ t, exec .peerRequest s = .next t ∧
        Memory.readLE t.dev (p.pa + o) p.width = (if x.2 = true then x.1 % 256 ^ p.width else old) ∧
        (∀ a, a < p.pa + o ∨ p.pa + o + p.width ≤ a → Memory.read t.dev a = Memory.read s.dev a) ∧
        t.remotes.getLast? = some (answerOf s.ev.id p.pa true true old)) ∧
    (¬ heard → exec .peerRequest s = .next (s.setRemote (answerOf s.ev.id p.pa false false 0)).retryAll) ∧
    (heard → (s.dieAt s.ev.die).rail.takes 1 = false → exec .peerRequest s = .next s.retryAll) ∧
    (heard → (s.dieAt s.ev.die).rail.takes 1 = true → s.windowOf p.pa size = none →
      exec .peerRequest s = .next (((u.setRemote (answerOf s.ev.id p.pa false false 0)).post
        { Event.of 0x4C 0 p.pa with die := s.ev.die }).retryAll) ∧ ∀ t, exec .peerRequest s = .next t → t.dev = s.dev) ∧
    (∀ q, heard → (s.dieAt s.ev.die).rail.takes 1 = true → s.windowOf p.pa size = some q → s.podtag q ≠ p.podtag →
      exec .peerRequest s = .next (((u.setRemote (answerOf s.ev.id p.pa false false 0)).post
        { Event.of 0x4C 0 p.pa with part := q, die := s.ev.die }).retryAll) ∧
      ∀ t, exec .peerRequest s = .next t → t.dev = s.dev)) ∧
  (∀ s : State,
    let part := vbPart (s.vdbind s.ev.vd)
    let pa := s.windowLo part + s.ev.off
    let asks := s.ev.store = false ∧ s.ev.size ≠ 0 ∨ s.ev.store = true ∧ s.ev.bytes ≠ []
    let n := if s.ev.store = true then s.ev.bytes.length else s.ev.size
    let open_ := fun (n : Nat) => s.vfLive s.ev.vd = true ∧ vbEnabled (s.vdbind s.ev.vd) = true ∧ s.partActive part = true ∧
      s.hushed = [] ∧ 0 < n ∧ s.inWindow part pa = true ∧ s.inWindow part (pa + n - 1) = true
    (s.vfLive s.ev.vd = true → s.partActive part = false → asks → exec .bar2Access s = .next
        ((s.setRemote (answerOf s.ev.id pa s.ev.store false 0)).post { Event.of 0x4C 0 0 with part := part })) ∧
    (asks → s.vfLive s.ev.vd = false ∨ s.partActive part = true ∧ (vbEnabled (s.vdbind s.ev.vd) = false ∨
        s.inWindow part pa = false ∨ s.inWindow part (pa + n - 1) = false) →
      exec .bar2Access s = .next (s.setRemote (answerOf s.ev.id pa s.ev.store false 0))) ∧
    (s.ev.store = false → open_ s.ev.size → exec .bar2Access s = .next (s.setRemote
      (answerOf s.ev.id pa false (!s.poisonAt pa s.ev.size) (Memory.readLE s.dev pa s.ev.size)))) ∧
    (s.memOk → s.ev.store = true → open_ s.ev.bytes.length → ∃ t, exec .bar2Access s = .next t ∧
      (∀ k, k < s.ev.bytes.length → Memory.read t.dev (pa + k) = BitVec.ofNat 8 (s.ev.bytes.getD k 0)) ∧
      (∀ a, a < pa ∨ pa + s.ev.bytes.length ≤ a → Memory.read t.dev a = Memory.read s.dev a)))

/-- Walks, replays, and requests from outside (R307, R311, R317, R329, R370, R376, R378).
Where the spec leaves a point open it follows the model's choice (log entries 15, 43 and 52). -/
def Obligations.WalksAndOutsideRequests : Prop := WalksAndReplaysPart ∧ OutsideRequestsPart

/-- Rail ports (R314, R328, R398): a sound flit for this device that is next in order is delivered, one of the device's own number is
event 0x4C; the flits up to the one acknowledged leave the replay store, and without an acknowledgement the oldest is sent again; with 16 resends behind it the link retrains instead; retraining
ends, or after 1,000,000 ticks the port has failed.
Where the spec leaves a point open it follows the model's choice (log entries 30 and 44). -/
def Obligations.RailPorts : Prop :=
  ∀ s : State, s.ev.die < 8 →
    let r := (s.dieAt s.ev.die).rail
    let own := bget s.regs.devnum 0 8
    let becomes := fun (i : Instr) (x : Rail) => ∃ t, exec i s = .next t ∧ (t.dieAt s.ev.die).rail = x ∧
      (∀ d, d ≠ s.ev.die → t.dieAt d = s.dieAt d) ∧ t.dev = s.dev ∧ t.flights = s.flights
    (bbit s.regs.devnum 8 = true → r.failed = false → r.retraining = none → s.ev.flit.ok = true →
      (s.ev.flit.sender = own → exec .railFlitReceive s = .next (s.post { Event.of 0x4C 0xFFFF 0 with die := s.ev.die })) ∧
      (s.ev.flit.sender ≠ own → s.ev.flit.receiver = own → s.ev.flit.seq = r.recvSeq →
        becomes .railFlitReceive { r with recvSeq := (r.recvSeq + 1) % 2 ^ 32 })) ∧
    (∀ l x m, s.completions = [] → s.ev.ok = true → r.store = l ++ x :: m → x.seq = s.ev.value → (∀ y ∈ l, y.seq ≠ s.ev.value) →
      becomes .flitResend { r with store := m, resends := 0 }) ∧
    (s.completions = [] → s.ev.ok = true → (∀ y ∈ r.store, y.seq ≠ s.ev.value) → becomes .flitResend r) ∧
    (s.ev.ok = false → r.store ≠ [] → r.failed = false → r.retraining = none → r.resends < 16 →
      becomes .flitResend { r with resends := r.resends + 1 }) ∧
    (s.ev.ok = false → r.store ≠ [] → r.failed = false → r.retraining = none → 16 ≤ r.resends →
      becomes .flitResend { r with retraining := some s.timer }) ∧
    (16 ≤ r.resends → r.failed = false → r.retraining = none → becomes .railRetrain { r with retraining := some s.timer }) ∧
    (∀ x, s.completions = [] → r.retraining = some x → ∃ t, exec .railRetrainComplete s = .next t ∧
      (t.dieAt s.ev.die).rail = { r with retraining := none, resends := 0 } ∧ s.sameMemory t) ∧
    (∀ x, s.completions = [] → r.retraining = some x → x + 1000000 ≤ s.timer → (∀ f ∈ s.flights, coreDie f.core ≠ s.ev.die) → s.colls = [] →
      ∃ t, exec .railPortFailed s = .next t ∧ (t.dieAt s.ev.die).rail = { r with retraining := none, failed := true } ∧
        t.dev = s.dev)

/-- Queues and the front end (R247 to R252, R321, R418): a doorbell wakes a mapped queue, and gives an unmapped one a free slot, or its
pending bit while the queue is stopped or its device supplies no launch; a disabled queue's is ignored, as is one through a host port
that is not in use; a virtual function's doorbell outside its range is event 0x43; the slot whose turn it is takes its ring's next command; NO_OPERATION moves
rcount; LAUNCH answers what acceptance gives, holds its slot for an absent page, and waits while the device is dry; an idle queue that sleeps or holds no commands leaves its slot; a queue that
waits too long is event 0x44. -/
def FrontEndStepsPart : Prop :=
  (∀ (s : State) (i : Instr), (i = .qnotify ∧ s.ev.q < 4096) ∨ (i = .vfDoorbell ∧ s.vfLive s.ev.vd = true ∧
      vbEnabled (s.vdbind s.ev.vd) = true ∧ vbHas (s.vdbind s.ev.vd) s.ev.q = true) → qdEnabled (s.qdesc s.ev.q) = true →
    ((∃ y ∈ s.slots, y.2.queue = s.ev.q) → exec i s = .next { s with slots := s.slots.map fun y =>
      if y.2.queue = s.ev.q then (y.1, { y.2 with woken := s.timer, awake := true }) else y }) ∧
    (s.slots = [] → s.pending = [] → qdStopped (s.qdesc s.ev.q) = false → s.queueHeld s.ev.q = false → exec i s = .next { s with slots :=
      [(0, { queue := s.ev.q, woken := s.timer, awake := true, idleSince := s.timer, held := none, command := none })] }) ∧
    (s.slots = [] → s.pending = [] → (qdStopped (s.qdesc s.ev.q) = true ∨ s.queueHeld s.ev.q = true) → exec i s = .next { s with pending :=
      [{ queue := s.ev.q, since := s.timer, reported := false }] })) ∧
  (∀ s : State, s.ev.q < 4096 → qdEnabled (s.qdesc s.ev.q) = false → exec .qnotify s = .next s) ∧
  (∀ s : State, s.vfLive s.ev.vd = false → exec .vfDoorbell s = .next s) ∧
  (∀ s : State, s.vfLive s.ev.vd = true → (vbEnabled (s.vdbind s.ev.vd) = false ∨ vbHas (s.vdbind s.ev.vd) s.ev.q = false) →
    exec .vfDoorbell s = .next (s.post { Event.of 0x43 s.ev.q 0 with part := vbPart (s.vdbind s.ev.vd) })) ∧
  (∀ (s : State) (n : Nat) (x : QSlot) (tg : Target) (c : Nat), s.nextServed s.nextSlot = some (n, x) → x.command = none →
    (∀ y ∈ s.rlaunches, y.queue ≠ x.queue) → s.reach (qdPart (s.qdesc x.queue)) (qdRing (s.qdesc x.queue)) = .ok tg true →
    (∀ d a, tg ≠ .peer d a) →
    let h := s.peek tg 16
    let size := 2 ^ qdSize (s.qdesc x.queue)
    fld h 32 32 = 0 → s.peek tg 64 / 2 ^ 96 = 0 →
    (∀ d a w, s.reach (qdPart (s.qdesc x.queue)) (qdRing (s.qdesc x.queue) + 64 + 32 * (fld h 64 32 % size)) ≠ .ok (.peer d a) w) →
    fld h 0 32 ≠ fld h 64 32 → (fld h 0 32 + 2 ^ 32 - fld h 64 32) % 2 ^ 32 ≤ size →
    s.readWordsAt (qdPart (s.qdesc x.queue)) (qdRing (s.qdesc x.queue) + 64 + 32 * (fld h 64 32 % size)) 4 = .val c →
    s.commandBad x.queue c = false →
    exec .frontEndTurn s = .next { s with
      nextSlot := (n + 1) % 256
      slots := s.slots.map fun y => if y.1 = n then (y.1, { y.2 with command := some (fld c 0 4, fld c 64 56, none) }) else y }) ∧
  (∀ (s : State) (x : QSlot) (a pa : Nat) (o : Option Nat), s.memOk → s.slots = [(s.ev.slot, x)] → x.command = some (0, a, o) → x.held = none → s.pending = [] →
    s.reach (qdPart (s.qdesc x.queue)) (qdRing (s.qdesc x.queue)) = .ok (.dev pa) true → pa % 4096 = 0 →
    ∃ t, exec .noOperation s = .next t ∧ t.slots = [(s.ev.slot, { x with command := none })] ∧
      Memory.readLE t.dev (pa + 8) 4 = (Memory.readLE s.dev (pa + 8) 4 + 1) % 2 ^ 32 ∧
      (∀ b, b < pa + 8 ∨ pa + 12 ≤ b → Memory.read t.dev b = Memory.read s.dev b)) ∧
  (∀ (s : State) (x : QSlot) (rcb : Nat) (issuer : Option Nat), s.slots.find? (fun y => y.1 = s.ev.slot) = some (s.ev.slot, x) →
    x.command = some (1, rcb, issuer) → x.held = none →
    (s.queueHeld x.queue = true → exec .launch s = .next s) ∧ (s.queueHeld x.queue = false → (issuer.isSome = true ∨ s.ringReady s.ev.slot x.queue = none) →
    (∀ a, s.accept x.queue rcb issuer = .hold a → exec .launch s = .next (s.holdSlot s.ev.slot (qdPart (s.qdesc x.queue)) a)) ∧
    (∀ t, s.accept x.queue rcb issuer = .done t → exec .launch s = .next (
      let u := t.modSlot s.ev.slot fun z => { z with command := none, held := none }
      (if issuer.isSome = true then u else u.advance x.queue).mapPending)))) ∧
  (∀ (s : State) (y : Nat × QSlot), s.slots.find? (fun z => z.2.queue = s.ev.q) = some y → s.queueBusy s.ev.q = false →
    y.2.held = none → y.2.command = none → (∀ z ∈ s.slots, z.2.queue = s.ev.q → z.2.command = none) →
    y.2.idleSince + 2 ^ 16 ≤ s.timer → (∀ x ∈ s.rlaunches, x.queue ≠ s.ev.q) →
    (y.2.awake = false ∨ ({ s with slots := s.slots.filter fun z => z.2.queue ≠ s.ev.q } : State).holdsCommands s.ev.q = false) →
    s.pending = [] → exec .queueIdleUnmap s = .next { s with slots := s.slots.filter fun z => z.2.queue ≠ s.ev.q }) ∧
  (∀ (s : State) (p : Pending), s.pending = [p] → p.queue = s.ev.q → p.reported = false →
    s.prcb (qdPart (s.qdesc p.queue)) = 0 → p.since + 1000000 < s.timer →
    exec .notifyWaitExpiry s = .next (({ s with pending := [{ p with reported := true }] }).post
      { Event.of 0x44 p.queue (s.timer - p.since) with part := qdPart (s.qdesc p.queue) }))

/-- Buckets and budgets (R41, R251, R297): a refill, at a multiple of 2^20 ticks and once, gives every virtual device's bucket its
rate, up to its depth; a dry device's launch
begins to drain; candidates beneath a node that has used up its budget no longer count as refused for room. -/
def BucketsAndBudgetsPart : Prop :=
  (∀ s : State, s.timer % 2 ^ 20 = 0 → s.timer ≠ s.refilled → ∃ t, exec .tokenRefill s = .next t ∧ t.refilled = s.timer ∧
    ∀ v, v < 32 → vsLevel (t.vdsched v) =
    min (min (vsLevel (s.vdsched v) + (bget (s.vdsched v) 0 32 : Nat)) (bget (s.vdsched v) 32 32 : Nat)) (2 ^ 31 - 1)) ∧
  (∀ (s : State) (l : Launch), s.vdHeld s.ev.vd = true → s.launches = [l] → l.rcb = l.head → l.vd = some s.ev.vd →
    (l.state = 1 ∨ l.state = 2) → l.freezing = false →
    ∃ t x, exec .bucketDry s = .next t ∧ t.launches = [x] ∧ x.state = 3 ∧ x.drain = some { since := s.timer, self := true }) ∧
  (∀ (s : State) (x : BitVec 2048), s.readNode s.ev.part s.ev.va = (x, s) → 0 < rcbBudget x → rcbBudget x ≤ rcbConsumed x →
    exec .budgetReached s = .next { s with launches := s.launches.map fun l =>
      if l.part = s.ev.part ∧ s.ev.va ∈ l.path then { l with waitSince := none } else l })

/-- Placement and gating (R40, R253 to R256, R399): a decision tries every launch with blocks to place once, in the order of effective
priority, of its context's created value and of its own, each with what those before it have left and reserved; a fresh block
placed at a spot has the spot's cores and the next number; a launch refused for room alone for 2^20 ticks reserves; an idle
cluster begins gating, which ends once none of its accesses is in flight, and one that wakes runs. -/
def PlacementStepsPart : Prop :=
  (∀ s : State, s.passDue = [] → (∀ b ∈ s.blocks, b.restoring = none) → ∃ l : List Launch,
    l.Perm (s.launches.filter fun x => x.wants) ∧
    l.Pairwise (fun a b => b.eff.priority < a.eff.priority ∨ a.eff.priority = b.eff.priority ∧
      (a.ctxCreated < b.ctxCreated ∨ a.ctxCreated = b.ctxCreated ∧ a.created ≤ b.created)) ∧
    exec .placementDecision s =
      .next (l.foldl (fun (acc : State × Reserved) x => acc.1.tryLaunch acc.2 x.head) ({ s with placing := false }, [])).1.retryAll) ∧
  (∀ (s : State) (ls : List Launch) (l : Launch) (x : Spot) (z : Bool) (i : Nat), ∃ b,
    (s.place ls l (.fresh i) x z).blocks = s.blocks ++ [b] ∧ b.id = s.nextId ∧ b.index = i ∧ b.head = l.head ∧
    b.cores = x.cores ∧ b.bases = x.bases ∧ b.groups = (blockGroups ls).length) ∧
  (∀ (s : State) (l : Launch) (t0 : Nat), s.launchOf s.ev.rcb = some l → l.waitSince = some t0 → t0 + 2 ^ 20 < s.timer →
    exec .blockReserving s = .next { s with launches := s.launches.map fun x =>
      if x.head = l.head then { x with reserving := true } else x }) ∧
  (∀ s : State, s.ev.cl < 64 → (s.clusterAt s.ev.cl).unitOwner = [] → (s.clusterAt s.ev.cl).bankOwner = [] →
    (∀ g ∈ s.groups, coreCluster g.core ≠ s.ev.cl) → (s.clusterAt s.ev.cl).gated = false →
    ∃ t, exec .clusterGate s = .next t ∧ (∀ c, c ≠ s.ev.cl → t.clusterAt c = s.clusterAt c) ∧ s.sameMemory t ∧
      ((∀ f ∈ s.flights, coreCluster f.core ≠ s.ev.cl) → (∀ r ∈ s.reqs, coreCluster r.core = s.ev.cl → r.done = true) →
        t.clusterAt s.ev.cl = { s.clusterAt s.ev.cl with gated := true, gating := false }) ∧
      ((∃ f ∈ s.flights, coreCluster f.core = s.ev.cl) ∨ (∃ r ∈ s.reqs, coreCluster r.core = s.ev.cl ∧ r.done = false) →
        t.clusterAt s.ev.cl = { s.clusterAt s.ev.cl with gating := true })) ∧
  (∀ s : State, s.ev.cl < 64 → (s.clusterAt s.ev.cl).waking = true →
    ∃ t, exec .clusterWakeComplete s = .next t ∧
      t.clusterAt s.ev.cl = { s.clusterAt s.ev.cl with gated := false, gating := false, waking := false } ∧ s.sameMemory t)

/-- Buckets, budgets, placement and gating (R40, R41, R251, R253 to R256, R297, R399).
Where the spec leaves a point open it follows the model's choice (log entries 40, 41 and 42). -/
def Obligations.BudgetsAndPlacement : Prop := BucketsAndBudgetsPart ∧ PlacementStepsPart

/-- Pre-emption (R297 to R299): a drain begins with state 3; a drained launch without running blocks reaches state 6; a freeze
stops the groups of the running blocks, at once or when a drain's deadline has passed; a block that can be written gives up its place and
stands in its launch's save area behind the cursor; a resumed launch returns to state 1.
Where the spec leaves a point open it follows the model's choice (log entries 21, 31, 32 and 34). -/
def Obligations.PreemptionSteps : Prop :=
  (∀ (s : State) (l : Launch), s.launches = [l] → l.rcb = s.ev.rcb → l.head = l.rcb → l.freezing = false →
    ((l.state = 1 ∨ l.state = 2) → ∃ t x, exec .preemptDrain s = .next t ∧ t.launches = [x] ∧ x.state = 3 ∧
      x.drain = some { since := s.timer, self := false }) ∧
    (l.state = 3 → s.running l.head = [] → (∀ d, l.drain = some d → d.self = false) → ∃ t x,
      exec .drainHandler s = .next t ∧ t.launches = [x] ∧ x.state = 6 ∧ x.drain = none) ∧
    (∀ i, (i = .preemptFreeze ∨ i = .drainDeadline ∧ l.state = 3 ∧ ∃ y, l.drain = some y ∧
        (y.since + l.eff.drainDeadline < s.timer ∨ y.since + l.eff.drainDeadline = s.timer ∧
          ∃ b ∈ s.running l.head, ∃ g ∈ s.groups, g.block = b.id ∧ g.spent = false)) → l.busy = true → s.running l.head ≠ [] →
      ∃ t x, exec i s = .next t ∧ t.launches = [x] ∧ x.freezing = true ∧ x.drain = none ∧
        (∀ g ∈ t.groups, (∃ b ∈ s.running l.head, g.block = b.id) → g.service = false → g.stopped = true) ∧ s.sameMemory t) ∧
    ((l.state = 4 ∨ l.state = 6) → ∃ t x, exec .preemptResume s = .next t ∧ t.launches = [x] ∧ x.state = 1 ∧
      x.selfResume = false ∧ t.placing = true)) ∧
  (∀ (s : State) (b : Block) (l : Launch) (h head : Nat) (lines : List Nat), s.block s.ev.blk = some b →
    s.launches = [l] → b.head = l.rcb → l.head = l.rcb → l.freezing = true → b.ending = none → b.restoring = none →
    (∀ g ∈ s.groups, g.block = b.id → g.service = false → g.halting = []) → s.flights = [] → s.reqs = [] →
    (∀ c, (s.coreAt c).l1 = []) → s.areaRead b.part l.saveArea 128 = .val h → s.areaLines b.part l.saveArea 1 = .inr [head] →
    anySet h [(96, 32), (192, 832)] = false → fld h 0 64 + (s.blockRecord b).length ≤ fld h 128 64 →
    s.areaLines b.part (l.saveArea + fld h 0 64) (((s.blockRecord b).length + 127) / 128) = .inr lines →
    ∃ t x y, exec .blockFreeze s = .next t ∧ t.block b.id = none ∧ t.launches = [x] ∧ y ∈ x.frozen ∧ y.id = b.id ∧
      y.index = b.index ∧ y.addr = l.saveArea + fld h 0 64 ∧ y.size = (s.blockRecord b).length)

/-- Geyser loops (R265 to R271, R279, R408): a boundary begins the next period with no beats and keeps the last count; merged values of the
device's own number say that the merge came; a window closes at its time; the step follows R271; a pool way passes to its next
owner, and a slow change is marked; a bind refused sets the refused bit, an unbound controller serves nothing.
Where the spec leaves a point open it follows the model's choice (log entries 36, 37, 38 and 39). -/
def Obligations.GeyserSteps : Prop :=
  (∀ (s : State) (b : Beats), s.beats = [b] → b.part = s.ev.part → b.ctx = s.ev.ctx → b.stop ≤ s.timer →
    ∃ t x, exec .periodBoundary s = .next t ∧ t.beats = [x] ∧ x.part = b.part ∧ x.ctx = b.ctx ∧ x.start = b.stop ∧ x.count = 0 ∧
      x.last = b.count ∧ x.cfg = b.nextCfg) ∧
  (∀ (s : State) (y : Nat × Nat), s.ev.m < 128 → (s.loopAt s.ev.m).serves = some y → 1 < (s.loopAt s.ev.m).members →
    (s.loopAt s.ev.m).alone = false → (s.loopAt s.ev.m).fresh = false → s.ev.id = bget s.regs.devnum 0 8 →
    ∃ t, exec .mergedBeats s = .next t ∧ t.loopAt s.ev.m = { s.loopAt s.ev.m with heard := true, ownMissed := s.ev.store } ∧
      (∀ c, c ≠ s.ev.m → t.loopAt c = s.loopAt c) ∧ s.sameMemory t) ∧
  (∀ (s : State) (w : Window) (y : Nat × Nat), s.ev.m < 128 → (s.loopAt s.ev.m).window = some w →
    (s.loopAt s.ev.m).serves = some y → (s.loopAt s.ev.m).others = [] → w.close ≤ s.timer →
    ((s.loopAt s.ev.m).heard = true → (s.loopAt s.ev.m).ownMissed = false ∧ (s.loopAt s.ev.m).own.due = 0 ∧
      (s.loopAt s.ev.m).own.excluded = false ∧ w.count < 2 ^ 32) →
    ∃ t d, exec .mergeWindowExpiry s = .next t ∧ (t.loopAt s.ev.m).window = none ∧ (t.loopAt s.ev.m).step = some d ∧
      d.count = (if w.idle = true then none else some w.count) ∧
      d.sats = (if (s.loopAt s.ev.m).heard = true then some (w.up, w.dn) else none) ∧
      (t.loopAt s.ev.m).noMerge = (if (s.loopAt s.ev.m).heard = true then 0 else (s.loopAt s.ev.m).noMerge + 1)) ∧
  (∀ (s : State) (d : DueStep) (b : Beats) (n : Nat), s.ev.m < 128 → s.beats = [b] → b.cfg.valid = true →
    (s.loopAt s.ev.m).step = some d → (s.loopAt s.ev.m).serves = some (b.part, b.ctx) → d.count = some n → d.sats = none →
    let l := s.loopAt s.ev.m
    let ilim := min b.cfg.ilim 0x7FFFFFFF
    let e := clampInt ((b.cfg.target : Int) - (n : Int) * 2 ^ 16) (-(2 ^ 31)) (2 ^ 31 - 1)
    let i := if (0 < e ∧ l.satUp = true) ∨ (e < 0 ∧ l.satDown = true) then l.integrator
      else clampInt (l.integrator + e * (b.cfg.ki : Int) / 4096) (-(ilim : Int)) ilim
    ∃ t, exec .geyserStep s = .next t ∧ (t.loopAt s.ev.m).step = none ∧ (t.loopAt s.ev.m).lastBeats = n ∧
      (t.loopAt s.ev.m).lastError = e ∧ (t.loopAt s.ev.m).integrator = i ∧ (t.loopAt s.ev.m).periodIndex = d.index ∧
      (t.loopAt s.ev.m).position = (clampInt ((e * (b.cfg.kp : Int) / 4096 + i + 2 ^ 15) / 2 ^ 16) 0 b.cfg.total).toNat) ∧
  (∀ (s : State) (w : PoolWay) (o : Nat) (r : List Nat), s.ways = [w] → w.part = s.ev.part → w.way = s.ev.way →
    w.next = o :: r → ∃ t, exec .poolWayChangeDone s = .next t ∧ (t.poolWay w.part w.way).owner = o ∧
      (t.poolWay w.part w.way).next = r ∧ s.sameMemory t) ∧
  (∀ (s : State) (w : PoolWay), s.ways = [w] → w.part = s.ev.part → w.way = s.ev.way → w.next ≠ [] → w.slow = false →
    w.since + 2 ^ 20 ≤ s.timer → exec .poolWayChangeSlow s = .next (({ s with ways := [{ w with slow := true }] }).post
      { Event.of 0x53 w.way 0 with part := w.part })) ∧
  (∀ (s : State) (d : Nat), s.ev.m < 128 → glEnable (s.gloop s.ev.m) = true → (s.loopAt s.ev.m).serves = none →
    s.partActive (glPart (s.gloop s.ev.m)) = true → s.nodeNow (glPart (s.gloop s.ev.m)) (glCtx (s.gloop s.ev.m)) = .bad d →
    ∃ t, exec .gloopBind s = .next t ∧ bbit (t.gloop s.ev.m) 89 = false ∧ bbit (t.gloop s.ev.m) 90 = true ∧
      (t.loopAt s.ev.m).serves = none) ∧
  (∀ (s : State) (v : Nat),
    let c := s.ev.m
    let part := glPart (s.gloop c)
    let ctx := glCtx (s.gloop c)
    let x := BitVec.ofNat 2048 v
    let s0 := s.modNode part ctx fun n => { n with image := x }
    c < 128 → glEnable (s.gloop c) = true → (s.loopAt c).serves = none → s.partActive part = true → s.nodeNow part ctx = .val v →
    rcbPart x = part → rcbKind x = 2 → rcbGeyser x = true → (s0.readCfg part ctx).1.valid = true →
    (s0.readCfg part ctx).2.admission part ctx (s0.readCfg part ctx).1.usable (s0.readCfg part ctx).1 = none →
    (∀ k, k < 128 → (s.loopAt k).serves ≠ some (part, ctx)) → glMembers (s.gloop c) = 1 →
    ∃ t, exec .gloopBind s = .next t ∧ (t.loopAt c).serves = some (part, ctx) ∧ bbit (t.gloop c) 89 = true ∧
      (t.loopAt c).integrator = toSigned 32 (bget x 640 32) ∧ (t.loopAt c).fresh = true ∧
      (t.loopAt c).position = bget x 736 32) ∧
  (∀ (s : State) (y : Nat × Nat), s.ev.m < 128 → (s.loopAt s.ev.m).serves = some y → glEnable (s.gloop s.ev.m) = false →
    ∃ t, exec .gloopUnbind s = .next t ∧ (t.loopAt s.ev.m).serves = none ∧ bbit (t.gloop s.ev.m) 89 = false)

/-- Clocks, sensors and storage (R264, R281, R282, R289, R402, R403, R409): a risen voltage brings its step; the boost ceiling, the
current cap and the power cap move when a window of theirs is full, and else stay, and the step then follows the limits down at once; a sample at a multiple of
2^16 ticks sets a vault's temperature, band and interval; a refresh that is due moves the next one on; an uncorrectable error
that scrubbing finds poisons its line with code 4, without an event until an access reaches the line and not while one is in flight
there (the model's choice, log entry 30); a corrected one counts for its page.
Where the spec leaves a point open it follows the model's choice (log entries 30 and 42). -/
def Obligations.ClocksAndSensors : Prop :=
  (∀ (s : State) (n t0 : Nat), s.ev.die < 8 → (s.dieAt s.ev.die).rising = some (n, t0) → ∃ t,
    exec .clockStepSwitch s = .next t ∧ t.dieAt s.ev.die = { s.dieAt s.ev.die with step := n, rising := none } ∧
    (∀ d, d ≠ s.ev.die → t.dieAt d = s.dieAt d)) ∧
  (∀ s : State, s.ev.die < 8 →
    let d := s.dieAt s.ev.die
    (d.window < 4096000 → exec .boostCeiling s = .next s) ∧
    (4096000 ≤ d.window → ∃ t, exec .boostCeiling s = .next t ∧ (t.dieAt s.ev.die).ceiling =
        (if d.weight ≠ 0 ∧ d.weight ≤ 2 * d.matrix then 22 else 30) ∧ (t.dieAt s.ev.die).weight = 0 ∧
      (t.dieAt s.ev.die).step =
        (if (t.dieAt s.ev.die).ceiling = d.ceiling then d.step else min d.step (t.stepTarget s.ev.die)) ∧
      (t.dieAt s.ev.die).caldera =
        (if (t.dieAt s.ev.die).ceiling = d.ceiling then d.caldera else s.calderaStep s.ev.die)) ∧
    (s.timer < d.measured + 1024 → exec .currentCapWindow s = .next s) ∧
    (d.measured + 1024 ≤ s.timer → ∃ t, exec .currentCapWindow s = .next t ∧ (t.dieAt s.ev.die).currentCap =
        (if 620 < s.ev.amount then d.step - 1 else d.currentCap) ∧
      (t.dieAt s.ev.die).step = min d.step (t.stepTarget s.ev.die)) ∧
    (∃ t, exec .currentCapRise s = .next t ∧ (t.dieAt s.ev.die).currentCap =
        (if d.quietSince + 2 ^ 16 ≤ s.timer then min 30 (d.currentCap + 1) else d.currentCap) ∧
      (t.dieAt s.ev.die).step = min d.step (t.stepTarget s.ev.die))) ∧
  (∀ s : State, s.timer < s.powerAt + 2 ^ 20 → exec .powerCapWindow s = .next s) ∧
  (∀ s : State, s.powerAt + 2 ^ 20 ≤ s.timer → ∃ t, exec .powerCapWindow s = .next t ∧ ∀ i, i < 8 →
    (t.dieAt i).powerCap = (if 4400 < s.ev.amount then (s.dieAt i).powerCap - 1
      else if s.ev.amount < 4200 then min 30 ((s.dieAt i).powerCap + 1) else (s.dieAt i).powerCap) ∧
    (t.dieAt i).step = min (s.dieAt i).step (t.stepTarget i)) ∧
  (∀ s : State, s.timer % 2 ^ 16 = 0 → (∃ v, v < 256 ∧ (s.vaultAt v).sampled ≠ some s.timer) →
    ∃ t, exec .sensorSample s = .next t ∧ ∀ v, v < 256 →
    (t.vaultAt v).temp = s.sensed v ∧ (t.vaultAt v).band = nextBand (s.vaultAt v).band (s.sensed v) ∧
    (t.vaultAt v).interval = refreshInterval (nextBand (s.vaultAt v).band (s.sensed v)) ∧ (t.vaultAt v).sampled = some s.timer) ∧
  (∀ s : State, s.ev.vault < 256 → (s.vaultAt s.ev.vault).refreshAt ≤ 2 * s.timer → ∃ t, exec .refreshCommand s = .next t ∧ t.vaultAt s.ev.vault =
    { s.vaultAt s.ev.vault with refreshAt := (s.vaultAt s.ev.vault).refreshAt + (s.vaultAt s.ev.vault).interval } ∧
    (∀ v, v ≠ s.ev.vault → t.vaultAt v = s.vaultAt v) ∧ s.sameMemory t) ∧
  (∀ s : State, (s.ev.scrub = .clean → exec .scrub s = .next s) ∧
    (s.ev.scrub = .uncorrectable → s.reaching s.ev.line = true → exec .scrub s = .next s) ∧
    (s.ev.scrub = .uncorrectable → s.reaching s.ev.line = false → s.poisoned s.ev.line = false → Smap.wf 0 s.poison = true →
      ∃ t, exec .scrub s = .next t ∧ Smap.get 0 t.poison s.ev.line = 4 ∧ s.ev.line ∈ t.hushed ∧ t.regs = s.regs ∧
        t.cellar = s.cellar ∧ s.sameMemory t) ∧
    (s.ev.scrub = .corrected →
      let v := s.vaultOf (s.ev.line * 128)
      let n := Smap.get 0 (s.vaultAt v).corrected (s.ev.line / 512)
      v < 256 → (s.vaultAt v).scrubbed = s.timer / 2 ^ 36 → n < 3 → Smap.wf 0 (s.vaultAt v).corrected = true →
      ∃ t, exec .scrub s = .next t ∧ Smap.get 0 (t.vaultAt v).corrected (s.ev.line / 512) = n + 1 ∧ s.sameMemory t))

/-- Register writes (R5, R69, R248, R312 to R317, R320, R321, R324): DEVNUM takes a write while no partition is active, and refuses it
with event 0x5E otherwise; a key is loaded into every die; an activation puts every line of the window at version 0, and changes
no memory where its vaults hold nothing from before; a deactivation
discards the key and what the window holds, which
then reads 0 (the model's choice, log entry 1); a virtual device and a queue are enabled, which lets pending queues map, a queue disabled; tail moves. -/
def RegisterWritesPart : Prop :=
  (∀ s : State, s.power = .up → s.ev.bar = 0 → s.ev.off = 0x60008 → s.ev.size = 8 →
    ((∀ p, p < 16 → s.partActive p = false) → ∃ t, exec .registerWrite s = .next t ∧
      bget t.regs.devnum 0 9 = s.ev.value % 2 ^ 9 ∧ t = { s with regs := { s.regs with devnum := t.regs.devnum } }) ∧
    ((∃ p, p < 16 ∧ s.partActive p = true) → exec .registerWrite s =
      .next (s.postHost (Event.of 0x5E (0x60008 % 2 ^ 16) (s.ev.value % 2 ^ 56))))) ∧
  (∀ s : State, s.ev.part < 16 → ∃ t, exec .partitionKeyLoad s = .next t ∧ bbit (t.partRec s.ev.part) 619 = true ∧
    (∀ d, d < 8 → (t.dieAt d).keys.getLsbD s.ev.part = true) ∧ s.sameMemory t) ∧
  (∀ (s : State) (p byte : Nat), s.regOf s.ev = some (.part p, byte) →
    let r := s.partAfter p byte
    (s.partActive p = false → bbit r 618 = true → partBad r = false → s.activationRefused p r = none → p < 16 →
      ∃ t, exec .partActivate s = .next t ∧ t.partRec p = r ∧ (∀ l, (recWindow r).1 ≤ l * 128 → l * 128 < (recWindow r).2 →
        Smap.get 0 t.versions l = 0) ∧ ((∀ v, v < 256 → (s.vaultAt v).stale = []) → s.sameMemory t)) ∧
    (s.memOk → s.partActive p = true → bbit r 618 = false → partBad r = false → s.partitionIdle p = true → p < 16 →
      ∃ t, exec .partDeactivate s = .next t ∧ bbit (t.partRec p) 619 = false ∧ bbit (t.partRec p) 618 = false ∧
        (∀ d, d < 8 → (t.dieAt d).keys.getLsbD p = false) ∧
        (∀ a, s.windowLo p ≤ a → a < s.windowHi p → Memory.read t.dev a = 0) ∧
        (∀ a, a < s.windowLo p ∨ s.windowHi p ≤ a → Memory.read t.dev a = Memory.read s.dev a) ∧ t.host = s.host)) ∧
  (∀ (s : State) (v byte : Nat), s.regOf s.ev = some (.vdbind v, byte) →
    let r := wrote (s.vdbind v) vdbindFields byte s.ev
    vbEnabled (s.vdbind v) = false → vbEnabled r = true → s.vdbindBad v r = false →
    exec .vdbindEnable s = .next ({ s with regs := { s.regs with vdbind := vset s.regs.vdbind v r } } : State).mapPending) ∧
  (∀ (s : State) (q byte : Nat), s.regOf s.ev = some (.qdesc q, byte) → coversBit byte s.ev 69 = true →
    let r := s.qdescAfter q byte
    qdescBad r = false →
    (qdEnabled (s.qdesc q) = false → qdEnabled r = true → exec .queueEnable s = .next (s.setQdesc q r)) ∧
    (qdEnabled r = false → s.pending = [] → (∀ y ∈ s.slots, y.2.queue = q → y.2.command = none) → exec .queueDisable s = .next
      ({ s.setQdesc q (bset r 70 1 0) with slots := s.slots.filter fun y => y.2.queue ≠ q }))) ∧
  (∀ (s : State) (v byte : Nat), s.regOf s.ev = some (.vdlog v, byte) → coversBit byte s.ev 128 = true → v < 32 →
    let r := wrote (s.vdlog v) vdlogFields byte s.ev
    let tail := bget (wrote (s.vdlog v) [(128, 32)] byte s.ev) 128 32
    let left := (bget r 96 32 + 2 ^ 32 - tail) % 2 ^ 32
    s.vdlogBad v byte r = false →
    (left ≤ 2 ^ bget r 64 5 → ∃ t, exec .vdlogTailWrite s = .next t ∧ bget (t.vdlog v) 128 32 = tail) ∧
    (2 ^ bget r 64 5 < left → exec .vdlogTailWrite s = .next (s.setVdlog v r)))

/-- Start-up and recovery (R418 to R420): with no failed unit and no failed record every step passes and the device is up, from power-on,
and from an image whose signature verifies, which is stored when that is asked for; an image that does not verify leaves the device at
recovery. -/
def StartUpPart : Prop :=
  (∀ s : State, s.power = .starting → s.regs.steprec = Vector.replicate 16 0 → s.ev.results = [] → s.down = [] →
    ∃ t, exec .startUp s = .next t ∧ t.power = .up ∧ t.dev = s.dev ∧ (∀ d, d < 8 → (t.dieAt d).step = 16)) ∧
  (∀ (s : State) (byte : Nat), s.power = .recovery → s.regOf s.ev = some (.recovery, byte) →
    bbit (wrote s.regs.recovery [(0, 1), (1, 1)] byte s.ev) 0 = true →
    (s.ev.ok = false → ∃ t, exec .recoveryGo s = .next t ∧ t.power = .recovery ∧ t.dev = s.dev) ∧
    (s.ev.ok = true → s.regs.steprec = Vector.replicate 16 0 → s.ev.results = [] → s.down = [] →
      ∃ t, exec .recoveryGo s = .next t ∧ t.power = .up ∧
        (bbit (wrote s.regs.recovery [(0, 1), (1, 1)] byte s.ev) 1 = true → t.imageStore = s.regs.image)))

/-- Writes of the register spaces, start-up and recovery (R5, R69, R248, R312 to R324, R418 to R420).
Where the spec leaves a point open it follows the model's choice (log entries 1, 45, 46, 47 and 48). -/
def Obligations.RegistersAndStartUp : Prop := RegisterWritesPart ∧ StartUpPart

/-! ### What the engines move -/

/-- The step's event names a request whose turn has come, and no access: it is neither done, stopped nor kept of a frozen group, every
access of its split before it is performed, and no earlier request of the split has still to act at its places (R74, R82). -/
def PieceOf (s : State) (r : EngReq) : Prop :=
  s.flight s.ev.id = none ∧ s.reqs.find? (fun x => x.id = s.ev.id) = some r ∧ r.done = false ∧ r.stopped = none ∧
  r.detached = false ∧ s.priorDone r = true ∧ s.requestBehind r = false ∧ r.core < 256

/-- A request has gone on by n of so many (R72, R82): only its place has changed, and whether it is done. -/
def WentOn (s t : State) (r : EngReq) (n total : Nat) : Prop :=
  t.reqs.find? (fun x => x.id = s.ev.id) = some { r with pos := r.pos + n, waiting := false, done := decide (total ≤ r.pos + n) } ∧
  t.reqs.length = s.reqs.length ∧ t.flights = s.flights

/-- Bytes of device memory have been written and nothing else of any memory: byte k, of n, at p k; each line that they reach has
one version more (R88). -/
def WroteDev (s t : State) (n : Nat) (p : Nat → Nat) (x : Nat → Nat) : Prop :=
  (∀ k, k < n → Memory.read t.dev (p k) = BitVec.ofNat 8 (x k)) ∧
  (∀ a, (∀ k, k < n → a ≠ p k) → Memory.read t.dev a = Memory.read s.dev a) ∧
  (∀ ln, Smap.get 0 t.versions ln = Smap.get 0 s.versions ln +
    BitVec.ofNat 32 (if ((List.range n).any fun k => p k / 128 = ln) = true then 1 else 0)) ∧
  t.host = s.host ∧ t.peers = s.peers ∧ ∀ c a, Memory.read (t.coreAt c).scratch a = Memory.read (s.coreAt c).scratch a

/-- So many places of device memory may be written: they differ, no line of them is poisoned, and the dirty log has room for them. -/
def DevOpen (s : State) (r : EngReq) (n : Nat) (p : Nat → Nat) : Prop :=
  s.memOk ∧ Smap.wf 0 s.versions = true ∧ (∀ j k, j < k → k < n → p j ≠ p k) ∧ (∀ k, k < n → s.poisoned (p k / 128) = false) ∧
  s.logTargets (s.reqVd r) ((List.range n).map fun k => .dev (p k)) = some s

/-- The byte at an address of a record lies at y: in host memory where the record says so, else behind translation (R56, R310, R379). -/
def MemoryAt (s : State) (r : EngReq) (x : BitVec 128) (a : Nat) (w : Bool) (y : Target) : Prop :=
  (recHost x = false ∧ s.engineReach r (a % 2 ^ 56) w = (.ok y, s)) ∨ (recHost x = true ∧ s.engineHost r (a % 2 ^ 56) w = .ok y)

/-- Byte b of row k of a side of a copy lies at y: in the element that an index of its record names, behind the record's checks,
or in the block's scratchpads (R60, R211, R212). -/
def SideAt (s : State) (r : EngReq) (x : Side) (pitch k b : Nat) (w : Bool) (y : Target) : Prop :=
  let i := (x.idx + k * pitch) % 2 ^ 32
  let j := (i + b / recElem x.rcd) % 2 ^ 32
  (x.scr = true ∧ ∃ c o, s.spmIn r.core r.block ((i + b) % 2 ^ 32) 1 = some (c, o) ∧ y = .spm c o) ∨
  (x.scr = false ∧ recordValid x.rcd = true ∧ recordCovers x.rcd j 1 = true ∧ (w = true → recReadOnly x.rcd = false) ∧
    MemoryAt s r x.rcd (recordEa x.rcd j + b % recElem x.rcd) w y)

/-- Element k of a memory row of bytes in a range's format (R98, R227, R232). -/
def rowElement (d : BitVec 64) (l : Nat → Nat) (k : Nat) : Nat :=
  if fmtAt d = 2 ∨ fmtAt d = 3 then l (2 * k) + 256 * l (2 * k + 1)
  else if fmtAt d = 6 then l (k / 2) / (if k % 2 = 0 then 1 else 16) % 16
  else l k

/-- Pieces of copies, gathers and scatters (R82, R211 to R213): as many bytes as lie on one line of the destination, at most 128,
go from the places of the source rows to those of the destination rows; a lane's element goes between its record's element and
its place in the scratchpads, GATH's into them and SCAT's out of them. Every other byte of every memory keeps its value. -/
def CopyPiecesPart : Prop :=
  ∀ (s : State) (r : EngReq), PieceOf s r →
    (∀ (src dst : Side) (rows len sp dp m : Nat) (a b : Nat → Target) (z : Nat × Nat × Nat), r.kind = .copy src dst rows len sp dp →
      0 < m → m ≤ min 128 (rows * len - r.pos) →
      let at_ := fun (j : Nat) (x y : Target) => SideAt s r src sp ((r.pos + j) / len) ((r.pos + j) % len) false x ∧
        SideAt s r dst dp ((r.pos + j) / len) ((r.pos + j) % len) true y
      (∀ j, j < m → at_ j (a j) (b j) ∧ (b j).line = z) →
      (m = min 128 (rows * len - r.pos) ∨ ∃ x y, at_ m x y ∧ y.line ≠ z) →
      (∀ p, (∀ j, j < m → b j = .dev (p j)) → DevOpen s r m p →
        ∃ t, exec .accessPerformed s = .next t ∧ WentOn s t r m (rows * len) ∧ WroteDev s t m p fun j => s.peek (a j) 1) ∧
      (∀ c (o : Nat → Nat), s.memOk → c < 256 → (∀ j, j < m → b j = .spm c (o j)) → (∀ i j, i < j → j < m → o i ≠ o j) →
        ∃ t, exec .accessPerformed s = .next t ∧ WentOn s t r m (rows * len) ∧ t.dev = s.dev ∧ t.host = s.host ∧ t.peers = s.peers ∧
          (∀ j, j < m → Memory.read (t.coreAt c).scratch (o j) = BitVec.ofNat 8 (s.peek (a j) 1)) ∧
          ∀ k x, (k ≠ c ∨ ∀ j, j < m → x ≠ o j) → Memory.read (t.coreAt k).scratch x = Memory.read (s.coreAt k).scratch x) ∧
      (∀ q (h : Nat → Nat), s.memOk → (∀ j, j < m → b j = .host q (h j)) → (∀ i j, i < j → j < m → hostAt q (h i) ≠ hostAt q (h j)) →
        s.logTargets (s.reqVd r) ((List.range m).map b) = some s →
        ∃ t, exec .accessPerformed s = .next t ∧ WentOn s t r m (rows * len) ∧ t.dev = s.dev ∧ t.peers = s.peers ∧
          (∀ j, j < m → Memory.read t.host (hostAt q (h j)) = BitVec.ofNat 8 (s.peek (a j) 1)) ∧
          (∀ x, (∀ j, j < m → x ≠ hostAt q (h j)) → Memory.read t.host x = Memory.read s.host x) ∧
          ∀ k x, Memory.read (t.coreAt k).scratch x = Memory.read (s.coreAt k).scratch x) ∧
      (∀ q (h : Nat → Nat), s.memOk → (s.peer q).isSome = true → (∀ j, j < m → b j = .peer q (h j)) → (∀ i j, i < j → j < m → h i ≠ h j) →
        ∃ t, exec .accessPerformed s = .next t ∧ WentOn s t r m (rows * len) ∧ t.dev = s.dev ∧ t.host = s.host ∧
          (∀ j, j < m → t.peek (b j) 1 = s.peek (a j) 1) ∧
          (∀ k x, (k ≠ q ∨ ∀ j, j < m → x ≠ h j) → t.peek (.peer k x) 1 = s.peek (.peer k x) 1) ∧
          ∀ k x, Memory.read (t.coreAt k).scratch x = Memory.read (s.coreAt k).scratch x)) ∧
    (∀ (x : BitVec 128) (idx : List (Nat × Word)) (base lane : Nat) (w : Word) (scatter : Bool) (c : Nat) (o : Nat → Nat),
      r.kind = (if scatter = true then .scatter x idx base else .gather x idx base) → idx[r.pos]? = some (lane, w) →
      let n := recElem x
      let ea := recordEa x w.toNat
      recordValid x = true → recordCovers x w.toNat 1 = true → ea % n = 0 → c < 256 →
      (∀ k, k < n → s.spmIn r.core r.block ((base + lane * n + k) % 2 ^ 32) 1 = some (c, o k)) →
      (scatter = true → recReadOnly x = false → ∀ p, (∀ k, k < n → MemoryAt s r x (ea + k) true (.dev (p k))) →
        DevOpen s r n p → ∃ t, exec .accessPerformed s = .next t ∧ WentOn s t r 1 idx.length ∧
          WroteDev s t n p fun k => (Memory.read (s.coreAt c).scratch (o k)).toNat) ∧
      (∀ a : Nat → Target, s.memOk → scatter = false → (∀ i j, i < j → j < n → o i ≠ o j) →
        (∀ k, k < n → MemoryAt s r x (ea + k) false (a k)) →
        ∃ t, exec .accessPerformed s = .next t ∧ WentOn s t r 1 idx.length ∧ t.dev = s.dev ∧ t.host = s.host ∧ t.peers = s.peers ∧
          (∀ k, k < n → Memory.read (t.coreAt c).scratch (o k) = BitVec.ofNat 8 (s.peek (a k) 1)) ∧
          ∀ j y, (j ≠ c ∨ ∀ k, k < n → y ≠ o k) → Memory.read (t.coreAt j).scratch y = Memory.read (s.coreAt j).scratch y))

/-- Pieces of matrix transfers (R230, R232, R233, R242 to R244). A memory row of MLD becomes one slice of its range, or, strided, one
element of each of its 128 slices, and no other element changes; a row of MLDS becomes a slice's scales, or its zero points, INT4's
one to a byte. MST writes a bank row, each word as it is or rounded to nearest even in the narrower format. ACCSAVE writes, line
by line, banks, a reservation's record with its range, or the bank map, the lease and MROW; ACCLOAD reads them back, a range
behind the lowest free units and its record with that base, a state by claiming the banks of the map. -/
def MatrixPiecesPart : Prop :=
  ∀ (s : State) (r : EngReq), PieceOf s r → s.engineTurn r = true →
    let c := s.engine r.core
    let new := fun (t : State) => t.engine r.core
    let found := fun (ts : List Target) (k : Nat) => s.peek (ts.getD k (.dev 0)) 1
    (∀ (d : BitVec 64) (va pitch first rows : Nat) (ts : List Target), r.kind = .mld d va pitch first rows → r.pos < rows →
      Smap.wf 0 c.opBuf = true → fmtAt d ≤ 6 → let n := if fmtAt d = 2 ∨ fmtAt d = 3 then 256 else if fmtAt d = 6 then 64 else 128
      engineLines r false (lineParts (va + r.pos * pitch) n) s = (.inl ts, s) →
      ∃ t, exec .accessPerformed s = .next t ∧ WentOn s t r 1 rows ∧ s.sameMemory t ∧ (new t).banks = c.banks ∧
        (d.getLsbD 23 = false → ∀ i k, k < 128 → elementAt (new t) d i k =
          if i = first + r.pos then rowElement d (found ts) k else elementAt c d i k) ∧
        (d.getLsbD 23 = true → r.pos < 128 → ∀ i k, k < 128 → elementAt (new t) d i k =
          if k = r.pos ∧ first ≤ i ∧ i < first + 128 then rowElement d (found ts) (i - first) else elementAt c d i k)) ∧
    (∀ (d : BitVec 64) (zero : Bool) (va pitch first rows : Nat) (ts : List Target), r.kind = .mlds d zero va pitch first rows →
      r.pos < rows → Smap.wf 0 c.opBuf = true → (fmtAt d ≤ 1 ∧ zero = false ∨ 4 ≤ fmtAt d ∧ fmtAt d ≤ 6) →
      engineLines r false (lineParts (va + r.pos * pitch) (rowLen r.kind)) s = (.inl ts, s) →
      ∃ t, exec .accessPerformed s = .next t ∧ WentOn s t r 1 rows ∧ s.sameMemory t ∧ (new t).banks = c.banks ∧
        (zero = false → ∀ b, b < (if fmtAt d ≤ 1 then 4 else 128 / groupAt d) → scaleAt (new t) d (first + r.pos) b =
          if fmtAt d ≤ 1 then found ts b else found ts (2 * b) + 256 * found ts (2 * b + 1)) ∧
        (zero = true → fmtAt d ≠ 5 → ∀ b, b < 128 / groupAt d →
          rangeAt (new t) d (64 * (d.toNat / 2 ^ 48) + (first + r.pos) * (128 / groupAt d) + b) =
            if fmtAt d = 6 then found ts (b / 2) / (if b % 2 = 0 then 1 else 16) % 16 else found ts b)) ∧
    (∀ (va pitch first count conv : Nat) (sat : Bool) (ts : List Target) (p : Nat → Nat), r.kind = .mst va pitch first count conv sat →
      r.pos < 8 * count → conv ≤ 4 →
      let n := if conv = 0 then 4 else if conv ≤ 2 then 2 else 1
      let word := fun (j : Nat) => (c.bankWord (first + r.pos / 8) (r.pos % 8) j).toNat
      let out := fun (j : Nat) => match conv with
        | 0 => word j
        | 1 => (roundF bf16 .rne false (decodeF fp32 (word j))).1
        | 2 => (roundF fp16 .rne false (decodeF fp32 (word j))).1
        | 3 => (roundF e4m3 .rne sat (decodeF fp32 (word j))).1
        | _ => (roundF e5m2 .rne sat (decodeF fp32 (word j))).1
      engineLines r true (lineParts (va + r.pos * pitch) (128 * n)) s = (.inl ts, s) → ts = (List.range (128 * n)).map (fun k => .dev (p k)) →
      DevOpen s r (128 * n) p → ∃ t, exec .accessPerformed s = .next t ∧ WentOn s t r 1 (8 * count) ∧
        WroteDev s t (128 * n) p (fun k => out (k / n) / 256 ^ (k % n)) ∧ (new t).banks = c.banks) ∧
    (∀ (kind va operand pa : Nat), r.kind = .accSave kind va operand → va % 128 = 0 → pa % 128 = 0 →
      s.engineReach r ((va + 128 * r.pos) % 2 ^ 56) true = (.ok (.dev pa), s) →
      let wrote := fun (n total : Nat) (x : Nat → Nat) => DevOpen s r n (fun k => pa + k) → ∃ t, exec .accessPerformed s = .next t ∧
        WentOn s t r 1 total ∧ WroteDev s t n (fun k => pa + k) x ∧ (new t).banks = c.banks
      (∀ first count, kind = 0 → operand = first + 64 * count → first < 64 → r.pos < 32 * count → count ≤ 64 →
        wrote 128 (32 * count) fun k =>
          (c.bankWord (first + r.pos / 32) (r.pos / 4 % 8) (32 * (r.pos % 4) + k / 4)).toNat / 256 ^ (k % 4)) ∧
      (∀ d : BitVec 64, kind = 1 → operand = d.toNat →
        let total := 64 + 16384 * (d.toNat / 2 ^ 8 % 2 ^ 9)
        128 * r.pos < total → wrote (min 128 (total - 128 * r.pos)) ((total + 127) / 128) fun k =>
          if 128 * r.pos + k < 64 then d.toNat / 256 ^ (128 * r.pos + k) else rangeAt c d (128 * r.pos + k - 64)) ∧
      (∀ g x m, kind = 2 → r.pos = 0 → s.groupAt r.core r.owner = some g → m = (s.mrow g).toNat →
        (x = 0 ∧ (∀ y, c.lease = some y → y.block ≠ g.block ∨ c.leaseOver = true) ∨
          ∃ y, c.lease = some y ∧ y.block = g.block ∧ c.leaseOver = false ∧ y.left < 2 ^ 16 ∧ x = y.left + 2 ^ 16) →
        wrote 64 1 fun k =>
          if k < 8 then ((List.range 8).map fun b => b2n (Smap.get 0 c.bankOwner (8 * k + b) = ownerKey r.core r.owner) * 2 ^ b).sum
          else if k < 12 then x / 256 ^ (k - 8) else if k < 16 then m / 256 ^ (k - 12) else 0)) ∧
    (∀ (kind va operand pa : Nat), r.kind = .accLoad kind va operand → va % 128 = 0 → s.memOk →
      let step := if kind = 0 then 128 else 64
      s.engineReach r ((va + step * r.pos) % 2 ^ 56) false = (.ok (.dev pa), s) →
      (∀ first count, kind = 0 → operand = first + 64 * count → first + count ≤ 64 → r.pos < 32 * count → count ≤ 64 →
        Smap.wf none c.banks = true → ∃ t, exec .accessPerformed s = .next t ∧ WentOn s t r 1 (32 * count) ∧ s.sameMemory t ∧
          ∀ i j k, i < 64 → j < 8 → k < 128 → (new t).bankWord i j k =
            if i = first + r.pos / 32 ∧ j = r.pos / 4 % 8 ∧ k / 32 = r.pos % 4
            then BitVec.ofNat 32 (Memory.readLE s.dev (pa + 4 * (k % 32)) 4) else c.bankWord i j k) ∧
      (∀ g k, kind = 1 → r.pos = 0 → operand < 8 → s.groupAt r.core r.owner = some g → c.oresQ = [] →
        let h := Memory.readLE s.dev pa 8
        let units := h / 2 ^ 8 % 2 ^ 9
        (∀ b, b < 56 → Memory.read s.dev (pa + 8 + b) = 0) → h / 2 ^ 24 % 256 = 1 → 0 < units → units ≤ 256 →
        formatOk (h / 2 ^ 17 % 16) (h / 2 ^ 21 % 4) = true → freeRun c.unitOwner 256 units = some k → Smap.wf 0 c.unitOwner = true →
        ∃ t y, exec .accessPerformed s = .next t ∧ WentOn s t r 1 (256 * units + 1) ∧ s.sameMemory t ∧
          t.groupAt r.core r.owner = some y ∧ (vget y.d operand 0).toNat = h / 256 * 256 + k ∧
          (∀ j, j ≠ operand → vget y.d j 0 = vget g.d j 0) ∧
          ∀ u, Smap.get 0 (new t).unitOwner u = if k ≤ u ∧ u < k + units then ownerKey r.core r.owner else Smap.get 0 c.unitOwner u) ∧
      (∀ g, kind = 1 → 0 < r.pos → s.groupAt r.core r.owner = some g → Smap.wf 0 c.opBuf = true →
        let d := vget g.d operand 0
        ∃ t, exec .accessPerformed s = .next t ∧ WentOn s t r 1 (256 * (d.toNat / 2 ^ 8 % 2 ^ 9) + 1) ∧ s.sameMemory t ∧
          ∀ o, rangeAt (new t) d o = if 64 * (r.pos - 1) ≤ o ∧ o < 64 * r.pos
            then (Memory.read s.dev (pa + (o - 64 * (r.pos - 1)))).toNat else rangeAt c d o) ∧
      (∀ g, kind = 2 → r.pos = 0 → s.groupAt r.core r.owner = some g → s.rowRequest g = none → Smap.wf 0 c.bankOwner = true →
        let h := Memory.readLE s.dev pa 8
        bget (BitVec.ofNat 512 (Memory.readLE s.dev pa 64)) 81 15 = 0 → bget (BitVec.ofNat 512 (Memory.readLE s.dev pa 64)) 112 14 = 0 →
        (∀ b, 16 ≤ b → b < 64 → Memory.read s.dev (pa + b) = 0) →
        ((∃ b, b < 64 ∧ h.testBit b = true ∧ Smap.get 0 c.bankOwner b ≠ 0) → ∃ t, exec .accessPerformed s = .next t ∧
          (new t).bankOwner = c.bankOwner ∧ (t.reqs.find? fun x => x.id = s.ev.id) = some { r with waiting := true } ∧ s.sameMemory t) ∧
        ((∀ b, b < 64 → h.testBit b = true → Smap.get 0 c.bankOwner b = 0) → ∃ t, exec .accessPerformed s = .next t ∧
          WentOn s t r 1 1 ∧ s.sameMemory t ∧ ∀ b, b < 64 → Smap.get 0 (new t).bankOwner b =
            if h.testBit b = true then ownerKey r.core r.owner else Smap.get 0 c.bankOwner b)))

/-- Steps on engine requests (R82 to R84, R387 to R392), and what each piece moves (R211 to R213, R230 to R233, R242 to R244).
Where the spec leaves a point open it follows the model's choice (log entries 4, 23, 24, 49 and 53). -/
def Obligations.RequestSteps : Prop := RequestStepsPart ∧ CopyPiecesPart ∧ MatrixPiecesPart

/-- The device may write the 64-bit word at an address of a partition's node, and finds it at pa (R425). -/
def NodeWordAt (s : State) (part va pa : Nat) : Prop := s.memOk ∧ s.deviceLeaf part va true = .inr pa

/-- The state field of the word at pa of a node has become st, and the rest of the word is as before (R37). -/
def StateField (s t : State) (pa st : Nat) : Prop := Memory.readLE t.dev pa 8 = Memory.readLE s.dev pa 8 / 8 * 8 + st

/-- The outcomes of a launch (R43, R252, R360, R364). One that the checks refuse, with d among their details, enters no launch: its
RCB's state becomes 5, event 0x40 tells a detail not above d, and its completion word takes completion_value with bit 63 set. One
that they accept, whose path has begun before, stands among the launches in state 1, as does its RCB, and placement is due. With the last
block of a lone launch it retires: state 5, and its completion word takes completion_value, with bit 63 set if a block of it
failed. -/
def LaunchOutcomesPart : Prop :=
  (∀ (s : State) (q rcb v : Nat) (issuer : Option Nat),
    let part := qdPart (s.qdesc q)
    let x := BitVec.ofNat 2048 v
    let r := s.checkSub part q rcb x issuer
    s.rcbRead part rcb = .val v → rcbPart x = part → rcbBundleCount x = 0 → chainBad [(rcb, x)] = false →
    (∀ l ∈ s.launches, l.rcb ≠ nodeKey part rcb) → r.absent = none →
    (∀ d pa, d ∈ r.details → NodeWordAt s part (rcb + 248) pa → s.sentReads part rcb x = s → s.acceptNotes part rcb x = s →
      rcbReach x = 1 → rcbCompletion x ≠ 0 → s.hostLive part = true → s.queueVd q = none →
      bbit s.regs.evtring 69 = false → bbit (s.partRec part) 781 = false →
      ∃ t e, s.accept q rcb issuer = .done t ∧ t.launches = s.launches ∧ StateField s t pa 5 ∧
        Memory.readLE t.host (hostAt (s.hostPort part) (rcbCompletion x)) 8 = rcbValue x ||| 2 ^ 63 ∧
        t.cellar.head? = some e ∧ e.code = 0x40 ∧ e.detail ≤ d ∧ e.part = part ∧ e.launch = rcb ∧ e.stamp = s.timer) ∧
    (∀ l path pa, r.details = [] → r.launch = some (l, path) → (∀ y ∈ path, rcbCreated y.2 ≠ 0) →
      let z := { l with head := nodeKey part rcb }
      placeable [z] = true → (blockGroups [z]).length ≤ 64 → s.sentReads part rcb x = s → s.launches = [] →
      rcb < 2 ^ 56 → NodeWordAt s part (rcb + 248) pa →
      ∃ t, s.accept q rcb issuer = .done t ∧ t.launches = [{ z with state := 1 }] ∧ z.rcb = nodeKey part rcb ∧ z.queue = q ∧
        t.placing = true ∧ StateField s t pa 1)) ∧
  (∀ (s : State) (b : Block) (l : Launch) (pa : Nat), EventHere s → s.g.service = false → (∀ x ∈ s.g.splits, x.mask = 0) →
    s.g.reports = [] → (∀ x ∈ (s.coreAt s.g.core).l1, x.own = none) → (∀ e ∈ (s.coreAt s.g.core).pantry, e.slot ≠ s.g.slot) →
    (∀ f ∈ s.flights, f.core = s.g.core → f.slot ≠ s.g.slot) → (∀ r ∈ s.reqs, r.core = s.g.core → r.slot ≠ s.g.slot) →
    s.block s.g.block = some b → b.restoring = none → b.ending = none → b.head = l.rcb → (∀ x ∈ s.others, x.block ≠ s.g.block) →
    s.launches = [l] → l.head = l.rcb → l.total = l.ended + 1 → s.pending = [] → s.queueHeld l.queue = false →
    l.completionReach = 1 → l.completion ≠ 0 → s.hostLive l.part = true → l.vd = none → NodeWordAt s l.part (l.va + 248) pa →
    ∃ t, exec .groupEnd s = .next t ∧ t.launches = [] ∧ t.groupAt s.g.core s.g.slot = none ∧ t.block b.id = none ∧ StateField s t pa 5 ∧
      Memory.readLE t.host (hostAt (s.hostPort l.part) l.completion) 8 =
        (if l.failed = true then l.completionValue ||| 2 ^ 63 else l.completionValue) % 2 ^ 64)

/-- Queues and the front end (R247 to R252, R321, R418), and what becomes of a launch (R43, R252, R360).
Where the spec leaves a point open it follows the model's choice (log entries 5, 18, 19, 29, 52 and 55). -/
def Obligations.FrontEndSteps : Prop := FrontEndStepsPart ∧ LaunchOutcomesPart
end

