-- ==== Sys2Proof/Laws/State.lean ====
section
/-! SUPPORT. What each update of the machine leaves in each field, so that no later proof unfolds a
record update. -/

namespace Sys2Proof.Machine

@[simp] theorem State.modG_g (s : State) (f : Group → Group) : (s.modG f).g = f s.g := rfl
@[simp] theorem State.modG_others (s : State) (f : Group → Group) : (s.modG f).others = s.others := rfl
@[simp] theorem State.modG_blocks (s : State) (f : Group → Group) : (s.modG f).blocks = s.blocks := rfl
@[simp] theorem State.modG_launches (s : State) (f : Group → Group) : (s.modG f).launches = s.launches := rfl
@[simp] theorem State.modG_cores (s : State) (f : Group → Group) : (s.modG f).cores = s.cores := rfl
@[simp] theorem State.modG_clusters (s : State) (f : Group → Group) : (s.modG f).clusters = s.clusters := rfl
@[simp] theorem State.modG_dies (s : State) (f : Group → Group) : (s.modG f).dies = s.dies := rfl
@[simp] theorem State.modG_vaults (s : State) (f : Group → Group) : (s.modG f).vaults = s.vaults := rfl
@[simp] theorem State.modG_dev (s : State) (f : Group → Group) : (s.modG f).dev = s.dev := rfl
@[simp] theorem State.modG_host (s : State) (f : Group → Group) : (s.modG f).host = s.host := rfl
@[simp] theorem State.modG_peers (s : State) (f : Group → Group) : (s.modG f).peers = s.peers := rfl
@[simp] theorem State.modG_versions (s : State) (f : Group → Group) : (s.modG f).versions = s.versions := rfl
@[simp] theorem State.modG_poison (s : State) (f : Group → Group) : (s.modG f).poison = s.poison := rfl
@[simp] theorem State.modG_owners (s : State) (f : Group → Group) : (s.modG f).owners = s.owners := rfl
@[simp] theorem State.modG_flights (s : State) (f : Group → Group) : (s.modG f).flights = s.flights := rfl
@[simp] theorem State.modG_reqs (s : State) (f : Group → Group) : (s.modG f).reqs = s.reqs := rfl
@[simp] theorem State.modG_nextId (s : State) (f : Group → Group) : (s.modG f).nextId = s.nextId := rfl
@[simp] theorem State.modG_popWait (s : State) (f : Group → Group) : (s.modG f).popWait = s.popWait := rfl
@[simp] theorem State.modG_timer (s : State) (f : Group → Group) : (s.modG f).timer = s.timer := rfl
@[simp] theorem State.modG_slots (s : State) (f : Group → Group) : (s.modG f).slots = s.slots := rfl
@[simp] theorem State.modG_pending (s : State) (f : Group → Group) : (s.modG f).pending = s.pending := rfl
@[simp] theorem State.modG_rlaunches (s : State) (f : Group → Group) : (s.modG f).rlaunches = s.rlaunches := rfl
@[simp] theorem State.modG_nodes (s : State) (f : Group → Group) : (s.modG f).nodes = s.nodes := rfl
@[simp] theorem State.modG_completions (s : State) (f : Group → Group) : (s.modG f).completions = s.completions := rfl
@[simp] theorem State.modG_nextSlot (s : State) (f : Group → Group) : (s.modG f).nextSlot = s.nextSlot := rfl
@[simp] theorem State.modG_beats (s : State) (f : Group → Group) : (s.modG f).beats = s.beats := rfl
@[simp] theorem State.modG_loops (s : State) (f : Group → Group) : (s.modG f).loops = s.loops := rfl
@[simp] theorem State.modG_passDue (s : State) (f : Group → Group) : (s.modG f).passDue = s.passDue := rfl
@[simp] theorem State.modG_ways (s : State) (f : Group → Group) : (s.modG f).ways = s.ways := rfl
@[simp] theorem State.modG_heat (s : State) (f : Group → Group) : (s.modG f).heat = s.heat := rfl
@[simp] theorem State.modG_colls (s : State) (f : Group → Group) : (s.modG f).colls = s.colls := rfl
@[simp] theorem State.modG_collSeq (s : State) (f : Group → Group) : (s.modG f).collSeq = s.collSeq := rfl
@[simp] theorem State.modG_remotes (s : State) (f : Group → Group) : (s.modG f).remotes = s.remotes := rfl
@[simp] theorem State.modG_residue (s : State) (f : Group → Group) : (s.modG f).residue = s.residue := rfl
@[simp] theorem State.modG_nodeTicks (s : State) (f : Group → Group) : (s.modG f).nodeTicks = s.nodeTicks := rfl
@[simp] theorem State.modG_refilled (s : State) (f : Group → Group) : (s.modG f).refilled = s.refilled := rfl
@[simp] theorem State.modG_slices (s : State) (f : Group → Group) : (s.modG f).slices = s.slices := rfl
@[simp] theorem State.modG_logged (s : State) (f : Group → Group) : (s.modG f).logged = s.logged := rfl
@[simp] theorem State.modG_logFull (s : State) (f : Group → Group) : (s.modG f).logFull = s.logFull := rfl
@[simp] theorem State.modG_cellar (s : State) (f : Group → Group) : (s.modG f).cellar = s.cellar := rfl
@[simp] theorem State.modG_cellarHead (s : State) (f : Group → Group) : (s.modG f).cellarHead = s.cellarHead := rfl
@[simp] theorem State.modG_placing (s : State) (f : Group → Group) : (s.modG f).placing = s.placing := rfl
@[simp] theorem State.modG_power (s : State) (f : Group → Group) : (s.modG f).power = s.power := rfl
@[simp] theorem State.modG_imageStore (s : State) (f : Group → Group) : (s.modG f).imageStore = s.imageStore := rfl
@[simp] theorem State.modG_down (s : State) (f : Group → Group) : (s.modG f).down = s.down := rfl
@[simp] theorem State.modG_altDown (s : State) (f : Group → Group) : (s.modG f).altDown = s.altDown := rfl
@[simp] theorem State.modG_links (s : State) (f : Group → Group) : (s.modG f).links = s.links := rfl
@[simp] theorem State.modG_ports (s : State) (f : Group → Group) : (s.modG f).ports = s.ports := rfl
@[simp] theorem State.modG_regs (s : State) (f : Group → Group) : (s.modG f).regs = s.regs := rfl
@[simp] theorem State.modG_free (s : State) (f : Group → Group) : (s.modG f).free = s.free := rfl
@[simp] theorem State.modG_agenda (s : State) (f : Group → Group) : (s.modG f).agenda = s.agenda := rfl
@[simp] theorem State.modG_ev (s : State) (f : Group → Group) : (s.modG f).ev = s.ev := rfl
@[simp] theorem State.modG_env (s : State) (f : Group → Group) : (s.modG f).env = s.env := rfl
@[simp] theorem State.modG_hushed (s : State) (f : Group → Group) : (s.modG f).hushed = s.hushed := rfl
@[simp] theorem State.modG_rewritten (s : State) (f : Group → Group) : (s.modG f).rewritten = s.rewritten := rfl
@[simp] theorem State.modG_lost (s : State) (f : Group → Group) : (s.modG f).lost = s.lost := rfl
@[simp] theorem State.modG_powerAt (s : State) (f : Group → Group) : (s.modG f).powerAt = s.powerAt := rfl
@[simp] theorem State.modG_unsynced (s : State) (f : Group → Group) : (s.modG f).unsynced = s.unsynced := rfl

@[simp] theorem State.modSp_g (s : State) (f : Split → Split) : (s.modSp f).g = { s.g with sp := f s.g.sp } := rfl
@[simp] theorem State.modSp_others (s : State) (f : Split → Split) : (s.modSp f).others = s.others := rfl
@[simp] theorem State.modSp_blocks (s : State) (f : Split → Split) : (s.modSp f).blocks = s.blocks := rfl
@[simp] theorem State.modSp_launches (s : State) (f : Split → Split) : (s.modSp f).launches = s.launches := rfl
@[simp] theorem State.modSp_cores (s : State) (f : Split → Split) : (s.modSp f).cores = s.cores := rfl
@[simp] theorem State.modSp_clusters (s : State) (f : Split → Split) : (s.modSp f).clusters = s.clusters := rfl
@[simp] theorem State.modSp_dies (s : State) (f : Split → Split) : (s.modSp f).dies = s.dies := rfl
@[simp] theorem State.modSp_vaults (s : State) (f : Split → Split) : (s.modSp f).vaults = s.vaults := rfl
@[simp] theorem State.modSp_dev (s : State) (f : Split → Split) : (s.modSp f).dev = s.dev := rfl
@[simp] theorem State.modSp_host (s : State) (f : Split → Split) : (s.modSp f).host = s.host := rfl
@[simp] theorem State.modSp_peers (s : State) (f : Split → Split) : (s.modSp f).peers = s.peers := rfl
@[simp] theorem State.modSp_versions (s : State) (f : Split → Split) : (s.modSp f).versions = s.versions := rfl
@[simp] theorem State.modSp_poison (s : State) (f : Split → Split) : (s.modSp f).poison = s.poison := rfl
@[simp] theorem State.modSp_owners (s : State) (f : Split → Split) : (s.modSp f).owners = s.owners := rfl
@[simp] theorem State.modSp_flights (s : State) (f : Split → Split) : (s.modSp f).flights = s.flights := rfl
@[simp] theorem State.modSp_reqs (s : State) (f : Split → Split) : (s.modSp f).reqs = s.reqs := rfl
@[simp] theorem State.modSp_nextId (s : State) (f : Split → Split) : (s.modSp f).nextId = s.nextId := rfl
@[simp] theorem State.modSp_popWait (s : State) (f : Split → Split) : (s.modSp f).popWait = s.popWait := rfl
@[simp] theorem State.modSp_timer (s : State) (f : Split → Split) : (s.modSp f).timer = s.timer := rfl
@[simp] theorem State.modSp_slots (s : State) (f : Split → Split) : (s.modSp f).slots = s.slots := rfl
@[simp] theorem State.modSp_pending (s : State) (f : Split → Split) : (s.modSp f).pending = s.pending := rfl
@[simp] theorem State.modSp_rlaunches (s : State) (f : Split → Split) : (s.modSp f).rlaunches = s.rlaunches := rfl
@[simp] theorem State.modSp_nodes (s : State) (f : Split → Split) : (s.modSp f).nodes = s.nodes := rfl
@[simp] theorem State.modSp_completions (s : State) (f : Split → Split) : (s.modSp f).completions = s.completions := rfl
@[simp] theorem State.modSp_nextSlot (s : State) (f : Split → Split) : (s.modSp f).nextSlot = s.nextSlot := rfl
@[simp] theorem State.modSp_beats (s : State) (f : Split → Split) : (s.modSp f).beats = s.beats := rfl
@[simp] theorem State.modSp_loops (s : State) (f : Split → Split) : (s.modSp f).loops = s.loops := rfl
@[simp] theorem State.modSp_passDue (s : State) (f : Split → Split) : (s.modSp f).passDue = s.passDue := rfl
@[simp] theorem State.modSp_ways (s : State) (f : Split → Split) : (s.modSp f).ways = s.ways := rfl
@[simp] theorem State.modSp_heat (s : State) (f : Split → Split) : (s.modSp f).heat = s.heat := rfl
@[simp] theorem State.modSp_colls (s : State) (f : Split → Split) : (s.modSp f).colls = s.colls := rfl
@[simp] theorem State.modSp_collSeq (s : State) (f : Split → Split) : (s.modSp f).collSeq = s.collSeq := rfl
@[simp] theorem State.modSp_remotes (s : State) (f : Split → Split) : (s.modSp f).remotes = s.remotes := rfl
@[simp] theorem State.modSp_residue (s : State) (f : Split → Split) : (s.modSp f).residue = s.residue := rfl
@[simp] theorem State.modSp_nodeTicks (s : State) (f : Split → Split) : (s.modSp f).nodeTicks = s.nodeTicks := rfl
@[simp] theorem State.modSp_refilled (s : State) (f : Split → Split) : (s.modSp f).refilled = s.refilled := rfl
@[simp] theorem State.modSp_slices (s : State) (f : Split → Split) : (s.modSp f).slices = s.slices := rfl
@[simp] theorem State.modSp_logged (s : State) (f : Split → Split) : (s.modSp f).logged = s.logged := rfl
@[simp] theorem State.modSp_logFull (s : State) (f : Split → Split) : (s.modSp f).logFull = s.logFull := rfl
@[simp] theorem State.modSp_cellar (s : State) (f : Split → Split) : (s.modSp f).cellar = s.cellar := rfl
@[simp] theorem State.modSp_cellarHead (s : State) (f : Split → Split) : (s.modSp f).cellarHead = s.cellarHead := rfl
@[simp] theorem State.modSp_placing (s : State) (f : Split → Split) : (s.modSp f).placing = s.placing := rfl
@[simp] theorem State.modSp_power (s : State) (f : Split → Split) : (s.modSp f).power = s.power := rfl
@[simp] theorem State.modSp_imageStore (s : State) (f : Split → Split) : (s.modSp f).imageStore = s.imageStore := rfl
@[simp] theorem State.modSp_down (s : State) (f : Split → Split) : (s.modSp f).down = s.down := rfl
@[simp] theorem State.modSp_altDown (s : State) (f : Split → Split) : (s.modSp f).altDown = s.altDown := rfl
@[simp] theorem State.modSp_links (s : State) (f : Split → Split) : (s.modSp f).links = s.links := rfl
@[simp] theorem State.modSp_ports (s : State) (f : Split → Split) : (s.modSp f).ports = s.ports := rfl
@[simp] theorem State.modSp_regs (s : State) (f : Split → Split) : (s.modSp f).regs = s.regs := rfl
@[simp] theorem State.modSp_free (s : State) (f : Split → Split) : (s.modSp f).free = s.free := rfl
@[simp] theorem State.modSp_agenda (s : State) (f : Split → Split) : (s.modSp f).agenda = s.agenda := rfl
@[simp] theorem State.modSp_ev (s : State) (f : Split → Split) : (s.modSp f).ev = s.ev := rfl
@[simp] theorem State.modSp_env (s : State) (f : Split → Split) : (s.modSp f).env = s.env := rfl
@[simp] theorem State.modSp_hushed (s : State) (f : Split → Split) : (s.modSp f).hushed = s.hushed := rfl
@[simp] theorem State.modSp_rewritten (s : State) (f : Split → Split) : (s.modSp f).rewritten = s.rewritten := rfl
@[simp] theorem State.modSp_lost (s : State) (f : Split → Split) : (s.modSp f).lost = s.lost := rfl
@[simp] theorem State.modSp_powerAt (s : State) (f : Split → Split) : (s.modSp f).powerAt = s.powerAt := rfl
@[simp] theorem State.modSp_unsynced (s : State) (f : Split → Split) : (s.modSp f).unsynced = s.unsynced := rfl

@[simp] theorem State.modCore_g (s : State) (c : Nat) (f : Core → Core) : (s.modCore c f).g = s.g := rfl
@[simp] theorem State.modCore_others (s : State) (c : Nat) (f : Core → Core) : (s.modCore c f).others = s.others := rfl
@[simp] theorem State.modCore_blocks (s : State) (c : Nat) (f : Core → Core) : (s.modCore c f).blocks = s.blocks := rfl
@[simp] theorem State.modCore_launches (s : State) (c : Nat) (f : Core → Core) : (s.modCore c f).launches = s.launches := rfl
@[simp] theorem State.modCore_cores (s : State) (c : Nat) (f : Core → Core) : (s.modCore c f).cores = vset s.cores c (f (s.coreAt c)) := rfl
@[simp] theorem State.modCore_clusters (s : State) (c : Nat) (f : Core → Core) : (s.modCore c f).clusters = s.clusters := rfl
@[simp] theorem State.modCore_dies (s : State) (c : Nat) (f : Core → Core) : (s.modCore c f).dies = s.dies := rfl
@[simp] theorem State.modCore_vaults (s : State) (c : Nat) (f : Core → Core) : (s.modCore c f).vaults = s.vaults := rfl
@[simp] theorem State.modCore_dev (s : State) (c : Nat) (f : Core → Core) : (s.modCore c f).dev = s.dev := rfl
@[simp] theorem State.modCore_host (s : State) (c : Nat) (f : Core → Core) : (s.modCore c f).host = s.host := rfl
@[simp] theorem State.modCore_peers (s : State) (c : Nat) (f : Core → Core) : (s.modCore c f).peers = s.peers := rfl
@[simp] theorem State.modCore_versions (s : State) (c : Nat) (f : Core → Core) : (s.modCore c f).versions = s.versions := rfl
@[simp] theorem State.modCore_poison (s : State) (c : Nat) (f : Core → Core) : (s.modCore c f).poison = s.poison := rfl
@[simp] theorem State.modCore_owners (s : State) (c : Nat) (f : Core → Core) : (s.modCore c f).owners = s.owners := rfl
@[simp] theorem State.modCore_flights (s : State) (c : Nat) (f : Core → Core) : (s.modCore c f).flights = s.flights := rfl
@[simp] theorem State.modCore_reqs (s : State) (c : Nat) (f : Core → Core) : (s.modCore c f).reqs = s.reqs := rfl
@[simp] theorem State.modCore_nextId (s : State) (c : Nat) (f : Core → Core) : (s.modCore c f).nextId = s.nextId := rfl
@[simp] theorem State.modCore_popWait (s : State) (c : Nat) (f : Core → Core) : (s.modCore c f).popWait = s.popWait := rfl
@[simp] theorem State.modCore_timer (s : State) (c : Nat) (f : Core → Core) : (s.modCore c f).timer = s.timer := rfl
@[simp] theorem State.modCore_slots (s : State) (c : Nat) (f : Core → Core) : (s.modCore c f).slots = s.slots := rfl
@[simp] theorem State.modCore_pending (s : State) (c : Nat) (f : Core → Core) : (s.modCore c f).pending = s.pending := rfl
@[simp] theorem State.modCore_rlaunches (s : State) (c : Nat) (f : Core → Core) : (s.modCore c f).rlaunches = s.rlaunches := rfl
@[simp] theorem State.modCore_nodes (s : State) (c : Nat) (f : Core → Core) : (s.modCore c f).nodes = s.nodes := rfl
@[simp] theorem State.modCore_completions (s : State) (c : Nat) (f : Core → Core) : (s.modCore c f).completions = s.completions := rfl
@[simp] theorem State.modCore_nextSlot (s : State) (c : Nat) (f : Core → Core) : (s.modCore c f).nextSlot = s.nextSlot := rfl
@[simp] theorem State.modCore_beats (s : State) (c : Nat) (f : Core → Core) : (s.modCore c f).beats = s.beats := rfl
@[simp] theorem State.modCore_loops (s : State) (c : Nat) (f : Core → Core) : (s.modCore c f).loops = s.loops := rfl
@[simp] theorem State.modCore_passDue (s : State) (c : Nat) (f : Core → Core) : (s.modCore c f).passDue = s.passDue := rfl
@[simp] theorem State.modCore_ways (s : State) (c : Nat) (f : Core → Core) : (s.modCore c f).ways = s.ways := rfl
@[simp] theorem State.modCore_heat (s : State) (c : Nat) (f : Core → Core) : (s.modCore c f).heat = s.heat := rfl
@[simp] theorem State.modCore_colls (s : State) (c : Nat) (f : Core → Core) : (s.modCore c f).colls = s.colls := rfl
@[simp] theorem State.modCore_collSeq (s : State) (c : Nat) (f : Core → Core) : (s.modCore c f).collSeq = s.collSeq := rfl
@[simp] theorem State.modCore_remotes (s : State) (c : Nat) (f : Core → Core) : (s.modCore c f).remotes = s.remotes := rfl
@[simp] theorem State.modCore_residue (s : State) (c : Nat) (f : Core → Core) : (s.modCore c f).residue = s.residue := rfl
@[simp] theorem State.modCore_nodeTicks (s : State) (c : Nat) (f : Core → Core) : (s.modCore c f).nodeTicks = s.nodeTicks := rfl
@[simp] theorem State.modCore_refilled (s : State) (c : Nat) (f : Core → Core) : (s.modCore c f).refilled = s.refilled := rfl
@[simp] theorem State.modCore_slices (s : State) (c : Nat) (f : Core → Core) : (s.modCore c f).slices = s.slices := rfl
@[simp] theorem State.modCore_logged (s : State) (c : Nat) (f : Core → Core) : (s.modCore c f).logged = s.logged := rfl
@[simp] theorem State.modCore_logFull (s : State) (c : Nat) (f : Core → Core) : (s.modCore c f).logFull = s.logFull := rfl
@[simp] theorem State.modCore_cellar (s : State) (c : Nat) (f : Core → Core) : (s.modCore c f).cellar = s.cellar := rfl
@[simp] theorem State.modCore_cellarHead (s : State) (c : Nat) (f : Core → Core) : (s.modCore c f).cellarHead = s.cellarHead := rfl
@[simp] theorem State.modCore_placing (s : State) (c : Nat) (f : Core → Core) : (s.modCore c f).placing = s.placing := rfl
@[simp] theorem State.modCore_power (s : State) (c : Nat) (f : Core → Core) : (s.modCore c f).power = s.power := rfl
@[simp] theorem State.modCore_imageStore (s : State) (c : Nat) (f : Core → Core) : (s.modCore c f).imageStore = s.imageStore := rfl
@[simp] theorem State.modCore_down (s : State) (c : Nat) (f : Core → Core) : (s.modCore c f).down = s.down := rfl
@[simp] theorem State.modCore_altDown (s : State) (c : Nat) (f : Core → Core) : (s.modCore c f).altDown = s.altDown := rfl
@[simp] theorem State.modCore_links (s : State) (c : Nat) (f : Core → Core) : (s.modCore c f).links = s.links := rfl
@[simp] theorem State.modCore_ports (s : State) (c : Nat) (f : Core → Core) : (s.modCore c f).ports = s.ports := rfl
@[simp] theorem State.modCore_regs (s : State) (c : Nat) (f : Core → Core) : (s.modCore c f).regs = s.regs := rfl
@[simp] theorem State.modCore_free (s : State) (c : Nat) (f : Core → Core) : (s.modCore c f).free = s.free := rfl
@[simp] theorem State.modCore_agenda (s : State) (c : Nat) (f : Core → Core) : (s.modCore c f).agenda = s.agenda := rfl
@[simp] theorem State.modCore_ev (s : State) (c : Nat) (f : Core → Core) : (s.modCore c f).ev = s.ev := rfl
@[simp] theorem State.modCore_env (s : State) (c : Nat) (f : Core → Core) : (s.modCore c f).env = s.env := rfl
@[simp] theorem State.modCore_hushed (s : State) (c : Nat) (f : Core → Core) : (s.modCore c f).hushed = s.hushed := rfl
@[simp] theorem State.modCore_rewritten (s : State) (c : Nat) (f : Core → Core) : (s.modCore c f).rewritten = s.rewritten := rfl
@[simp] theorem State.modCore_lost (s : State) (c : Nat) (f : Core → Core) : (s.modCore c f).lost = s.lost := rfl
@[simp] theorem State.modCore_powerAt (s : State) (c : Nat) (f : Core → Core) : (s.modCore c f).powerAt = s.powerAt := rfl
@[simp] theorem State.modCore_unsynced (s : State) (c : Nat) (f : Core → Core) : (s.modCore c f).unsynced = s.unsynced := rfl

@[simp] theorem State.modCluster_g (s : State) (c : Nat) (f : Cluster → Cluster) : (s.modCluster c f).g = s.g := rfl
@[simp] theorem State.modCluster_others (s : State) (c : Nat) (f : Cluster → Cluster) : (s.modCluster c f).others = s.others := rfl
@[simp] theorem State.modCluster_blocks (s : State) (c : Nat) (f : Cluster → Cluster) : (s.modCluster c f).blocks = s.blocks := rfl
@[simp] theorem State.modCluster_launches (s : State) (c : Nat) (f : Cluster → Cluster) : (s.modCluster c f).launches = s.launches := rfl
@[simp] theorem State.modCluster_cores (s : State) (c : Nat) (f : Cluster → Cluster) : (s.modCluster c f).cores = s.cores := rfl
@[simp] theorem State.modCluster_clusters (s : State) (c : Nat) (f : Cluster → Cluster) : (s.modCluster c f).clusters = vset s.clusters c (f (s.clusterAt c)) := rfl
@[simp] theorem State.modCluster_dies (s : State) (c : Nat) (f : Cluster → Cluster) : (s.modCluster c f).dies = s.dies := rfl
@[simp] theorem State.modCluster_vaults (s : State) (c : Nat) (f : Cluster → Cluster) : (s.modCluster c f).vaults = s.vaults := rfl
@[simp] theorem State.modCluster_dev (s : State) (c : Nat) (f : Cluster → Cluster) : (s.modCluster c f).dev = s.dev := rfl
@[simp] theorem State.modCluster_host (s : State) (c : Nat) (f : Cluster → Cluster) : (s.modCluster c f).host = s.host := rfl
@[simp] theorem State.modCluster_peers (s : State) (c : Nat) (f : Cluster → Cluster) : (s.modCluster c f).peers = s.peers := rfl
@[simp] theorem State.modCluster_versions (s : State) (c : Nat) (f : Cluster → Cluster) : (s.modCluster c f).versions = s.versions := rfl
@[simp] theorem State.modCluster_poison (s : State) (c : Nat) (f : Cluster → Cluster) : (s.modCluster c f).poison = s.poison := rfl
@[simp] theorem State.modCluster_owners (s : State) (c : Nat) (f : Cluster → Cluster) : (s.modCluster c f).owners = s.owners := rfl
@[simp] theorem State.modCluster_flights (s : State) (c : Nat) (f : Cluster → Cluster) : (s.modCluster c f).flights = s.flights := rfl
@[simp] theorem State.modCluster_reqs (s : State) (c : Nat) (f : Cluster → Cluster) : (s.modCluster c f).reqs = s.reqs := rfl
@[simp] theorem State.modCluster_nextId (s : State) (c : Nat) (f : Cluster → Cluster) : (s.modCluster c f).nextId = s.nextId := rfl
@[simp] theorem State.modCluster_popWait (s : State) (c : Nat) (f : Cluster → Cluster) : (s.modCluster c f).popWait = s.popWait := rfl
@[simp] theorem State.modCluster_timer (s : State) (c : Nat) (f : Cluster → Cluster) : (s.modCluster c f).timer = s.timer := rfl
@[simp] theorem State.modCluster_slots (s : State) (c : Nat) (f : Cluster → Cluster) : (s.modCluster c f).slots = s.slots := rfl
@[simp] theorem State.modCluster_pending (s : State) (c : Nat) (f : Cluster → Cluster) : (s.modCluster c f).pending = s.pending := rfl
@[simp] theorem State.modCluster_rlaunches (s : State) (c : Nat) (f : Cluster → Cluster) : (s.modCluster c f).rlaunches = s.rlaunches := rfl
@[simp] theorem State.modCluster_nodes (s : State) (c : Nat) (f : Cluster → Cluster) : (s.modCluster c f).nodes = s.nodes := rfl
@[simp] theorem State.modCluster_completions (s : State) (c : Nat) (f : Cluster → Cluster) : (s.modCluster c f).completions = s.completions := rfl
@[simp] theorem State.modCluster_nextSlot (s : State) (c : Nat) (f : Cluster → Cluster) : (s.modCluster c f).nextSlot = s.nextSlot := rfl
@[simp] theorem State.modCluster_beats (s : State) (c : Nat) (f : Cluster → Cluster) : (s.modCluster c f).beats = s.beats := rfl
@[simp] theorem State.modCluster_loops (s : State) (c : Nat) (f : Cluster → Cluster) : (s.modCluster c f).loops = s.loops := rfl
@[simp] theorem State.modCluster_passDue (s : State) (c : Nat) (f : Cluster → Cluster) : (s.modCluster c f).passDue = s.passDue := rfl
@[simp] theorem State.modCluster_ways (s : State) (c : Nat) (f : Cluster → Cluster) : (s.modCluster c f).ways = s.ways := rfl
@[simp] theorem State.modCluster_heat (s : State) (c : Nat) (f : Cluster → Cluster) : (s.modCluster c f).heat = s.heat := rfl
@[simp] theorem State.modCluster_colls (s : State) (c : Nat) (f : Cluster → Cluster) : (s.modCluster c f).colls = s.colls := rfl
@[simp] theorem State.modCluster_collSeq (s : State) (c : Nat) (f : Cluster → Cluster) : (s.modCluster c f).collSeq = s.collSeq := rfl
@[simp] theorem State.modCluster_remotes (s : State) (c : Nat) (f : Cluster → Cluster) : (s.modCluster c f).remotes = s.remotes := rfl
@[simp] theorem State.modCluster_residue (s : State) (c : Nat) (f : Cluster → Cluster) : (s.modCluster c f).residue = s.residue := rfl
@[simp] theorem State.modCluster_nodeTicks (s : State) (c : Nat) (f : Cluster → Cluster) : (s.modCluster c f).nodeTicks = s.nodeTicks := rfl
@[simp] theorem State.modCluster_refilled (s : State) (c : Nat) (f : Cluster → Cluster) : (s.modCluster c f).refilled = s.refilled := rfl
@[simp] theorem State.modCluster_slices (s : State) (c : Nat) (f : Cluster → Cluster) : (s.modCluster c f).slices = s.slices := rfl
@[simp] theorem State.modCluster_logged (s : State) (c : Nat) (f : Cluster → Cluster) : (s.modCluster c f).logged = s.logged := rfl
@[simp] theorem State.modCluster_logFull (s : State) (c : Nat) (f : Cluster → Cluster) : (s.modCluster c f).logFull = s.logFull := rfl
@[simp] theorem State.modCluster_cellar (s : State) (c : Nat) (f : Cluster → Cluster) : (s.modCluster c f).cellar = s.cellar := rfl
@[simp] theorem State.modCluster_cellarHead (s : State) (c : Nat) (f : Cluster → Cluster) : (s.modCluster c f).cellarHead = s.cellarHead := rfl
@[simp] theorem State.modCluster_placing (s : State) (c : Nat) (f : Cluster → Cluster) : (s.modCluster c f).placing = s.placing := rfl
@[simp] theorem State.modCluster_power (s : State) (c : Nat) (f : Cluster → Cluster) : (s.modCluster c f).power = s.power := rfl
@[simp] theorem State.modCluster_imageStore (s : State) (c : Nat) (f : Cluster → Cluster) : (s.modCluster c f).imageStore = s.imageStore := rfl
@[simp] theorem State.modCluster_down (s : State) (c : Nat) (f : Cluster → Cluster) : (s.modCluster c f).down = s.down := rfl
@[simp] theorem State.modCluster_altDown (s : State) (c : Nat) (f : Cluster → Cluster) : (s.modCluster c f).altDown = s.altDown := rfl
@[simp] theorem State.modCluster_links (s : State) (c : Nat) (f : Cluster → Cluster) : (s.modCluster c f).links = s.links := rfl
@[simp] theorem State.modCluster_ports (s : State) (c : Nat) (f : Cluster → Cluster) : (s.modCluster c f).ports = s.ports := rfl
@[simp] theorem State.modCluster_regs (s : State) (c : Nat) (f : Cluster → Cluster) : (s.modCluster c f).regs = s.regs := rfl
@[simp] theorem State.modCluster_free (s : State) (c : Nat) (f : Cluster → Cluster) : (s.modCluster c f).free = s.free := rfl
@[simp] theorem State.modCluster_agenda (s : State) (c : Nat) (f : Cluster → Cluster) : (s.modCluster c f).agenda = s.agenda := rfl
@[simp] theorem State.modCluster_ev (s : State) (c : Nat) (f : Cluster → Cluster) : (s.modCluster c f).ev = s.ev := rfl
@[simp] theorem State.modCluster_env (s : State) (c : Nat) (f : Cluster → Cluster) : (s.modCluster c f).env = s.env := rfl
@[simp] theorem State.modCluster_hushed (s : State) (c : Nat) (f : Cluster → Cluster) : (s.modCluster c f).hushed = s.hushed := rfl
@[simp] theorem State.modCluster_rewritten (s : State) (c : Nat) (f : Cluster → Cluster) : (s.modCluster c f).rewritten = s.rewritten := rfl
@[simp] theorem State.modCluster_lost (s : State) (c : Nat) (f : Cluster → Cluster) : (s.modCluster c f).lost = s.lost := rfl
@[simp] theorem State.modCluster_powerAt (s : State) (c : Nat) (f : Cluster → Cluster) : (s.modCluster c f).powerAt = s.powerAt := rfl
@[simp] theorem State.modCluster_unsynced (s : State) (c : Nat) (f : Cluster → Cluster) : (s.modCluster c f).unsynced = s.unsynced := rfl

@[simp] theorem State.modDie_g (s : State) (c : Nat) (f : Die → Die) : (s.modDie c f).g = s.g := rfl
@[simp] theorem State.modDie_others (s : State) (c : Nat) (f : Die → Die) : (s.modDie c f).others = s.others := rfl
@[simp] theorem State.modDie_blocks (s : State) (c : Nat) (f : Die → Die) : (s.modDie c f).blocks = s.blocks := rfl
@[simp] theorem State.modDie_launches (s : State) (c : Nat) (f : Die → Die) : (s.modDie c f).launches = s.launches := rfl
@[simp] theorem State.modDie_cores (s : State) (c : Nat) (f : Die → Die) : (s.modDie c f).cores = s.cores := rfl
@[simp] theorem State.modDie_clusters (s : State) (c : Nat) (f : Die → Die) : (s.modDie c f).clusters = s.clusters := rfl
@[simp] theorem State.modDie_dies (s : State) (c : Nat) (f : Die → Die) : (s.modDie c f).dies = vset s.dies c (f (s.dieAt c)) := rfl
@[simp] theorem State.modDie_vaults (s : State) (c : Nat) (f : Die → Die) : (s.modDie c f).vaults = s.vaults := rfl
@[simp] theorem State.modDie_dev (s : State) (c : Nat) (f : Die → Die) : (s.modDie c f).dev = s.dev := rfl
@[simp] theorem State.modDie_host (s : State) (c : Nat) (f : Die → Die) : (s.modDie c f).host = s.host := rfl
@[simp] theorem State.modDie_peers (s : State) (c : Nat) (f : Die → Die) : (s.modDie c f).peers = s.peers := rfl
@[simp] theorem State.modDie_versions (s : State) (c : Nat) (f : Die → Die) : (s.modDie c f).versions = s.versions := rfl
@[simp] theorem State.modDie_poison (s : State) (c : Nat) (f : Die → Die) : (s.modDie c f).poison = s.poison := rfl
@[simp] theorem State.modDie_owners (s : State) (c : Nat) (f : Die → Die) : (s.modDie c f).owners = s.owners := rfl
@[simp] theorem State.modDie_flights (s : State) (c : Nat) (f : Die → Die) : (s.modDie c f).flights = s.flights := rfl
@[simp] theorem State.modDie_reqs (s : State) (c : Nat) (f : Die → Die) : (s.modDie c f).reqs = s.reqs := rfl
@[simp] theorem State.modDie_nextId (s : State) (c : Nat) (f : Die → Die) : (s.modDie c f).nextId = s.nextId := rfl
@[simp] theorem State.modDie_popWait (s : State) (c : Nat) (f : Die → Die) : (s.modDie c f).popWait = s.popWait := rfl
@[simp] theorem State.modDie_timer (s : State) (c : Nat) (f : Die → Die) : (s.modDie c f).timer = s.timer := rfl
@[simp] theorem State.modDie_slots (s : State) (c : Nat) (f : Die → Die) : (s.modDie c f).slots = s.slots := rfl
@[simp] theorem State.modDie_pending (s : State) (c : Nat) (f : Die → Die) : (s.modDie c f).pending = s.pending := rfl
@[simp] theorem State.modDie_rlaunches (s : State) (c : Nat) (f : Die → Die) : (s.modDie c f).rlaunches = s.rlaunches := rfl
@[simp] theorem State.modDie_nodes (s : State) (c : Nat) (f : Die → Die) : (s.modDie c f).nodes = s.nodes := rfl
@[simp] theorem State.modDie_completions (s : State) (c : Nat) (f : Die → Die) : (s.modDie c f).completions = s.completions := rfl
@[simp] theorem State.modDie_nextSlot (s : State) (c : Nat) (f : Die → Die) : (s.modDie c f).nextSlot = s.nextSlot := rfl
@[simp] theorem State.modDie_beats (s : State) (c : Nat) (f : Die → Die) : (s.modDie c f).beats = s.beats := rfl
@[simp] theorem State.modDie_loops (s : State) (c : Nat) (f : Die → Die) : (s.modDie c f).loops = s.loops := rfl
@[simp] theorem State.modDie_passDue (s : State) (c : Nat) (f : Die → Die) : (s.modDie c f).passDue = s.passDue := rfl
@[simp] theorem State.modDie_ways (s : State) (c : Nat) (f : Die → Die) : (s.modDie c f).ways = s.ways := rfl
@[simp] theorem State.modDie_heat (s : State) (c : Nat) (f : Die → Die) : (s.modDie c f).heat = s.heat := rfl
@[simp] theorem State.modDie_colls (s : State) (c : Nat) (f : Die → Die) : (s.modDie c f).colls = s.colls := rfl
@[simp] theorem State.modDie_collSeq (s : State) (c : Nat) (f : Die → Die) : (s.modDie c f).collSeq = s.collSeq := rfl
@[simp] theorem State.modDie_remotes (s : State) (c : Nat) (f : Die → Die) : (s.modDie c f).remotes = s.remotes := rfl
@[simp] theorem State.modDie_residue (s : State) (c : Nat) (f : Die → Die) : (s.modDie c f).residue = s.residue := rfl
@[simp] theorem State.modDie_nodeTicks (s : State) (c : Nat) (f : Die → Die) : (s.modDie c f).nodeTicks = s.nodeTicks := rfl
@[simp] theorem State.modDie_refilled (s : State) (c : Nat) (f : Die → Die) : (s.modDie c f).refilled = s.refilled := rfl
@[simp] theorem State.modDie_slices (s : State) (c : Nat) (f : Die → Die) : (s.modDie c f).slices = s.slices := rfl
@[simp] theorem State.modDie_logged (s : State) (c : Nat) (f : Die → Die) : (s.modDie c f).logged = s.logged := rfl
@[simp] theorem State.modDie_logFull (s : State) (c : Nat) (f : Die → Die) : (s.modDie c f).logFull = s.logFull := rfl
@[simp] theorem State.modDie_cellar (s : State) (c : Nat) (f : Die → Die) : (s.modDie c f).cellar = s.cellar := rfl
@[simp] theorem State.modDie_cellarHead (s : State) (c : Nat) (f : Die → Die) : (s.modDie c f).cellarHead = s.cellarHead := rfl
@[simp] theorem State.modDie_placing (s : State) (c : Nat) (f : Die → Die) : (s.modDie c f).placing = s.placing := rfl
@[simp] theorem State.modDie_power (s : State) (c : Nat) (f : Die → Die) : (s.modDie c f).power = s.power := rfl
@[simp] theorem State.modDie_imageStore (s : State) (c : Nat) (f : Die → Die) : (s.modDie c f).imageStore = s.imageStore := rfl
@[simp] theorem State.modDie_down (s : State) (c : Nat) (f : Die → Die) : (s.modDie c f).down = s.down := rfl
@[simp] theorem State.modDie_altDown (s : State) (c : Nat) (f : Die → Die) : (s.modDie c f).altDown = s.altDown := rfl
@[simp] theorem State.modDie_links (s : State) (c : Nat) (f : Die → Die) : (s.modDie c f).links = s.links := rfl
@[simp] theorem State.modDie_ports (s : State) (c : Nat) (f : Die → Die) : (s.modDie c f).ports = s.ports := rfl
@[simp] theorem State.modDie_regs (s : State) (c : Nat) (f : Die → Die) : (s.modDie c f).regs = s.regs := rfl
@[simp] theorem State.modDie_free (s : State) (c : Nat) (f : Die → Die) : (s.modDie c f).free = s.free := rfl
@[simp] theorem State.modDie_agenda (s : State) (c : Nat) (f : Die → Die) : (s.modDie c f).agenda = s.agenda := rfl
@[simp] theorem State.modDie_ev (s : State) (c : Nat) (f : Die → Die) : (s.modDie c f).ev = s.ev := rfl
@[simp] theorem State.modDie_env (s : State) (c : Nat) (f : Die → Die) : (s.modDie c f).env = s.env := rfl
@[simp] theorem State.modDie_hushed (s : State) (c : Nat) (f : Die → Die) : (s.modDie c f).hushed = s.hushed := rfl
@[simp] theorem State.modDie_rewritten (s : State) (c : Nat) (f : Die → Die) : (s.modDie c f).rewritten = s.rewritten := rfl
@[simp] theorem State.modDie_lost (s : State) (c : Nat) (f : Die → Die) : (s.modDie c f).lost = s.lost := rfl
@[simp] theorem State.modDie_powerAt (s : State) (c : Nat) (f : Die → Die) : (s.modDie c f).powerAt = s.powerAt := rfl
@[simp] theorem State.modDie_unsynced (s : State) (c : Nat) (f : Die → Die) : (s.modDie c f).unsynced = s.unsynced := rfl

@[simp] theorem State.modVault_g (s : State) (c : Nat) (f : Vault → Vault) : (s.modVault c f).g = s.g := rfl
@[simp] theorem State.modVault_others (s : State) (c : Nat) (f : Vault → Vault) : (s.modVault c f).others = s.others := rfl
@[simp] theorem State.modVault_blocks (s : State) (c : Nat) (f : Vault → Vault) : (s.modVault c f).blocks = s.blocks := rfl
@[simp] theorem State.modVault_launches (s : State) (c : Nat) (f : Vault → Vault) : (s.modVault c f).launches = s.launches := rfl
@[simp] theorem State.modVault_cores (s : State) (c : Nat) (f : Vault → Vault) : (s.modVault c f).cores = s.cores := rfl
@[simp] theorem State.modVault_clusters (s : State) (c : Nat) (f : Vault → Vault) : (s.modVault c f).clusters = s.clusters := rfl
@[simp] theorem State.modVault_dies (s : State) (c : Nat) (f : Vault → Vault) : (s.modVault c f).dies = s.dies := rfl
@[simp] theorem State.modVault_vaults (s : State) (c : Nat) (f : Vault → Vault) : (s.modVault c f).vaults = vset s.vaults c (f (s.vaultAt c)) := rfl
@[simp] theorem State.modVault_dev (s : State) (c : Nat) (f : Vault → Vault) : (s.modVault c f).dev = s.dev := rfl
@[simp] theorem State.modVault_host (s : State) (c : Nat) (f : Vault → Vault) : (s.modVault c f).host = s.host := rfl
@[simp] theorem State.modVault_peers (s : State) (c : Nat) (f : Vault → Vault) : (s.modVault c f).peers = s.peers := rfl
@[simp] theorem State.modVault_versions (s : State) (c : Nat) (f : Vault → Vault) : (s.modVault c f).versions = s.versions := rfl
@[simp] theorem State.modVault_poison (s : State) (c : Nat) (f : Vault → Vault) : (s.modVault c f).poison = s.poison := rfl
@[simp] theorem State.modVault_owners (s : State) (c : Nat) (f : Vault → Vault) : (s.modVault c f).owners = s.owners := rfl
@[simp] theorem State.modVault_flights (s : State) (c : Nat) (f : Vault → Vault) : (s.modVault c f).flights = s.flights := rfl
@[simp] theorem State.modVault_reqs (s : State) (c : Nat) (f : Vault → Vault) : (s.modVault c f).reqs = s.reqs := rfl
@[simp] theorem State.modVault_nextId (s : State) (c : Nat) (f : Vault → Vault) : (s.modVault c f).nextId = s.nextId := rfl
@[simp] theorem State.modVault_popWait (s : State) (c : Nat) (f : Vault → Vault) : (s.modVault c f).popWait = s.popWait := rfl
@[simp] theorem State.modVault_timer (s : State) (c : Nat) (f : Vault → Vault) : (s.modVault c f).timer = s.timer := rfl
@[simp] theorem State.modVault_slots (s : State) (c : Nat) (f : Vault → Vault) : (s.modVault c f).slots = s.slots := rfl
@[simp] theorem State.modVault_pending (s : State) (c : Nat) (f : Vault → Vault) : (s.modVault c f).pending = s.pending := rfl
@[simp] theorem State.modVault_rlaunches (s : State) (c : Nat) (f : Vault → Vault) : (s.modVault c f).rlaunches = s.rlaunches := rfl
@[simp] theorem State.modVault_nodes (s : State) (c : Nat) (f : Vault → Vault) : (s.modVault c f).nodes = s.nodes := rfl
@[simp] theorem State.modVault_completions (s : State) (c : Nat) (f : Vault → Vault) : (s.modVault c f).completions = s.completions := rfl
@[simp] theorem State.modVault_nextSlot (s : State) (c : Nat) (f : Vault → Vault) : (s.modVault c f).nextSlot = s.nextSlot := rfl
@[simp] theorem State.modVault_beats (s : State) (c : Nat) (f : Vault → Vault) : (s.modVault c f).beats = s.beats := rfl
@[simp] theorem State.modVault_loops (s : State) (c : Nat) (f : Vault → Vault) : (s.modVault c f).loops = s.loops := rfl
@[simp] theorem State.modVault_passDue (s : State) (c : Nat) (f : Vault → Vault) : (s.modVault c f).passDue = s.passDue := rfl
@[simp] theorem State.modVault_ways (s : State) (c : Nat) (f : Vault → Vault) : (s.modVault c f).ways = s.ways := rfl
@[simp] theorem State.modVault_heat (s : State) (c : Nat) (f : Vault → Vault) : (s.modVault c f).heat = s.heat := rfl
@[simp] theorem State.modVault_colls (s : State) (c : Nat) (f : Vault → Vault) : (s.modVault c f).colls = s.colls := rfl
@[simp] theorem State.modVault_collSeq (s : State) (c : Nat) (f : Vault → Vault) : (s.modVault c f).collSeq = s.collSeq := rfl
@[simp] theorem State.modVault_remotes (s : State) (c : Nat) (f : Vault → Vault) : (s.modVault c f).remotes = s.remotes := rfl
@[simp] theorem State.modVault_residue (s : State) (c : Nat) (f : Vault → Vault) : (s.modVault c f).residue = s.residue := rfl
@[simp] theorem State.modVault_nodeTicks (s : State) (c : Nat) (f : Vault → Vault) : (s.modVault c f).nodeTicks = s.nodeTicks := rfl
@[simp] theorem State.modVault_refilled (s : State) (c : Nat) (f : Vault → Vault) : (s.modVault c f).refilled = s.refilled := rfl
@[simp] theorem State.modVault_slices (s : State) (c : Nat) (f : Vault → Vault) : (s.modVault c f).slices = s.slices := rfl
@[simp] theorem State.modVault_logged (s : State) (c : Nat) (f : Vault → Vault) : (s.modVault c f).logged = s.logged := rfl
@[simp] theorem State.modVault_logFull (s : State) (c : Nat) (f : Vault → Vault) : (s.modVault c f).logFull = s.logFull := rfl
@[simp] theorem State.modVault_cellar (s : State) (c : Nat) (f : Vault → Vault) : (s.modVault c f).cellar = s.cellar := rfl
@[simp] theorem State.modVault_cellarHead (s : State) (c : Nat) (f : Vault → Vault) : (s.modVault c f).cellarHead = s.cellarHead := rfl
@[simp] theorem State.modVault_placing (s : State) (c : Nat) (f : Vault → Vault) : (s.modVault c f).placing = s.placing := rfl
@[simp] theorem State.modVault_power (s : State) (c : Nat) (f : Vault → Vault) : (s.modVault c f).power = s.power := rfl
@[simp] theorem State.modVault_imageStore (s : State) (c : Nat) (f : Vault → Vault) : (s.modVault c f).imageStore = s.imageStore := rfl
@[simp] theorem State.modVault_down (s : State) (c : Nat) (f : Vault → Vault) : (s.modVault c f).down = s.down := rfl
@[simp] theorem State.modVault_altDown (s : State) (c : Nat) (f : Vault → Vault) : (s.modVault c f).altDown = s.altDown := rfl
@[simp] theorem State.modVault_links (s : State) (c : Nat) (f : Vault → Vault) : (s.modVault c f).links = s.links := rfl
@[simp] theorem State.modVault_ports (s : State) (c : Nat) (f : Vault → Vault) : (s.modVault c f).ports = s.ports := rfl
@[simp] theorem State.modVault_regs (s : State) (c : Nat) (f : Vault → Vault) : (s.modVault c f).regs = s.regs := rfl
@[simp] theorem State.modVault_free (s : State) (c : Nat) (f : Vault → Vault) : (s.modVault c f).free = s.free := rfl
@[simp] theorem State.modVault_agenda (s : State) (c : Nat) (f : Vault → Vault) : (s.modVault c f).agenda = s.agenda := rfl
@[simp] theorem State.modVault_ev (s : State) (c : Nat) (f : Vault → Vault) : (s.modVault c f).ev = s.ev := rfl
@[simp] theorem State.modVault_env (s : State) (c : Nat) (f : Vault → Vault) : (s.modVault c f).env = s.env := rfl
@[simp] theorem State.modVault_hushed (s : State) (c : Nat) (f : Vault → Vault) : (s.modVault c f).hushed = s.hushed := rfl
@[simp] theorem State.modVault_rewritten (s : State) (c : Nat) (f : Vault → Vault) : (s.modVault c f).rewritten = s.rewritten := rfl
@[simp] theorem State.modVault_lost (s : State) (c : Nat) (f : Vault → Vault) : (s.modVault c f).lost = s.lost := rfl
@[simp] theorem State.modVault_powerAt (s : State) (c : Nat) (f : Vault → Vault) : (s.modVault c f).powerAt = s.powerAt := rfl
@[simp] theorem State.modVault_unsynced (s : State) (c : Nat) (f : Vault → Vault) : (s.modVault c f).unsynced = s.unsynced := rfl

@[simp] theorem State.modBlock_g (s : State) (c : Nat) (f : Block → Block) : (s.modBlock c f).g = s.g := rfl
@[simp] theorem State.modBlock_others (s : State) (c : Nat) (f : Block → Block) : (s.modBlock c f).others = s.others := rfl
@[simp] theorem State.modBlock_blocks (s : State) (c : Nat) (f : Block → Block) : (s.modBlock c f).blocks = modFirst (fun b => b.id = c) f s.blocks := rfl
@[simp] theorem State.modBlock_launches (s : State) (c : Nat) (f : Block → Block) : (s.modBlock c f).launches = s.launches := rfl
@[simp] theorem State.modBlock_cores (s : State) (c : Nat) (f : Block → Block) : (s.modBlock c f).cores = s.cores := rfl
@[simp] theorem State.modBlock_clusters (s : State) (c : Nat) (f : Block → Block) : (s.modBlock c f).clusters = s.clusters := rfl
@[simp] theorem State.modBlock_dies (s : State) (c : Nat) (f : Block → Block) : (s.modBlock c f).dies = s.dies := rfl
@[simp] theorem State.modBlock_vaults (s : State) (c : Nat) (f : Block → Block) : (s.modBlock c f).vaults = s.vaults := rfl
@[simp] theorem State.modBlock_dev (s : State) (c : Nat) (f : Block → Block) : (s.modBlock c f).dev = s.dev := rfl
@[simp] theorem State.modBlock_host (s : State) (c : Nat) (f : Block → Block) : (s.modBlock c f).host = s.host := rfl
@[simp] theorem State.modBlock_peers (s : State) (c : Nat) (f : Block → Block) : (s.modBlock c f).peers = s.peers := rfl
@[simp] theorem State.modBlock_versions (s : State) (c : Nat) (f : Block → Block) : (s.modBlock c f).versions = s.versions := rfl
@[simp] theorem State.modBlock_poison (s : State) (c : Nat) (f : Block → Block) : (s.modBlock c f).poison = s.poison := rfl
@[simp] theorem State.modBlock_owners (s : State) (c : Nat) (f : Block → Block) : (s.modBlock c f).owners = s.owners := rfl
@[simp] theorem State.modBlock_flights (s : State) (c : Nat) (f : Block → Block) : (s.modBlock c f).flights = s.flights := rfl
@[simp] theorem State.modBlock_reqs (s : State) (c : Nat) (f : Block → Block) : (s.modBlock c f).reqs = s.reqs := rfl
@[simp] theorem State.modBlock_nextId (s : State) (c : Nat) (f : Block → Block) : (s.modBlock c f).nextId = s.nextId := rfl
@[simp] theorem State.modBlock_popWait (s : State) (c : Nat) (f : Block → Block) : (s.modBlock c f).popWait = s.popWait := rfl
@[simp] theorem State.modBlock_timer (s : State) (c : Nat) (f : Block → Block) : (s.modBlock c f).timer = s.timer := rfl
@[simp] theorem State.modBlock_slots (s : State) (c : Nat) (f : Block → Block) : (s.modBlock c f).slots = s.slots := rfl
@[simp] theorem State.modBlock_pending (s : State) (c : Nat) (f : Block → Block) : (s.modBlock c f).pending = s.pending := rfl
@[simp] theorem State.modBlock_rlaunches (s : State) (c : Nat) (f : Block → Block) : (s.modBlock c f).rlaunches = s.rlaunches := rfl
@[simp] theorem State.modBlock_nodes (s : State) (c : Nat) (f : Block → Block) : (s.modBlock c f).nodes = s.nodes := rfl
@[simp] theorem State.modBlock_completions (s : State) (c : Nat) (f : Block → Block) : (s.modBlock c f).completions = s.completions := rfl
@[simp] theorem State.modBlock_nextSlot (s : State) (c : Nat) (f : Block → Block) : (s.modBlock c f).nextSlot = s.nextSlot := rfl
@[simp] theorem State.modBlock_beats (s : State) (c : Nat) (f : Block → Block) : (s.modBlock c f).beats = s.beats := rfl
@[simp] theorem State.modBlock_loops (s : State) (c : Nat) (f : Block → Block) : (s.modBlock c f).loops = s.loops := rfl
@[simp] theorem State.modBlock_passDue (s : State) (c : Nat) (f : Block → Block) : (s.modBlock c f).passDue = s.passDue := rfl
@[simp] theorem State.modBlock_ways (s : State) (c : Nat) (f : Block → Block) : (s.modBlock c f).ways = s.ways := rfl
@[simp] theorem State.modBlock_heat (s : State) (c : Nat) (f : Block → Block) : (s.modBlock c f).heat = s.heat := rfl
@[simp] theorem State.modBlock_colls (s : State) (c : Nat) (f : Block → Block) : (s.modBlock c f).colls = s.colls := rfl
@[simp] theorem State.modBlock_collSeq (s : State) (c : Nat) (f : Block → Block) : (s.modBlock c f).collSeq = s.collSeq := rfl
@[simp] theorem State.modBlock_remotes (s : State) (c : Nat) (f : Block → Block) : (s.modBlock c f).remotes = s.remotes := rfl
@[simp] theorem State.modBlock_residue (s : State) (c : Nat) (f : Block → Block) : (s.modBlock c f).residue = s.residue := rfl
@[simp] theorem State.modBlock_nodeTicks (s : State) (c : Nat) (f : Block → Block) : (s.modBlock c f).nodeTicks = s.nodeTicks := rfl
@[simp] theorem State.modBlock_refilled (s : State) (c : Nat) (f : Block → Block) : (s.modBlock c f).refilled = s.refilled := rfl
@[simp] theorem State.modBlock_slices (s : State) (c : Nat) (f : Block → Block) : (s.modBlock c f).slices = s.slices := rfl
@[simp] theorem State.modBlock_logged (s : State) (c : Nat) (f : Block → Block) : (s.modBlock c f).logged = s.logged := rfl
@[simp] theorem State.modBlock_logFull (s : State) (c : Nat) (f : Block → Block) : (s.modBlock c f).logFull = s.logFull := rfl
@[simp] theorem State.modBlock_cellar (s : State) (c : Nat) (f : Block → Block) : (s.modBlock c f).cellar = s.cellar := rfl
@[simp] theorem State.modBlock_cellarHead (s : State) (c : Nat) (f : Block → Block) : (s.modBlock c f).cellarHead = s.cellarHead := rfl
@[simp] theorem State.modBlock_placing (s : State) (c : Nat) (f : Block → Block) : (s.modBlock c f).placing = s.placing := rfl
@[simp] theorem State.modBlock_power (s : State) (c : Nat) (f : Block → Block) : (s.modBlock c f).power = s.power := rfl
@[simp] theorem State.modBlock_imageStore (s : State) (c : Nat) (f : Block → Block) : (s.modBlock c f).imageStore = s.imageStore := rfl
@[simp] theorem State.modBlock_down (s : State) (c : Nat) (f : Block → Block) : (s.modBlock c f).down = s.down := rfl
@[simp] theorem State.modBlock_altDown (s : State) (c : Nat) (f : Block → Block) : (s.modBlock c f).altDown = s.altDown := rfl
@[simp] theorem State.modBlock_links (s : State) (c : Nat) (f : Block → Block) : (s.modBlock c f).links = s.links := rfl
@[simp] theorem State.modBlock_ports (s : State) (c : Nat) (f : Block → Block) : (s.modBlock c f).ports = s.ports := rfl
@[simp] theorem State.modBlock_regs (s : State) (c : Nat) (f : Block → Block) : (s.modBlock c f).regs = s.regs := rfl
@[simp] theorem State.modBlock_free (s : State) (c : Nat) (f : Block → Block) : (s.modBlock c f).free = s.free := rfl
@[simp] theorem State.modBlock_agenda (s : State) (c : Nat) (f : Block → Block) : (s.modBlock c f).agenda = s.agenda := rfl
@[simp] theorem State.modBlock_ev (s : State) (c : Nat) (f : Block → Block) : (s.modBlock c f).ev = s.ev := rfl
@[simp] theorem State.modBlock_env (s : State) (c : Nat) (f : Block → Block) : (s.modBlock c f).env = s.env := rfl
@[simp] theorem State.modBlock_hushed (s : State) (c : Nat) (f : Block → Block) : (s.modBlock c f).hushed = s.hushed := rfl
@[simp] theorem State.modBlock_rewritten (s : State) (c : Nat) (f : Block → Block) : (s.modBlock c f).rewritten = s.rewritten := rfl
@[simp] theorem State.modBlock_lost (s : State) (c : Nat) (f : Block → Block) : (s.modBlock c f).lost = s.lost := rfl
@[simp] theorem State.modBlock_powerAt (s : State) (c : Nat) (f : Block → Block) : (s.modBlock c f).powerAt = s.powerAt := rfl
@[simp] theorem State.modBlock_unsynced (s : State) (c : Nat) (f : Block → Block) : (s.modBlock c f).unsynced = s.unsynced := rfl

@[simp] theorem State.modLaunch_g (s : State) (c : Nat) (f : Launch → Launch) : (s.modLaunch c f).g = s.g := rfl
@[simp] theorem State.modLaunch_others (s : State) (c : Nat) (f : Launch → Launch) : (s.modLaunch c f).others = s.others := rfl
@[simp] theorem State.modLaunch_blocks (s : State) (c : Nat) (f : Launch → Launch) : (s.modLaunch c f).blocks = s.blocks := rfl
@[simp] theorem State.modLaunch_launches (s : State) (c : Nat) (f : Launch → Launch) : (s.modLaunch c f).launches = modFirst (fun l => l.rcb = c) f s.launches := rfl
@[simp] theorem State.modLaunch_cores (s : State) (c : Nat) (f : Launch → Launch) : (s.modLaunch c f).cores = s.cores := rfl
@[simp] theorem State.modLaunch_clusters (s : State) (c : Nat) (f : Launch → Launch) : (s.modLaunch c f).clusters = s.clusters := rfl
@[simp] theorem State.modLaunch_dies (s : State) (c : Nat) (f : Launch → Launch) : (s.modLaunch c f).dies = s.dies := rfl
@[simp] theorem State.modLaunch_vaults (s : State) (c : Nat) (f : Launch → Launch) : (s.modLaunch c f).vaults = s.vaults := rfl
@[simp] theorem State.modLaunch_dev (s : State) (c : Nat) (f : Launch → Launch) : (s.modLaunch c f).dev = s.dev := rfl
@[simp] theorem State.modLaunch_host (s : State) (c : Nat) (f : Launch → Launch) : (s.modLaunch c f).host = s.host := rfl
@[simp] theorem State.modLaunch_peers (s : State) (c : Nat) (f : Launch → Launch) : (s.modLaunch c f).peers = s.peers := rfl
@[simp] theorem State.modLaunch_versions (s : State) (c : Nat) (f : Launch → Launch) : (s.modLaunch c f).versions = s.versions := rfl
@[simp] theorem State.modLaunch_poison (s : State) (c : Nat) (f : Launch → Launch) : (s.modLaunch c f).poison = s.poison := rfl
@[simp] theorem State.modLaunch_owners (s : State) (c : Nat) (f : Launch → Launch) : (s.modLaunch c f).owners = s.owners := rfl
@[simp] theorem State.modLaunch_flights (s : State) (c : Nat) (f : Launch → Launch) : (s.modLaunch c f).flights = s.flights := rfl
@[simp] theorem State.modLaunch_reqs (s : State) (c : Nat) (f : Launch → Launch) : (s.modLaunch c f).reqs = s.reqs := rfl
@[simp] theorem State.modLaunch_nextId (s : State) (c : Nat) (f : Launch → Launch) : (s.modLaunch c f).nextId = s.nextId := rfl
@[simp] theorem State.modLaunch_popWait (s : State) (c : Nat) (f : Launch → Launch) : (s.modLaunch c f).popWait = s.popWait := rfl
@[simp] theorem State.modLaunch_timer (s : State) (c : Nat) (f : Launch → Launch) : (s.modLaunch c f).timer = s.timer := rfl
@[simp] theorem State.modLaunch_slots (s : State) (c : Nat) (f : Launch → Launch) : (s.modLaunch c f).slots = s.slots := rfl
@[simp] theorem State.modLaunch_pending (s : State) (c : Nat) (f : Launch → Launch) : (s.modLaunch c f).pending = s.pending := rfl
@[simp] theorem State.modLaunch_rlaunches (s : State) (c : Nat) (f : Launch → Launch) : (s.modLaunch c f).rlaunches = s.rlaunches := rfl
@[simp] theorem State.modLaunch_nodes (s : State) (c : Nat) (f : Launch → Launch) : (s.modLaunch c f).nodes = s.nodes := rfl
@[simp] theorem State.modLaunch_completions (s : State) (c : Nat) (f : Launch → Launch) : (s.modLaunch c f).completions = s.completions := rfl
@[simp] theorem State.modLaunch_nextSlot (s : State) (c : Nat) (f : Launch → Launch) : (s.modLaunch c f).nextSlot = s.nextSlot := rfl
@[simp] theorem State.modLaunch_beats (s : State) (c : Nat) (f : Launch → Launch) : (s.modLaunch c f).beats = s.beats := rfl
@[simp] theorem State.modLaunch_loops (s : State) (c : Nat) (f : Launch → Launch) : (s.modLaunch c f).loops = s.loops := rfl
@[simp] theorem State.modLaunch_passDue (s : State) (c : Nat) (f : Launch → Launch) : (s.modLaunch c f).passDue = s.passDue := rfl
@[simp] theorem State.modLaunch_ways (s : State) (c : Nat) (f : Launch → Launch) : (s.modLaunch c f).ways = s.ways := rfl
@[simp] theorem State.modLaunch_heat (s : State) (c : Nat) (f : Launch → Launch) : (s.modLaunch c f).heat = s.heat := rfl
@[simp] theorem State.modLaunch_colls (s : State) (c : Nat) (f : Launch → Launch) : (s.modLaunch c f).colls = s.colls := rfl
@[simp] theorem State.modLaunch_collSeq (s : State) (c : Nat) (f : Launch → Launch) : (s.modLaunch c f).collSeq = s.collSeq := rfl
@[simp] theorem State.modLaunch_remotes (s : State) (c : Nat) (f : Launch → Launch) : (s.modLaunch c f).remotes = s.remotes := rfl
@[simp] theorem State.modLaunch_residue (s : State) (c : Nat) (f : Launch → Launch) : (s.modLaunch c f).residue = s.residue := rfl
@[simp] theorem State.modLaunch_nodeTicks (s : State) (c : Nat) (f : Launch → Launch) : (s.modLaunch c f).nodeTicks = s.nodeTicks := rfl
@[simp] theorem State.modLaunch_refilled (s : State) (c : Nat) (f : Launch → Launch) : (s.modLaunch c f).refilled = s.refilled := rfl
@[simp] theorem State.modLaunch_slices (s : State) (c : Nat) (f : Launch → Launch) : (s.modLaunch c f).slices = s.slices := rfl
@[simp] theorem State.modLaunch_logged (s : State) (c : Nat) (f : Launch → Launch) : (s.modLaunch c f).logged = s.logged := rfl
@[simp] theorem State.modLaunch_logFull (s : State) (c : Nat) (f : Launch → Launch) : (s.modLaunch c f).logFull = s.logFull := rfl
@[simp] theorem State.modLaunch_cellar (s : State) (c : Nat) (f : Launch → Launch) : (s.modLaunch c f).cellar = s.cellar := rfl
@[simp] theorem State.modLaunch_cellarHead (s : State) (c : Nat) (f : Launch → Launch) : (s.modLaunch c f).cellarHead = s.cellarHead := rfl
@[simp] theorem State.modLaunch_placing (s : State) (c : Nat) (f : Launch → Launch) : (s.modLaunch c f).placing = s.placing := rfl
@[simp] theorem State.modLaunch_power (s : State) (c : Nat) (f : Launch → Launch) : (s.modLaunch c f).power = s.power := rfl
@[simp] theorem State.modLaunch_imageStore (s : State) (c : Nat) (f : Launch → Launch) : (s.modLaunch c f).imageStore = s.imageStore := rfl
@[simp] theorem State.modLaunch_down (s : State) (c : Nat) (f : Launch → Launch) : (s.modLaunch c f).down = s.down := rfl
@[simp] theorem State.modLaunch_altDown (s : State) (c : Nat) (f : Launch → Launch) : (s.modLaunch c f).altDown = s.altDown := rfl
@[simp] theorem State.modLaunch_links (s : State) (c : Nat) (f : Launch → Launch) : (s.modLaunch c f).links = s.links := rfl
@[simp] theorem State.modLaunch_ports (s : State) (c : Nat) (f : Launch → Launch) : (s.modLaunch c f).ports = s.ports := rfl
@[simp] theorem State.modLaunch_regs (s : State) (c : Nat) (f : Launch → Launch) : (s.modLaunch c f).regs = s.regs := rfl
@[simp] theorem State.modLaunch_free (s : State) (c : Nat) (f : Launch → Launch) : (s.modLaunch c f).free = s.free := rfl
@[simp] theorem State.modLaunch_agenda (s : State) (c : Nat) (f : Launch → Launch) : (s.modLaunch c f).agenda = s.agenda := rfl
@[simp] theorem State.modLaunch_ev (s : State) (c : Nat) (f : Launch → Launch) : (s.modLaunch c f).ev = s.ev := rfl
@[simp] theorem State.modLaunch_env (s : State) (c : Nat) (f : Launch → Launch) : (s.modLaunch c f).env = s.env := rfl
@[simp] theorem State.modLaunch_hushed (s : State) (c : Nat) (f : Launch → Launch) : (s.modLaunch c f).hushed = s.hushed := rfl
@[simp] theorem State.modLaunch_rewritten (s : State) (c : Nat) (f : Launch → Launch) : (s.modLaunch c f).rewritten = s.rewritten := rfl
@[simp] theorem State.modLaunch_lost (s : State) (c : Nat) (f : Launch → Launch) : (s.modLaunch c f).lost = s.lost := rfl
@[simp] theorem State.modLaunch_powerAt (s : State) (c : Nat) (f : Launch → Launch) : (s.modLaunch c f).powerAt = s.powerAt := rfl
@[simp] theorem State.modLaunch_unsynced (s : State) (c : Nat) (f : Launch → Launch) : (s.modLaunch c f).unsynced = s.unsynced := rfl

@[simp] theorem State.finish_g (s : State) (i : Instr) : (s.finish i).g = { s.g with sp := s.g.sp.finish i.size } := rfl
@[simp] theorem State.finish_others (s : State) (i : Instr) : (s.finish i).others = s.others := rfl
@[simp] theorem State.finish_blocks (s : State) (i : Instr) : (s.finish i).blocks = s.blocks := rfl
@[simp] theorem State.finish_launches (s : State) (i : Instr) : (s.finish i).launches = s.launches := rfl
@[simp] theorem State.finish_cores (s : State) (i : Instr) : (s.finish i).cores = s.cores := rfl
@[simp] theorem State.finish_clusters (s : State) (i : Instr) : (s.finish i).clusters = s.clusters := rfl
@[simp] theorem State.finish_dies (s : State) (i : Instr) : (s.finish i).dies = s.dies := rfl
@[simp] theorem State.finish_vaults (s : State) (i : Instr) : (s.finish i).vaults = s.vaults := rfl
@[simp] theorem State.finish_dev (s : State) (i : Instr) : (s.finish i).dev = s.dev := rfl
@[simp] theorem State.finish_host (s : State) (i : Instr) : (s.finish i).host = s.host := rfl
@[simp] theorem State.finish_peers (s : State) (i : Instr) : (s.finish i).peers = s.peers := rfl
@[simp] theorem State.finish_versions (s : State) (i : Instr) : (s.finish i).versions = s.versions := rfl
@[simp] theorem State.finish_poison (s : State) (i : Instr) : (s.finish i).poison = s.poison := rfl
@[simp] theorem State.finish_owners (s : State) (i : Instr) : (s.finish i).owners = s.owners := rfl
@[simp] theorem State.finish_flights (s : State) (i : Instr) : (s.finish i).flights = s.flights := rfl
@[simp] theorem State.finish_reqs (s : State) (i : Instr) : (s.finish i).reqs = s.reqs := rfl
@[simp] theorem State.finish_nextId (s : State) (i : Instr) : (s.finish i).nextId = s.nextId := rfl
@[simp] theorem State.finish_popWait (s : State) (i : Instr) : (s.finish i).popWait = s.popWait := rfl
@[simp] theorem State.finish_timer (s : State) (i : Instr) : (s.finish i).timer = s.timer := rfl
@[simp] theorem State.finish_slots (s : State) (i : Instr) : (s.finish i).slots = s.slots := rfl
@[simp] theorem State.finish_pending (s : State) (i : Instr) : (s.finish i).pending = s.pending := rfl
@[simp] theorem State.finish_rlaunches (s : State) (i : Instr) : (s.finish i).rlaunches = s.rlaunches := rfl
@[simp] theorem State.finish_nodes (s : State) (i : Instr) : (s.finish i).nodes = s.nodes := rfl
@[simp] theorem State.finish_completions (s : State) (i : Instr) : (s.finish i).completions = s.completions := rfl
@[simp] theorem State.finish_nextSlot (s : State) (i : Instr) : (s.finish i).nextSlot = s.nextSlot := rfl
@[simp] theorem State.finish_beats (s : State) (i : Instr) : (s.finish i).beats = s.beats := rfl
@[simp] theorem State.finish_loops (s : State) (i : Instr) : (s.finish i).loops = s.loops := rfl
@[simp] theorem State.finish_passDue (s : State) (i : Instr) : (s.finish i).passDue = s.passDue := rfl
@[simp] theorem State.finish_ways (s : State) (i : Instr) : (s.finish i).ways = s.ways := rfl
@[simp] theorem State.finish_heat (s : State) (i : Instr) : (s.finish i).heat = s.heat := rfl
@[simp] theorem State.finish_colls (s : State) (i : Instr) : (s.finish i).colls = s.colls := rfl
@[simp] theorem State.finish_collSeq (s : State) (i : Instr) : (s.finish i).collSeq = s.collSeq := rfl
@[simp] theorem State.finish_remotes (s : State) (i : Instr) : (s.finish i).remotes = s.remotes := rfl
@[simp] theorem State.finish_residue (s : State) (i : Instr) : (s.finish i).residue = s.residue := rfl
@[simp] theorem State.finish_nodeTicks (s : State) (i : Instr) : (s.finish i).nodeTicks = s.nodeTicks := rfl
@[simp] theorem State.finish_refilled (s : State) (i : Instr) : (s.finish i).refilled = s.refilled := rfl
@[simp] theorem State.finish_slices (s : State) (i : Instr) : (s.finish i).slices = s.slices := rfl
@[simp] theorem State.finish_logged (s : State) (i : Instr) : (s.finish i).logged = s.logged := rfl
@[simp] theorem State.finish_logFull (s : State) (i : Instr) : (s.finish i).logFull = s.logFull := rfl
@[simp] theorem State.finish_cellar (s : State) (i : Instr) : (s.finish i).cellar = s.cellar := rfl
@[simp] theorem State.finish_cellarHead (s : State) (i : Instr) : (s.finish i).cellarHead = s.cellarHead := rfl
@[simp] theorem State.finish_placing (s : State) (i : Instr) : (s.finish i).placing = s.placing := rfl
@[simp] theorem State.finish_power (s : State) (i : Instr) : (s.finish i).power = s.power := rfl
@[simp] theorem State.finish_imageStore (s : State) (i : Instr) : (s.finish i).imageStore = s.imageStore := rfl
@[simp] theorem State.finish_down (s : State) (i : Instr) : (s.finish i).down = s.down := rfl
@[simp] theorem State.finish_altDown (s : State) (i : Instr) : (s.finish i).altDown = s.altDown := rfl
@[simp] theorem State.finish_links (s : State) (i : Instr) : (s.finish i).links = s.links := rfl
@[simp] theorem State.finish_ports (s : State) (i : Instr) : (s.finish i).ports = s.ports := rfl
@[simp] theorem State.finish_regs (s : State) (i : Instr) : (s.finish i).regs = s.regs := rfl
@[simp] theorem State.finish_free (s : State) (i : Instr) : (s.finish i).free = s.free := rfl
@[simp] theorem State.finish_agenda (s : State) (i : Instr) : (s.finish i).agenda = s.agenda := rfl
@[simp] theorem State.finish_ev (s : State) (i : Instr) : (s.finish i).ev = s.ev := rfl
@[simp] theorem State.finish_env (s : State) (i : Instr) : (s.finish i).env = s.env := rfl
@[simp] theorem State.finish_hushed (s : State) (i : Instr) : (s.finish i).hushed = s.hushed := rfl
@[simp] theorem State.finish_rewritten (s : State) (i : Instr) : (s.finish i).rewritten = s.rewritten := rfl
@[simp] theorem State.finish_lost (s : State) (i : Instr) : (s.finish i).lost = s.lost := rfl
@[simp] theorem State.finish_powerAt (s : State) (i : Instr) : (s.finish i).powerAt = s.powerAt := rfl
@[simp] theorem State.finish_unsynced (s : State) (i : Instr) : (s.finish i).unsynced = s.unsynced := rfl

@[simp] theorem State.jump_g (s : State) (a : Addr) : (s.jump a).g = { s.g with sp := { s.g.sp.finish 0 with pc := a } } := rfl
@[simp] theorem State.jump_others (s : State) (a : Addr) : (s.jump a).others = s.others := rfl
@[simp] theorem State.jump_blocks (s : State) (a : Addr) : (s.jump a).blocks = s.blocks := rfl
@[simp] theorem State.jump_launches (s : State) (a : Addr) : (s.jump a).launches = s.launches := rfl
@[simp] theorem State.jump_cores (s : State) (a : Addr) : (s.jump a).cores = s.cores := rfl
@[simp] theorem State.jump_clusters (s : State) (a : Addr) : (s.jump a).clusters = s.clusters := rfl
@[simp] theorem State.jump_dies (s : State) (a : Addr) : (s.jump a).dies = s.dies := rfl
@[simp] theorem State.jump_vaults (s : State) (a : Addr) : (s.jump a).vaults = s.vaults := rfl
@[simp] theorem State.jump_dev (s : State) (a : Addr) : (s.jump a).dev = s.dev := rfl
@[simp] theorem State.jump_host (s : State) (a : Addr) : (s.jump a).host = s.host := rfl
@[simp] theorem State.jump_peers (s : State) (a : Addr) : (s.jump a).peers = s.peers := rfl
@[simp] theorem State.jump_versions (s : State) (a : Addr) : (s.jump a).versions = s.versions := rfl
@[simp] theorem State.jump_poison (s : State) (a : Addr) : (s.jump a).poison = s.poison := rfl
@[simp] theorem State.jump_owners (s : State) (a : Addr) : (s.jump a).owners = s.owners := rfl
@[simp] theorem State.jump_flights (s : State) (a : Addr) : (s.jump a).flights = s.flights := rfl
@[simp] theorem State.jump_reqs (s : State) (a : Addr) : (s.jump a).reqs = s.reqs := rfl
@[simp] theorem State.jump_nextId (s : State) (a : Addr) : (s.jump a).nextId = s.nextId := rfl
@[simp] theorem State.jump_popWait (s : State) (a : Addr) : (s.jump a).popWait = s.popWait := rfl
@[simp] theorem State.jump_timer (s : State) (a : Addr) : (s.jump a).timer = s.timer := rfl
@[simp] theorem State.jump_slots (s : State) (a : Addr) : (s.jump a).slots = s.slots := rfl
@[simp] theorem State.jump_pending (s : State) (a : Addr) : (s.jump a).pending = s.pending := rfl
@[simp] theorem State.jump_rlaunches (s : State) (a : Addr) : (s.jump a).rlaunches = s.rlaunches := rfl
@[simp] theorem State.jump_nodes (s : State) (a : Addr) : (s.jump a).nodes = s.nodes := rfl
@[simp] theorem State.jump_completions (s : State) (a : Addr) : (s.jump a).completions = s.completions := rfl
@[simp] theorem State.jump_nextSlot (s : State) (a : Addr) : (s.jump a).nextSlot = s.nextSlot := rfl
@[simp] theorem State.jump_beats (s : State) (a : Addr) : (s.jump a).beats = s.beats := rfl
@[simp] theorem State.jump_loops (s : State) (a : Addr) : (s.jump a).loops = s.loops := rfl
@[simp] theorem State.jump_passDue (s : State) (a : Addr) : (s.jump a).passDue = s.passDue := rfl
@[simp] theorem State.jump_ways (s : State) (a : Addr) : (s.jump a).ways = s.ways := rfl
@[simp] theorem State.jump_heat (s : State) (a : Addr) : (s.jump a).heat = s.heat := rfl
@[simp] theorem State.jump_colls (s : State) (a : Addr) : (s.jump a).colls = s.colls := rfl
@[simp] theorem State.jump_collSeq (s : State) (a : Addr) : (s.jump a).collSeq = s.collSeq := rfl
@[simp] theorem State.jump_remotes (s : State) (a : Addr) : (s.jump a).remotes = s.remotes := rfl
@[simp] theorem State.jump_residue (s : State) (a : Addr) : (s.jump a).residue = s.residue := rfl
@[simp] theorem State.jump_nodeTicks (s : State) (a : Addr) : (s.jump a).nodeTicks = s.nodeTicks := rfl
@[simp] theorem State.jump_refilled (s : State) (a : Addr) : (s.jump a).refilled = s.refilled := rfl
@[simp] theorem State.jump_slices (s : State) (a : Addr) : (s.jump a).slices = s.slices := rfl
@[simp] theorem State.jump_logged (s : State) (a : Addr) : (s.jump a).logged = s.logged := rfl
@[simp] theorem State.jump_logFull (s : State) (a : Addr) : (s.jump a).logFull = s.logFull := rfl
@[simp] theorem State.jump_cellar (s : State) (a : Addr) : (s.jump a).cellar = s.cellar := rfl
@[simp] theorem State.jump_cellarHead (s : State) (a : Addr) : (s.jump a).cellarHead = s.cellarHead := rfl
@[simp] theorem State.jump_placing (s : State) (a : Addr) : (s.jump a).placing = s.placing := rfl
@[simp] theorem State.jump_power (s : State) (a : Addr) : (s.jump a).power = s.power := rfl
@[simp] theorem State.jump_imageStore (s : State) (a : Addr) : (s.jump a).imageStore = s.imageStore := rfl
@[simp] theorem State.jump_down (s : State) (a : Addr) : (s.jump a).down = s.down := rfl
@[simp] theorem State.jump_altDown (s : State) (a : Addr) : (s.jump a).altDown = s.altDown := rfl
@[simp] theorem State.jump_links (s : State) (a : Addr) : (s.jump a).links = s.links := rfl
@[simp] theorem State.jump_ports (s : State) (a : Addr) : (s.jump a).ports = s.ports := rfl
@[simp] theorem State.jump_regs (s : State) (a : Addr) : (s.jump a).regs = s.regs := rfl
@[simp] theorem State.jump_free (s : State) (a : Addr) : (s.jump a).free = s.free := rfl
@[simp] theorem State.jump_agenda (s : State) (a : Addr) : (s.jump a).agenda = s.agenda := rfl
@[simp] theorem State.jump_ev (s : State) (a : Addr) : (s.jump a).ev = s.ev := rfl
@[simp] theorem State.jump_env (s : State) (a : Addr) : (s.jump a).env = s.env := rfl
@[simp] theorem State.jump_hushed (s : State) (a : Addr) : (s.jump a).hushed = s.hushed := rfl
@[simp] theorem State.jump_rewritten (s : State) (a : Addr) : (s.jump a).rewritten = s.rewritten := rfl
@[simp] theorem State.jump_lost (s : State) (a : Addr) : (s.jump a).lost = s.lost := rfl
@[simp] theorem State.jump_powerAt (s : State) (a : Addr) : (s.jump a).powerAt = s.powerAt := rfl
@[simp] theorem State.jump_unsynced (s : State) (a : Addr) : (s.jump a).unsynced = s.unsynced := rfl

@[simp] theorem State.park_g (s : State) (w : Wait) : (s.park w).g = { s.g with sp := { s.g.sp with wait := w } } := rfl
@[simp] theorem State.park_others (s : State) (w : Wait) : (s.park w).others = s.others := rfl
@[simp] theorem State.park_blocks (s : State) (w : Wait) : (s.park w).blocks = s.blocks := rfl
@[simp] theorem State.park_launches (s : State) (w : Wait) : (s.park w).launches = s.launches := rfl
@[simp] theorem State.park_cores (s : State) (w : Wait) : (s.park w).cores = s.cores := rfl
@[simp] theorem State.park_clusters (s : State) (w : Wait) : (s.park w).clusters = s.clusters := rfl
@[simp] theorem State.park_dies (s : State) (w : Wait) : (s.park w).dies = s.dies := rfl
@[simp] theorem State.park_vaults (s : State) (w : Wait) : (s.park w).vaults = s.vaults := rfl
@[simp] theorem State.park_dev (s : State) (w : Wait) : (s.park w).dev = s.dev := rfl
@[simp] theorem State.park_host (s : State) (w : Wait) : (s.park w).host = s.host := rfl
@[simp] theorem State.park_peers (s : State) (w : Wait) : (s.park w).peers = s.peers := rfl
@[simp] theorem State.park_versions (s : State) (w : Wait) : (s.park w).versions = s.versions := rfl
@[simp] theorem State.park_poison (s : State) (w : Wait) : (s.park w).poison = s.poison := rfl
@[simp] theorem State.park_owners (s : State) (w : Wait) : (s.park w).owners = s.owners := rfl
@[simp] theorem State.park_flights (s : State) (w : Wait) : (s.park w).flights = s.flights := rfl
@[simp] theorem State.park_reqs (s : State) (w : Wait) : (s.park w).reqs = s.reqs := rfl
@[simp] theorem State.park_nextId (s : State) (w : Wait) : (s.park w).nextId = s.nextId := rfl
@[simp] theorem State.park_popWait (s : State) (w : Wait) : (s.park w).popWait = s.popWait := rfl
@[simp] theorem State.park_timer (s : State) (w : Wait) : (s.park w).timer = s.timer := rfl
@[simp] theorem State.park_slots (s : State) (w : Wait) : (s.park w).slots = s.slots := rfl
@[simp] theorem State.park_pending (s : State) (w : Wait) : (s.park w).pending = s.pending := rfl
@[simp] theorem State.park_rlaunches (s : State) (w : Wait) : (s.park w).rlaunches = s.rlaunches := rfl
@[simp] theorem State.park_nodes (s : State) (w : Wait) : (s.park w).nodes = s.nodes := rfl
@[simp] theorem State.park_completions (s : State) (w : Wait) : (s.park w).completions = s.completions := rfl
@[simp] theorem State.park_nextSlot (s : State) (w : Wait) : (s.park w).nextSlot = s.nextSlot := rfl
@[simp] theorem State.park_beats (s : State) (w : Wait) : (s.park w).beats = s.beats := rfl
@[simp] theorem State.park_loops (s : State) (w : Wait) : (s.park w).loops = s.loops := rfl
@[simp] theorem State.park_passDue (s : State) (w : Wait) : (s.park w).passDue = s.passDue := rfl
@[simp] theorem State.park_ways (s : State) (w : Wait) : (s.park w).ways = s.ways := rfl
@[simp] theorem State.park_heat (s : State) (w : Wait) : (s.park w).heat = s.heat := rfl
@[simp] theorem State.park_colls (s : State) (w : Wait) : (s.park w).colls = s.colls := rfl
@[simp] theorem State.park_collSeq (s : State) (w : Wait) : (s.park w).collSeq = s.collSeq := rfl
@[simp] theorem State.park_remotes (s : State) (w : Wait) : (s.park w).remotes = s.remotes := rfl
@[simp] theorem State.park_residue (s : State) (w : Wait) : (s.park w).residue = s.residue := rfl
@[simp] theorem State.park_nodeTicks (s : State) (w : Wait) : (s.park w).nodeTicks = s.nodeTicks := rfl
@[simp] theorem State.park_refilled (s : State) (w : Wait) : (s.park w).refilled = s.refilled := rfl
@[simp] theorem State.park_slices (s : State) (w : Wait) : (s.park w).slices = s.slices := rfl
@[simp] theorem State.park_logged (s : State) (w : Wait) : (s.park w).logged = s.logged := rfl
@[simp] theorem State.park_logFull (s : State) (w : Wait) : (s.park w).logFull = s.logFull := rfl
@[simp] theorem State.park_cellar (s : State) (w : Wait) : (s.park w).cellar = s.cellar := rfl
@[simp] theorem State.park_cellarHead (s : State) (w : Wait) : (s.park w).cellarHead = s.cellarHead := rfl
@[simp] theorem State.park_placing (s : State) (w : Wait) : (s.park w).placing = s.placing := rfl
@[simp] theorem State.park_power (s : State) (w : Wait) : (s.park w).power = s.power := rfl
@[simp] theorem State.park_imageStore (s : State) (w : Wait) : (s.park w).imageStore = s.imageStore := rfl
@[simp] theorem State.park_down (s : State) (w : Wait) : (s.park w).down = s.down := rfl
@[simp] theorem State.park_altDown (s : State) (w : Wait) : (s.park w).altDown = s.altDown := rfl
@[simp] theorem State.park_links (s : State) (w : Wait) : (s.park w).links = s.links := rfl
@[simp] theorem State.park_ports (s : State) (w : Wait) : (s.park w).ports = s.ports := rfl
@[simp] theorem State.park_regs (s : State) (w : Wait) : (s.park w).regs = s.regs := rfl
@[simp] theorem State.park_free (s : State) (w : Wait) : (s.park w).free = s.free := rfl
@[simp] theorem State.park_agenda (s : State) (w : Wait) : (s.park w).agenda = s.agenda := rfl
@[simp] theorem State.park_ev (s : State) (w : Wait) : (s.park w).ev = s.ev := rfl
@[simp] theorem State.park_env (s : State) (w : Wait) : (s.park w).env = s.env := rfl
@[simp] theorem State.park_hushed (s : State) (w : Wait) : (s.park w).hushed = s.hushed := rfl
@[simp] theorem State.park_rewritten (s : State) (w : Wait) : (s.park w).rewritten = s.rewritten := rfl
@[simp] theorem State.park_lost (s : State) (w : Wait) : (s.park w).lost = s.lost := rfl
@[simp] theorem State.park_powerAt (s : State) (w : Wait) : (s.park w).powerAt = s.powerAt := rfl
@[simp] theorem State.park_unsynced (s : State) (w : Wait) : (s.park w).unsynced = s.unsynced := rfl

@[simp] theorem Group.shiftQ_live (g : Group) (m : Mask) (f : Lane → Word) : (g.shiftQ m f).live = g.live := rfl
@[simp] theorem Group.shiftQ_core (g : Group) (m : Mask) (f : Lane → Word) : (g.shiftQ m f).core = g.core := rfl
@[simp] theorem Group.shiftQ_slot (g : Group) (m : Mask) (f : Lane → Word) : (g.shiftQ m f).slot = g.slot := rfl
@[simp] theorem Group.shiftQ_service (g : Group) (m : Mask) (f : Lane → Word) : (g.shiftQ m f).service = g.service := rfl
@[simp] theorem Group.shiftQ_block (g : Group) (m : Mask) (f : Lane → Word) : (g.shiftQ m f).block = g.block := rfl
@[simp] theorem Group.shiftQ_launch (g : Group) (m : Mask) (f : Lane → Word) : (g.shiftQ m f).launch = g.launch := rfl
@[simp] theorem Group.shiftQ_groupix (g : Group) (m : Mask) (f : Lane → Word) : (g.shiftQ m f).groupix = g.groupix := rfl
@[simp] theorem Group.shiftQ_producer (g : Group) (m : Mask) (f : Lane → Word) : (g.shiftQ m f).producer = g.producer := rfl
@[simp] theorem Group.shiftQ_age (g : Group) (m : Mask) (f : Lane → Word) : (g.shiftQ m f).age = g.age := rfl
@[simp] theorem Group.shiftQ_waitCount (g : Group) (m : Mask) (f : Lane → Word) : (g.shiftQ m f).waitCount = g.waitCount := rfl
@[simp] theorem Group.shiftQ_v (g : Group) (m : Mask) (f : Lane → Word) : (g.shiftQ m f).v = g.v := rfl
@[simp] theorem Group.shiftQ_s (g : Group) (m : Mask) (f : Lane → Word) : (g.shiftQ m f).s = g.s := rfl
@[simp] theorem Group.shiftQ_o (g : Group) (m : Mask) (f : Lane → Word) : (g.shiftQ m f).o = g.o := rfl
@[simp] theorem Group.shiftQ_p (g : Group) (m : Mask) (f : Lane → Word) : (g.shiftQ m f).p = g.p := rfl
@[simp] theorem Group.shiftQ_b (g : Group) (m : Mask) (f : Lane → Word) : (g.shiftQ m f).b = g.b := rfl
@[simp] theorem Group.shiftQ_bPend (g : Group) (m : Mask) (f : Lane → Word) : (g.shiftQ m f).bPend = g.bPend := rfl
@[simp] theorem Group.shiftQ_d (g : Group) (m : Mask) (f : Lane → Word) : (g.shiftQ m f).d = g.d := rfl
@[simp] theorem Group.shiftQ_h (g : Group) (m : Mask) (f : Lane → Word) : (g.shiftQ m f).h = g.h := rfl
@[simp] theorem Group.shiftQ_feV (g : Group) (m : Mask) (f : Lane → Word) : (g.shiftQ m f).feV = g.feV := rfl
@[simp] theorem Group.shiftQ_feO (g : Group) (m : Mask) (f : Lane → Word) : (g.shiftQ m f).feO = g.feO := rfl
@[simp] theorem Group.shiftQ_feS (g : Group) (m : Mask) (f : Lane → Word) : (g.shiftQ m f).feS = g.feS := rfl
@[simp] theorem Group.shiftQ_arithFlags (g : Group) (m : Mask) (f : Lane → Word) : (g.shiftQ m f).arithFlags = g.arithFlags := rfl
@[simp] theorem Group.shiftQ_counters (g : Group) (m : Mask) (f : Lane → Word) : (g.shiftQ m f).counters = g.counters := rfl
@[simp] theorem Group.shiftQ_snaps (g : Group) (m : Mask) (f : Lane → Word) : (g.shiftQ m f).snaps = g.snaps := rfl
@[simp] theorem Group.shiftQ_trapCause (g : Group) (m : Mask) (f : Lane → Word) : (g.shiftQ m f).trapCause = g.trapCause := rfl
@[simp] theorem Group.shiftQ_trapPc (g : Group) (m : Mask) (f : Lane → Word) : (g.shiftQ m f).trapPc = g.trapPc := rfl
@[simp] theorem Group.shiftQ_trapMask (g : Group) (m : Mask) (f : Lane → Word) : (g.shiftQ m f).trapMask = g.trapMask := rfl
@[simp] theorem Group.shiftQ_doneMask (g : Group) (m : Mask) (f : Lane → Word) : (g.shiftQ m f).doneMask = g.doneMask := rfl
@[simp] theorem Group.shiftQ_pre (g : Group) (m : Mask) (f : Lane → Word) : (g.shiftQ m f).pre = g.pre := rfl
@[simp] theorem Group.shiftQ_reports (g : Group) (m : Mask) (f : Lane → Word) : (g.shiftQ m f).reports = g.reports := rfl
@[simp] theorem Group.shiftQ_curReport (g : Group) (m : Mask) (f : Lane → Word) : (g.shiftQ m f).curReport = g.curReport := rfl
@[simp] theorem Group.shiftQ_launched (g : Group) (m : Mask) (f : Lane → Word) : (g.shiftQ m f).launched = g.launched := rfl
@[simp] theorem Group.shiftQ_exited (g : Group) (m : Mask) (f : Lane → Word) : (g.shiftQ m f).exited = g.exited := rfl
@[simp] theorem Group.shiftQ_nextAge (g : Group) (m : Mask) (f : Lane → Word) : (g.shiftQ m f).nextAge = g.nextAge := rfl
@[simp] theorem Group.shiftQ_stopped (g : Group) (m : Mask) (f : Lane → Word) : (g.shiftQ m f).stopped = g.stopped := rfl
@[simp] theorem Group.shiftQ_sp (g : Group) (m : Mask) (f : Lane → Word) : (g.shiftQ m f).sp = g.sp := rfl
@[simp] theorem Group.shiftQ_rest (g : Group) (m : Mask) (f : Lane → Word) : (g.shiftQ m f).rest = g.rest := rfl

@[simp] theorem Group.flag_live (g : Group) (x : BitVec 6) : (g.flag x).live = g.live := rfl
@[simp] theorem Group.flag_core (g : Group) (x : BitVec 6) : (g.flag x).core = g.core := rfl
@[simp] theorem Group.flag_slot (g : Group) (x : BitVec 6) : (g.flag x).slot = g.slot := rfl
@[simp] theorem Group.flag_service (g : Group) (x : BitVec 6) : (g.flag x).service = g.service := rfl
@[simp] theorem Group.flag_block (g : Group) (x : BitVec 6) : (g.flag x).block = g.block := rfl
@[simp] theorem Group.flag_launch (g : Group) (x : BitVec 6) : (g.flag x).launch = g.launch := rfl
@[simp] theorem Group.flag_groupix (g : Group) (x : BitVec 6) : (g.flag x).groupix = g.groupix := rfl
@[simp] theorem Group.flag_producer (g : Group) (x : BitVec 6) : (g.flag x).producer = g.producer := rfl
@[simp] theorem Group.flag_age (g : Group) (x : BitVec 6) : (g.flag x).age = g.age := rfl
@[simp] theorem Group.flag_waitCount (g : Group) (x : BitVec 6) : (g.flag x).waitCount = g.waitCount := rfl
@[simp] theorem Group.flag_v (g : Group) (x : BitVec 6) : (g.flag x).v = g.v := rfl
@[simp] theorem Group.flag_s (g : Group) (x : BitVec 6) : (g.flag x).s = g.s := rfl
@[simp] theorem Group.flag_o (g : Group) (x : BitVec 6) : (g.flag x).o = g.o := rfl
@[simp] theorem Group.flag_q (g : Group) (x : BitVec 6) : (g.flag x).q = g.q := rfl
@[simp] theorem Group.flag_p (g : Group) (x : BitVec 6) : (g.flag x).p = g.p := rfl
@[simp] theorem Group.flag_b (g : Group) (x : BitVec 6) : (g.flag x).b = g.b := rfl
@[simp] theorem Group.flag_bPend (g : Group) (x : BitVec 6) : (g.flag x).bPend = g.bPend := rfl
@[simp] theorem Group.flag_d (g : Group) (x : BitVec 6) : (g.flag x).d = g.d := rfl
@[simp] theorem Group.flag_h (g : Group) (x : BitVec 6) : (g.flag x).h = g.h := rfl
@[simp] theorem Group.flag_feV (g : Group) (x : BitVec 6) : (g.flag x).feV = g.feV := rfl
@[simp] theorem Group.flag_feO (g : Group) (x : BitVec 6) : (g.flag x).feO = g.feO := rfl
@[simp] theorem Group.flag_feS (g : Group) (x : BitVec 6) : (g.flag x).feS = g.feS := rfl
@[simp] theorem Group.flag_arithFlags (g : Group) (x : BitVec 6) : (g.flag x).arithFlags = g.arithFlags ||| x := rfl
@[simp] theorem Group.flag_counters (g : Group) (x : BitVec 6) : (g.flag x).counters = g.counters := rfl
@[simp] theorem Group.flag_snaps (g : Group) (x : BitVec 6) : (g.flag x).snaps = g.snaps := rfl
@[simp] theorem Group.flag_trapCause (g : Group) (x : BitVec 6) : (g.flag x).trapCause = g.trapCause := rfl
@[simp] theorem Group.flag_trapPc (g : Group) (x : BitVec 6) : (g.flag x).trapPc = g.trapPc := rfl
@[simp] theorem Group.flag_trapMask (g : Group) (x : BitVec 6) : (g.flag x).trapMask = g.trapMask := rfl
@[simp] theorem Group.flag_doneMask (g : Group) (x : BitVec 6) : (g.flag x).doneMask = g.doneMask := rfl
@[simp] theorem Group.flag_pre (g : Group) (x : BitVec 6) : (g.flag x).pre = g.pre := rfl
@[simp] theorem Group.flag_reports (g : Group) (x : BitVec 6) : (g.flag x).reports = g.reports := rfl
@[simp] theorem Group.flag_curReport (g : Group) (x : BitVec 6) : (g.flag x).curReport = g.curReport := rfl
@[simp] theorem Group.flag_launched (g : Group) (x : BitVec 6) : (g.flag x).launched = g.launched := rfl
@[simp] theorem Group.flag_exited (g : Group) (x : BitVec 6) : (g.flag x).exited = g.exited := rfl
@[simp] theorem Group.flag_nextAge (g : Group) (x : BitVec 6) : (g.flag x).nextAge = g.nextAge := rfl
@[simp] theorem Group.flag_stopped (g : Group) (x : BitVec 6) : (g.flag x).stopped = g.stopped := rfl
@[simp] theorem Group.flag_sp (g : Group) (x : BitVec 6) : (g.flag x).sp = g.sp := rfl
@[simp] theorem Group.flag_rest (g : Group) (x : BitVec 6) : (g.flag x).rest = g.rest := rfl

@[simp] theorem Group.setPred_live (g : Group) (n : Nat) (m : Mask) (f : Lane → Bool) : (g.setPred n m f).live = g.live := rfl
@[simp] theorem Group.setPred_core (g : Group) (n : Nat) (m : Mask) (f : Lane → Bool) : (g.setPred n m f).core = g.core := rfl
@[simp] theorem Group.setPred_slot (g : Group) (n : Nat) (m : Mask) (f : Lane → Bool) : (g.setPred n m f).slot = g.slot := rfl
@[simp] theorem Group.setPred_service (g : Group) (n : Nat) (m : Mask) (f : Lane → Bool) : (g.setPred n m f).service = g.service := rfl
@[simp] theorem Group.setPred_block (g : Group) (n : Nat) (m : Mask) (f : Lane → Bool) : (g.setPred n m f).block = g.block := rfl
@[simp] theorem Group.setPred_launch (g : Group) (n : Nat) (m : Mask) (f : Lane → Bool) : (g.setPred n m f).launch = g.launch := rfl
@[simp] theorem Group.setPred_groupix (g : Group) (n : Nat) (m : Mask) (f : Lane → Bool) : (g.setPred n m f).groupix = g.groupix := rfl
@[simp] theorem Group.setPred_producer (g : Group) (n : Nat) (m : Mask) (f : Lane → Bool) : (g.setPred n m f).producer = g.producer := rfl
@[simp] theorem Group.setPred_age (g : Group) (n : Nat) (m : Mask) (f : Lane → Bool) : (g.setPred n m f).age = g.age := rfl
@[simp] theorem Group.setPred_waitCount (g : Group) (n : Nat) (m : Mask) (f : Lane → Bool) : (g.setPred n m f).waitCount = g.waitCount := rfl
@[simp] theorem Group.setPred_v (g : Group) (n : Nat) (m : Mask) (f : Lane → Bool) : (g.setPred n m f).v = g.v := rfl
@[simp] theorem Group.setPred_s (g : Group) (n : Nat) (m : Mask) (f : Lane → Bool) : (g.setPred n m f).s = g.s := rfl
@[simp] theorem Group.setPred_o (g : Group) (n : Nat) (m : Mask) (f : Lane → Bool) : (g.setPred n m f).o = g.o := rfl
@[simp] theorem Group.setPred_q (g : Group) (n : Nat) (m : Mask) (f : Lane → Bool) : (g.setPred n m f).q = g.q := rfl
@[simp] theorem Group.setPred_p (g : Group) (n : Nat) (m : Mask) (f : Lane → Bool) : (g.setPred n m f).p = vset g.p n ((vget g.p n 0 &&& ~~~m) ||| (maskOf f &&& m)) := rfl
@[simp] theorem Group.setPred_b (g : Group) (n : Nat) (m : Mask) (f : Lane → Bool) : (g.setPred n m f).b = g.b := rfl
@[simp] theorem Group.setPred_bPend (g : Group) (n : Nat) (m : Mask) (f : Lane → Bool) : (g.setPred n m f).bPend = g.bPend := rfl
@[simp] theorem Group.setPred_d (g : Group) (n : Nat) (m : Mask) (f : Lane → Bool) : (g.setPred n m f).d = g.d := rfl
@[simp] theorem Group.setPred_h (g : Group) (n : Nat) (m : Mask) (f : Lane → Bool) : (g.setPred n m f).h = g.h := rfl
@[simp] theorem Group.setPred_feV (g : Group) (n : Nat) (m : Mask) (f : Lane → Bool) : (g.setPred n m f).feV = g.feV := rfl
@[simp] theorem Group.setPred_feO (g : Group) (n : Nat) (m : Mask) (f : Lane → Bool) : (g.setPred n m f).feO = g.feO := rfl
@[simp] theorem Group.setPred_feS (g : Group) (n : Nat) (m : Mask) (f : Lane → Bool) : (g.setPred n m f).feS = g.feS := rfl
@[simp] theorem Group.setPred_arithFlags (g : Group) (n : Nat) (m : Mask) (f : Lane → Bool) : (g.setPred n m f).arithFlags = g.arithFlags := rfl
@[simp] theorem Group.setPred_counters (g : Group) (n : Nat) (m : Mask) (f : Lane → Bool) : (g.setPred n m f).counters = g.counters := rfl
@[simp] theorem Group.setPred_snaps (g : Group) (n : Nat) (m : Mask) (f : Lane → Bool) : (g.setPred n m f).snaps = g.snaps := rfl
@[simp] theorem Group.setPred_trapCause (g : Group) (n : Nat) (m : Mask) (f : Lane → Bool) : (g.setPred n m f).trapCause = g.trapCause := rfl
@[simp] theorem Group.setPred_trapPc (g : Group) (n : Nat) (m : Mask) (f : Lane → Bool) : (g.setPred n m f).trapPc = g.trapPc := rfl
@[simp] theorem Group.setPred_trapMask (g : Group) (n : Nat) (m : Mask) (f : Lane → Bool) : (g.setPred n m f).trapMask = g.trapMask := rfl
@[simp] theorem Group.setPred_doneMask (g : Group) (n : Nat) (m : Mask) (f : Lane → Bool) : (g.setPred n m f).doneMask = g.doneMask := rfl
@[simp] theorem Group.setPred_pre (g : Group) (n : Nat) (m : Mask) (f : Lane → Bool) : (g.setPred n m f).pre = g.pre := rfl
@[simp] theorem Group.setPred_reports (g : Group) (n : Nat) (m : Mask) (f : Lane → Bool) : (g.setPred n m f).reports = g.reports := rfl
@[simp] theorem Group.setPred_curReport (g : Group) (n : Nat) (m : Mask) (f : Lane → Bool) : (g.setPred n m f).curReport = g.curReport := rfl
@[simp] theorem Group.setPred_launched (g : Group) (n : Nat) (m : Mask) (f : Lane → Bool) : (g.setPred n m f).launched = g.launched := rfl
@[simp] theorem Group.setPred_exited (g : Group) (n : Nat) (m : Mask) (f : Lane → Bool) : (g.setPred n m f).exited = g.exited := rfl
@[simp] theorem Group.setPred_nextAge (g : Group) (n : Nat) (m : Mask) (f : Lane → Bool) : (g.setPred n m f).nextAge = g.nextAge := rfl
@[simp] theorem Group.setPred_stopped (g : Group) (n : Nat) (m : Mask) (f : Lane → Bool) : (g.setPred n m f).stopped = g.stopped := rfl
@[simp] theorem Group.setPred_sp (g : Group) (n : Nat) (m : Mask) (f : Lane → Bool) : (g.setPred n m f).sp = g.sp := rfl
@[simp] theorem Group.setPred_rest (g : Group) (n : Nat) (m : Mask) (f : Lane → Bool) : (g.setPred n m f).rest = g.rest := rfl

/-- Writing a register changes the v, s, o and h files alone. -/
theorem Group.writeReg_frame (g : Group) (d : Nat) (m : Mask) (f : Lane → Word) :
    g.writeReg d m f = { g with v := (g.writeReg d m f).v, s := (g.writeReg d m f).s,
                                o := (g.writeReg d m f).o, h := (g.writeReg d m f).h } := by
  unfold Group.writeReg; (repeat' split) <;> rfl

/-- Marking a register changes the full/empty bits alone. -/
theorem Group.setFull_frame (g : Group) (d : Nat) (x : Bool) :
    g.setFull d x = { g with feV := (g.setFull d x).feV, feO := (g.setFull d x).feO, feS := (g.setFull d x).feS } := by
  unfold Group.setFull; (repeat' split) <;> rfl

@[simp] theorem Group.writeReg_live (g : Group) (d : Nat) (m : Mask) (f : Lane → Word) :
    (g.writeReg d m f).live = g.live := by rw [Group.writeReg_frame]
@[simp] theorem Group.writeReg_core (g : Group) (d : Nat) (m : Mask) (f : Lane → Word) :
    (g.writeReg d m f).core = g.core := by rw [Group.writeReg_frame]
@[simp] theorem Group.writeReg_slot (g : Group) (d : Nat) (m : Mask) (f : Lane → Word) :
    (g.writeReg d m f).slot = g.slot := by rw [Group.writeReg_frame]
@[simp] theorem Group.writeReg_service (g : Group) (d : Nat) (m : Mask) (f : Lane → Word) :
    (g.writeReg d m f).service = g.service := by rw [Group.writeReg_frame]
@[simp] theorem Group.writeReg_block (g : Group) (d : Nat) (m : Mask) (f : Lane → Word) :
    (g.writeReg d m f).block = g.block := by rw [Group.writeReg_frame]
@[simp] theorem Group.writeReg_launch (g : Group) (d : Nat) (m : Mask) (f : Lane → Word) :
    (g.writeReg d m f).launch = g.launch := by rw [Group.writeReg_frame]
@[simp] theorem Group.writeReg_groupix (g : Group) (d : Nat) (m : Mask) (f : Lane → Word) :
    (g.writeReg d m f).groupix = g.groupix := by rw [Group.writeReg_frame]
@[simp] theorem Group.writeReg_producer (g : Group) (d : Nat) (m : Mask) (f : Lane → Word) :
    (g.writeReg d m f).producer = g.producer := by rw [Group.writeReg_frame]
@[simp] theorem Group.writeReg_age (g : Group) (d : Nat) (m : Mask) (f : Lane → Word) :
    (g.writeReg d m f).age = g.age := by rw [Group.writeReg_frame]
@[simp] theorem Group.writeReg_waitCount (g : Group) (d : Nat) (m : Mask) (f : Lane → Word) :
    (g.writeReg d m f).waitCount = g.waitCount := by rw [Group.writeReg_frame]
@[simp] theorem Group.writeReg_q (g : Group) (d : Nat) (m : Mask) (f : Lane → Word) :
    (g.writeReg d m f).q = g.q := by rw [Group.writeReg_frame]
@[simp] theorem Group.writeReg_p (g : Group) (d : Nat) (m : Mask) (f : Lane → Word) :
    (g.writeReg d m f).p = g.p := by rw [Group.writeReg_frame]
@[simp] theorem Group.writeReg_b (g : Group) (d : Nat) (m : Mask) (f : Lane → Word) :
    (g.writeReg d m f).b = g.b := by rw [Group.writeReg_frame]
@[simp] theorem Group.writeReg_bPend (g : Group) (d : Nat) (m : Mask) (f : Lane → Word) :
    (g.writeReg d m f).bPend = g.bPend := by rw [Group.writeReg_frame]
@[simp] theorem Group.writeReg_d (g : Group) (d : Nat) (m : Mask) (f : Lane → Word) :
    (g.writeReg d m f).d = g.d := by rw [Group.writeReg_frame]
@[simp] theorem Group.writeReg_feV (g : Group) (d : Nat) (m : Mask) (f : Lane → Word) :
    (g.writeReg d m f).feV = g.feV := by rw [Group.writeReg_frame]
@[simp] theorem Group.writeReg_feO (g : Group) (d : Nat) (m : Mask) (f : Lane → Word) :
    (g.writeReg d m f).feO = g.feO := by rw [Group.writeReg_frame]
@[simp] theorem Group.writeReg_feS (g : Group) (d : Nat) (m : Mask) (f : Lane → Word) :
    (g.writeReg d m f).feS = g.feS := by rw [Group.writeReg_frame]
@[simp] theorem Group.writeReg_arithFlags (g : Group) (d : Nat) (m : Mask) (f : Lane → Word) :
    (g.writeReg d m f).arithFlags = g.arithFlags := by rw [Group.writeReg_frame]
@[simp] theorem Group.writeReg_counters (g : Group) (d : Nat) (m : Mask) (f : Lane → Word) :
    (g.writeReg d m f).counters = g.counters := by rw [Group.writeReg_frame]
@[simp] theorem Group.writeReg_snaps (g : Group) (d : Nat) (m : Mask) (f : Lane → Word) :
    (g.writeReg d m f).snaps = g.snaps := by rw [Group.writeReg_frame]
@[simp] theorem Group.writeReg_trapCause (g : Group) (d : Nat) (m : Mask) (f : Lane → Word) :
    (g.writeReg d m f).trapCause = g.trapCause := by rw [Group.writeReg_frame]
@[simp] theorem Group.writeReg_trapPc (g : Group) (d : Nat) (m : Mask) (f : Lane → Word) :
    (g.writeReg d m f).trapPc = g.trapPc := by rw [Group.writeReg_frame]
@[simp] theorem Group.writeReg_trapMask (g : Group) (d : Nat) (m : Mask) (f : Lane → Word) :
    (g.writeReg d m f).trapMask = g.trapMask := by rw [Group.writeReg_frame]
@[simp] theorem Group.writeReg_doneMask (g : Group) (d : Nat) (m : Mask) (f : Lane → Word) :
    (g.writeReg d m f).doneMask = g.doneMask := by rw [Group.writeReg_frame]
@[simp] theorem Group.writeReg_pre (g : Group) (d : Nat) (m : Mask) (f : Lane → Word) :
    (g.writeReg d m f).pre = g.pre := by rw [Group.writeReg_frame]
@[simp] theorem Group.writeReg_reports (g : Group) (d : Nat) (m : Mask) (f : Lane → Word) :
    (g.writeReg d m f).reports = g.reports := by rw [Group.writeReg_frame]
@[simp] theorem Group.writeReg_curReport (g : Group) (d : Nat) (m : Mask) (f : Lane → Word) :
    (g.writeReg d m f).curReport = g.curReport := by rw [Group.writeReg_frame]
@[simp] theorem Group.writeReg_launched (g : Group) (d : Nat) (m : Mask) (f : Lane → Word) :
    (g.writeReg d m f).launched = g.launched := by rw [Group.writeReg_frame]
@[simp] theorem Group.writeReg_exited (g : Group) (d : Nat) (m : Mask) (f : Lane → Word) :
    (g.writeReg d m f).exited = g.exited := by rw [Group.writeReg_frame]
@[simp] theorem Group.writeReg_nextAge (g : Group) (d : Nat) (m : Mask) (f : Lane → Word) :
    (g.writeReg d m f).nextAge = g.nextAge := by rw [Group.writeReg_frame]
@[simp] theorem Group.writeReg_stopped (g : Group) (d : Nat) (m : Mask) (f : Lane → Word) :
    (g.writeReg d m f).stopped = g.stopped := by rw [Group.writeReg_frame]
@[simp] theorem Group.writeReg_sp (g : Group) (d : Nat) (m : Mask) (f : Lane → Word) :
    (g.writeReg d m f).sp = g.sp := by rw [Group.writeReg_frame]
@[simp] theorem Group.writeReg_rest (g : Group) (d : Nat) (m : Mask) (f : Lane → Word) :
    (g.writeReg d m f).rest = g.rest := by rw [Group.writeReg_frame]

@[simp] theorem Group.writeWord_live (g : Group) (d k : Nat) (m : Mask) (f : Lane → Word) :
    (g.writeWord d k m f).live = g.live := by
  unfold Group.writeWord; split <;> simp
@[simp] theorem Group.writeWord_core (g : Group) (d k : Nat) (m : Mask) (f : Lane → Word) :
    (g.writeWord d k m f).core = g.core := by
  unfold Group.writeWord; split <;> simp
@[simp] theorem Group.writeWord_slot (g : Group) (d k : Nat) (m : Mask) (f : Lane → Word) :
    (g.writeWord d k m f).slot = g.slot := by
  unfold Group.writeWord; split <;> simp
@[simp] theorem Group.writeWord_service (g : Group) (d k : Nat) (m : Mask) (f : Lane → Word) :
    (g.writeWord d k m f).service = g.service := by
  unfold Group.writeWord; split <;> simp
@[simp] theorem Group.writeWord_block (g : Group) (d k : Nat) (m : Mask) (f : Lane → Word) :
    (g.writeWord d k m f).block = g.block := by
  unfold Group.writeWord; split <;> simp
@[simp] theorem Group.writeWord_launch (g : Group) (d k : Nat) (m : Mask) (f : Lane → Word) :
    (g.writeWord d k m f).launch = g.launch := by
  unfold Group.writeWord; split <;> simp
@[simp] theorem Group.writeWord_groupix (g : Group) (d k : Nat) (m : Mask) (f : Lane → Word) :
    (g.writeWord d k m f).groupix = g.groupix := by
  unfold Group.writeWord; split <;> simp
@[simp] theorem Group.writeWord_producer (g : Group) (d k : Nat) (m : Mask) (f : Lane → Word) :
    (g.writeWord d k m f).producer = g.producer := by
  unfold Group.writeWord; split <;> simp
@[simp] theorem Group.writeWord_age (g : Group) (d k : Nat) (m : Mask) (f : Lane → Word) :
    (g.writeWord d k m f).age = g.age := by
  unfold Group.writeWord; split <;> simp
@[simp] theorem Group.writeWord_waitCount (g : Group) (d k : Nat) (m : Mask) (f : Lane → Word) :
    (g.writeWord d k m f).waitCount = g.waitCount := by
  unfold Group.writeWord; split <;> simp
@[simp] theorem Group.writeWord_q (g : Group) (d k : Nat) (m : Mask) (f : Lane → Word) :
    (g.writeWord d k m f).q = g.q := by
  unfold Group.writeWord; split <;> simp
@[simp] theorem Group.writeWord_p (g : Group) (d k : Nat) (m : Mask) (f : Lane → Word) :
    (g.writeWord d k m f).p = g.p := by
  unfold Group.writeWord; split <;> simp
@[simp] theorem Group.writeWord_b (g : Group) (d k : Nat) (m : Mask) (f : Lane → Word) :
    (g.writeWord d k m f).b = g.b := by
  unfold Group.writeWord; split <;> simp
@[simp] theorem Group.writeWord_bPend (g : Group) (d k : Nat) (m : Mask) (f : Lane → Word) :
    (g.writeWord d k m f).bPend = g.bPend := by
  unfold Group.writeWord; split <;> simp
@[simp] theorem Group.writeWord_d (g : Group) (d k : Nat) (m : Mask) (f : Lane → Word) :
    (g.writeWord d k m f).d = g.d := by
  unfold Group.writeWord; split <;> simp
@[simp] theorem Group.writeWord_feV (g : Group) (d k : Nat) (m : Mask) (f : Lane → Word) :
    (g.writeWord d k m f).feV = g.feV := by
  unfold Group.writeWord; split <;> simp
@[simp] theorem Group.writeWord_feO (g : Group) (d k : Nat) (m : Mask) (f : Lane → Word) :
    (g.writeWord d k m f).feO = g.feO := by
  unfold Group.writeWord; split <;> simp
@[simp] theorem Group.writeWord_feS (g : Group) (d k : Nat) (m : Mask) (f : Lane → Word) :
    (g.writeWord d k m f).feS = g.feS := by
  unfold Group.writeWord; split <;> simp
@[simp] theorem Group.writeWord_arithFlags (g : Group) (d k : Nat) (m : Mask) (f : Lane → Word) :
    (g.writeWord d k m f).arithFlags = g.arithFlags := by
  unfold Group.writeWord; split <;> simp
@[simp] theorem Group.writeWord_counters (g : Group) (d k : Nat) (m : Mask) (f : Lane → Word) :
    (g.writeWord d k m f).counters = g.counters := by
  unfold Group.writeWord; split <;> simp
@[simp] theorem Group.writeWord_snaps (g : Group) (d k : Nat) (m : Mask) (f : Lane → Word) :
    (g.writeWord d k m f).snaps = g.snaps := by
  unfold Group.writeWord; split <;> simp
@[simp] theorem Group.writeWord_trapCause (g : Group) (d k : Nat) (m : Mask) (f : Lane → Word) :
    (g.writeWord d k m f).trapCause = g.trapCause := by
  unfold Group.writeWord; split <;> simp
@[simp] theorem Group.writeWord_trapPc (g : Group) (d k : Nat) (m : Mask) (f : Lane → Word) :
    (g.writeWord d k m f).trapPc = g.trapPc := by
  unfold Group.writeWord; split <;> simp
@[simp] theorem Group.writeWord_trapMask (g : Group) (d k : Nat) (m : Mask) (f : Lane → Word) :
    (g.writeWord d k m f).trapMask = g.trapMask := by
  unfold Group.writeWord; split <;> simp
@[simp] theorem Group.writeWord_doneMask (g : Group) (d k : Nat) (m : Mask) (f : Lane → Word) :
    (g.writeWord d k m f).doneMask = g.doneMask := by
  unfold Group.writeWord; split <;> simp
@[simp] theorem Group.writeWord_pre (g : Group) (d k : Nat) (m : Mask) (f : Lane → Word) :
    (g.writeWord d k m f).pre = g.pre := by
  unfold Group.writeWord; split <;> simp
@[simp] theorem Group.writeWord_reports (g : Group) (d k : Nat) (m : Mask) (f : Lane → Word) :
    (g.writeWord d k m f).reports = g.reports := by
  unfold Group.writeWord; split <;> simp
@[simp] theorem Group.writeWord_curReport (g : Group) (d k : Nat) (m : Mask) (f : Lane → Word) :
    (g.writeWord d k m f).curReport = g.curReport := by
  unfold Group.writeWord; split <;> simp
@[simp] theorem Group.writeWord_launched (g : Group) (d k : Nat) (m : Mask) (f : Lane → Word) :
    (g.writeWord d k m f).launched = g.launched := by
  unfold Group.writeWord; split <;> simp
@[simp] theorem Group.writeWord_exited (g : Group) (d k : Nat) (m : Mask) (f : Lane → Word) :
    (g.writeWord d k m f).exited = g.exited := by
  unfold Group.writeWord; split <;> simp
@[simp] theorem Group.writeWord_nextAge (g : Group) (d k : Nat) (m : Mask) (f : Lane → Word) :
    (g.writeWord d k m f).nextAge = g.nextAge := by
  unfold Group.writeWord; split <;> simp
@[simp] theorem Group.writeWord_stopped (g : Group) (d k : Nat) (m : Mask) (f : Lane → Word) :
    (g.writeWord d k m f).stopped = g.stopped := by
  unfold Group.writeWord; split <;> simp
@[simp] theorem Group.writeWord_sp (g : Group) (d k : Nat) (m : Mask) (f : Lane → Word) :
    (g.writeWord d k m f).sp = g.sp := by
  unfold Group.writeWord; split <;> simp
@[simp] theorem Group.writeWord_rest (g : Group) (d k : Nat) (m : Mask) (f : Lane → Word) :
    (g.writeWord d k m f).rest = g.rest := by
  unfold Group.writeWord; split <;> simp

@[simp] theorem Group.put_live (g : Group) (d : Nat) (m : Mask) (f : Lane → Word) :
    (g.put d m f).live = g.live := by simp [Group.put]
@[simp] theorem Group.put_core (g : Group) (d : Nat) (m : Mask) (f : Lane → Word) :
    (g.put d m f).core = g.core := by simp [Group.put]
@[simp] theorem Group.put_slot (g : Group) (d : Nat) (m : Mask) (f : Lane → Word) :
    (g.put d m f).slot = g.slot := by simp [Group.put]
@[simp] theorem Group.put_service (g : Group) (d : Nat) (m : Mask) (f : Lane → Word) :
    (g.put d m f).service = g.service := by simp [Group.put]
@[simp] theorem Group.put_block (g : Group) (d : Nat) (m : Mask) (f : Lane → Word) :
    (g.put d m f).block = g.block := by simp [Group.put]
@[simp] theorem Group.put_launch (g : Group) (d : Nat) (m : Mask) (f : Lane → Word) :
    (g.put d m f).launch = g.launch := by simp [Group.put]
@[simp] theorem Group.put_groupix (g : Group) (d : Nat) (m : Mask) (f : Lane → Word) :
    (g.put d m f).groupix = g.groupix := by simp [Group.put]
@[simp] theorem Group.put_producer (g : Group) (d : Nat) (m : Mask) (f : Lane → Word) :
    (g.put d m f).producer = g.producer := by simp [Group.put]
@[simp] theorem Group.put_age (g : Group) (d : Nat) (m : Mask) (f : Lane → Word) :
    (g.put d m f).age = g.age := by simp [Group.put]
@[simp] theorem Group.put_waitCount (g : Group) (d : Nat) (m : Mask) (f : Lane → Word) :
    (g.put d m f).waitCount = g.waitCount := by simp [Group.put]
@[simp] theorem Group.put_p (g : Group) (d : Nat) (m : Mask) (f : Lane → Word) :
    (g.put d m f).p = g.p := by simp [Group.put]
@[simp] theorem Group.put_b (g : Group) (d : Nat) (m : Mask) (f : Lane → Word) :
    (g.put d m f).b = g.b := by simp [Group.put]
@[simp] theorem Group.put_bPend (g : Group) (d : Nat) (m : Mask) (f : Lane → Word) :
    (g.put d m f).bPend = g.bPend := by simp [Group.put]
@[simp] theorem Group.put_d (g : Group) (d : Nat) (m : Mask) (f : Lane → Word) :
    (g.put d m f).d = g.d := by simp [Group.put]
@[simp] theorem Group.put_feV (g : Group) (d : Nat) (m : Mask) (f : Lane → Word) :
    (g.put d m f).feV = g.feV := by simp [Group.put]
@[simp] theorem Group.put_feO (g : Group) (d : Nat) (m : Mask) (f : Lane → Word) :
    (g.put d m f).feO = g.feO := by simp [Group.put]
@[simp] theorem Group.put_feS (g : Group) (d : Nat) (m : Mask) (f : Lane → Word) :
    (g.put d m f).feS = g.feS := by simp [Group.put]
@[simp] theorem Group.put_arithFlags (g : Group) (d : Nat) (m : Mask) (f : Lane → Word) :
    (g.put d m f).arithFlags = g.arithFlags := by simp [Group.put]
@[simp] theorem Group.put_counters (g : Group) (d : Nat) (m : Mask) (f : Lane → Word) :
    (g.put d m f).counters = g.counters := by simp [Group.put]
@[simp] theorem Group.put_snaps (g : Group) (d : Nat) (m : Mask) (f : Lane → Word) :
    (g.put d m f).snaps = g.snaps := by simp [Group.put]
@[simp] theorem Group.put_trapCause (g : Group) (d : Nat) (m : Mask) (f : Lane → Word) :
    (g.put d m f).trapCause = g.trapCause := by simp [Group.put]
@[simp] theorem Group.put_trapPc (g : Group) (d : Nat) (m : Mask) (f : Lane → Word) :
    (g.put d m f).trapPc = g.trapPc := by simp [Group.put]
@[simp] theorem Group.put_trapMask (g : Group) (d : Nat) (m : Mask) (f : Lane → Word) :
    (g.put d m f).trapMask = g.trapMask := by simp [Group.put]
@[simp] theorem Group.put_doneMask (g : Group) (d : Nat) (m : Mask) (f : Lane → Word) :
    (g.put d m f).doneMask = g.doneMask := by simp [Group.put]
@[simp] theorem Group.put_pre (g : Group) (d : Nat) (m : Mask) (f : Lane → Word) :
    (g.put d m f).pre = g.pre := by simp [Group.put]
@[simp] theorem Group.put_reports (g : Group) (d : Nat) (m : Mask) (f : Lane → Word) :
    (g.put d m f).reports = g.reports := by simp [Group.put]
@[simp] theorem Group.put_curReport (g : Group) (d : Nat) (m : Mask) (f : Lane → Word) :
    (g.put d m f).curReport = g.curReport := by simp [Group.put]
@[simp] theorem Group.put_launched (g : Group) (d : Nat) (m : Mask) (f : Lane → Word) :
    (g.put d m f).launched = g.launched := by simp [Group.put]
@[simp] theorem Group.put_exited (g : Group) (d : Nat) (m : Mask) (f : Lane → Word) :
    (g.put d m f).exited = g.exited := by simp [Group.put]
@[simp] theorem Group.put_nextAge (g : Group) (d : Nat) (m : Mask) (f : Lane → Word) :
    (g.put d m f).nextAge = g.nextAge := by simp [Group.put]
@[simp] theorem Group.put_stopped (g : Group) (d : Nat) (m : Mask) (f : Lane → Word) :
    (g.put d m f).stopped = g.stopped := by simp [Group.put]
@[simp] theorem Group.put_sp (g : Group) (d : Nat) (m : Mask) (f : Lane → Word) :
    (g.put d m f).sp = g.sp := by simp [Group.put]
@[simp] theorem Group.put_rest (g : Group) (d : Nat) (m : Mask) (f : Lane → Word) :
    (g.put d m f).rest = g.rest := by simp [Group.put]

@[simp] theorem Group.put64_live (g : Group) (d : Nat) (m : Mask) (f : Lane → BitVec 64) :
    (g.put64 d m f).live = g.live := by simp [Group.put64]
@[simp] theorem Group.put64_core (g : Group) (d : Nat) (m : Mask) (f : Lane → BitVec 64) :
    (g.put64 d m f).core = g.core := by simp [Group.put64]
@[simp] theorem Group.put64_slot (g : Group) (d : Nat) (m : Mask) (f : Lane → BitVec 64) :
    (g.put64 d m f).slot = g.slot := by simp [Group.put64]
@[simp] theorem Group.put64_service (g : Group) (d : Nat) (m : Mask) (f : Lane → BitVec 64) :
    (g.put64 d m f).service = g.service := by simp [Group.put64]
@[simp] theorem Group.put64_block (g : Group) (d : Nat) (m : Mask) (f : Lane → BitVec 64) :
    (g.put64 d m f).block = g.block := by simp [Group.put64]
@[simp] theorem Group.put64_launch (g : Group) (d : Nat) (m : Mask) (f : Lane → BitVec 64) :
    (g.put64 d m f).launch = g.launch := by simp [Group.put64]
@[simp] theorem Group.put64_groupix (g : Group) (d : Nat) (m : Mask) (f : Lane → BitVec 64) :
    (g.put64 d m f).groupix = g.groupix := by simp [Group.put64]
@[simp] theorem Group.put64_producer (g : Group) (d : Nat) (m : Mask) (f : Lane → BitVec 64) :
    (g.put64 d m f).producer = g.producer := by simp [Group.put64]
@[simp] theorem Group.put64_age (g : Group) (d : Nat) (m : Mask) (f : Lane → BitVec 64) :
    (g.put64 d m f).age = g.age := by simp [Group.put64]
@[simp] theorem Group.put64_waitCount (g : Group) (d : Nat) (m : Mask) (f : Lane → BitVec 64) :
    (g.put64 d m f).waitCount = g.waitCount := by simp [Group.put64]
@[simp] theorem Group.put64_p (g : Group) (d : Nat) (m : Mask) (f : Lane → BitVec 64) :
    (g.put64 d m f).p = g.p := by simp [Group.put64]
@[simp] theorem Group.put64_b (g : Group) (d : Nat) (m : Mask) (f : Lane → BitVec 64) :
    (g.put64 d m f).b = g.b := by simp [Group.put64]
@[simp] theorem Group.put64_bPend (g : Group) (d : Nat) (m : Mask) (f : Lane → BitVec 64) :
    (g.put64 d m f).bPend = g.bPend := by simp [Group.put64]
@[simp] theorem Group.put64_d (g : Group) (d : Nat) (m : Mask) (f : Lane → BitVec 64) :
    (g.put64 d m f).d = g.d := by simp [Group.put64]
@[simp] theorem Group.put64_feV (g : Group) (d : Nat) (m : Mask) (f : Lane → BitVec 64) :
    (g.put64 d m f).feV = g.feV := by simp [Group.put64]
@[simp] theorem Group.put64_feO (g : Group) (d : Nat) (m : Mask) (f : Lane → BitVec 64) :
    (g.put64 d m f).feO = g.feO := by simp [Group.put64]
@[simp] theorem Group.put64_feS (g : Group) (d : Nat) (m : Mask) (f : Lane → BitVec 64) :
    (g.put64 d m f).feS = g.feS := by simp [Group.put64]
@[simp] theorem Group.put64_arithFlags (g : Group) (d : Nat) (m : Mask) (f : Lane → BitVec 64) :
    (g.put64 d m f).arithFlags = g.arithFlags := by simp [Group.put64]
@[simp] theorem Group.put64_counters (g : Group) (d : Nat) (m : Mask) (f : Lane → BitVec 64) :
    (g.put64 d m f).counters = g.counters := by simp [Group.put64]
@[simp] theorem Group.put64_snaps (g : Group) (d : Nat) (m : Mask) (f : Lane → BitVec 64) :
    (g.put64 d m f).snaps = g.snaps := by simp [Group.put64]
@[simp] theorem Group.put64_trapCause (g : Group) (d : Nat) (m : Mask) (f : Lane → BitVec 64) :
    (g.put64 d m f).trapCause = g.trapCause := by simp [Group.put64]
@[simp] theorem Group.put64_trapPc (g : Group) (d : Nat) (m : Mask) (f : Lane → BitVec 64) :
    (g.put64 d m f).trapPc = g.trapPc := by simp [Group.put64]
@[simp] theorem Group.put64_trapMask (g : Group) (d : Nat) (m : Mask) (f : Lane → BitVec 64) :
    (g.put64 d m f).trapMask = g.trapMask := by simp [Group.put64]
@[simp] theorem Group.put64_doneMask (g : Group) (d : Nat) (m : Mask) (f : Lane → BitVec 64) :
    (g.put64 d m f).doneMask = g.doneMask := by simp [Group.put64]
@[simp] theorem Group.put64_pre (g : Group) (d : Nat) (m : Mask) (f : Lane → BitVec 64) :
    (g.put64 d m f).pre = g.pre := by simp [Group.put64]
@[simp] theorem Group.put64_reports (g : Group) (d : Nat) (m : Mask) (f : Lane → BitVec 64) :
    (g.put64 d m f).reports = g.reports := by simp [Group.put64]
@[simp] theorem Group.put64_curReport (g : Group) (d : Nat) (m : Mask) (f : Lane → BitVec 64) :
    (g.put64 d m f).curReport = g.curReport := by simp [Group.put64]
@[simp] theorem Group.put64_launched (g : Group) (d : Nat) (m : Mask) (f : Lane → BitVec 64) :
    (g.put64 d m f).launched = g.launched := by simp [Group.put64]
@[simp] theorem Group.put64_exited (g : Group) (d : Nat) (m : Mask) (f : Lane → BitVec 64) :
    (g.put64 d m f).exited = g.exited := by simp [Group.put64]
@[simp] theorem Group.put64_nextAge (g : Group) (d : Nat) (m : Mask) (f : Lane → BitVec 64) :
    (g.put64 d m f).nextAge = g.nextAge := by simp [Group.put64]
@[simp] theorem Group.put64_stopped (g : Group) (d : Nat) (m : Mask) (f : Lane → BitVec 64) :
    (g.put64 d m f).stopped = g.stopped := by simp [Group.put64]
@[simp] theorem Group.put64_sp (g : Group) (d : Nat) (m : Mask) (f : Lane → BitVec 64) :
    (g.put64 d m f).sp = g.sp := by simp [Group.put64]
@[simp] theorem Group.put64_rest (g : Group) (d : Nat) (m : Mask) (f : Lane → BitVec 64) :
    (g.put64 d m f).rest = g.rest := by simp [Group.put64]

@[simp] theorem Group.setFull_live (g : Group) (d : Nat) (x : Bool) : (g.setFull d x).live = g.live := by
  rw [Group.setFull_frame]
@[simp] theorem Group.setFull_core (g : Group) (d : Nat) (x : Bool) : (g.setFull d x).core = g.core := by
  rw [Group.setFull_frame]
@[simp] theorem Group.setFull_slot (g : Group) (d : Nat) (x : Bool) : (g.setFull d x).slot = g.slot := by
  rw [Group.setFull_frame]
@[simp] theorem Group.setFull_service (g : Group) (d : Nat) (x : Bool) : (g.setFull d x).service = g.service := by
  rw [Group.setFull_frame]
@[simp] theorem Group.setFull_block (g : Group) (d : Nat) (x : Bool) : (g.setFull d x).block = g.block := by
  rw [Group.setFull_frame]
@[simp] theorem Group.setFull_launch (g : Group) (d : Nat) (x : Bool) : (g.setFull d x).launch = g.launch := by
  rw [Group.setFull_frame]
@[simp] theorem Group.setFull_groupix (g : Group) (d : Nat) (x : Bool) : (g.setFull d x).groupix = g.groupix := by
  rw [Group.setFull_frame]
@[simp] theorem Group.setFull_producer (g : Group) (d : Nat) (x : Bool) : (g.setFull d x).producer = g.producer := by
  rw [Group.setFull_frame]
@[simp] theorem Group.setFull_age (g : Group) (d : Nat) (x : Bool) : (g.setFull d x).age = g.age := by
  rw [Group.setFull_frame]
@[simp] theorem Group.setFull_waitCount (g : Group) (d : Nat) (x : Bool) : (g.setFull d x).waitCount = g.waitCount := by
  rw [Group.setFull_frame]
@[simp] theorem Group.setFull_v (g : Group) (d : Nat) (x : Bool) : (g.setFull d x).v = g.v := by
  rw [Group.setFull_frame]
@[simp] theorem Group.setFull_s (g : Group) (d : Nat) (x : Bool) : (g.setFull d x).s = g.s := by
  rw [Group.setFull_frame]
@[simp] theorem Group.setFull_o (g : Group) (d : Nat) (x : Bool) : (g.setFull d x).o = g.o := by
  rw [Group.setFull_frame]
@[simp] theorem Group.setFull_q (g : Group) (d : Nat) (x : Bool) : (g.setFull d x).q = g.q := by
  rw [Group.setFull_frame]
@[simp] theorem Group.setFull_p (g : Group) (d : Nat) (x : Bool) : (g.setFull d x).p = g.p := by
  rw [Group.setFull_frame]
@[simp] theorem Group.setFull_b (g : Group) (d : Nat) (x : Bool) : (g.setFull d x).b = g.b := by
  rw [Group.setFull_frame]
@[simp] theorem Group.setFull_bPend (g : Group) (d : Nat) (x : Bool) : (g.setFull d x).bPend = g.bPend := by
  rw [Group.setFull_frame]
@[simp] theorem Group.setFull_d (g : Group) (d : Nat) (x : Bool) : (g.setFull d x).d = g.d := by
  rw [Group.setFull_frame]
@[simp] theorem Group.setFull_h (g : Group) (d : Nat) (x : Bool) : (g.setFull d x).h = g.h := by
  rw [Group.setFull_frame]
@[simp] theorem Group.setFull_arithFlags (g : Group) (d : Nat) (x : Bool) : (g.setFull d x).arithFlags = g.arithFlags := by
  rw [Group.setFull_frame]
@[simp] theorem Group.setFull_counters (g : Group) (d : Nat) (x : Bool) : (g.setFull d x).counters = g.counters := by
  rw [Group.setFull_frame]
@[simp] theorem Group.setFull_snaps (g : Group) (d : Nat) (x : Bool) : (g.setFull d x).snaps = g.snaps := by
  rw [Group.setFull_frame]
@[simp] theorem Group.setFull_trapCause (g : Group) (d : Nat) (x : Bool) : (g.setFull d x).trapCause = g.trapCause := by
  rw [Group.setFull_frame]
@[simp] theorem Group.setFull_trapPc (g : Group) (d : Nat) (x : Bool) : (g.setFull d x).trapPc = g.trapPc := by
  rw [Group.setFull_frame]
@[simp] theorem Group.setFull_trapMask (g : Group) (d : Nat) (x : Bool) : (g.setFull d x).trapMask = g.trapMask := by
  rw [Group.setFull_frame]
@[simp] theorem Group.setFull_doneMask (g : Group) (d : Nat) (x : Bool) : (g.setFull d x).doneMask = g.doneMask := by
  rw [Group.setFull_frame]
@[simp] theorem Group.setFull_pre (g : Group) (d : Nat) (x : Bool) : (g.setFull d x).pre = g.pre := by
  rw [Group.setFull_frame]
@[simp] theorem Group.setFull_reports (g : Group) (d : Nat) (x : Bool) : (g.setFull d x).reports = g.reports := by
  rw [Group.setFull_frame]
@[simp] theorem Group.setFull_curReport (g : Group) (d : Nat) (x : Bool) : (g.setFull d x).curReport = g.curReport := by
  rw [Group.setFull_frame]
@[simp] theorem Group.setFull_launched (g : Group) (d : Nat) (x : Bool) : (g.setFull d x).launched = g.launched := by
  rw [Group.setFull_frame]
@[simp] theorem Group.setFull_exited (g : Group) (d : Nat) (x : Bool) : (g.setFull d x).exited = g.exited := by
  rw [Group.setFull_frame]
@[simp] theorem Group.setFull_nextAge (g : Group) (d : Nat) (x : Bool) : (g.setFull d x).nextAge = g.nextAge := by
  rw [Group.setFull_frame]
@[simp] theorem Group.setFull_stopped (g : Group) (d : Nat) (x : Bool) : (g.setFull d x).stopped = g.stopped := by
  rw [Group.setFull_frame]
@[simp] theorem Group.setFull_sp (g : Group) (d : Nat) (x : Bool) : (g.setFull d x).sp = g.sp := by
  rw [Group.setFull_frame]
@[simp] theorem Group.setFull_rest (g : Group) (d : Nat) (x : Bool) : (g.setFull d x).rest = g.rest := by
  rw [Group.setFull_frame]

/-- Marking several registers changes the full bits alone. -/
theorem Group.setFulls_frame (g : Group) (d : Nat) (l : List Nat) (x : Bool) :
    g.setFulls d l x = { g with feV := (g.setFulls d l x).feV, feO := (g.setFulls d l x).feO, feS := (g.setFulls d l x).feS } := by
  unfold Group.setFulls
  split
  · rfl
  · induction l generalizing g with
    | nil => rfl
    | cons k r ih => rw [List.foldl_cons, ih, Group.setFull_frame]
@[simp] theorem Group.setFulls_sp (g : Group) (d : Nat) (l : List Nat) (x : Bool) : (g.setFulls d l x).sp = g.sp := by
  rw [Group.setFulls_frame]

end Sys2Proof.Machine
end

