-- ==== Sys2Proof/Laws/Ops.lean ====
section
/-! SUPPORT. What the shared operations do, said once: the checks at issue, the frames of lane
instructions, taking a trap, and reading a register behind a write. -/

namespace Sys2Proof.Machine

/-! ### The checks at issue -/

theorem State.issues.encoding_good {s : State} {i : Instr} (h : s.issues i) : s.encodingBad i = false := by
  have := h.window
  simp only [State.encodingBad, h.legal, h.modifier]
  rcases this with h1 | h1 <;> simp [h1]

theorem State.issues.not_blocked {s : State} {i : Instr} (h : s.issues i) : s.blocksOn i = false := by
  simp only [State.blocksOn, Bool.or_eq_false_iff, List.any_eq_false]
  refine ⟨fun u hu => by simp [h.full u hu], ?_⟩
  split
  · rfl
  · rename_i n hn; exact h.records n hn

theorem State.issues.no_trap {s : State} {i : Instr} (h : s.issues i) : s.trapsOn i = none := by
  simp only [State.trapsOn, List.findSome?_eq_none_iff]
  intro u hu
  simp [h.full u hu]

/-- An instruction that issues passes every check. -/
theorem State.issues.gate_go {s : State} {i : Instr} (h : s.issues i) : gate i s = .go := by
  have ho : ((uses i).all fun u => u.ok s.regLimit) = true := List.all_eq_true.2 h.operands
  simp [gate, h.encoding_good, ho, h.predicates, h.named, h.mode, h.not_blocked, h.no_trap]

/-- An instruction that issues runs its body. -/
theorem State.issues.run_eq {s : State} {i : Instr} (h : s.issues i) (body : State → Out) : run i s body = body s := by
  simp [run, h.lanes, h.gate_go]

/-- An instruction that always completes acts, and the split moves past it. -/
theorem State.issues.complete_eq {s : State} {i : Instr} (h : s.issues i) (eff : State → State) :
    Machine.complete i s eff = .next ((eff s).finish i) := by simp [Machine.complete, h.run_eq]

/-- A lane operation that issues. -/
theorem State.issues.laneOp_eq {s : State} {i : Instr} (h : s.issues i) (d : Nat) (f : State → Lane → Word × BitVec 6) :
    laneOp i s d f = .next (s.laneResult i d (f s)) := by
  simp [laneOp, h.complete_eq, State.laneResult, State.raised]

/-- A lane operation of 64 bits that issues. -/
theorem State.issues.laneOp64_eq {s : State} {i : Instr} (h : s.issues i) (d : Nat)
    (f : State → Lane → BitVec 64 × BitVec 6) : laneOp64 i s d f = .next (s.laneResult64 i d (f s)) := by
  simp [laneOp64, h.complete_eq, State.laneResult64, State.raised]

/-- A compare that issues. -/
theorem State.issues.compareOp_eq {s : State} {i : Instr} (h : s.issues i) (p : BitVec 3)
    (f : State → Lane → Bool × BitVec 6) : compareOp i s p f = .next (s.compared i p.toNat (f s)) := by
  simp [compareOp, h.complete_eq, State.compared, State.raised]

/-- A lane memory instruction that issues runs its issue body. -/
theorem State.issues.laneMemory_eq {s : State} {i : Instr} (h : s.issues i) (li : LaneInstr) :
    laneMemory i s li = issueBody i li s := by simp [laneMemory, h.run_eq]

/-- A re-issue for no lane goes past the instruction (R384). -/
theorem run_noLane {s : State} {i : Instr} (h : s.noLane = true) (body : State → Out) :
    run i s body = .next (s.finish i) := by simp [run, h]

/-- Whatever an instruction's body does, an instruction answers what its body answers, takes a trap, waits, or
goes past itself for no lane. -/
theorem run_cases (i : Instr) (s : State) (body : State → Out) :
    run i s body = body s ∨ run i s body = .next (s.finish i) ∨ (∃ f, run i s body = .next (s.takeTrap f)) ∨
      run i s body = .next (s.park (s.registerWait i)) := by
  unfold run
  split
  · exact .inr (.inl rfl)
  · split
    · exact .inl rfl
    · exact .inr (.inr (.inl ⟨_, rfl⟩))
    · exact .inr (.inr (.inr rfl))

/-! ### Frames of lane instructions -/

/-- A lane result differs from the machine before in its group's registers, q file, flags and split alone. -/
theorem State.laneResult_laneOnly (s : State) (i : Instr) (d : Nat) (f : Lane → Word × BitVec 6) :
    s.laneOnly (s.laneResult i d f) := by
  refine ⟨rfl, ?_⟩
  simp only [State.laneResult, State.finish_g, State.modG_g, Group.flag, Group.put, Group.shiftQ]
  rw [Group.writeReg_frame]

theorem Group.writeWord_frame (g : Group) (d k : Nat) (m : Mask) (f : Lane → Word) :
    g.writeWord d k m f = { g with v := (g.writeWord d k m f).v, s := (g.writeWord d k m f).s,
                                   o := (g.writeWord d k m f).o, h := (g.writeWord d k m f).h } := by
  unfold Group.writeWord
  split
  · rfl
  · exact Group.writeReg_frame _ _ _ _

theorem State.laneResult64_laneOnly (s : State) (i : Instr) (d : Nat) (f : Lane → BitVec 64 × BitVec 6) :
    s.laneOnly (s.laneResult64 i d f) := by
  refine ⟨rfl, ?_⟩
  simp only [State.laneResult64, State.finish_g, State.modG_g, Group.flag, Group.put64, Group.shiftQ]
  rw [Group.writeWord_frame (g := Group.writeWord _ _ _ _ _), Group.writeWord_frame]

theorem State.compared_laneOnly (s : State) (i : Instr) (d : Nat) (f : Lane → Bool × BitVec 6) :
    s.laneOnly (s.compared i d f) := ⟨rfl, rfl⟩

/-- A machine that differs in the issuing group's registers alone has the same memory. -/
theorem State.laneOnly.sameMemory {s t : State} (h : s.laneOnly t) : s.sameMemory t := by
  have h1 := h.1
  refine ⟨fun a => ?_, fun a => ?_, fun c a => ?_, ?_⟩ <;> rw [h1] <;> rfl

/-! ### Reading behind a write -/

theorem vget_vset {α : Type} {n : Nat} (v : Vector α n) (i j : Nat) (x d : α) :
    vget (vset v i x) j d = if j = i ∧ j < n then x else vget v j d := by
  simp only [vget, vset]
  by_cases hj : j < n
  · by_cases hij : i = j
    · subst hij; simp [hj]
    · have : ¬ j = i := fun h => hij h.symm
      simp [hj, this, hij]
  · simp [hj]

theorem Row.update_get (r : Row) (m : Mask) (f : Lane → Word) (l : Lane) :
    (r.update m f)[l] = if laneIn m l then f l else r[l] := by
  simp [Row.update]

/-! ### Issuing a lane access -/

/-- Lookups that all find their places leave the machine as it is, whatever lines were walked before. -/
theorem lookLines_eq (look : State → Lane → (LaneRes × Nat) × State) (s : State) (tgt : Lane → Target) (va : Lane → Nat)
    (ls : List Lane) : ∀ seen, (∀ l ∈ ls, look s l = ((.ok (tgt l), va l), s)) →
    lookLines look seen ls s = (ls.map fun l => { lane := l, res := .ok (tgt l), va := va l }, s) := by
  induction ls with
  | nil => intro _ _; rfl
  | cons l r ih =>
    intro seen h
    simp only [lookLines, h l List.mem_cons_self, ite_self, ih _ fun x hx => h x (List.mem_cons_of_mem _ hx), List.map_cons]

/-- Lookups that all find their places leave the machine as it is. -/
theorem lookLanes_eq (look : State → Lane → (LaneRes × Nat) × State) (s : State) (tgt : Lane → Target) (va : Lane → Nat)
    (ls : List Lane) (h : ∀ l ∈ ls, look s l = ((.ok (tgt l), va l), s)) :
    lookLanes look ls s = (ls.map fun l => { lane := l, res := .ok (tgt l), va := va l }, s) :=
  lookLines_eq look s tgt va ls [] h

/-- A lane is among the lanes of a mask when its bit is set. -/
theorem mem_lanesOf (m : Mask) (l : Lane) : l ∈ lanesOf m ↔ laneIn m l = true := by
  simp [lanesOf, lanes]

/-- A mask with a lane names one. -/
theorem lanesOf_ne_nil (m : Mask) (h : m ≠ 0) : lanesOf m ≠ [] := by
  intro hn; apply h; apply BitVec.eq_of_getLsbD_eq; intro i hi
  have : ⟨i, hi⟩ ∉ lanesOf m := by simp [hn]
  rw [mem_lanesOf] at this
  simpa [laneIn] using this

/-- The snapshot capacity refuses no lane while it has room. -/
theorem snapLimit_eq (g : Group) (p : List (Nat × Nat)) (tgt : Lane → Target) (va : Lane → Nat) (ls : List Lane) :
    ∀ free, ls.length ≤ free →
    snapLimit g p free (ls.map fun l => { lane := l, res := .ok (tgt l), va := va l }) =
      ls.map fun l => { lane := l, res := .ok (tgt l), va := va l } := by
  induction ls with
  | nil => intro free _; rfl
  | cons l r ih =>
    intro free hf
    simp only [List.length_cons] at hf
    simp only [List.map_cons, snapLimit]
    cases tgt l with
    | dev pa =>
      simp only []
      split
      · rw [ih _ (by omega)]
      · rw [if_neg (by omega), ih _ (by omega)]
    | _ => simp only []; rw [ih _ (by omega)]

/-- A filter that answers nothing leaves nothing. -/
theorem filterMap_nothing {α β : Type} (l : List α) : l.filterMap (fun _ => (none : Option β)) = [] :=
  List.filterMap_eq_nil_iff.2 fun _ _ => rfl

/-- A lane access whose lookups all find their places is issued (R54, R72). -/
theorem issueBody_issued {s : State} {i : Instr} (li : LaneInstr) (tgt : Lane → Target × Nat)
    (hsz : i.size = 4) (hl : LooksUp s (li.look s) tgt) (hs : li.stuck s = none)
    (hr : li.acc.snaps = true → s.g.snaps.length + (s.snapsPending s.g).length + popcount s.act ≤ 64) :
    issueBody i li s = .next (issued s li.acc li.dst li.words (li.index s.g) (li.v s.g) (li.c s.g) tgt) := by
  obtain ⟨h0, hx⟩ := hl
  have hne := lanesOf_ne_nil _ h0
  have hlk : ∀ l ∈ lanesOf s.act, li.look s l = ((.ok (tgt l).1, (tgt l).2), s) := fun l hl => hx l ((mem_lanesOf _ _).1 hl)
  have ho : outcomes li s = ((lanesOf s.act).map fun l => { lane := l, res := .ok (tgt l).1, va := (tgt l).2 }, s) := by
    have hp : (lanesOf s.act).length = popcount s.act := rfl
    have hc : Config.snapEntries = 64 := rfl
    unfold outcomes
    simp only [lookLanes_eq _ _ (fun l => (tgt l).1) (fun l => (tgt l).2) _ hlk]
    split
    · rename_i he; have := hr he; rw [snapLimit_eq _ _ (fun l => (tgt l).1) (fun l => (tgt l).2) _ _ (by omega)]
    · rfl
  have hw : worst ((lanesOf s.act).map fun l => ({ lane := l, res := .ok (tgt l).1, va := (tgt l).2 } : LaneOut)) = none := by
    unfold worst; rw [List.filterMap_map, List.filterMap_eq_nil_iff.2 (by intro a _; rfl)]; rfl
  simp only [issueBody, h0, hs, ho, hw, if_false, List.filterMap_map, List.any_map, Function.comp_def]
  simp [filterMap_nothing, enterPantry, hne, State.markEmpty, State.addFlight, issued, State.finish, State.modSp, State.modG, State.movedTo, Split.finish, hsz]

/-- A leaf of reach 0 inside the partition's window is checked without a change of the machine. -/
theorem checkLeaf_window (s : State) (core part va : Nat) (e : TlbEntry) (w f posted : Bool) (hr : e.reach = 0)
    (hw : s.inWindow part e.pa = true) : (s.checkLeaf core part va e w f posted).2 = s := by
  simp only [State.checkLeaf, hr, hw, if_true]
  split
  · rfl
  · split <;> rfl

/-- With no line whose poison nothing has reported, reaching a place posts nothing. -/
theorem revealAt_none (s : State) (t : Target) (hh : s.hushed = []) : s.revealAt t = s := by
  cases t <;> simp [State.revealAt, hh]

/-- A lane's translation that hits the core's TLB with such a leaf leaves the machine as it is, whatever it answers, when
no poison waits to be reported. -/
theorem laneTranslate_hit (s : State) (g : Group) (a : Access) (ro : Bool) (va : Nat) (e : TlbEntry)
    (ht : ((s.coreAt g.core).tlb.find? fun e => e.covers (s.partOf g) va) = some e) (hr : e.reach = 0)
    (hw : s.inWindow (s.partOf g) e.pa = true) (hh : s.hushed = []) : (s.laneTranslate g a ro va).2 = s := by
  have hl : ∀ w f d, s.lookup g.core (s.partOf g) va w f d = (.leaf e, s) := by
    intro w f d
    simp only [State.lookup, ht]
  have hc := fun w p => checkLeaf_window s g.core (s.partOf g) va e w false p hr hw
  unfold State.laneTranslate
  simp only [hl, ite_self]
  split
  · rfl
  · repeat' split
    all_goals first | rfl | (rename_i h; have := congrArg Prod.snd h; simp only [hc] at this; subst this; first | rfl | exact revealAt_none s _ hh)

/-- An engine's access that hits such a leaf leaves the machine as it is. -/
theorem engineReach_hit (s : State) (r : EngReq) (va : Nat) (w : Bool) (e : TlbEntry)
    (ht : ((s.coreAt r.core).tlb.find? fun e => e.covers r.part va) = some e) (hr : e.reach = 0)
    (hw : s.inWindow r.part e.pa = true) (hh : s.hushed = []) : (s.engineReach r va w).2 = s := by
  have hc : (s.translate r.core r.part va w false w (s.reqDomain r)).2 = s := by
    simp only [State.translate, State.lookup, ht, checkLeaf_window s r.core r.part va e w false w hr hw]
  unfold State.engineReach
  split <;> (rename_i h; have := congrArg Prod.snd h; simp only [hc] at this; subst this; first | rfl | exact revealAt_none s _ hh)

/-- So does an access through a record. -/
theorem laneRecord_hit (s : State) (g : Group) (a : Access) (r : BitVec 128) (i w : Nat) (e : TlbEntry)
    (ht : ((s.coreAt g.core).tlb.find? fun e => e.covers (s.partOf g) (recordEa r i)) = some e) (hr : e.reach = 0)
    (hw : s.inWindow (s.partOf g) e.pa = true) (hh : s.hushed = []) : (s.laneRecord g a r i w).2 = s := by
  have h := fun ro => laneTranslate_hit s g a ro (recordEa r i) e ht hr hw hh
  simp only [State.laneRecord]
  repeat' split
  all_goals first | rfl | exact h _

/-- So does an access to a lane's own words. -/
theorem laneOwn_hit (s : State) (g : Group) (a : Access) (l : Lane) (w : Nat) (e : TlbEntry)
    (ht : ((s.coreAt g.core).tlb.find? fun e => e.covers (s.partOf g) (s.ownWordAt g l w)) = some e) (hr : e.reach = 0)
    (hw : s.inWindow (s.partOf g) e.pa = true) (hh : s.hushed = []) : (s.laneOwn g a l w).2 = s := by
  have h := laneTranslate_hit s g a false (s.ownWordAt g l w) e ht hr hw hh
  simp only [State.laneOwn]
  repeat' split
  all_goals first | rfl | exact h

end Sys2Proof.Machine
end

