-- ==== Sys2Proof/Laws/Exec.lean ====
section
/-! SUPPORT. Every encoded instruction acts behind the checks at issue: its meaning is a body under run. -/

namespace Sys2Proof.Machine

/-- Every encoded instruction but XM runs a body behind the checks at issue. -/
theorem exec_run (i : Instr) (s : State) (henc : encoded i) (hx : ∀ a b c e f g h k, i ≠ .xm a b c e f g h k) :
    ∃ body, exec i s = run i s body := by
  cases i with
  | iadd b a d => change ∃ body, execIadd b a d s = _; unfold execIadd bin laneOp Machine.complete; exact ⟨_, rfl⟩
  | isub b a d => change ∃ body, execIsub b a d s = _; unfold execIsub bin laneOp Machine.complete; exact ⟨_, rfl⟩
  | imul b a d => change ∃ body, execImul b a d s = _; unfold execImul bin laneOp Machine.complete; exact ⟨_, rfl⟩
  | imulhS b a d => change ∃ body, execImulhS b a d s = _; unfold execImulhS bin laneOp Machine.complete; exact ⟨_, rfl⟩
  | imulhU b a d => change ∃ body, execImulhU b a d s = _; unfold execImulhU bin laneOp Machine.complete; exact ⟨_, rfl⟩
  | imad b a d => change ∃ body, execImad b a d s = _; unfold execImad tern laneOp Machine.complete; exact ⟨_, rfl⟩
  | iaddc b a d => change ∃ body, execIaddc b a d s = _; unfold execIaddc carryOp Machine.complete; exact ⟨_, rfl⟩
  | isubb b a d => change ∃ body, execIsubb b a d s = _; unfold execIsubb carryOp Machine.complete; exact ⟨_, rfl⟩
  | and b a d => change ∃ body, execAnd b a d s = _; unfold execAnd bin laneOp Machine.complete; exact ⟨_, rfl⟩
  | or b a d => change ∃ body, execOr b a d s = _; unfold execOr bin laneOp Machine.complete; exact ⟨_, rfl⟩
  | xor b a d => change ∃ body, execXor b a d s = _; unfold execXor bin laneOp Machine.complete; exact ⟨_, rfl⟩
  | andn b a d => change ∃ body, execAndn b a d s = _; unfold execAndn bin laneOp Machine.complete; exact ⟨_, rfl⟩
  | shl b a d => change ∃ body, execShl b a d s = _; unfold execShl bin laneOp Machine.complete; exact ⟨_, rfl⟩
  | shr b a d => change ∃ body, execShr b a d s = _; unfold execShr bin laneOp Machine.complete; exact ⟨_, rfl⟩
  | sar b a d => change ∃ body, execSar b a d s = _; unfold execSar bin laneOp Machine.complete; exact ⟨_, rfl⟩
  | rotl b a d => change ∃ body, execRotl b a d s = _; unfold execRotl bin laneOp Machine.complete; exact ⟨_, rfl⟩
  | iminS b a d => change ∃ body, execIminS b a d s = _; unfold execIminS bin laneOp Machine.complete; exact ⟨_, rfl⟩
  | imaxS b a d => change ∃ body, execImaxS b a d s = _; unfold execImaxS bin laneOp Machine.complete; exact ⟨_, rfl⟩
  | iminU b a d => change ∃ body, execIminU b a d s = _; unfold execIminU bin laneOp Machine.complete; exact ⟨_, rfl⟩
  | imaxU b a d => change ∃ body, execImaxU b a d s = _; unfold execImaxU bin laneOp Machine.complete; exact ⟨_, rfl⟩
  | popc a d => change ∃ body, execPopc a d s = _; unfold execPopc una laneOp Machine.complete; exact ⟨_, rfl⟩
  | clz a d => change ∃ body, execClz a d s = _; unfold execClz una laneOp Machine.complete; exact ⟨_, rfl⟩
  | brev a d => change ∃ body, execBrev a d s = _; unfold execBrev una laneOp Machine.complete; exact ⟨_, rfl⟩
  | iabs a d => change ∃ body, execIabs a d s = _; unfold execIabs una laneOp Machine.complete; exact ⟨_, rfl⟩
  | bfxU b a d => change ∃ body, execBfxU b a d s = _; unfold execBfxU bin laneOp Machine.complete; exact ⟨_, rfl⟩
  | bfxS b a d => change ∃ body, execBfxS b a d s = _; unfold execBfxS bin laneOp Machine.complete; exact ⟨_, rfl⟩
  | bfi b a d => change ∃ body, execBfi b a d s = _; unfold execBfi tern laneOp Machine.complete; exact ⟨_, rfl⟩
  | bshuf b a d => change ∃ body, execBshuf b a d s = _; unfold execBshuf tern laneOp Machine.complete; exact ⟨_, rfl⟩
  | shld b a d => change ∃ body, execShld b a d s = _; unfold execShld tern laneOp Machine.complete; exact ⟨_, rfl⟩
  | shrd b a d => change ∃ body, execShrd b a d s = _; unfold execShrd tern laneOp Machine.complete; exact ⟨_, rfl⟩
  | iaddi im a d => change ∃ body, execIaddi im a d s = _; unfold execIaddi una laneOp Machine.complete; exact ⟨_, rfl⟩
  | andi im a d => change ∃ body, execAndi im a d s = _; unfold execAndi una laneOp Machine.complete; exact ⟨_, rfl⟩
  | ori im a d => change ∃ body, execOri im a d s = _; unfold execOri una laneOp Machine.complete; exact ⟨_, rfl⟩
  | xori im a d => change ∃ body, execXori im a d s = _; unfold execXori una laneOp Machine.complete; exact ⟨_, rfl⟩
  | shli im a d => change ∃ body, execShli im a d s = _; unfold execShli una laneOp Machine.complete; exact ⟨_, rfl⟩
  | shri im a d => change ∃ body, execShri im a d s = _; unfold execShri una laneOp Machine.complete; exact ⟨_, rfl⟩
  | sari im a d => change ∃ body, execSari im a d s = _; unfold execSari una laneOp Machine.complete; exact ⟨_, rfl⟩
  | imuli im a d => change ∃ body, execImuli im a d s = _; unfold execImuli una laneOp Machine.complete; exact ⟨_, rfl⟩
  | fadd b a d => change ∃ body, execFadd b a d s = _; unfold execFadd single laneOp Machine.complete; exact ⟨_, rfl⟩
  | fsub b a d => change ∃ body, execFsub b a d s = _; unfold execFsub single laneOp Machine.complete; exact ⟨_, rfl⟩
  | fmul b a d => change ∃ body, execFmul b a d s = _; unfold execFmul single laneOp Machine.complete; exact ⟨_, rfl⟩
  | ffma b a d => change ∃ body, execFfma b a d s = _; unfold execFfma single laneOp Machine.complete; exact ⟨_, rfl⟩
  | ffms b a d => change ∃ body, execFfms b a d s = _; unfold execFfms single laneOp Machine.complete; exact ⟨_, rfl⟩
  | fmin b a d => change ∃ body, execFmin b a d s = _; unfold execFmin single laneOp Machine.complete; exact ⟨_, rfl⟩
  | fmax b a d => change ∃ body, execFmax b a d s = _; unfold execFmax single laneOp Machine.complete; exact ⟨_, rfl⟩
  | fnma b a d => change ∃ body, execFnma b a d s = _; unfold execFnma single laneOp Machine.complete; exact ⟨_, rfl⟩
  | dadd b a d => change ∃ body, execDadd b a d s = _; unfold execDadd double laneOp64 Machine.complete; exact ⟨_, rfl⟩
  | dsub b a d => change ∃ body, execDsub b a d s = _; unfold execDsub double laneOp64 Machine.complete; exact ⟨_, rfl⟩
  | dmul b a d => change ∃ body, execDmul b a d s = _; unfold execDmul double laneOp64 Machine.complete; exact ⟨_, rfl⟩
  | dfma b a d => change ∃ body, execDfma b a d s = _; unfold execDfma double laneOp64 Machine.complete; exact ⟨_, rfl⟩
  | dfms b a d => change ∃ body, execDfms b a d s = _; unfold execDfms double laneOp64 Machine.complete; exact ⟨_, rfl⟩
  | dmin b a d => change ∃ body, execDmin b a d s = _; unfold execDmin double laneOp64 Machine.complete; exact ⟨_, rfl⟩
  | dmax b a d => change ∃ body, execDmax b a d s = _; unfold execDmax double laneOp64 Machine.complete; exact ⟨_, rfl⟩
  | dnma b a d => change ∃ body, execDnma b a d s = _; unfold execDnma double laneOp64 Machine.complete; exact ⟨_, rfl⟩
  | hadd2F16 b a d => change ∃ body, execHadd2F16 b a d s = _; unfold execHadd2F16 packed laneOp Machine.complete; exact ⟨_, rfl⟩
  | hmul2F16 b a d => change ∃ body, execHmul2F16 b a d s = _; unfold execHmul2F16 packed laneOp Machine.complete; exact ⟨_, rfl⟩
  | hfma2F16 b a d => change ∃ body, execHfma2F16 b a d s = _; unfold execHfma2F16 packed laneOp Machine.complete; exact ⟨_, rfl⟩
  | hmin2F16 b a d => change ∃ body, execHmin2F16 b a d s = _; unfold execHmin2F16 packed laneOp Machine.complete; exact ⟨_, rfl⟩
  | hadd2Bf16 b a d => change ∃ body, execHadd2Bf16 b a d s = _; unfold execHadd2Bf16 packed laneOp Machine.complete; exact ⟨_, rfl⟩
  | hmul2Bf16 b a d => change ∃ body, execHmul2Bf16 b a d s = _; unfold execHmul2Bf16 packed laneOp Machine.complete; exact ⟨_, rfl⟩
  | hfma2Bf16 b a d => change ∃ body, execHfma2Bf16 b a d s = _; unfold execHfma2Bf16 packed laneOp Machine.complete; exact ⟨_, rfl⟩
  | hmin2Bf16 b a d => change ∃ body, execHmin2Bf16 b a d s = _; unfold execHmin2Bf16 packed laneOp Machine.complete; exact ⟨_, rfl⟩
  | frcp a d => change ∃ body, execFrcp a d s = _; unfold execFrcp special laneOp Machine.complete; exact ⟨_, rfl⟩
  | frsq a d => change ∃ body, execFrsq a d s = _; unfold execFrsq special laneOp Machine.complete; exact ⟨_, rfl⟩
  | fsqrt a d => change ∃ body, execFsqrt a d s = _; unfold execFsqrt special laneOp Machine.complete; exact ⟨_, rfl⟩
  | fex2 a d => change ∃ body, execFex2 a d s = _; unfold execFex2 special laneOp Machine.complete; exact ⟨_, rfl⟩
  | flg2 a d => change ∃ body, execFlg2 a d s = _; unfold execFlg2 special laneOp Machine.complete; exact ⟨_, rfl⟩
  | fsinr a d => change ∃ body, execFsinr a d s = _; unfold execFsinr special laneOp Machine.complete; exact ⟨_, rfl⟩
  | fcosr a d => change ∃ body, execFcosr a d s = _; unfold execFcosr special laneOp Machine.complete; exact ⟨_, rfl⟩
  | dsqrt a d => change ∃ body, execDsqrt a d s = _; unfold execDsqrt laneOp64 Machine.complete; exact ⟨_, rfl⟩
  | icmpS b a c p => change ∃ body, execIcmpS b a c p s = _; unfold execIcmpS compareOp Machine.complete; exact ⟨_, rfl⟩
  | icmpU b a c p => change ∃ body, execIcmpU b a c p s = _; unfold execIcmpU compareOp Machine.complete; exact ⟨_, rfl⟩
  | fcmp b a c p => change ∃ body, execFcmp b a c p s = _; unfold execFcmp compareOp Machine.complete; exact ⟨_, rfl⟩
  | dcmp b a c p => change ∃ body, execDcmp b a c p s = _; unfold execDcmp compareOp Machine.complete; exact ⟨_, rfl⟩
  | hcmp2F16 b a c p => change ∃ body, execHcmp2F16 b a c p s = _; unfold execHcmp2F16 comparePacked Machine.complete; exact ⟨_, rfl⟩
  | hcmp2Bf16 b a c p => change ∃ body, execHcmp2Bf16 b a c p s = _; unfold execHcmp2Bf16 comparePacked Machine.complete; exact ⟨_, rfl⟩
  | plop l b a d => change ∃ body, execPlop l b a d s = _; unfold execPlop Machine.complete; exact ⟨_, rfl⟩
  | sel p b a d => change ∃ body, execSel p b a d s = _; unfold execSel laneOp Machine.complete; exact ⟨_, rfl⟩
  | cvt m t sx e a d =>
    change ∃ body, execCvt m t sx e a d s = _
    by_cases hc : cvtWords e.toNat = 2
    · simp only [execCvt, if_pos hc, laneOp64, Machine.complete]; exact ⟨_, rfl⟩
    · simp only [execCvt, if_neg hc, laneOp, Machine.complete]; exact ⟨_, rfl⟩
  | shflIdx b a d => change ∃ body, execShflIdx b a d s = _; unfold execShflIdx shuffle laneOp Machine.complete; exact ⟨_, rfl⟩
  | shflUp b a d => change ∃ body, execShflUp b a d s = _; unfold execShflUp shuffle laneOp Machine.complete; exact ⟨_, rfl⟩
  | shflDn b a d => change ∃ body, execShflDn b a d s = _; unfold execShflDn shuffle laneOp Machine.complete; exact ⟨_, rfl⟩
  | shflXor b a d => change ∃ body, execShflXor b a d s = _; unfold execShflXor shuffle laneOp Machine.complete; exact ⟨_, rfl⟩
  | voteAny sx p d => change ∃ body, execVoteAny sx p d s = _; unfold execVoteAny vote laneOp Machine.complete; exact ⟨_, rfl⟩
  | voteAll sx p d => change ∃ body, execVoteAll sx p d s = _; unfold execVoteAll vote laneOp Machine.complete; exact ⟨_, rfl⟩
  | ballot sx p d => change ∃ body, execBallot sx p d s = _; unfold execBallot vote laneOp Machine.complete; exact ⟨_, rfl⟩
  | matchL a d => change ∃ body, execMatchL a d s = _; unfold execMatchL laneOp Machine.complete; exact ⟨_, rfl⟩
  | rdaddF32 a d => change ∃ body, execRdaddF32 a d s = _; unfold execRdaddF32 reduce32 Machine.complete; exact ⟨_, rfl⟩
  | rdaddF64 a d => change ∃ body, execRdaddF64 a d s = _; unfold execRdaddF64 Machine.complete; exact ⟨_, rfl⟩
  | rdaddI32 a d => change ∃ body, execRdaddI32 a d s = _; unfold execRdaddI32 reduce32 Machine.complete; exact ⟨_, rfl⟩
  | rdminF32 a d => change ∃ body, execRdminF32 a d s = _; unfold execRdminF32 reduce32 Machine.complete; exact ⟨_, rfl⟩
  | rdmaxF32 a d => change ∃ body, execRdmaxF32 a d s = _; unfold execRdmaxF32 reduce32 Machine.complete; exact ⟨_, rfl⟩
  | rdminI32 a d => change ∃ body, execRdminI32 a d s = _; unfold execRdminI32 reduce32 Machine.complete; exact ⟨_, rfl⟩
  | rdmaxI32 a d => change ∃ body, execRdmaxI32 a d s = _; unfold execRdmaxI32 reduce32 Machine.complete; exact ⟨_, rfl⟩
  | scanI32 e a d => change ∃ body, execScanI32 e a d s = _; unfold execScanI32 laneOp Machine.complete; exact ⟨_, rfl⟩
  | ldk im d => change ∃ body, execLdk im d s = _; unfold execLdk laneOp Machine.complete; exact ⟨_, rfl⟩
  | ldkh im d => change ∃ body, execLdkh im d s = _; unfold execLdkh laneOp Machine.complete; exact ⟨_, rfl⟩
  | ldB h x r d => change ∃ body, execLdB h x r d s = _; unfold execLdB loadRec; exact ⟨_, rfl⟩
  | ldBs h x r d => change ∃ body, execLdBs h x r d s = _; unfold execLdBs loadRec; exact ⟨_, rfl⟩
  | ldH h x r d => change ∃ body, execLdH h x r d s = _; unfold execLdH loadRec; exact ⟨_, rfl⟩
  | ldHs h x r d => change ∃ body, execLdHs h x r d s = _; unfold execLdHs loadRec; exact ⟨_, rfl⟩
  | ldW h x r d => change ∃ body, execLdW h x r d s = _; unfold execLdW loadRec; exact ⟨_, rfl⟩
  | ldD h x r d => change ∃ body, execLdD h x r d s = _; unfold execLdD loadRec; exact ⟨_, rfl⟩
  | ldQ h x r d => change ∃ body, execLdQ h x r d s = _; unfold execLdQ loadRec; exact ⟨_, rfl⟩
  | ldpW h x d => change ∃ body, execLdpW h x d s = _; unfold execLdpW ownMem laneMemory; exact ⟨_, rfl⟩
  | stB h x r d => change ∃ body, execStB h x r d s = _; unfold execStB storeRec; exact ⟨_, rfl⟩
  | stH h x r d => change ∃ body, execStH h x r d s = _; unfold execStH storeRec; exact ⟨_, rfl⟩
  | stW h x r d => change ∃ body, execStW h x r d s = _; unfold execStW storeRec; exact ⟨_, rfl⟩
  | stD h x r d => change ∃ body, execStD h x r d s = _; unfold execStD storeRec; exact ⟨_, rfl⟩
  | stQ h x r d => change ∃ body, execStQ h x r d s = _; unfold execStQ storeRec; exact ⟨_, rfl⟩
  | stpW h x d => change ∃ body, execStpW h x d s = _; unfold execStpW ownMem laneMemory; exact ⟨_, rfl⟩
  | pref h x r => change ∃ body, execPref h x r s = _; unfold execPref Machine.complete; exact ⟨_, rfl⟩
  | ldsW x d => change ∃ body, execLdsW x d s = _; unfold execLdsW spmMem; exact ⟨_, rfl⟩
  | ldsD x d => change ∃ body, execLdsD x d s = _; unfold execLdsD spmMem; exact ⟨_, rfl⟩
  | ldsQ x d => change ∃ body, execLdsQ x d s = _; unfold execLdsQ spmMem; exact ⟨_, rfl⟩
  | stsW x d => change ∃ body, execStsW x d s = _; unfold execStsW spmMem; exact ⟨_, rfl⟩
  | stsD x d => change ∃ body, execStsD x d s = _; unfold execStsD spmMem; exact ⟨_, rfl⟩
  | stsQ x d => change ∃ body, execStsQ x d s = _; unfold execStsQ spmMem; exact ⟨_, rfl⟩
  | ldsB x d => change ∃ body, execLdsB x d s = _; unfold execLdsB spmMem; exact ⟨_, rfl⟩
  | stsB x d => change ∃ body, execStsB x d s = _; unfold execStsB spmMem; exact ⟨_, rfl⟩
  | atomAdd sx x r d => change ∃ body, execAtomAdd sx x r d s = _; unfold execAtomAdd atomicOp; exact ⟨_, rfl⟩
  | atomMinS sx x r d => change ∃ body, execAtomMinS sx x r d s = _; unfold execAtomMinS atomicOp; exact ⟨_, rfl⟩
  | atomMaxS sx x r d => change ∃ body, execAtomMaxS sx x r d s = _; unfold execAtomMaxS atomicOp; exact ⟨_, rfl⟩
  | atomAnd sx x r d => change ∃ body, execAtomAnd sx x r d s = _; unfold execAtomAnd atomicOp; exact ⟨_, rfl⟩
  | atomOr sx x r d => change ∃ body, execAtomOr sx x r d s = _; unfold execAtomOr atomicOp; exact ⟨_, rfl⟩
  | atomXor sx x r d => change ∃ body, execAtomXor sx x r d s = _; unfold execAtomXor atomicOp; exact ⟨_, rfl⟩
  | atomExch sx x r d => change ∃ body, execAtomExch sx x r d s = _; unfold execAtomExch atomicOp; exact ⟨_, rfl⟩
  | atomCas sx x r d => change ∃ body, execAtomCas sx x r d s = _; unfold execAtomCas atomicOp; exact ⟨_, rfl⟩
  | redAdd sx x r d => change ∃ body, execRedAdd sx x r d s = _; unfold execRedAdd atomicOp; exact ⟨_, rfl⟩
  | redMinS sx x r d => change ∃ body, execRedMinS sx x r d s = _; unfold execRedMinS atomicOp; exact ⟨_, rfl⟩
  | redMaxS sx x r d => change ∃ body, execRedMaxS sx x r d s = _; unfold execRedMaxS atomicOp; exact ⟨_, rfl⟩
  | redAnd sx x r d => change ∃ body, execRedAnd sx x r d s = _; unfold execRedAnd atomicOp; exact ⟨_, rfl⟩
  | redOr sx x r d => change ∃ body, execRedOr sx x r d s = _; unfold execRedOr atomicOp; exact ⟨_, rfl⟩
  | redXor sx x r d => change ∃ body, execRedXor sx x r d s = _; unfold execRedXor atomicOp; exact ⟨_, rfl⟩
  | redExch sx x r d => change ∃ body, execRedExch sx x r d s = _; unfold execRedExch atomicOp; exact ⟨_, rfl⟩
  | atomAddF32 sx x r d => change ∃ body, execAtomAddF32 sx x r d s = _; unfold execAtomAddF32 atomicOp; exact ⟨_, rfl⟩
  | atomAddD sx x r d => change ∃ body, execAtomAddD sx x r d s = _; unfold execAtomAddD atomicOp; exact ⟨_, rfl⟩
  | atomCasD sx x r d => change ∃ body, execAtomCasD sx x r d s = _; unfold execAtomCasD atomicOp; exact ⟨_, rfl⟩
  | atomExchD sx x r d => change ∃ body, execAtomExchD sx x r d s = _; unfold execAtomExchD atomicOp; exact ⟨_, rfl⟩
  | atomMinU sx x r d => change ∃ body, execAtomMinU sx x r d s = _; unfold execAtomMinU atomicOp; exact ⟨_, rfl⟩
  | atomMaxU sx x r d => change ∃ body, execAtomMaxU sx x r d s = _; unfold execAtomMaxU atomicOp; exact ⟨_, rfl⟩
  | atomIncWrap sx x r d => change ∃ body, execAtomIncWrap sx x r d s = _; unfold execAtomIncWrap atomicOp; exact ⟨_, rfl⟩
  | atomAddF64 sx x r d => change ∃ body, execAtomAddF64 sx x r d s = _; unfold execAtomAddF64 atomicOp; exact ⟨_, rfl⟩
  | redAddF32 sx x r d => change ∃ body, execRedAddF32 sx x r d s = _; unfold execRedAddF32 atomicOp; exact ⟨_, rfl⟩
  | redAddD sx x r d => change ∃ body, execRedAddD sx x r d s = _; unfold execRedAddD atomicOp; exact ⟨_, rfl⟩
  | redExchD sx x r d => change ∃ body, execRedExchD sx x r d s = _; unfold execRedExchD atomicOp; exact ⟨_, rfl⟩
  | redMinU sx x r d => change ∃ body, execRedMinU sx x r d s = _; unfold execRedMinU atomicOp; exact ⟨_, rfl⟩
  | redMaxU sx x r d => change ∃ body, execRedMaxU sx x r d s = _; unfold execRedMaxU atomicOp; exact ⟨_, rfl⟩
  | redIncWrap sx x r d => change ∃ body, execRedIncWrap sx x r d s = _; unfold execRedIncWrap atomicOp; exact ⟨_, rfl⟩
  | redAddF64 sx x r d => change ∃ body, execRedAddF64 sx x r d s = _; unfold execRedAddF64 atomicOp; exact ⟨_, rfl⟩
  | ldv x r d => change ∃ body, execLdv x r d s = _; unfold execLdv versioned laneMemory; exact ⟨_, rfl⟩
  | ldvsW x r d => change ∃ body, execLdvsW x r d s = _; unfold execLdvsW versioned laneMemory; exact ⟨_, rfl⟩
  | ldvsD x r d => change ∃ body, execLdvsD x r d s = _; unfold execLdvsD versioned laneMemory; exact ⟨_, rfl⟩
  | vrd x r d => change ∃ body, execVrd x r d s = _; unfold execVrd versioned laneMemory; exact ⟨_, rfl⟩
  | casvW x r d => change ∃ body, execCasvW x r d s = _; unfold execCasvW casv; exact ⟨_, rfl⟩
  | casvD x r d => change ∃ body, execCasvD x r d s = _; unfold execCasvD casv; exact ⟨_, rfl⟩
  | vchk p => change ∃ body, execVchk p s = _; unfold execVchk; exact ⟨_, rfl⟩
  | waitc c n => change ∃ body, execWaitc c n s = _; unfold execWaitc waitClass; exact ⟨_, rfl⟩
  | sleept a => change ∃ body, execSleept a s = _; unfold execSleept; exact ⟨_, rfl⟩
  | cpoll r a d => change ∃ body, execCpoll r a d s = _; unfold execCpoll; exact ⟨_, rfl⟩
  | cpy b a d => change ∃ body, execCpy b a d s = _; unfold execCpy copyOp requestOp; exact ⟨_, rfl⟩
  | cpy2d b a d => change ∃ body, execCpy2d b a d s = _; unfold execCpy2d copyOp requestOp; exact ⟨_, rfl⟩
  | gath b a d => change ∃ body, execGath b a d s = _; unfold execGath gatherOp requestOp; exact ⟨_, rfl⟩
  | scat b a d => change ∃ body, execScat b a d s = _; unfold execScat gatherOp requestOp; exact ⟨_, rfl⟩
  | abarInit b a => change ∃ body, execAbarInit b a s = _; unfold execAbarInit objectOp; exact ⟨_, rfl⟩
  | abarArv b a d => change ∃ body, execAbarArv b a d s = _; unfold execAbarArv objectOp; exact ⟨_, rfl⟩
  | abarWait b a => change ∃ body, execAbarWait b a s = _; unfold execAbarWait objectOp; exact ⟨_, rfl⟩
  | abarTry b a d => change ∃ body, execAbarTry b a d s = _; unfold execAbarTry objectOp; exact ⟨_, rfl⟩
  | qinit b a => change ∃ body, execQinit b a s = _; unfold execQinit objectOp; exact ⟨_, rfl⟩
  | qpush b a => change ∃ body, execQpush b a s = _; unfold execQpush queueOp objectOp; exact ⟨_, rfl⟩
  | qpop a d => change ∃ body, execQpop a d s = _; unfold execQpop queueOp objectOp; exact ⟨_, rfl⟩
  | qpushTry b a d => change ∃ body, execQpushTry b a d s = _; unfold execQpushTry queueOp objectOp; exact ⟨_, rfl⟩
  | qtpop a d => change ∃ body, execQtpop a d s = _; unfold execQtpop queueOp objectOp; exact ⟨_, rfl⟩
  | qallow b a => change ∃ body, execQallow b a s = _; unfold execQallow queueOp objectOp; exact ⟨_, rfl⟩
  | qclose a => change ∃ body, execQclose a s = _; unfold execQclose queueOp objectOp; exact ⟨_, rfl⟩
  | qstat a d => change ∃ body, execQstat a d s = _; unfold execQstat queueOp objectOp; exact ⟨_, rfl⟩
  | ores b a d => change ∃ body, execOres b a d s = _; unfold execOres; exact ⟨_, rfl⟩
  | orel d => change ∃ body, execOrel d s = _; unfold execOrel; exact ⟨_, rfl⟩
  | allock a d => change ∃ body, execAllock a d s = _; unfold execAllock; exact ⟨_, rfl⟩
  | freek b a => change ∃ body, execFreek b a s = _; unfold execFreek; exact ⟨_, rfl⟩
  | mld a d => change ∃ body, execMld a d s = _; unfold execMld requestOp; exact ⟨_, rfl⟩
  | mlds b a d => change ∃ body, execMlds b a d s = _; unfold execMlds requestOp; exact ⟨_, rfl⟩
  | mlease a => change ∃ body, execMlease a s = _; unfold execMlease; exact ⟨_, rfl⟩
  | mma b a d => change ∃ body, execMma b a d s = _; unfold execMma matrixOp; exact ⟨_, rfl⟩
  | mmap b a d => change ∃ body, execMmap b a d s = _; unfold execMmap matrixOp; exact ⟨_, rfl⟩
  | mzero a => change ∃ body, execMzero a s = _; unfold execMzero requestOp; exact ⟨_, rfl⟩
  | maccr a d => change ∃ body, execMaccr a d s = _; unfold execMaccr; exact ⟨_, rfl⟩
  | maccw b a => change ∃ body, execMaccw b a s = _; unfold execMaccw; exact ⟨_, rfl⟩
  | mst a => change ∃ body, execMst a s = _; unfold execMst requestOp; exact ⟨_, rfl⟩
  | accsave a => change ∃ body, execAccsave a s = _; unfold execAccsave imageOp requestOp; exact ⟨_, rfl⟩
  | accload a => change ∃ body, execAccload a s = _; unfold execAccload imageOp requestOp; exact ⟨_, rfl⟩
  | bra o sx p => change ∃ body, execBra o sx p s = _; unfold execBra uniform; exact ⟨_, rfl⟩
  | brc o sx p => change ∃ body, execBrc o sx p s = _; unfold execBrc; exact ⟨_, rfl⟩
  | call o sx p => change ∃ body, execCall o sx p s = _; unfold execCall callTo; exact ⟨_, rfl⟩
  | brx r sx p => change ∃ body, execBrx r sx p s = _; unfold execBrx uniform; exact ⟨_, rfl⟩
  | callx r sx p => change ∃ body, execCallx r sx p s = _; unfold execCallx callTo; exact ⟨_, rfl⟩
  | jset o => change ∃ body, execJset o s = _; unfold execJset; exact ⟨_, rfl⟩
  | loop o n => change ∃ body, execLoop o n s = _; unfold execLoop; exact ⟨_, rfl⟩
  | trapi im => change ∃ body, execTrapi im s = _; unfold execTrapi; exact ⟨_, rfl⟩
  | signal im a => change ∃ body, execSignal im a s = _; unfold execSignal; exact ⟨_, rfl⟩
  | rdsr im d => change ∃ body, execRdsr im d s = _; unfold execRdsr; exact ⟨_, rfl⟩
  | wrsr im a => change ∃ body, execWrsr im a s = _; unfold execWrsr; exact ⟨_, rfl⟩
  | brec o a n => change ∃ body, execBrec o a n s = _; unfold execBrec; exact ⟨_, rfl⟩
  | vstat im a d => change ∃ body, execVstat im a d s = _; unfold execVstat Machine.complete; exact ⟨_, rfl⟩
  | rlaunch a => change ∃ body, execRlaunch a s = _; unfold execRlaunch; exact ⟨_, rfl⟩
  | tlbfill l a => change ∃ body, execTlbfill l a s = _; unfold execTlbfill Machine.complete; exact ⟨_, rfl⟩
  | tlbinv sx a => change ∃ body, execTlbinv sx a s = _; unfold execTlbinv Machine.complete; exact ⟨_, rfl⟩
  | plogrd p k d => change ∃ body, execPlogrd p k d s = _; unfold execPlogrd Machine.complete; exact ⟨_, rfl⟩
  | actset a => change ∃ body, execActset a s = _; unfold execActset Machine.complete; exact ⟨_, rfl⟩
  | philox b a d => change ∃ body, execPhilox b a d s = _; unfold execPhilox Machine.complete; exact ⟨_, rfl⟩
  | coll b a t => change ∃ body, execColl b a t s = _; unfold execColl requestOp; exact ⟨_, rfl⟩
  | add b d => change ∃ body, execAdd b d s = _; unfold execAdd parcel2 bin laneOp Machine.complete; exact ⟨_, rfl⟩
  | sub b d => change ∃ body, execSub b d s = _; unfold execSub parcel2 bin laneOp Machine.complete; exact ⟨_, rfl⟩
  | andParcel b d => change ∃ body, execAndParcel b d s = _; unfold execAndParcel parcel2 bin laneOp Machine.complete; exact ⟨_, rfl⟩
  | orParcel b d => change ∃ body, execOrParcel b d s = _; unfold execOrParcel parcel2 bin laneOp Machine.complete; exact ⟨_, rfl⟩
  | xorParcel b d => change ∃ body, execXorParcel b d s = _; unfold execXorParcel parcel2 bin laneOp Machine.complete; exact ⟨_, rfl⟩
  | shlParcel b d => change ∃ body, execShlParcel b d s = _; unfold execShlParcel parcel2 bin laneOp Machine.complete; exact ⟨_, rfl⟩
  | shrParcel b d => change ∃ body, execShrParcel b d s = _; unfold execShrParcel parcel2 bin laneOp Machine.complete; exact ⟨_, rfl⟩
  | mov b d => change ∃ body, execMov b d s = _; unfold execMov una laneOp Machine.complete; exact ⟨_, rfl⟩
  | faddParcel b d => change ∃ body, execFaddParcel b d s = _; unfold execFaddParcel parcelF single laneOp Machine.complete; exact ⟨_, rfl⟩
  | fsubParcel b d => change ∃ body, execFsubParcel b d s = _; unfold execFsubParcel parcelF single laneOp Machine.complete; exact ⟨_, rfl⟩
  | fmulParcel b d => change ∃ body, execFmulParcel b d s = _; unfold execFmulParcel parcelF single laneOp Machine.complete; exact ⟨_, rfl⟩
  | fminParcel b d => change ∃ body, execFminParcel b d s = _; unfold execFminParcel parcelF single laneOp Machine.complete; exact ⟨_, rfl⟩
  | fmaxParcel b d => change ∃ body, execFmaxParcel b d s = _; unfold execFmaxParcel parcelF single laneOp Machine.complete; exact ⟨_, rfl⟩
  | imulParcel b d => change ∃ body, execImulParcel b d s = _; unfold execImulParcel parcel2 bin laneOp Machine.complete; exact ⟨_, rfl⟩
  | addi im d => change ∃ body, execAddi im d s = _; unfold execAddi una laneOp Machine.complete; exact ⟨_, rfl⟩
  | movi im d => change ∃ body, execMovi im d s = _; unfold execMovi laneOp Machine.complete; exact ⟨_, rfl⟩
  | grd c sx p => change ∃ body, execGrd c sx p s = _; unfold execGrd; exact ⟨_, rfl⟩
  | xm d e sx r b m a n => exact absurd rfl (hx d e sx r b m a n)
  | beat im => change ∃ body, execBeat im s = _; unfold execBeat Machine.complete; exact ⟨_, rfl⟩
  | brs o => change ∃ body, execBrs o s = _; unfold execBrs; exact ⟨_, rfl⟩
  | waitcParcel n c => change ∃ body, execWaitcParcel n c s = _; unfold execWaitcParcel waitClass; exact ⟨_, rfl⟩
  | sleep n => change ∃ body, execSleep n s = _; unfold execSleep; exact ⟨_, rfl⟩
  | vclr => change ∃ body, execVclr s = _; unfold execVclr Machine.complete; exact ⟨_, rfl⟩
  | acq => change ∃ body, execAcq s = _; unfold execAcq; exact ⟨_, rfl⟩
  | rel => change ∃ body, execRel s = _; unfold execRel; exact ⟨_, rfl⟩
  | acqrel => change ∃ body, execAcqrel s = _; unfold execAcqrel; exact ⟨_, rfl⟩
  | fenceEng => change ∃ body, execFenceEng s = _; unfold execFenceEng; exact ⟨_, rfl⟩
  | mrel => change ∃ body, execMrel s = _; unfold execMrel Machine.complete; exact ⟨_, rfl⟩
  | rtt => change ∃ body, execRtt s = _; unfold execRtt; exact ⟨_, rfl⟩
  | nop => change ∃ body, execNop s = _; unfold execNop Machine.complete; exact ⟨_, rfl⟩
  | yield => change ∃ body, execYield s = _; unfold execYield; exact ⟨_, rfl⟩
  | tfence => change ∃ body, execTfence s = _; unfold execTfence; exact ⟨_, rfl⟩
  | exit => change ∃ body, execExit s = _; unfold execExit; exact ⟨_, rfl⟩
  | ret => change ∃ body, execRet s = _; unfold execRet; exact ⟨_, rfl⟩
  | join => change ∃ body, execJoin s = _; unfold execJoin; exact ⟨_, rfl⟩
  | longLatencyFill => exact absurd rfl henc
  | accessPerformed => exact absurd rfl henc
  | requestRetire => exact absurd rfl henc
  | engineRequestStop => exact absurd rfl henc
  | deferredReportTrap => exact absurd rfl henc
  | copyPromiseMiss => exact absurd rfl henc
  | sleeptWake => exact absurd rfl henc
  | sleepWake => exact absurd rfl henc
  | yieldEnd => exact absurd rfl henc
  | groupEnd => exact absurd rfl henc
  | activityWindow => exact absurd rfl henc
  | boostCeiling => exact absurd rfl henc
  | arbiterPass => exact absurd rfl henc
  | leaseIdleEnd => exact absurd rfl henc
  | collectiveChunkSend => exact absurd rfl henc
  | chunkCreditReturn => exact absurd rfl henc
  | collectiveResume => exact absurd rfl henc
  | collectiveComplete => exact absurd rfl henc
  | pageWalk => exact absurd rfl henc
  | pageRequestRewalk => exact absurd rfl henc
  | pantryReplay => exact absurd rfl henc
  | remoteRequest => exact absurd rfl henc
  | remoteRetry => exact absurd rfl henc
  | peerRequest => exact absurd rfl henc
  | bar2Access => exact absurd rfl henc
  | railFlitReceive => exact absurd rfl henc
  | flitResend => exact absurd rfl henc
  | railRetrain => exact absurd rfl henc
  | railPortFailed => exact absurd rfl henc
  | qnotify => exact absurd rfl henc
  | vfDoorbell => exact absurd rfl henc
  | frontEndTurn => exact absurd rfl henc
  | noOperation => exact absurd rfl henc
  | launch => exact absurd rfl henc
  | queueIdleUnmap => exact absurd rfl henc
  | notifyWaitExpiry => exact absurd rfl henc
  | tokenRefill => exact absurd rfl henc
  | bucketDry => exact absurd rfl henc
  | budgetReached => exact absurd rfl henc
  | placementDecision => exact absurd rfl henc
  | blockReserving => exact absurd rfl henc
  | clusterGate => exact absurd rfl henc
  | preemptDrain => exact absurd rfl henc
  | preemptFreeze => exact absurd rfl henc
  | preemptResume => exact absurd rfl henc
  | drainHandler => exact absurd rfl henc
  | drainDeadline => exact absurd rfl henc
  | blockFreeze => exact absurd rfl henc
  | periodBoundary => exact absurd rfl henc
  | mergedBeats => exact absurd rfl henc
  | mergeWindowExpiry => exact absurd rfl henc
  | geyserStep => exact absurd rfl henc
  | poolWayChangeDone => exact absurd rfl henc
  | poolWayChangeSlow => exact absurd rfl henc
  | gloopBind => exact absurd rfl henc
  | gloopUnbind => exact absurd rfl henc
  | clockStepSwitch => exact absurd rfl henc
  | sensorSample => exact absurd rfl henc
  | refreshCommand => exact absurd rfl henc
  | currentCapWindow => exact absurd rfl henc
  | currentCapRise => exact absurd rfl henc
  | powerCapWindow => exact absurd rfl henc
  | scrub => exact absurd rfl henc
  | partActivate => exact absurd rfl henc
  | partDeactivate => exact absurd rfl henc
  | vdbindEnable => exact absurd rfl henc
  | queueEnable => exact absurd rfl henc
  | queueDisable => exact absurd rfl henc
  | vdlogTailWrite => exact absurd rfl henc
  | registerWrite => exact absurd rfl henc
  | recoveryGo => exact absurd rfl henc
  | startUp => exact absurd rfl henc
  | railRetrainComplete => exact absurd rfl henc
  | clusterWakeComplete => exact absurd rfl henc
  | partitionKeyLoad => exact absurd rfl henc

end Sys2Proof.Machine
end

