-- ==== Sys2Proof/Laws/Memory.lean ====
section
/-! SUPPORT. Sparse tables and memories: what a read finds after a write, and that every operation
keeps the canonical form. -/

namespace Sys2Proof.Machine

theorem Smap.wfFrom_mono {α : Type} [DecidableEq α] {d : α} {lo lo' : Nat} {m : Smap α} (hl : lo' ≤ lo)
    (h : Smap.wfFrom d lo m = true) : Smap.wfFrom d lo' m = true := by
  cases m with
  | nil => rfl
  | cons x r => simp only [Smap.wfFrom, Bool.and_eq_true, decide_eq_true_eq] at h ⊢; exact ⟨⟨by omega, h.1.2⟩, h.2⟩

/-- A table whose keys start above a key reads the default there. -/
theorem Smap.get_below {α : Type} [DecidableEq α] {d : α} {m : Smap α} {lo k : Nat}
    (h : Smap.wfFrom d lo m = true) (hk : k < lo) : Smap.get d m k = d := by
  cases m with
  | nil => rfl
  | cons x r =>
    simp only [Smap.wfFrom, Bool.and_eq_true, decide_eq_true_eq] at h
    simp only [Smap.get]
    rw [if_neg (by omega), if_pos (by omega)]

theorem Smap.set_wfFrom {α : Type} [DecidableEq α] {d : α} {m : Smap α} {lo k : Nat} {x : α} (hk : lo ≤ k)
    (h : Smap.wfFrom d lo m = true) : Smap.wfFrom d lo (Smap.set d m k x) = true := by
  induction m generalizing lo with
  | nil => unfold Smap.set; split <;> simp_all [Smap.wfFrom]
  | cons e r ih =>
    obtain ⟨k', y⟩ := e
    simp only [Smap.wfFrom, Bool.and_eq_true, decide_eq_true_eq] at h
    simp only [Smap.set]
    split
    · split
      · exact Smap.wfFrom_mono (by omega) h.2
      · subst_vars; simp_all [Smap.wfFrom]
    · split
      · split
        · simp only [Smap.wfFrom, Bool.and_eq_true, decide_eq_true_eq]; exact h
        · simp only [Smap.wfFrom, Bool.and_eq_true, decide_eq_true_eq]
          exact ⟨⟨hk, by simp_all⟩, ⟨by omega, h.1.2⟩, h.2⟩
      · simp only [Smap.wfFrom, Bool.and_eq_true, decide_eq_true_eq]
        exact ⟨h.1, ih (by omega) h.2⟩

/-- Writing an entry keeps the canonical form. -/
theorem Smap.set_wf {α : Type} [DecidableEq α] {d : α} {m : Smap α} {k : Nat} {x : α}
    (h : Smap.wf d m = true) : Smap.wf d (Smap.set d m k x) = true := Smap.set_wfFrom (Nat.zero_le k) h

theorem Smap.without_wfFrom {α : Type} [DecidableEq α] {d : α} {a b : Nat} :
    ∀ {m : Smap α} {lo : Nat}, Smap.wfFrom d lo m = true → Smap.wfFrom d lo (m.without a b) = true
  | [], _, _ => rfl
  | (k, x) :: r, lo, h => by
    simp only [Smap.wfFrom, Bool.and_eq_true, decide_eq_true_eq] at h
    have ih := Smap.without_wfFrom (a := a) (b := b) h.2
    by_cases hk : (decide (k < a) || decide (b ≤ k)) = true
    · simpa [Smap.without, List.filter, hk, Smap.wfFrom, h.1] using ih
    · simpa [Smap.without, List.filter, hk] using Smap.wfFrom_mono (by omega : lo ≤ k + 1) ih

/-- Dropping a range of keys keeps the canonical form. -/
theorem Smap.without_wf {α : Type} [DecidableEq α] {d : α} {m : Smap α} {a b : Nat} (h : Smap.wf d m = true) :
    Smap.wf d (m.without a b) = true := Smap.without_wfFrom h

theorem Smap.get_set_from {α : Type} [DecidableEq α] {d : α} {m : Smap α} {lo k j : Nat} {x : α}
    (h : Smap.wfFrom d lo m = true) :
    Smap.get d (Smap.set d m k x) j = if j = k then x else Smap.get d m j := by
  induction m generalizing lo with
  | nil => by_cases hx : x = d <;> by_cases hj : j = k <;> simp [Smap.set, Smap.get, hx, hj] <;> omega
  | cons e r ih =>
    obtain ⟨k', y⟩ := e
    simp only [Smap.wfFrom, Bool.and_eq_true, decide_eq_true_eq] at h
    have hb : ∀ i, i ≤ k' → Smap.get d r i = d := fun i hi => Smap.get_below h.2 (by omega)
    simp only [Smap.set]
    by_cases h1 : k = k'
    · subst h1
      by_cases hx : x = d
      · by_cases hj : j = k
        · simp [hx, hj, hb]
        · by_cases hl : j < k
          · simp [hx, hj, hl, Smap.get, hb j (by omega)]
          · simp [hx, hj, hl, Smap.get]
      · by_cases hj : j = k <;> simp [hx, hj, Smap.get]
    · by_cases h2 : k < k'
      · by_cases hx : x = d
        · by_cases hj : j = k
          · subst hj; simp [h1, h2, hx, Smap.get]
          · simp [h1, h2, hx, hj]
        · by_cases hj : j = k
          · subst hj; simp [h1, h2, hx, Smap.get]
          · by_cases hl : j < k
            · simp [h1, h2, hx, hj, hl, Smap.get, show ¬ j = k' by omega, show j < k' by omega]
            · simp [h1, h2, hx, hj, hl, Smap.get]
      · by_cases hj : j = k
        · subst hj
          have := ih h.2
          simp [h1, h2, Smap.get, this]
        · have := ih h.2
          simp only [if_neg h1, if_neg h2, Smap.get, this, if_neg hj]

/-- What a table reads after an entry was written. -/
theorem Smap.get_set {α : Type} [DecidableEq α] {d : α} {m : Smap α} {k j : Nat} {x : α}
    (h : Smap.wf d m = true) :
    Smap.get d (Smap.set d m k x) j = if j = k then x else Smap.get d m j := Smap.get_set_from h

/-- A byte that is written reads as written, and every other byte as before. -/
theorem Memory.read_write {m : Memory} {a b : Nat} {x : Byte} (h : m.wf = true) :
    Memory.read (Memory.write m a x) b = if b = a then x else Memory.read m b := Smap.get_set h

/-- Writing a byte keeps the canonical form. -/
theorem Memory.write_wf {m : Memory} {a : Nat} {x : Byte} (h : m.wf = true) : (Memory.write m a x).wf = true :=
  Smap.set_wf h

/-- Writing bytes keeps the canonical form. -/
theorem Memory.writeBytes_wf {m : Memory} {a : Nat} {l : List Byte} (h : m.wf = true) :
    (Memory.writeBytes m a l).wf = true := by
  induction l generalizing m a with
  | nil => exact h
  | cons x r ih => exact ih (Memory.write_wf h)

/-- Writing a number keeps the canonical form. -/
theorem Memory.writeLE_wf {m : Memory} {a n v : Nat} (h : m.wf = true) : (Memory.writeLE m a n v).wf = true :=
  Memory.writeBytes_wf h

/-- Bytes outside those written read as before. -/
theorem Memory.read_writeBytes_outside {m : Memory} {a b : Nat} {l : List Byte} (h : m.wf = true)
    (hb : b < a ∨ a + l.length ≤ b) : Memory.read (Memory.writeBytes m a l) b = Memory.read m b := by
  induction l generalizing m a with
  | nil => rfl
  | cons x r ih =>
    simp only [List.length_cons] at hb
    rw [Memory.writeBytes, ih (Memory.write_wf h) (by omega), Memory.read_write h, if_neg (by omega)]

/-- A byte inside those written reads as written. -/
theorem Memory.read_writeBytes_inside {m : Memory} {a : Nat} {l : List Byte} (h : m.wf = true) {k : Nat}
    (hk : k < l.length) : Memory.read (Memory.writeBytes m a l) (a + k) = l[k] := by
  induction l generalizing m a k with
  | nil => simp at hk
  | cons x r ih =>
    cases k with
    | zero =>
      rw [Memory.writeBytes, Memory.read_writeBytes_outside (Memory.write_wf h) (by omega), Memory.read_write h]
      simp
    | succ k =>
      simp only [List.length_cons] at hk
      have := ih (m := Memory.write m a x) (a := a + 1) (Memory.write_wf h) (k := k) (by omega)
      rw [Memory.writeBytes, show a + (k + 1) = a + 1 + k by omega, this]; rfl

theorem bytesLE_length {n v : Nat} : (bytesLE n v).length = n := by
  induction n generalizing v with
  | zero => rfl
  | succ n ih => simp [bytesLE, ih]

/-- Bytes outside a number that is written read as before. -/
theorem Memory.read_writeLE_outside {m : Memory} {a b n v : Nat} (h : m.wf = true) (hb : b < a ∨ a + n ≤ b) :
    Memory.read (Memory.writeLE m a n v) b = Memory.read m b :=
  Memory.read_writeBytes_outside h (by simpa [bytesLE_length] using hb)

/-- A number written little-endian reads back, modulo its width. -/
theorem Memory.readLE_writeLE {m : Memory} {a n v : Nat} (h : m.wf = true) :
    Memory.readLE (Memory.writeLE m a n v) a n = v % 256 ^ n := by
  induction n generalizing m a v with
  | zero => simp [Memory.readLE, Nat.mod_one]
  | succ n ih =>
    have h1 : Memory.readLE (Memory.writeLE m a (n + 1) v) (a + 1) n = (v / 256) % 256 ^ n := by
      have := ih (m := Memory.write m a (BitVec.ofNat 8 v)) (a := a + 1) (v := v / 256) (Memory.write_wf h)
      simpa [Memory.writeLE, bytesLE, Memory.writeBytes] using this
    have h2 : Memory.read (Memory.writeLE m a (n + 1) v) a = BitVec.ofNat 8 v := by
      have := Memory.read_writeBytes_inside (m := m) (a := a) (l := bytesLE (n + 1) v) h (k := 0)
        (by simp [bytesLE_length])
      simpa [Memory.writeLE, bytesLE] using this
    rw [Memory.readLE, h1, h2, BitVec.toNat_ofNat, Nat.pow_succ' (n := n), Nat.mod_mul]

end Sys2Proof.Machine
end

