-- ==== Sys2Proof/Laws/PerInstr.lean ====
section
/-! SUPPORT. Facts proved of each instruction by itself: where its code stands in the opcode map. -/

set_option Elab.async false

namespace Sys2Proof.Laws

/-- A row with an encoding has a code of its length, with the length bit and the major (or the parcel's op) number in the low six
bits as R121, R126 and R133 place them; a step of the device has no code. -/
def Encoding.Statement (i : Instr) : Prop :=
  match encode i, i.head with
  | some c, .w32 major _ => c.bits = 32 ∧ c.value < 2 ^ 32 ∧ c.value % 64 = 2 * major + 1
  | some c, .p16 op => c.bits = 16 ∧ c.value < 2 ^ 16 ∧ c.value % 64 = 2 * op
  | none, .event => True
  | _, _ => False

theorem Encoding.iadd (b : BitVec 8) (a : BitVec 8) (d : BitVec 7) : Encoding.Statement (.iadd b a d) := by
  have h0 := b.isLt; have h1 := a.isLt; have h2 := d.isLt
  refine ⟨rfl, ?_, ?_⟩ <;> dsimp only <;> omega
theorem Encoding.isub (b : BitVec 8) (a : BitVec 8) (d : BitVec 7) : Encoding.Statement (.isub b a d) := by
  have h0 := b.isLt; have h1 := a.isLt; have h2 := d.isLt
  refine ⟨rfl, ?_, ?_⟩ <;> dsimp only <;> omega
theorem Encoding.imul (b : BitVec 8) (a : BitVec 8) (d : BitVec 7) : Encoding.Statement (.imul b a d) := by
  have h0 := b.isLt; have h1 := a.isLt; have h2 := d.isLt
  refine ⟨rfl, ?_, ?_⟩ <;> dsimp only <;> omega
theorem Encoding.imulhS (b : BitVec 8) (a : BitVec 8) (d : BitVec 7) : Encoding.Statement (.imulhS b a d) := by
  have h0 := b.isLt; have h1 := a.isLt; have h2 := d.isLt
  refine ⟨rfl, ?_, ?_⟩ <;> dsimp only <;> omega
theorem Encoding.imulhU (b : BitVec 8) (a : BitVec 8) (d : BitVec 7) : Encoding.Statement (.imulhU b a d) := by
  have h0 := b.isLt; have h1 := a.isLt; have h2 := d.isLt
  refine ⟨rfl, ?_, ?_⟩ <;> dsimp only <;> omega
theorem Encoding.imad (b : BitVec 8) (a : BitVec 8) (d : BitVec 7) : Encoding.Statement (.imad b a d) := by
  have h0 := b.isLt; have h1 := a.isLt; have h2 := d.isLt
  refine ⟨rfl, ?_, ?_⟩ <;> dsimp only <;> omega
theorem Encoding.iaddc (b : BitVec 8) (a : BitVec 8) (d : BitVec 7) : Encoding.Statement (.iaddc b a d) := by
  have h0 := b.isLt; have h1 := a.isLt; have h2 := d.isLt
  refine ⟨rfl, ?_, ?_⟩ <;> dsimp only <;> omega
theorem Encoding.isubb (b : BitVec 8) (a : BitVec 8) (d : BitVec 7) : Encoding.Statement (.isubb b a d) := by
  have h0 := b.isLt; have h1 := a.isLt; have h2 := d.isLt
  refine ⟨rfl, ?_, ?_⟩ <;> dsimp only <;> omega
theorem Encoding.and (b : BitVec 8) (a : BitVec 8) (d : BitVec 7) : Encoding.Statement (.and b a d) := by
  have h0 := b.isLt; have h1 := a.isLt; have h2 := d.isLt
  refine ⟨rfl, ?_, ?_⟩ <;> dsimp only <;> omega
theorem Encoding.or (b : BitVec 8) (a : BitVec 8) (d : BitVec 7) : Encoding.Statement (.or b a d) := by
  have h0 := b.isLt; have h1 := a.isLt; have h2 := d.isLt
  refine ⟨rfl, ?_, ?_⟩ <;> dsimp only <;> omega
theorem Encoding.xor (b : BitVec 8) (a : BitVec 8) (d : BitVec 7) : Encoding.Statement (.xor b a d) := by
  have h0 := b.isLt; have h1 := a.isLt; have h2 := d.isLt
  refine ⟨rfl, ?_, ?_⟩ <;> dsimp only <;> omega
theorem Encoding.andn (b : BitVec 8) (a : BitVec 8) (d : BitVec 7) : Encoding.Statement (.andn b a d) := by
  have h0 := b.isLt; have h1 := a.isLt; have h2 := d.isLt
  refine ⟨rfl, ?_, ?_⟩ <;> dsimp only <;> omega
theorem Encoding.shl (b : BitVec 8) (a : BitVec 8) (d : BitVec 7) : Encoding.Statement (.shl b a d) := by
  have h0 := b.isLt; have h1 := a.isLt; have h2 := d.isLt
  refine ⟨rfl, ?_, ?_⟩ <;> dsimp only <;> omega
theorem Encoding.shr (b : BitVec 8) (a : BitVec 8) (d : BitVec 7) : Encoding.Statement (.shr b a d) := by
  have h0 := b.isLt; have h1 := a.isLt; have h2 := d.isLt
  refine ⟨rfl, ?_, ?_⟩ <;> dsimp only <;> omega
theorem Encoding.sar (b : BitVec 8) (a : BitVec 8) (d : BitVec 7) : Encoding.Statement (.sar b a d) := by
  have h0 := b.isLt; have h1 := a.isLt; have h2 := d.isLt
  refine ⟨rfl, ?_, ?_⟩ <;> dsimp only <;> omega
theorem Encoding.rotl (b : BitVec 8) (a : BitVec 8) (d : BitVec 7) : Encoding.Statement (.rotl b a d) := by
  have h0 := b.isLt; have h1 := a.isLt; have h2 := d.isLt
  refine ⟨rfl, ?_, ?_⟩ <;> dsimp only <;> omega
theorem Encoding.iminS (b : BitVec 8) (a : BitVec 8) (d : BitVec 7) : Encoding.Statement (.iminS b a d) := by
  have h0 := b.isLt; have h1 := a.isLt; have h2 := d.isLt
  refine ⟨rfl, ?_, ?_⟩ <;> dsimp only <;> omega
theorem Encoding.imaxS (b : BitVec 8) (a : BitVec 8) (d : BitVec 7) : Encoding.Statement (.imaxS b a d) := by
  have h0 := b.isLt; have h1 := a.isLt; have h2 := d.isLt
  refine ⟨rfl, ?_, ?_⟩ <;> dsimp only <;> omega
theorem Encoding.iminU (b : BitVec 8) (a : BitVec 8) (d : BitVec 7) : Encoding.Statement (.iminU b a d) := by
  have h0 := b.isLt; have h1 := a.isLt; have h2 := d.isLt
  refine ⟨rfl, ?_, ?_⟩ <;> dsimp only <;> omega
theorem Encoding.imaxU (b : BitVec 8) (a : BitVec 8) (d : BitVec 7) : Encoding.Statement (.imaxU b a d) := by
  have h0 := b.isLt; have h1 := a.isLt; have h2 := d.isLt
  refine ⟨rfl, ?_, ?_⟩ <;> dsimp only <;> omega
theorem Encoding.popc (a : BitVec 8) (d : BitVec 7) : Encoding.Statement (.popc a d) := by
  have h0 := a.isLt; have h1 := d.isLt
  refine ⟨rfl, ?_, ?_⟩ <;> dsimp only <;> omega
theorem Encoding.clz (a : BitVec 8) (d : BitVec 7) : Encoding.Statement (.clz a d) := by
  have h0 := a.isLt; have h1 := d.isLt
  refine ⟨rfl, ?_, ?_⟩ <;> dsimp only <;> omega
theorem Encoding.brev (a : BitVec 8) (d : BitVec 7) : Encoding.Statement (.brev a d) := by
  have h0 := a.isLt; have h1 := d.isLt
  refine ⟨rfl, ?_, ?_⟩ <;> dsimp only <;> omega
theorem Encoding.iabs (a : BitVec 8) (d : BitVec 7) : Encoding.Statement (.iabs a d) := by
  have h0 := a.isLt; have h1 := d.isLt
  refine ⟨rfl, ?_, ?_⟩ <;> dsimp only <;> omega
theorem Encoding.bfxU (b : BitVec 8) (a : BitVec 8) (d : BitVec 7) : Encoding.Statement (.bfxU b a d) := by
  have h0 := b.isLt; have h1 := a.isLt; have h2 := d.isLt
  refine ⟨rfl, ?_, ?_⟩ <;> dsimp only <;> omega
theorem Encoding.bfxS (b : BitVec 8) (a : BitVec 8) (d : BitVec 7) : Encoding.Statement (.bfxS b a d) := by
  have h0 := b.isLt; have h1 := a.isLt; have h2 := d.isLt
  refine ⟨rfl, ?_, ?_⟩ <;> dsimp only <;> omega
theorem Encoding.bfi (b : BitVec 8) (a : BitVec 8) (d : BitVec 7) : Encoding.Statement (.bfi b a d) := by
  have h0 := b.isLt; have h1 := a.isLt; have h2 := d.isLt
  refine ⟨rfl, ?_, ?_⟩ <;> dsimp only <;> omega
theorem Encoding.bshuf (b : BitVec 8) (a : BitVec 8) (d : BitVec 7) : Encoding.Statement (.bshuf b a d) := by
  have h0 := b.isLt; have h1 := a.isLt; have h2 := d.isLt
  refine ⟨rfl, ?_, ?_⟩ <;> dsimp only <;> omega
theorem Encoding.shld (b : BitVec 8) (a : BitVec 8) (d : BitVec 7) : Encoding.Statement (.shld b a d) := by
  have h0 := b.isLt; have h1 := a.isLt; have h2 := d.isLt
  refine ⟨rfl, ?_, ?_⟩ <;> dsimp only <;> omega
theorem Encoding.shrd (b : BitVec 8) (a : BitVec 8) (d : BitVec 7) : Encoding.Statement (.shrd b a d) := by
  have h0 := b.isLt; have h1 := a.isLt; have h2 := d.isLt
  refine ⟨rfl, ?_, ?_⟩ <;> dsimp only <;> omega
theorem Encoding.iaddi (i : BitVec 8) (a : BitVec 8) (d : BitVec 7) : Encoding.Statement (.iaddi i a d) := by
  have h0 := i.isLt; have h1 := a.isLt; have h2 := d.isLt
  refine ⟨rfl, ?_, ?_⟩ <;> dsimp only <;> omega
theorem Encoding.andi (i : BitVec 8) (a : BitVec 8) (d : BitVec 7) : Encoding.Statement (.andi i a d) := by
  have h0 := i.isLt; have h1 := a.isLt; have h2 := d.isLt
  refine ⟨rfl, ?_, ?_⟩ <;> dsimp only <;> omega
theorem Encoding.ori (i : BitVec 8) (a : BitVec 8) (d : BitVec 7) : Encoding.Statement (.ori i a d) := by
  have h0 := i.isLt; have h1 := a.isLt; have h2 := d.isLt
  refine ⟨rfl, ?_, ?_⟩ <;> dsimp only <;> omega
theorem Encoding.xori (i : BitVec 8) (a : BitVec 8) (d : BitVec 7) : Encoding.Statement (.xori i a d) := by
  have h0 := i.isLt; have h1 := a.isLt; have h2 := d.isLt
  refine ⟨rfl, ?_, ?_⟩ <;> dsimp only <;> omega
theorem Encoding.shli (i : BitVec 8) (a : BitVec 8) (d : BitVec 7) : Encoding.Statement (.shli i a d) := by
  have h0 := i.isLt; have h1 := a.isLt; have h2 := d.isLt
  refine ⟨rfl, ?_, ?_⟩ <;> dsimp only <;> omega
theorem Encoding.shri (i : BitVec 8) (a : BitVec 8) (d : BitVec 7) : Encoding.Statement (.shri i a d) := by
  have h0 := i.isLt; have h1 := a.isLt; have h2 := d.isLt
  refine ⟨rfl, ?_, ?_⟩ <;> dsimp only <;> omega
theorem Encoding.sari (i : BitVec 8) (a : BitVec 8) (d : BitVec 7) : Encoding.Statement (.sari i a d) := by
  have h0 := i.isLt; have h1 := a.isLt; have h2 := d.isLt
  refine ⟨rfl, ?_, ?_⟩ <;> dsimp only <;> omega
theorem Encoding.imuli (i : BitVec 8) (a : BitVec 8) (d : BitVec 7) : Encoding.Statement (.imuli i a d) := by
  have h0 := i.isLt; have h1 := a.isLt; have h2 := d.isLt
  refine ⟨rfl, ?_, ?_⟩ <;> dsimp only <;> omega
theorem Encoding.fadd (b : BitVec 8) (a : BitVec 8) (d : BitVec 7) : Encoding.Statement (.fadd b a d) := by
  have h0 := b.isLt; have h1 := a.isLt; have h2 := d.isLt
  refine ⟨rfl, ?_, ?_⟩ <;> dsimp only <;> omega
theorem Encoding.fsub (b : BitVec 8) (a : BitVec 8) (d : BitVec 7) : Encoding.Statement (.fsub b a d) := by
  have h0 := b.isLt; have h1 := a.isLt; have h2 := d.isLt
  refine ⟨rfl, ?_, ?_⟩ <;> dsimp only <;> omega
theorem Encoding.fmul (b : BitVec 8) (a : BitVec 8) (d : BitVec 7) : Encoding.Statement (.fmul b a d) := by
  have h0 := b.isLt; have h1 := a.isLt; have h2 := d.isLt
  refine ⟨rfl, ?_, ?_⟩ <;> dsimp only <;> omega
theorem Encoding.ffma (b : BitVec 8) (a : BitVec 8) (d : BitVec 7) : Encoding.Statement (.ffma b a d) := by
  have h0 := b.isLt; have h1 := a.isLt; have h2 := d.isLt
  refine ⟨rfl, ?_, ?_⟩ <;> dsimp only <;> omega
theorem Encoding.ffms (b : BitVec 8) (a : BitVec 8) (d : BitVec 7) : Encoding.Statement (.ffms b a d) := by
  have h0 := b.isLt; have h1 := a.isLt; have h2 := d.isLt
  refine ⟨rfl, ?_, ?_⟩ <;> dsimp only <;> omega
theorem Encoding.fmin (b : BitVec 8) (a : BitVec 8) (d : BitVec 7) : Encoding.Statement (.fmin b a d) := by
  have h0 := b.isLt; have h1 := a.isLt; have h2 := d.isLt
  refine ⟨rfl, ?_, ?_⟩ <;> dsimp only <;> omega
theorem Encoding.fmax (b : BitVec 8) (a : BitVec 8) (d : BitVec 7) : Encoding.Statement (.fmax b a d) := by
  have h0 := b.isLt; have h1 := a.isLt; have h2 := d.isLt
  refine ⟨rfl, ?_, ?_⟩ <;> dsimp only <;> omega
theorem Encoding.fnma (b : BitVec 8) (a : BitVec 8) (d : BitVec 7) : Encoding.Statement (.fnma b a d) := by
  have h0 := b.isLt; have h1 := a.isLt; have h2 := d.isLt
  refine ⟨rfl, ?_, ?_⟩ <;> dsimp only <;> omega
theorem Encoding.dadd (b : BitVec 8) (a : BitVec 8) (d : BitVec 7) : Encoding.Statement (.dadd b a d) := by
  have h0 := b.isLt; have h1 := a.isLt; have h2 := d.isLt
  refine ⟨rfl, ?_, ?_⟩ <;> dsimp only <;> omega
theorem Encoding.dsub (b : BitVec 8) (a : BitVec 8) (d : BitVec 7) : Encoding.Statement (.dsub b a d) := by
  have h0 := b.isLt; have h1 := a.isLt; have h2 := d.isLt
  refine ⟨rfl, ?_, ?_⟩ <;> dsimp only <;> omega
theorem Encoding.dmul (b : BitVec 8) (a : BitVec 8) (d : BitVec 7) : Encoding.Statement (.dmul b a d) := by
  have h0 := b.isLt; have h1 := a.isLt; have h2 := d.isLt
  refine ⟨rfl, ?_, ?_⟩ <;> dsimp only <;> omega
theorem Encoding.dfma (b : BitVec 8) (a : BitVec 8) (d : BitVec 7) : Encoding.Statement (.dfma b a d) := by
  have h0 := b.isLt; have h1 := a.isLt; have h2 := d.isLt
  refine ⟨rfl, ?_, ?_⟩ <;> dsimp only <;> omega
theorem Encoding.dfms (b : BitVec 8) (a : BitVec 8) (d : BitVec 7) : Encoding.Statement (.dfms b a d) := by
  have h0 := b.isLt; have h1 := a.isLt; have h2 := d.isLt
  refine ⟨rfl, ?_, ?_⟩ <;> dsimp only <;> omega
theorem Encoding.dmin (b : BitVec 8) (a : BitVec 8) (d : BitVec 7) : Encoding.Statement (.dmin b a d) := by
  have h0 := b.isLt; have h1 := a.isLt; have h2 := d.isLt
  refine ⟨rfl, ?_, ?_⟩ <;> dsimp only <;> omega
theorem Encoding.dmax (b : BitVec 8) (a : BitVec 8) (d : BitVec 7) : Encoding.Statement (.dmax b a d) := by
  have h0 := b.isLt; have h1 := a.isLt; have h2 := d.isLt
  refine ⟨rfl, ?_, ?_⟩ <;> dsimp only <;> omega
theorem Encoding.dnma (b : BitVec 8) (a : BitVec 8) (d : BitVec 7) : Encoding.Statement (.dnma b a d) := by
  have h0 := b.isLt; have h1 := a.isLt; have h2 := d.isLt
  refine ⟨rfl, ?_, ?_⟩ <;> dsimp only <;> omega
theorem Encoding.hadd2F16 (b : BitVec 8) (a : BitVec 8) (d : BitVec 7) : Encoding.Statement (.hadd2F16 b a d) := by
  have h0 := b.isLt; have h1 := a.isLt; have h2 := d.isLt
  refine ⟨rfl, ?_, ?_⟩ <;> dsimp only <;> omega
theorem Encoding.hmul2F16 (b : BitVec 8) (a : BitVec 8) (d : BitVec 7) : Encoding.Statement (.hmul2F16 b a d) := by
  have h0 := b.isLt; have h1 := a.isLt; have h2 := d.isLt
  refine ⟨rfl, ?_, ?_⟩ <;> dsimp only <;> omega
theorem Encoding.hfma2F16 (b : BitVec 8) (a : BitVec 8) (d : BitVec 7) : Encoding.Statement (.hfma2F16 b a d) := by
  have h0 := b.isLt; have h1 := a.isLt; have h2 := d.isLt
  refine ⟨rfl, ?_, ?_⟩ <;> dsimp only <;> omega
theorem Encoding.hmin2F16 (b : BitVec 8) (a : BitVec 8) (d : BitVec 7) : Encoding.Statement (.hmin2F16 b a d) := by
  have h0 := b.isLt; have h1 := a.isLt; have h2 := d.isLt
  refine ⟨rfl, ?_, ?_⟩ <;> dsimp only <;> omega
theorem Encoding.hadd2Bf16 (b : BitVec 8) (a : BitVec 8) (d : BitVec 7) : Encoding.Statement (.hadd2Bf16 b a d) := by
  have h0 := b.isLt; have h1 := a.isLt; have h2 := d.isLt
  refine ⟨rfl, ?_, ?_⟩ <;> dsimp only <;> omega
theorem Encoding.hmul2Bf16 (b : BitVec 8) (a : BitVec 8) (d : BitVec 7) : Encoding.Statement (.hmul2Bf16 b a d) := by
  have h0 := b.isLt; have h1 := a.isLt; have h2 := d.isLt
  refine ⟨rfl, ?_, ?_⟩ <;> dsimp only <;> omega
theorem Encoding.hfma2Bf16 (b : BitVec 8) (a : BitVec 8) (d : BitVec 7) : Encoding.Statement (.hfma2Bf16 b a d) := by
  have h0 := b.isLt; have h1 := a.isLt; have h2 := d.isLt
  refine ⟨rfl, ?_, ?_⟩ <;> dsimp only <;> omega
theorem Encoding.hmin2Bf16 (b : BitVec 8) (a : BitVec 8) (d : BitVec 7) : Encoding.Statement (.hmin2Bf16 b a d) := by
  have h0 := b.isLt; have h1 := a.isLt; have h2 := d.isLt
  refine ⟨rfl, ?_, ?_⟩ <;> dsimp only <;> omega
theorem Encoding.frcp (a : BitVec 8) (d : BitVec 7) : Encoding.Statement (.frcp a d) := by
  have h0 := a.isLt; have h1 := d.isLt
  refine ⟨rfl, ?_, ?_⟩ <;> dsimp only <;> omega
theorem Encoding.frsq (a : BitVec 8) (d : BitVec 7) : Encoding.Statement (.frsq a d) := by
  have h0 := a.isLt; have h1 := d.isLt
  refine ⟨rfl, ?_, ?_⟩ <;> dsimp only <;> omega
theorem Encoding.fsqrt (a : BitVec 8) (d : BitVec 7) : Encoding.Statement (.fsqrt a d) := by
  have h0 := a.isLt; have h1 := d.isLt
  refine ⟨rfl, ?_, ?_⟩ <;> dsimp only <;> omega
theorem Encoding.fex2 (a : BitVec 8) (d : BitVec 7) : Encoding.Statement (.fex2 a d) := by
  have h0 := a.isLt; have h1 := d.isLt
  refine ⟨rfl, ?_, ?_⟩ <;> dsimp only <;> omega
theorem Encoding.flg2 (a : BitVec 8) (d : BitVec 7) : Encoding.Statement (.flg2 a d) := by
  have h0 := a.isLt; have h1 := d.isLt
  refine ⟨rfl, ?_, ?_⟩ <;> dsimp only <;> omega
theorem Encoding.fsinr (a : BitVec 8) (d : BitVec 7) : Encoding.Statement (.fsinr a d) := by
  have h0 := a.isLt; have h1 := d.isLt
  refine ⟨rfl, ?_, ?_⟩ <;> dsimp only <;> omega
theorem Encoding.fcosr (a : BitVec 8) (d : BitVec 7) : Encoding.Statement (.fcosr a d) := by
  have h0 := a.isLt; have h1 := d.isLt
  refine ⟨rfl, ?_, ?_⟩ <;> dsimp only <;> omega
theorem Encoding.dsqrt (a : BitVec 8) (d : BitVec 7) : Encoding.Statement (.dsqrt a d) := by
  have h0 := a.isLt; have h1 := d.isLt
  refine ⟨rfl, ?_, ?_⟩ <;> dsimp only <;> omega
theorem Encoding.icmpS (b : BitVec 8) (a : BitVec 8) (c : BitVec 3) (p : BitVec 3) : Encoding.Statement (.icmpS b a c p) := by
  have h0 := b.isLt; have h1 := a.isLt; have h2 := c.isLt; have h3 := p.isLt
  refine ⟨rfl, ?_, ?_⟩ <;> dsimp only <;> omega
theorem Encoding.icmpU (b : BitVec 8) (a : BitVec 8) (c : BitVec 3) (p : BitVec 3) : Encoding.Statement (.icmpU b a c p) := by
  have h0 := b.isLt; have h1 := a.isLt; have h2 := c.isLt; have h3 := p.isLt
  refine ⟨rfl, ?_, ?_⟩ <;> dsimp only <;> omega
theorem Encoding.fcmp (b : BitVec 8) (a : BitVec 8) (c : BitVec 3) (p : BitVec 3) : Encoding.Statement (.fcmp b a c p) := by
  have h0 := b.isLt; have h1 := a.isLt; have h2 := c.isLt; have h3 := p.isLt
  refine ⟨rfl, ?_, ?_⟩ <;> dsimp only <;> omega
theorem Encoding.dcmp (b : BitVec 8) (a : BitVec 8) (c : BitVec 3) (p : BitVec 3) : Encoding.Statement (.dcmp b a c p) := by
  have h0 := b.isLt; have h1 := a.isLt; have h2 := c.isLt; have h3 := p.isLt
  refine ⟨rfl, ?_, ?_⟩ <;> dsimp only <;> omega
theorem Encoding.hcmp2F16 (b : BitVec 8) (a : BitVec 8) (c : BitVec 3) (p : BitVec 3) : Encoding.Statement (.hcmp2F16 b a c p) := by
  have h0 := b.isLt; have h1 := a.isLt; have h2 := c.isLt; have h3 := p.isLt
  refine ⟨rfl, ?_, ?_⟩ <;> dsimp only <;> omega
theorem Encoding.hcmp2Bf16 (b : BitVec 8) (a : BitVec 8) (c : BitVec 3) (p : BitVec 3) : Encoding.Statement (.hcmp2Bf16 b a c p) := by
  have h0 := b.isLt; have h1 := a.isLt; have h2 := c.isLt; have h3 := p.isLt
  refine ⟨rfl, ?_, ?_⟩ <;> dsimp only <;> omega
theorem Encoding.plop (l : BitVec 8) (b : BitVec 3) (a : BitVec 3) (d : BitVec 3) : Encoding.Statement (.plop l b a d) := by
  have h0 := l.isLt; have h1 := b.isLt; have h2 := a.isLt; have h3 := d.isLt
  refine ⟨rfl, ?_, ?_⟩ <;> dsimp only <;> omega
theorem Encoding.sel (p : BitVec 3) (b : BitVec 8) (a : BitVec 8) (d : BitVec 7) : Encoding.Statement (.sel p b a d) := by
  have h0 := p.isLt; have h1 := b.isLt; have h2 := a.isLt; have h3 := d.isLt
  refine ⟨rfl, ?_, ?_⟩ <;> dsimp only <;> omega
theorem Encoding.cvt (m : BitVec 2) (t : BitVec 1) (s : BitVec 3) (e : BitVec 4) (a : BitVec 8) (d : BitVec 7) : Encoding.Statement (.cvt m t s e a d) := by
  have h0 := m.isLt; have h1 := t.isLt; have h2 := s.isLt; have h3 := e.isLt; have h4 := a.isLt; have h5 := d.isLt
  refine ⟨rfl, ?_, ?_⟩ <;> dsimp only <;> omega
theorem Encoding.shflIdx (b : BitVec 8) (a : BitVec 8) (d : BitVec 7) : Encoding.Statement (.shflIdx b a d) := by
  have h0 := b.isLt; have h1 := a.isLt; have h2 := d.isLt
  refine ⟨rfl, ?_, ?_⟩ <;> dsimp only <;> omega
theorem Encoding.shflUp (b : BitVec 8) (a : BitVec 8) (d : BitVec 7) : Encoding.Statement (.shflUp b a d) := by
  have h0 := b.isLt; have h1 := a.isLt; have h2 := d.isLt
  refine ⟨rfl, ?_, ?_⟩ <;> dsimp only <;> omega
theorem Encoding.shflDn (b : BitVec 8) (a : BitVec 8) (d : BitVec 7) : Encoding.Statement (.shflDn b a d) := by
  have h0 := b.isLt; have h1 := a.isLt; have h2 := d.isLt
  refine ⟨rfl, ?_, ?_⟩ <;> dsimp only <;> omega
theorem Encoding.shflXor (b : BitVec 8) (a : BitVec 8) (d : BitVec 7) : Encoding.Statement (.shflXor b a d) := by
  have h0 := b.isLt; have h1 := a.isLt; have h2 := d.isLt
  refine ⟨rfl, ?_, ?_⟩ <;> dsimp only <;> omega
theorem Encoding.voteAny (s : BitVec 1) (p : BitVec 3) (d : BitVec 7) : Encoding.Statement (.voteAny s p d) := by
  have h0 := s.isLt; have h1 := p.isLt; have h2 := d.isLt
  refine ⟨rfl, ?_, ?_⟩ <;> dsimp only <;> omega
theorem Encoding.voteAll (s : BitVec 1) (p : BitVec 3) (d : BitVec 7) : Encoding.Statement (.voteAll s p d) := by
  have h0 := s.isLt; have h1 := p.isLt; have h2 := d.isLt
  refine ⟨rfl, ?_, ?_⟩ <;> dsimp only <;> omega
theorem Encoding.ballot (s : BitVec 1) (p : BitVec 3) (d : BitVec 7) : Encoding.Statement (.ballot s p d) := by
  have h0 := s.isLt; have h1 := p.isLt; have h2 := d.isLt
  refine ⟨rfl, ?_, ?_⟩ <;> dsimp only <;> omega
theorem Encoding.matchL (a : BitVec 8) (d : BitVec 7) : Encoding.Statement (.matchL a d) := by
  have h0 := a.isLt; have h1 := d.isLt
  refine ⟨rfl, ?_, ?_⟩ <;> dsimp only <;> omega
theorem Encoding.rdaddF32 (a : BitVec 8) (d : BitVec 7) : Encoding.Statement (.rdaddF32 a d) := by
  have h0 := a.isLt; have h1 := d.isLt
  refine ⟨rfl, ?_, ?_⟩ <;> dsimp only <;> omega
theorem Encoding.rdaddF64 (a : BitVec 8) (d : BitVec 7) : Encoding.Statement (.rdaddF64 a d) := by
  have h0 := a.isLt; have h1 := d.isLt
  refine ⟨rfl, ?_, ?_⟩ <;> dsimp only <;> omega
theorem Encoding.rdaddI32 (a : BitVec 8) (d : BitVec 7) : Encoding.Statement (.rdaddI32 a d) := by
  have h0 := a.isLt; have h1 := d.isLt
  refine ⟨rfl, ?_, ?_⟩ <;> dsimp only <;> omega
theorem Encoding.rdminF32 (a : BitVec 8) (d : BitVec 7) : Encoding.Statement (.rdminF32 a d) := by
  have h0 := a.isLt; have h1 := d.isLt
  refine ⟨rfl, ?_, ?_⟩ <;> dsimp only <;> omega
theorem Encoding.rdmaxF32 (a : BitVec 8) (d : BitVec 7) : Encoding.Statement (.rdmaxF32 a d) := by
  have h0 := a.isLt; have h1 := d.isLt
  refine ⟨rfl, ?_, ?_⟩ <;> dsimp only <;> omega
theorem Encoding.rdminI32 (a : BitVec 8) (d : BitVec 7) : Encoding.Statement (.rdminI32 a d) := by
  have h0 := a.isLt; have h1 := d.isLt
  refine ⟨rfl, ?_, ?_⟩ <;> dsimp only <;> omega
theorem Encoding.rdmaxI32 (a : BitVec 8) (d : BitVec 7) : Encoding.Statement (.rdmaxI32 a d) := by
  have h0 := a.isLt; have h1 := d.isLt
  refine ⟨rfl, ?_, ?_⟩ <;> dsimp only <;> omega
theorem Encoding.scanI32 (e : BitVec 1) (a : BitVec 8) (d : BitVec 7) : Encoding.Statement (.scanI32 e a d) := by
  have h0 := e.isLt; have h1 := a.isLt; have h2 := d.isLt
  refine ⟨rfl, ?_, ?_⟩ <;> dsimp only <;> omega
theorem Encoding.ldk (i : BitVec 19) (d : BitVec 7) : Encoding.Statement (.ldk i d) := by
  have h0 := i.isLt; have h1 := d.isLt
  refine ⟨rfl, ?_, ?_⟩ <;> dsimp only <;> omega
theorem Encoding.ldkh (i : BitVec 13) (d : BitVec 7) : Encoding.Statement (.ldkh i d) := by
  have h0 := i.isLt; have h1 := d.isLt
  refine ⟨rfl, ?_, ?_⟩ <;> dsimp only <;> omega
theorem Encoding.ldB (h : BitVec 3) (x : BitVec 8) (r : BitVec 5) (d : BitVec 7) : Encoding.Statement (.ldB h x r d) := by
  have h0 := h.isLt; have h1 := x.isLt; have h2 := r.isLt; have h3 := d.isLt
  refine ⟨rfl, ?_, ?_⟩ <;> dsimp only <;> omega
theorem Encoding.ldBs (h : BitVec 3) (x : BitVec 8) (r : BitVec 5) (d : BitVec 7) : Encoding.Statement (.ldBs h x r d) := by
  have h0 := h.isLt; have h1 := x.isLt; have h2 := r.isLt; have h3 := d.isLt
  refine ⟨rfl, ?_, ?_⟩ <;> dsimp only <;> omega
theorem Encoding.ldH (h : BitVec 3) (x : BitVec 8) (r : BitVec 5) (d : BitVec 7) : Encoding.Statement (.ldH h x r d) := by
  have h0 := h.isLt; have h1 := x.isLt; have h2 := r.isLt; have h3 := d.isLt
  refine ⟨rfl, ?_, ?_⟩ <;> dsimp only <;> omega
theorem Encoding.ldHs (h : BitVec 3) (x : BitVec 8) (r : BitVec 5) (d : BitVec 7) : Encoding.Statement (.ldHs h x r d) := by
  have h0 := h.isLt; have h1 := x.isLt; have h2 := r.isLt; have h3 := d.isLt
  refine ⟨rfl, ?_, ?_⟩ <;> dsimp only <;> omega
theorem Encoding.ldW (h : BitVec 3) (x : BitVec 8) (r : BitVec 5) (d : BitVec 7) : Encoding.Statement (.ldW h x r d) := by
  have h0 := h.isLt; have h1 := x.isLt; have h2 := r.isLt; have h3 := d.isLt
  refine ⟨rfl, ?_, ?_⟩ <;> dsimp only <;> omega
theorem Encoding.ldD (h : BitVec 3) (x : BitVec 8) (r : BitVec 5) (d : BitVec 7) : Encoding.Statement (.ldD h x r d) := by
  have h0 := h.isLt; have h1 := x.isLt; have h2 := r.isLt; have h3 := d.isLt
  refine ⟨rfl, ?_, ?_⟩ <;> dsimp only <;> omega
theorem Encoding.ldQ (h : BitVec 3) (x : BitVec 8) (r : BitVec 5) (d : BitVec 7) : Encoding.Statement (.ldQ h x r d) := by
  have h0 := h.isLt; have h1 := x.isLt; have h2 := r.isLt; have h3 := d.isLt
  refine ⟨rfl, ?_, ?_⟩ <;> dsimp only <;> omega
theorem Encoding.ldpW (h : BitVec 3) (x : BitVec 8) (d : BitVec 7) : Encoding.Statement (.ldpW h x d) := by
  have h0 := h.isLt; have h1 := x.isLt; have h2 := d.isLt
  refine ⟨rfl, ?_, ?_⟩ <;> dsimp only <;> omega
theorem Encoding.stB (h : BitVec 3) (x : BitVec 8) (r : BitVec 5) (d : BitVec 7) : Encoding.Statement (.stB h x r d) := by
  have h0 := h.isLt; have h1 := x.isLt; have h2 := r.isLt; have h3 := d.isLt
  refine ⟨rfl, ?_, ?_⟩ <;> dsimp only <;> omega
theorem Encoding.stH (h : BitVec 3) (x : BitVec 8) (r : BitVec 5) (d : BitVec 7) : Encoding.Statement (.stH h x r d) := by
  have h0 := h.isLt; have h1 := x.isLt; have h2 := r.isLt; have h3 := d.isLt
  refine ⟨rfl, ?_, ?_⟩ <;> dsimp only <;> omega
theorem Encoding.stW (h : BitVec 3) (x : BitVec 8) (r : BitVec 5) (d : BitVec 7) : Encoding.Statement (.stW h x r d) := by
  have h0 := h.isLt; have h1 := x.isLt; have h2 := r.isLt; have h3 := d.isLt
  refine ⟨rfl, ?_, ?_⟩ <;> dsimp only <;> omega
theorem Encoding.stD (h : BitVec 3) (x : BitVec 8) (r : BitVec 5) (d : BitVec 7) : Encoding.Statement (.stD h x r d) := by
  have h0 := h.isLt; have h1 := x.isLt; have h2 := r.isLt; have h3 := d.isLt
  refine ⟨rfl, ?_, ?_⟩ <;> dsimp only <;> omega
theorem Encoding.stQ (h : BitVec 3) (x : BitVec 8) (r : BitVec 5) (d : BitVec 7) : Encoding.Statement (.stQ h x r d) := by
  have h0 := h.isLt; have h1 := x.isLt; have h2 := r.isLt; have h3 := d.isLt
  refine ⟨rfl, ?_, ?_⟩ <;> dsimp only <;> omega
theorem Encoding.stpW (h : BitVec 3) (x : BitVec 8) (d : BitVec 7) : Encoding.Statement (.stpW h x d) := by
  have h0 := h.isLt; have h1 := x.isLt; have h2 := d.isLt
  refine ⟨rfl, ?_, ?_⟩ <;> dsimp only <;> omega
theorem Encoding.pref (h : BitVec 3) (x : BitVec 8) (r : BitVec 5) : Encoding.Statement (.pref h x r) := by
  have h0 := h.isLt; have h1 := x.isLt; have h2 := r.isLt
  refine ⟨rfl, ?_, ?_⟩ <;> dsimp only <;> omega
theorem Encoding.ldsW (x : BitVec 8) (d : BitVec 7) : Encoding.Statement (.ldsW x d) := by
  have h0 := x.isLt; have h1 := d.isLt
  refine ⟨rfl, ?_, ?_⟩ <;> dsimp only <;> omega
theorem Encoding.ldsD (x : BitVec 8) (d : BitVec 7) : Encoding.Statement (.ldsD x d) := by
  have h0 := x.isLt; have h1 := d.isLt
  refine ⟨rfl, ?_, ?_⟩ <;> dsimp only <;> omega
theorem Encoding.ldsQ (x : BitVec 8) (d : BitVec 7) : Encoding.Statement (.ldsQ x d) := by
  have h0 := x.isLt; have h1 := d.isLt
  refine ⟨rfl, ?_, ?_⟩ <;> dsimp only <;> omega
theorem Encoding.stsW (x : BitVec 8) (d : BitVec 7) : Encoding.Statement (.stsW x d) := by
  have h0 := x.isLt; have h1 := d.isLt
  refine ⟨rfl, ?_, ?_⟩ <;> dsimp only <;> omega
theorem Encoding.stsD (x : BitVec 8) (d : BitVec 7) : Encoding.Statement (.stsD x d) := by
  have h0 := x.isLt; have h1 := d.isLt
  refine ⟨rfl, ?_, ?_⟩ <;> dsimp only <;> omega
theorem Encoding.stsQ (x : BitVec 8) (d : BitVec 7) : Encoding.Statement (.stsQ x d) := by
  have h0 := x.isLt; have h1 := d.isLt
  refine ⟨rfl, ?_, ?_⟩ <;> dsimp only <;> omega
theorem Encoding.ldsB (x : BitVec 8) (d : BitVec 7) : Encoding.Statement (.ldsB x d) := by
  have h0 := x.isLt; have h1 := d.isLt
  refine ⟨rfl, ?_, ?_⟩ <;> dsimp only <;> omega
theorem Encoding.stsB (x : BitVec 8) (d : BitVec 7) : Encoding.Statement (.stsB x d) := by
  have h0 := x.isLt; have h1 := d.isLt
  refine ⟨rfl, ?_, ?_⟩ <;> dsimp only <;> omega
theorem Encoding.atomAdd (s : BitVec 2) (x : BitVec 8) (r : BitVec 5) (d : BitVec 7) : Encoding.Statement (.atomAdd s x r d) := by
  have h0 := s.isLt; have h1 := x.isLt; have h2 := r.isLt; have h3 := d.isLt
  refine ⟨rfl, ?_, ?_⟩ <;> dsimp only <;> omega
theorem Encoding.atomMinS (s : BitVec 2) (x : BitVec 8) (r : BitVec 5) (d : BitVec 7) : Encoding.Statement (.atomMinS s x r d) := by
  have h0 := s.isLt; have h1 := x.isLt; have h2 := r.isLt; have h3 := d.isLt
  refine ⟨rfl, ?_, ?_⟩ <;> dsimp only <;> omega
theorem Encoding.atomMaxS (s : BitVec 2) (x : BitVec 8) (r : BitVec 5) (d : BitVec 7) : Encoding.Statement (.atomMaxS s x r d) := by
  have h0 := s.isLt; have h1 := x.isLt; have h2 := r.isLt; have h3 := d.isLt
  refine ⟨rfl, ?_, ?_⟩ <;> dsimp only <;> omega
theorem Encoding.atomAnd (s : BitVec 2) (x : BitVec 8) (r : BitVec 5) (d : BitVec 7) : Encoding.Statement (.atomAnd s x r d) := by
  have h0 := s.isLt; have h1 := x.isLt; have h2 := r.isLt; have h3 := d.isLt
  refine ⟨rfl, ?_, ?_⟩ <;> dsimp only <;> omega
theorem Encoding.atomOr (s : BitVec 2) (x : BitVec 8) (r : BitVec 5) (d : BitVec 7) : Encoding.Statement (.atomOr s x r d) := by
  have h0 := s.isLt; have h1 := x.isLt; have h2 := r.isLt; have h3 := d.isLt
  refine ⟨rfl, ?_, ?_⟩ <;> dsimp only <;> omega
theorem Encoding.atomXor (s : BitVec 2) (x : BitVec 8) (r : BitVec 5) (d : BitVec 7) : Encoding.Statement (.atomXor s x r d) := by
  have h0 := s.isLt; have h1 := x.isLt; have h2 := r.isLt; have h3 := d.isLt
  refine ⟨rfl, ?_, ?_⟩ <;> dsimp only <;> omega
theorem Encoding.atomExch (s : BitVec 2) (x : BitVec 8) (r : BitVec 5) (d : BitVec 7) : Encoding.Statement (.atomExch s x r d) := by
  have h0 := s.isLt; have h1 := x.isLt; have h2 := r.isLt; have h3 := d.isLt
  refine ⟨rfl, ?_, ?_⟩ <;> dsimp only <;> omega
theorem Encoding.atomCas (s : BitVec 2) (x : BitVec 8) (r : BitVec 5) (d : BitVec 7) : Encoding.Statement (.atomCas s x r d) := by
  have h0 := s.isLt; have h1 := x.isLt; have h2 := r.isLt; have h3 := d.isLt
  refine ⟨rfl, ?_, ?_⟩ <;> dsimp only <;> omega
theorem Encoding.redAdd (s : BitVec 2) (x : BitVec 8) (r : BitVec 5) (d : BitVec 7) : Encoding.Statement (.redAdd s x r d) := by
  have h0 := s.isLt; have h1 := x.isLt; have h2 := r.isLt; have h3 := d.isLt
  refine ⟨rfl, ?_, ?_⟩ <;> dsimp only <;> omega
theorem Encoding.redMinS (s : BitVec 2) (x : BitVec 8) (r : BitVec 5) (d : BitVec 7) : Encoding.Statement (.redMinS s x r d) := by
  have h0 := s.isLt; have h1 := x.isLt; have h2 := r.isLt; have h3 := d.isLt
  refine ⟨rfl, ?_, ?_⟩ <;> dsimp only <;> omega
theorem Encoding.redMaxS (s : BitVec 2) (x : BitVec 8) (r : BitVec 5) (d : BitVec 7) : Encoding.Statement (.redMaxS s x r d) := by
  have h0 := s.isLt; have h1 := x.isLt; have h2 := r.isLt; have h3 := d.isLt
  refine ⟨rfl, ?_, ?_⟩ <;> dsimp only <;> omega
theorem Encoding.redAnd (s : BitVec 2) (x : BitVec 8) (r : BitVec 5) (d : BitVec 7) : Encoding.Statement (.redAnd s x r d) := by
  have h0 := s.isLt; have h1 := x.isLt; have h2 := r.isLt; have h3 := d.isLt
  refine ⟨rfl, ?_, ?_⟩ <;> dsimp only <;> omega
theorem Encoding.redOr (s : BitVec 2) (x : BitVec 8) (r : BitVec 5) (d : BitVec 7) : Encoding.Statement (.redOr s x r d) := by
  have h0 := s.isLt; have h1 := x.isLt; have h2 := r.isLt; have h3 := d.isLt
  refine ⟨rfl, ?_, ?_⟩ <;> dsimp only <;> omega
theorem Encoding.redXor (s : BitVec 2) (x : BitVec 8) (r : BitVec 5) (d : BitVec 7) : Encoding.Statement (.redXor s x r d) := by
  have h0 := s.isLt; have h1 := x.isLt; have h2 := r.isLt; have h3 := d.isLt
  refine ⟨rfl, ?_, ?_⟩ <;> dsimp only <;> omega
theorem Encoding.redExch (s : BitVec 2) (x : BitVec 8) (r : BitVec 5) (d : BitVec 7) : Encoding.Statement (.redExch s x r d) := by
  have h0 := s.isLt; have h1 := x.isLt; have h2 := r.isLt; have h3 := d.isLt
  refine ⟨rfl, ?_, ?_⟩ <;> dsimp only <;> omega
theorem Encoding.atomAddF32 (s : BitVec 2) (x : BitVec 8) (r : BitVec 5) (d : BitVec 7) : Encoding.Statement (.atomAddF32 s x r d) := by
  have h0 := s.isLt; have h1 := x.isLt; have h2 := r.isLt; have h3 := d.isLt
  refine ⟨rfl, ?_, ?_⟩ <;> dsimp only <;> omega
theorem Encoding.atomAddD (s : BitVec 2) (x : BitVec 8) (r : BitVec 5) (d : BitVec 7) : Encoding.Statement (.atomAddD s x r d) := by
  have h0 := s.isLt; have h1 := x.isLt; have h2 := r.isLt; have h3 := d.isLt
  refine ⟨rfl, ?_, ?_⟩ <;> dsimp only <;> omega
theorem Encoding.atomCasD (s : BitVec 2) (x : BitVec 8) (r : BitVec 5) (d : BitVec 7) : Encoding.Statement (.atomCasD s x r d) := by
  have h0 := s.isLt; have h1 := x.isLt; have h2 := r.isLt; have h3 := d.isLt
  refine ⟨rfl, ?_, ?_⟩ <;> dsimp only <;> omega
theorem Encoding.atomExchD (s : BitVec 2) (x : BitVec 8) (r : BitVec 5) (d : BitVec 7) : Encoding.Statement (.atomExchD s x r d) := by
  have h0 := s.isLt; have h1 := x.isLt; have h2 := r.isLt; have h3 := d.isLt
  refine ⟨rfl, ?_, ?_⟩ <;> dsimp only <;> omega
theorem Encoding.atomMinU (s : BitVec 2) (x : BitVec 8) (r : BitVec 5) (d : BitVec 7) : Encoding.Statement (.atomMinU s x r d) := by
  have h0 := s.isLt; have h1 := x.isLt; have h2 := r.isLt; have h3 := d.isLt
  refine ⟨rfl, ?_, ?_⟩ <;> dsimp only <;> omega
theorem Encoding.atomMaxU (s : BitVec 2) (x : BitVec 8) (r : BitVec 5) (d : BitVec 7) : Encoding.Statement (.atomMaxU s x r d) := by
  have h0 := s.isLt; have h1 := x.isLt; have h2 := r.isLt; have h3 := d.isLt
  refine ⟨rfl, ?_, ?_⟩ <;> dsimp only <;> omega
theorem Encoding.atomIncWrap (s : BitVec 2) (x : BitVec 8) (r : BitVec 5) (d : BitVec 7) : Encoding.Statement (.atomIncWrap s x r d) := by
  have h0 := s.isLt; have h1 := x.isLt; have h2 := r.isLt; have h3 := d.isLt
  refine ⟨rfl, ?_, ?_⟩ <;> dsimp only <;> omega
theorem Encoding.atomAddF64 (s : BitVec 2) (x : BitVec 8) (r : BitVec 5) (d : BitVec 7) : Encoding.Statement (.atomAddF64 s x r d) := by
  have h0 := s.isLt; have h1 := x.isLt; have h2 := r.isLt; have h3 := d.isLt
  refine ⟨rfl, ?_, ?_⟩ <;> dsimp only <;> omega
theorem Encoding.redAddF32 (s : BitVec 2) (x : BitVec 8) (r : BitVec 5) (d : BitVec 7) : Encoding.Statement (.redAddF32 s x r d) := by
  have h0 := s.isLt; have h1 := x.isLt; have h2 := r.isLt; have h3 := d.isLt
  refine ⟨rfl, ?_, ?_⟩ <;> dsimp only <;> omega
theorem Encoding.redAddD (s : BitVec 2) (x : BitVec 8) (r : BitVec 5) (d : BitVec 7) : Encoding.Statement (.redAddD s x r d) := by
  have h0 := s.isLt; have h1 := x.isLt; have h2 := r.isLt; have h3 := d.isLt
  refine ⟨rfl, ?_, ?_⟩ <;> dsimp only <;> omega
theorem Encoding.redExchD (s : BitVec 2) (x : BitVec 8) (r : BitVec 5) (d : BitVec 7) : Encoding.Statement (.redExchD s x r d) := by
  have h0 := s.isLt; have h1 := x.isLt; have h2 := r.isLt; have h3 := d.isLt
  refine ⟨rfl, ?_, ?_⟩ <;> dsimp only <;> omega
theorem Encoding.redMinU (s : BitVec 2) (x : BitVec 8) (r : BitVec 5) (d : BitVec 7) : Encoding.Statement (.redMinU s x r d) := by
  have h0 := s.isLt; have h1 := x.isLt; have h2 := r.isLt; have h3 := d.isLt
  refine ⟨rfl, ?_, ?_⟩ <;> dsimp only <;> omega
theorem Encoding.redMaxU (s : BitVec 2) (x : BitVec 8) (r : BitVec 5) (d : BitVec 7) : Encoding.Statement (.redMaxU s x r d) := by
  have h0 := s.isLt; have h1 := x.isLt; have h2 := r.isLt; have h3 := d.isLt
  refine ⟨rfl, ?_, ?_⟩ <;> dsimp only <;> omega
theorem Encoding.redIncWrap (s : BitVec 2) (x : BitVec 8) (r : BitVec 5) (d : BitVec 7) : Encoding.Statement (.redIncWrap s x r d) := by
  have h0 := s.isLt; have h1 := x.isLt; have h2 := r.isLt; have h3 := d.isLt
  refine ⟨rfl, ?_, ?_⟩ <;> dsimp only <;> omega
theorem Encoding.redAddF64 (s : BitVec 2) (x : BitVec 8) (r : BitVec 5) (d : BitVec 7) : Encoding.Statement (.redAddF64 s x r d) := by
  have h0 := s.isLt; have h1 := x.isLt; have h2 := r.isLt; have h3 := d.isLt
  refine ⟨rfl, ?_, ?_⟩ <;> dsimp only <;> omega
theorem Encoding.ldv (x : BitVec 8) (r : BitVec 5) (d : BitVec 7) : Encoding.Statement (.ldv x r d) := by
  have h0 := x.isLt; have h1 := r.isLt; have h2 := d.isLt
  refine ⟨rfl, ?_, ?_⟩ <;> dsimp only <;> omega
theorem Encoding.ldvsW (x : BitVec 8) (r : BitVec 5) (d : BitVec 7) : Encoding.Statement (.ldvsW x r d) := by
  have h0 := x.isLt; have h1 := r.isLt; have h2 := d.isLt
  refine ⟨rfl, ?_, ?_⟩ <;> dsimp only <;> omega
theorem Encoding.ldvsD (x : BitVec 8) (r : BitVec 5) (d : BitVec 7) : Encoding.Statement (.ldvsD x r d) := by
  have h0 := x.isLt; have h1 := r.isLt; have h2 := d.isLt
  refine ⟨rfl, ?_, ?_⟩ <;> dsimp only <;> omega
theorem Encoding.vrd (x : BitVec 8) (r : BitVec 5) (d : BitVec 7) : Encoding.Statement (.vrd x r d) := by
  have h0 := x.isLt; have h1 := r.isLt; have h2 := d.isLt
  refine ⟨rfl, ?_, ?_⟩ <;> dsimp only <;> omega
theorem Encoding.casvW (x : BitVec 8) (r : BitVec 5) (d : BitVec 7) : Encoding.Statement (.casvW x r d) := by
  have h0 := x.isLt; have h1 := r.isLt; have h2 := d.isLt
  refine ⟨rfl, ?_, ?_⟩ <;> dsimp only <;> omega
theorem Encoding.casvD (x : BitVec 8) (r : BitVec 5) (d : BitVec 7) : Encoding.Statement (.casvD x r d) := by
  have h0 := x.isLt; have h1 := r.isLt; have h2 := d.isLt
  refine ⟨rfl, ?_, ?_⟩ <;> dsimp only <;> omega
theorem Encoding.vchk (p : BitVec 3) : Encoding.Statement (.vchk p) := by
  have h0 := p.isLt
  refine ⟨rfl, ?_, ?_⟩ <;> dsimp only <;> omega
theorem Encoding.waitc (c : BitVec 2) (n : BitVec 6) : Encoding.Statement (.waitc c n) := by
  have h0 := c.isLt; have h1 := n.isLt
  refine ⟨rfl, ?_, ?_⟩ <;> dsimp only <;> omega
theorem Encoding.sleept (a : BitVec 8) : Encoding.Statement (.sleept a) := by
  have h0 := a.isLt
  refine ⟨rfl, ?_, ?_⟩ <;> dsimp only <;> omega
theorem Encoding.cpoll (r : BitVec 5) (a : BitVec 8) (d : BitVec 7) : Encoding.Statement (.cpoll r a d) := by
  have h0 := r.isLt; have h1 := a.isLt; have h2 := d.isLt
  refine ⟨rfl, ?_, ?_⟩ <;> dsimp only <;> omega
theorem Encoding.cpy (b : BitVec 8) (a : BitVec 8) (d : BitVec 7) : Encoding.Statement (.cpy b a d) := by
  have h0 := b.isLt; have h1 := a.isLt; have h2 := d.isLt
  refine ⟨rfl, ?_, ?_⟩ <;> dsimp only <;> omega
theorem Encoding.cpy2d (b : BitVec 8) (a : BitVec 8) (d : BitVec 7) : Encoding.Statement (.cpy2d b a d) := by
  have h0 := b.isLt; have h1 := a.isLt; have h2 := d.isLt
  refine ⟨rfl, ?_, ?_⟩ <;> dsimp only <;> omega
theorem Encoding.gath (b : BitVec 8) (a : BitVec 8) (d : BitVec 7) : Encoding.Statement (.gath b a d) := by
  have h0 := b.isLt; have h1 := a.isLt; have h2 := d.isLt
  refine ⟨rfl, ?_, ?_⟩ <;> dsimp only <;> omega
theorem Encoding.scat (b : BitVec 8) (a : BitVec 8) (d : BitVec 7) : Encoding.Statement (.scat b a d) := by
  have h0 := b.isLt; have h1 := a.isLt; have h2 := d.isLt
  refine ⟨rfl, ?_, ?_⟩ <;> dsimp only <;> omega
theorem Encoding.abarInit (b : BitVec 8) (a : BitVec 8) : Encoding.Statement (.abarInit b a) := by
  have h0 := b.isLt; have h1 := a.isLt
  refine ⟨rfl, ?_, ?_⟩ <;> dsimp only <;> omega
theorem Encoding.abarArv (b : BitVec 8) (a : BitVec 8) (d : BitVec 7) : Encoding.Statement (.abarArv b a d) := by
  have h0 := b.isLt; have h1 := a.isLt; have h2 := d.isLt
  refine ⟨rfl, ?_, ?_⟩ <;> dsimp only <;> omega
theorem Encoding.abarWait (b : BitVec 8) (a : BitVec 8) : Encoding.Statement (.abarWait b a) := by
  have h0 := b.isLt; have h1 := a.isLt
  refine ⟨rfl, ?_, ?_⟩ <;> dsimp only <;> omega
theorem Encoding.abarTry (b : BitVec 8) (a : BitVec 8) (d : BitVec 7) : Encoding.Statement (.abarTry b a d) := by
  have h0 := b.isLt; have h1 := a.isLt; have h2 := d.isLt
  refine ⟨rfl, ?_, ?_⟩ <;> dsimp only <;> omega
theorem Encoding.qinit (b : BitVec 8) (a : BitVec 8) : Encoding.Statement (.qinit b a) := by
  have h0 := b.isLt; have h1 := a.isLt
  refine ⟨rfl, ?_, ?_⟩ <;> dsimp only <;> omega
theorem Encoding.qpush (b : BitVec 8) (a : BitVec 8) : Encoding.Statement (.qpush b a) := by
  have h0 := b.isLt; have h1 := a.isLt
  refine ⟨rfl, ?_, ?_⟩ <;> dsimp only <;> omega
theorem Encoding.qpop (a : BitVec 8) (d : BitVec 7) : Encoding.Statement (.qpop a d) := by
  have h0 := a.isLt; have h1 := d.isLt
  refine ⟨rfl, ?_, ?_⟩ <;> dsimp only <;> omega
theorem Encoding.qpushTry (b : BitVec 8) (a : BitVec 8) (d : BitVec 7) : Encoding.Statement (.qpushTry b a d) := by
  have h0 := b.isLt; have h1 := a.isLt; have h2 := d.isLt
  refine ⟨rfl, ?_, ?_⟩ <;> dsimp only <;> omega
theorem Encoding.qtpop (a : BitVec 8) (d : BitVec 7) : Encoding.Statement (.qtpop a d) := by
  have h0 := a.isLt; have h1 := d.isLt
  refine ⟨rfl, ?_, ?_⟩ <;> dsimp only <;> omega
theorem Encoding.qallow (b : BitVec 8) (a : BitVec 8) : Encoding.Statement (.qallow b a) := by
  have h0 := b.isLt; have h1 := a.isLt
  refine ⟨rfl, ?_, ?_⟩ <;> dsimp only <;> omega
theorem Encoding.qclose (a : BitVec 8) : Encoding.Statement (.qclose a) := by
  have h0 := a.isLt
  refine ⟨rfl, ?_, ?_⟩ <;> dsimp only <;> omega
theorem Encoding.qstat (a : BitVec 8) (d : BitVec 7) : Encoding.Statement (.qstat a d) := by
  have h0 := a.isLt; have h1 := d.isLt
  refine ⟨rfl, ?_, ?_⟩ <;> dsimp only <;> omega
theorem Encoding.ores (b : BitVec 8) (a : BitVec 8) (d : BitVec 4) : Encoding.Statement (.ores b a d) := by
  have h0 := b.isLt; have h1 := a.isLt; have h2 := d.isLt
  refine ⟨rfl, ?_, ?_⟩ <;> dsimp only <;> omega
theorem Encoding.orel (d : BitVec 4) : Encoding.Statement (.orel d) := by
  have h0 := d.isLt
  refine ⟨rfl, ?_, ?_⟩ <;> dsimp only <;> omega
theorem Encoding.allock (a : BitVec 8) (d : BitVec 7) : Encoding.Statement (.allock a d) := by
  have h0 := a.isLt; have h1 := d.isLt
  refine ⟨rfl, ?_, ?_⟩ <;> dsimp only <;> omega
theorem Encoding.freek (b : BitVec 8) (a : BitVec 8) : Encoding.Statement (.freek b a) := by
  have h0 := b.isLt; have h1 := a.isLt
  refine ⟨rfl, ?_, ?_⟩ <;> dsimp only <;> omega
theorem Encoding.mld (a : BitVec 8) (d : BitVec 4) : Encoding.Statement (.mld a d) := by
  have h0 := a.isLt; have h1 := d.isLt
  refine ⟨rfl, ?_, ?_⟩ <;> dsimp only <;> omega
theorem Encoding.mlds (b : BitVec 8) (a : BitVec 8) (d : BitVec 4) : Encoding.Statement (.mlds b a d) := by
  have h0 := b.isLt; have h1 := a.isLt; have h2 := d.isLt
  refine ⟨rfl, ?_, ?_⟩ <;> dsimp only <;> omega
theorem Encoding.mlease (a : BitVec 8) : Encoding.Statement (.mlease a) := by
  have h0 := a.isLt
  refine ⟨rfl, ?_, ?_⟩ <;> dsimp only <;> omega
theorem Encoding.mma (b : BitVec 4) (a : BitVec 4) (d : BitVec 7) : Encoding.Statement (.mma b a d) := by
  have h0 := b.isLt; have h1 := a.isLt; have h2 := d.isLt
  refine ⟨rfl, ?_, ?_⟩ <;> dsimp only <;> omega
theorem Encoding.mmap (b : BitVec 4) (a : BitVec 4) (d : BitVec 7) : Encoding.Statement (.mmap b a d) := by
  have h0 := b.isLt; have h1 := a.isLt; have h2 := d.isLt
  refine ⟨rfl, ?_, ?_⟩ <;> dsimp only <;> omega
theorem Encoding.mzero (a : BitVec 8) : Encoding.Statement (.mzero a) := by
  have h0 := a.isLt
  refine ⟨rfl, ?_, ?_⟩ <;> dsimp only <;> omega
theorem Encoding.maccr (a : BitVec 8) (d : BitVec 7) : Encoding.Statement (.maccr a d) := by
  have h0 := a.isLt; have h1 := d.isLt
  refine ⟨rfl, ?_, ?_⟩ <;> dsimp only <;> omega
theorem Encoding.maccw (b : BitVec 8) (a : BitVec 8) : Encoding.Statement (.maccw b a) := by
  have h0 := b.isLt; have h1 := a.isLt
  refine ⟨rfl, ?_, ?_⟩ <;> dsimp only <;> omega
theorem Encoding.mst (a : BitVec 8) : Encoding.Statement (.mst a) := by
  have h0 := a.isLt
  refine ⟨rfl, ?_, ?_⟩ <;> dsimp only <;> omega
theorem Encoding.accsave (a : BitVec 8) : Encoding.Statement (.accsave a) := by
  have h0 := a.isLt
  refine ⟨rfl, ?_, ?_⟩ <;> dsimp only <;> omega
theorem Encoding.accload (a : BitVec 8) : Encoding.Statement (.accload a) := by
  have h0 := a.isLt
  refine ⟨rfl, ?_, ?_⟩ <;> dsimp only <;> omega
theorem Encoding.bra (o : BitVec 19) (s : BitVec 1) (p : BitVec 3) : Encoding.Statement (.bra o s p) := by
  have h0 := o.isLt; have h1 := s.isLt; have h2 := p.isLt
  refine ⟨rfl, ?_, ?_⟩ <;> dsimp only <;> omega
theorem Encoding.brc (o : BitVec 19) (s : BitVec 1) (p : BitVec 3) : Encoding.Statement (.brc o s p) := by
  have h0 := o.isLt; have h1 := s.isLt; have h2 := p.isLt
  refine ⟨rfl, ?_, ?_⟩ <;> dsimp only <;> omega
theorem Encoding.call (o : BitVec 19) (s : BitVec 1) (p : BitVec 3) : Encoding.Statement (.call o s p) := by
  have h0 := o.isLt; have h1 := s.isLt; have h2 := p.isLt
  refine ⟨rfl, ?_, ?_⟩ <;> dsimp only <;> omega
theorem Encoding.brx (r : BitVec 7) (s : BitVec 1) (p : BitVec 3) : Encoding.Statement (.brx r s p) := by
  have h0 := r.isLt; have h1 := s.isLt; have h2 := p.isLt
  refine ⟨rfl, ?_, ?_⟩ <;> dsimp only <;> omega
theorem Encoding.callx (r : BitVec 7) (s : BitVec 1) (p : BitVec 3) : Encoding.Statement (.callx r s p) := by
  have h0 := r.isLt; have h1 := s.isLt; have h2 := p.isLt
  refine ⟨rfl, ?_, ?_⟩ <;> dsimp only <;> omega
theorem Encoding.jset (o : BitVec 19) : Encoding.Statement (.jset o) := by
  have h0 := o.isLt
  refine ⟨rfl, ?_, ?_⟩ <;> dsimp only <;> omega
theorem Encoding.loop (o : BitVec 19) (n : BitVec 3) : Encoding.Statement (.loop o n) := by
  have h0 := o.isLt; have h1 := n.isLt
  refine ⟨rfl, ?_, ?_⟩ <;> dsimp only <;> omega
theorem Encoding.trapi (i : BitVec 8) : Encoding.Statement (.trapi i) := by
  have h0 := i.isLt
  refine ⟨rfl, ?_, ?_⟩ <;> dsimp only <;> omega
theorem Encoding.signal (i : BitVec 1) (a : BitVec 8) : Encoding.Statement (.signal i a) := by
  have h0 := i.isLt; have h1 := a.isLt
  refine ⟨rfl, ?_, ?_⟩ <;> dsimp only <;> omega
theorem Encoding.rdsr (i : BitVec 8) (d : BitVec 7) : Encoding.Statement (.rdsr i d) := by
  have h0 := i.isLt; have h1 := d.isLt
  refine ⟨rfl, ?_, ?_⟩ <;> dsimp only <;> omega
theorem Encoding.wrsr (i : BitVec 8) (a : BitVec 8) : Encoding.Statement (.wrsr i a) := by
  have h0 := i.isLt; have h1 := a.isLt
  refine ⟨rfl, ?_, ?_⟩ <;> dsimp only <;> omega
theorem Encoding.brec (o : BitVec 8) (a : BitVec 8) (n : BitVec 5) : Encoding.Statement (.brec o a n) := by
  have h0 := o.isLt; have h1 := a.isLt; have h2 := n.isLt
  refine ⟨rfl, ?_, ?_⟩ <;> dsimp only <;> omega
theorem Encoding.vstat (i : BitVec 8) (a : BitVec 8) (d : BitVec 7) : Encoding.Statement (.vstat i a d) := by
  have h0 := i.isLt; have h1 := a.isLt; have h2 := d.isLt
  refine ⟨rfl, ?_, ?_⟩ <;> dsimp only <;> omega
theorem Encoding.rlaunch (a : BitVec 8) : Encoding.Statement (.rlaunch a) := by
  have h0 := a.isLt
  refine ⟨rfl, ?_, ?_⟩ <;> dsimp only <;> omega
theorem Encoding.tlbfill (l : BitVec 2) (a : BitVec 8) : Encoding.Statement (.tlbfill l a) := by
  have h0 := l.isLt; have h1 := a.isLt
  refine ⟨rfl, ?_, ?_⟩ <;> dsimp only <;> omega
theorem Encoding.tlbinv (s : BitVec 2) (a : BitVec 8) : Encoding.Statement (.tlbinv s a) := by
  have h0 := s.isLt; have h1 := a.isLt
  refine ⟨rfl, ?_, ?_⟩ <;> dsimp only <;> omega
theorem Encoding.plogrd (p : BitVec 5) (k : BitVec 1) (d : BitVec 7) : Encoding.Statement (.plogrd p k d) := by
  have h0 := p.isLt; have h1 := k.isLt; have h2 := d.isLt
  refine ⟨rfl, ?_, ?_⟩ <;> dsimp only <;> omega
theorem Encoding.actset (a : BitVec 8) : Encoding.Statement (.actset a) := by
  have h0 := a.isLt
  refine ⟨rfl, ?_, ?_⟩ <;> dsimp only <;> omega
theorem Encoding.philox (b : BitVec 8) (a : BitVec 8) (d : BitVec 7) : Encoding.Statement (.philox b a d) := by
  have h0 := b.isLt; have h1 := a.isLt; have h2 := d.isLt
  refine ⟨rfl, ?_, ?_⟩ <;> dsimp only <;> omega
theorem Encoding.coll (b : BitVec 8) (a : BitVec 8) (t : BitVec 3) : Encoding.Statement (.coll b a t) := by
  have h0 := b.isLt; have h1 := a.isLt; have h2 := t.isLt
  refine ⟨rfl, ?_, ?_⟩ <;> dsimp only <;> omega
theorem Encoding.add (b : BitVec 5) (d : BitVec 5) : Encoding.Statement (.add b d) := by
  have h0 := b.isLt; have h1 := d.isLt
  refine ⟨rfl, ?_, ?_⟩ <;> dsimp only <;> omega
theorem Encoding.sub (b : BitVec 5) (d : BitVec 5) : Encoding.Statement (.sub b d) := by
  have h0 := b.isLt; have h1 := d.isLt
  refine ⟨rfl, ?_, ?_⟩ <;> dsimp only <;> omega
theorem Encoding.andParcel (b : BitVec 5) (d : BitVec 5) : Encoding.Statement (.andParcel b d) := by
  have h0 := b.isLt; have h1 := d.isLt
  refine ⟨rfl, ?_, ?_⟩ <;> dsimp only <;> omega
theorem Encoding.orParcel (b : BitVec 5) (d : BitVec 5) : Encoding.Statement (.orParcel b d) := by
  have h0 := b.isLt; have h1 := d.isLt
  refine ⟨rfl, ?_, ?_⟩ <;> dsimp only <;> omega
theorem Encoding.xorParcel (b : BitVec 5) (d : BitVec 5) : Encoding.Statement (.xorParcel b d) := by
  have h0 := b.isLt; have h1 := d.isLt
  refine ⟨rfl, ?_, ?_⟩ <;> dsimp only <;> omega
theorem Encoding.shlParcel (b : BitVec 5) (d : BitVec 5) : Encoding.Statement (.shlParcel b d) := by
  have h0 := b.isLt; have h1 := d.isLt
  refine ⟨rfl, ?_, ?_⟩ <;> dsimp only <;> omega
theorem Encoding.shrParcel (b : BitVec 5) (d : BitVec 5) : Encoding.Statement (.shrParcel b d) := by
  have h0 := b.isLt; have h1 := d.isLt
  refine ⟨rfl, ?_, ?_⟩ <;> dsimp only <;> omega
theorem Encoding.mov (b : BitVec 5) (d : BitVec 5) : Encoding.Statement (.mov b d) := by
  have h0 := b.isLt; have h1 := d.isLt
  refine ⟨rfl, ?_, ?_⟩ <;> dsimp only <;> omega
theorem Encoding.faddParcel (b : BitVec 5) (d : BitVec 5) : Encoding.Statement (.faddParcel b d) := by
  have h0 := b.isLt; have h1 := d.isLt
  refine ⟨rfl, ?_, ?_⟩ <;> dsimp only <;> omega
theorem Encoding.fsubParcel (b : BitVec 5) (d : BitVec 5) : Encoding.Statement (.fsubParcel b d) := by
  have h0 := b.isLt; have h1 := d.isLt
  refine ⟨rfl, ?_, ?_⟩ <;> dsimp only <;> omega
theorem Encoding.fmulParcel (b : BitVec 5) (d : BitVec 5) : Encoding.Statement (.fmulParcel b d) := by
  have h0 := b.isLt; have h1 := d.isLt
  refine ⟨rfl, ?_, ?_⟩ <;> dsimp only <;> omega
theorem Encoding.fminParcel (b : BitVec 5) (d : BitVec 5) : Encoding.Statement (.fminParcel b d) := by
  have h0 := b.isLt; have h1 := d.isLt
  refine ⟨rfl, ?_, ?_⟩ <;> dsimp only <;> omega
theorem Encoding.fmaxParcel (b : BitVec 5) (d : BitVec 5) : Encoding.Statement (.fmaxParcel b d) := by
  have h0 := b.isLt; have h1 := d.isLt
  refine ⟨rfl, ?_, ?_⟩ <;> dsimp only <;> omega
theorem Encoding.imulParcel (b : BitVec 5) (d : BitVec 5) : Encoding.Statement (.imulParcel b d) := by
  have h0 := b.isLt; have h1 := d.isLt
  refine ⟨rfl, ?_, ?_⟩ <;> dsimp only <;> omega
theorem Encoding.addi (i : BitVec 5) (d : BitVec 5) : Encoding.Statement (.addi i d) := by
  have h0 := i.isLt; have h1 := d.isLt
  refine ⟨rfl, ?_, ?_⟩ <;> dsimp only <;> omega
theorem Encoding.movi (i : BitVec 5) (d : BitVec 5) : Encoding.Statement (.movi i d) := by
  have h0 := i.isLt; have h1 := d.isLt
  refine ⟨rfl, ?_, ?_⟩ <;> dsimp only <;> omega
theorem Encoding.grd (c : BitVec 2) (s : BitVec 1) (p : BitVec 3) : Encoding.Statement (.grd c s p) := by
  have h0 := c.isLt; have h1 := s.isLt; have h2 := p.isLt
  refine ⟨rfl, ?_, ?_⟩ <;> dsimp only <;> omega
theorem Encoding.xm (d : BitVec 2) (e : BitVec 1) (s : BitVec 1) (r : BitVec 1) (b : BitVec 1) (m : BitVec 1) (a : BitVec 1) (n : BitVec 1) : Encoding.Statement (.xm d e s r b m a n) := by
  have h0 := d.isLt; have h1 := e.isLt; have h2 := s.isLt; have h3 := r.isLt; have h4 := b.isLt; have h5 := m.isLt; have h6 := a.isLt; have h7 := n.isLt
  refine ⟨rfl, ?_, ?_⟩ <;> dsimp only <;> omega
theorem Encoding.beat (i : BitVec 10) : Encoding.Statement (.beat i) := by
  have h0 := i.isLt
  refine ⟨rfl, ?_, ?_⟩ <;> dsimp only <;> omega
theorem Encoding.brs (o : BitVec 10) : Encoding.Statement (.brs o) := by
  have h0 := o.isLt
  refine ⟨rfl, ?_, ?_⟩ <;> dsimp only <;> omega
theorem Encoding.waitcParcel (n : BitVec 6) (c : BitVec 2) : Encoding.Statement (.waitcParcel n c) := by
  have h0 := n.isLt; have h1 := c.isLt
  refine ⟨rfl, ?_, ?_⟩ <;> dsimp only <;> omega
theorem Encoding.sleep (n : BitVec 10) : Encoding.Statement (.sleep n) := by
  have h0 := n.isLt
  refine ⟨rfl, ?_, ?_⟩ <;> dsimp only <;> omega
theorem Encoding.vclr : Encoding.Statement .vclr := by refine ⟨rfl, ?_, ?_⟩ <;> decide
theorem Encoding.acq : Encoding.Statement .acq := by refine ⟨rfl, ?_, ?_⟩ <;> decide
theorem Encoding.rel : Encoding.Statement .rel := by refine ⟨rfl, ?_, ?_⟩ <;> decide
theorem Encoding.acqrel : Encoding.Statement .acqrel := by refine ⟨rfl, ?_, ?_⟩ <;> decide
theorem Encoding.fenceEng : Encoding.Statement .fenceEng := by refine ⟨rfl, ?_, ?_⟩ <;> decide
theorem Encoding.mrel : Encoding.Statement .mrel := by refine ⟨rfl, ?_, ?_⟩ <;> decide
theorem Encoding.rtt : Encoding.Statement .rtt := by refine ⟨rfl, ?_, ?_⟩ <;> decide
theorem Encoding.nop : Encoding.Statement .nop := by refine ⟨rfl, ?_, ?_⟩ <;> decide
theorem Encoding.yield : Encoding.Statement .yield := by refine ⟨rfl, ?_, ?_⟩ <;> decide
theorem Encoding.tfence : Encoding.Statement .tfence := by refine ⟨rfl, ?_, ?_⟩ <;> decide
theorem Encoding.exit : Encoding.Statement .exit := by refine ⟨rfl, ?_, ?_⟩ <;> decide
theorem Encoding.ret : Encoding.Statement .ret := by refine ⟨rfl, ?_, ?_⟩ <;> decide
theorem Encoding.join : Encoding.Statement .join := by refine ⟨rfl, ?_, ?_⟩ <;> decide
theorem Encoding.longLatencyFill : Encoding.Statement .longLatencyFill := trivial
theorem Encoding.accessPerformed : Encoding.Statement .accessPerformed := trivial
theorem Encoding.requestRetire : Encoding.Statement .requestRetire := trivial
theorem Encoding.engineRequestStop : Encoding.Statement .engineRequestStop := trivial
theorem Encoding.deferredReportTrap : Encoding.Statement .deferredReportTrap := trivial
theorem Encoding.copyPromiseMiss : Encoding.Statement .copyPromiseMiss := trivial
theorem Encoding.sleeptWake : Encoding.Statement .sleeptWake := trivial
theorem Encoding.sleepWake : Encoding.Statement .sleepWake := trivial
theorem Encoding.yieldEnd : Encoding.Statement .yieldEnd := trivial
theorem Encoding.groupEnd : Encoding.Statement .groupEnd := trivial
theorem Encoding.activityWindow : Encoding.Statement .activityWindow := trivial
theorem Encoding.boostCeiling : Encoding.Statement .boostCeiling := trivial
theorem Encoding.arbiterPass : Encoding.Statement .arbiterPass := trivial
theorem Encoding.leaseIdleEnd : Encoding.Statement .leaseIdleEnd := trivial
theorem Encoding.collectiveChunkSend : Encoding.Statement .collectiveChunkSend := trivial
theorem Encoding.chunkCreditReturn : Encoding.Statement .chunkCreditReturn := trivial
theorem Encoding.collectiveResume : Encoding.Statement .collectiveResume := trivial
theorem Encoding.collectiveComplete : Encoding.Statement .collectiveComplete := trivial
theorem Encoding.pageWalk : Encoding.Statement .pageWalk := trivial
theorem Encoding.pageRequestRewalk : Encoding.Statement .pageRequestRewalk := trivial
theorem Encoding.pantryReplay : Encoding.Statement .pantryReplay := trivial
theorem Encoding.remoteRequest : Encoding.Statement .remoteRequest := trivial
theorem Encoding.remoteRetry : Encoding.Statement .remoteRetry := trivial
theorem Encoding.peerRequest : Encoding.Statement .peerRequest := trivial
theorem Encoding.bar2Access : Encoding.Statement .bar2Access := trivial
theorem Encoding.railFlitReceive : Encoding.Statement .railFlitReceive := trivial
theorem Encoding.flitResend : Encoding.Statement .flitResend := trivial
theorem Encoding.railRetrain : Encoding.Statement .railRetrain := trivial
theorem Encoding.railPortFailed : Encoding.Statement .railPortFailed := trivial
theorem Encoding.qnotify : Encoding.Statement .qnotify := trivial
theorem Encoding.vfDoorbell : Encoding.Statement .vfDoorbell := trivial
theorem Encoding.frontEndTurn : Encoding.Statement .frontEndTurn := trivial
theorem Encoding.noOperation : Encoding.Statement .noOperation := trivial
theorem Encoding.launch : Encoding.Statement .launch := trivial
theorem Encoding.queueIdleUnmap : Encoding.Statement .queueIdleUnmap := trivial
theorem Encoding.notifyWaitExpiry : Encoding.Statement .notifyWaitExpiry := trivial
theorem Encoding.tokenRefill : Encoding.Statement .tokenRefill := trivial
theorem Encoding.bucketDry : Encoding.Statement .bucketDry := trivial
theorem Encoding.budgetReached : Encoding.Statement .budgetReached := trivial
theorem Encoding.placementDecision : Encoding.Statement .placementDecision := trivial
theorem Encoding.blockReserving : Encoding.Statement .blockReserving := trivial
theorem Encoding.clusterGate : Encoding.Statement .clusterGate := trivial
theorem Encoding.preemptDrain : Encoding.Statement .preemptDrain := trivial
theorem Encoding.preemptFreeze : Encoding.Statement .preemptFreeze := trivial
theorem Encoding.preemptResume : Encoding.Statement .preemptResume := trivial
theorem Encoding.drainHandler : Encoding.Statement .drainHandler := trivial
theorem Encoding.drainDeadline : Encoding.Statement .drainDeadline := trivial
theorem Encoding.blockFreeze : Encoding.Statement .blockFreeze := trivial
theorem Encoding.periodBoundary : Encoding.Statement .periodBoundary := trivial
theorem Encoding.mergedBeats : Encoding.Statement .mergedBeats := trivial
theorem Encoding.mergeWindowExpiry : Encoding.Statement .mergeWindowExpiry := trivial
theorem Encoding.geyserStep : Encoding.Statement .geyserStep := trivial
theorem Encoding.poolWayChangeDone : Encoding.Statement .poolWayChangeDone := trivial
theorem Encoding.poolWayChangeSlow : Encoding.Statement .poolWayChangeSlow := trivial
theorem Encoding.gloopBind : Encoding.Statement .gloopBind := trivial
theorem Encoding.gloopUnbind : Encoding.Statement .gloopUnbind := trivial
theorem Encoding.clockStepSwitch : Encoding.Statement .clockStepSwitch := trivial
theorem Encoding.sensorSample : Encoding.Statement .sensorSample := trivial
theorem Encoding.refreshCommand : Encoding.Statement .refreshCommand := trivial
theorem Encoding.currentCapWindow : Encoding.Statement .currentCapWindow := trivial
theorem Encoding.currentCapRise : Encoding.Statement .currentCapRise := trivial
theorem Encoding.powerCapWindow : Encoding.Statement .powerCapWindow := trivial
theorem Encoding.scrub : Encoding.Statement .scrub := trivial
theorem Encoding.partActivate : Encoding.Statement .partActivate := trivial
theorem Encoding.partDeactivate : Encoding.Statement .partDeactivate := trivial
theorem Encoding.vdbindEnable : Encoding.Statement .vdbindEnable := trivial
theorem Encoding.queueEnable : Encoding.Statement .queueEnable := trivial
theorem Encoding.queueDisable : Encoding.Statement .queueDisable := trivial
theorem Encoding.vdlogTailWrite : Encoding.Statement .vdlogTailWrite := trivial
theorem Encoding.registerWrite : Encoding.Statement .registerWrite := trivial
theorem Encoding.recoveryGo : Encoding.Statement .recoveryGo := trivial
theorem Encoding.startUp : Encoding.Statement .startUp := trivial
theorem Encoding.railRetrainComplete : Encoding.Statement .railRetrainComplete := trivial
theorem Encoding.clusterWakeComplete : Encoding.Statement .clusterWakeComplete := trivial
theorem Encoding.partitionKeyLoad : Encoding.Statement .partitionKeyLoad := trivial

end Sys2Proof.Laws
end

