-- ==== Sys2Proof/Tests/Slice0.lean ====
section
/-! SUPPORT. Checks of the model's own: ill-formed terms that WellFormed refuses, words written out from the spec's encodings, one
instruction on one small state with results worked out from the spec, and for every statement with hypotheses states that meet
them. -/

set_option maxRecDepth 20000
set_option Elab.async false

namespace Sys2Proof.Tests

open Sys2Proof.Machine

/-! ### States -/

/-- The state after reset with one group of 32 lanes resident on core 0, its block holding 4,096 bytes of scratchpad on each core. -/
def base : State :=
  let s := State.reset.seat 32 1
  { s with agenda := [], blocks := s.blocks.map fun b => { b with share := 4096 } }

/-- The same value in every lane of some registers. -/
def withV (s : State) (l : List (Nat × Nat)) : State :=
  s.modG fun g => l.foldl (fun g x => g.writeReg x.1 (BitVec.allOnes 32) fun _ => BitVec.ofNat 32 x.2) g

/-- A register whose lanes hold f. -/
def withLanes (s : State) (r : Nat) (f : Nat → Nat) : State :=
  s.modG fun g => g.writeReg r (BitVec.allOnes 32) fun l => BitVec.ofNat 32 (f l.val)

/-- The active lanes of the split. -/
def withMask (s : State) (m : Mask) : State := s.modSp fun sp => { sp with mask := m }

/-- A number in core 0's scratchpad. -/
def withMem (s : State) (o n v : Nat) : State := s.modCore 0 fun c => { c with scratch := Memory.writeLE c.scratch o n v }

/-- A record of b. -/
def withB (s : State) (n v : Nat) : State := s.modG fun g => { g with b := vset g.b n (BitVec.ofNat 128 v) }

def inTrap (s : State) : State := s.modSp fun sp => { sp with trap := true }

def inService (s : State) : State := { s with g := { s.g with service := true } }

/-- A step of the device at what an event names. -/
def at_ (s : State) (e : EvArgs) : State := { s with ev := e }

/-- A field of the state that a step leaves. -/
def after {α : Type} (o : Host.Outcome State Fault Refusal) (f : State → α) : Option α :=
  match o with
  | .next t => some (f t)
  | _ => none

/-- A lane of a register behind a step. -/
def laneAfter (i : Instr) (s : State) (r : Nat) (l : Lane) : Option Word := after (exec i s) fun t => t.g.read r l

/-! ### Conditions as truth values -/

/-- The conditions of State.issues as one list. -/
def issueTests (s : State) (i : Instr) : List Bool :=
  [i.wf, !s.xmBad i, decide (s.g.sp.guardLeft = 0) || guardable i, (uses i).all fun u => u.ok s.regLimit, predOk i, !s.useBad i,
    s.privileged i, (uses i).all fun u => !s.useEmpty u, (recordOf i).all fun n => !s.g.bPend.getLsbD n, !s.noLane]

def issuesB (s : State) (i : Instr) : Bool := (issueTests s i).all id

theorem issues_of {s : State} {i : Instr} (h : issuesB s i = true) : s.issues i := by
  have all : ∀ b ∈ issueTests s i, b = true := by simpa [issuesB] using h
  constructor
  case records =>
    intro n hn
    have free : (recordOf i).all (fun n => !s.g.bPend.getLsbD n) = true := all _ (by simp [issueTests])
    simpa [hn] using free
  all_goals simp_all [issueTests]

theorem looksUp_of {s : State} {look : Lane → (LaneRes × Nat) × State} {tgt : Lane → Target × Nat}
    (h : s.act ≠ 0 ∧ ∀ l, laneIn s.act l = true → (look l).1 = (.ok (tgt l).1, (tgt l).2) ∧ (look l).2 = s) : LooksUp s look tgt :=
  ⟨h.1, fun l hl => Prod.ext (h.2 l hl).1 (h.2 l hl).2⟩

/-! ### Words: every row of the table at operands of its own, laid out by the fields of R121 to R127 and R133 -/

/-- The decoder reads each of these codes as its instruction, and the encoder gives the code back. -/
def codesAgree (l : List (Nat × Nat × Instr)) : Bool :=
  l.all fun x => decide (decodeTableWord x.1 x.2.1 = some x.2.2) && decide (encode x.2.2 = some ⟨x.1, x.2.1⟩)

theorem test_words_major0 : codesAgree [
    (32, 0x0582B201, .iadd 44 21 72), (32, 0x2582B201, .isub 44 21 72), (32, 0x4582B201, .imul 44 21 72),
    (32, 0x6582B201, .imulhS 44 21 72), (32, 0x8582B201, .imulhU 44 21 72), (32, 0xA582B201, .imad 44 21 72),
    (32, 0xC582B201, .iaddc 44 21 72), (32, 0xE582B201, .isubb 44 21 72)] = true := by decide +kernel

theorem test_words_major1 : codesAgree [
    (32, 0x0582B203, .and 44 21 72), (32, 0x2582B203, .or 44 21 72), (32, 0x4582B203, .xor 44 21 72),
    (32, 0x6582B203, .andn 44 21 72), (32, 0x8582B203, .shl 44 21 72), (32, 0xA582B203, .shr 44 21 72),
    (32, 0xC582B203, .sar 44 21 72), (32, 0xE582B203, .rotl 44 21 72)] = true := by decide +kernel

theorem test_words_major2 : codesAgree [
    (32, 0x0582B205, .iminS 44 21 72), (32, 0x2582B205, .imaxS 44 21 72), (32, 0x4582B205, .iminU 44 21 72),
    (32, 0x6582B205, .imaxU 44 21 72), (32, 0x80058545, .popc 44 21), (32, 0xA0058545, .clz 44 21),
    (32, 0xC0058545, .brev 44 21), (32, 0xE0058545, .iabs 44 21)] = true := by decide +kernel

theorem test_words_major3 : codesAgree [
    (32, 0x0582B207, .bfxU 44 21 72), (32, 0x2582B207, .bfxS 44 21 72), (32, 0x4582B207, .bfi 44 21 72),
    (32, 0x6582B207, .bshuf 44 21 72), (32, 0x8582B207, .shld 44 21 72), (32, 0xA582B207, .shrd 44 21 72)] = true := by decide +kernel

theorem test_words_major4 : codesAgree [
    (32, 0x2C02B209, .iaddi 44 21 72), (32, 0x2C22B209, .andi 44 21 72), (32, 0x2C42B209, .ori 44 21 72),
    (32, 0x2C62B209, .xori 44 21 72), (32, 0x2C82B209, .shli 44 21 72), (32, 0x2CA2B209, .shri 44 21 72),
    (32, 0x2CC2B209, .sari 44 21 72), (32, 0x2CE2B209, .imuli 44 21 72)] = true := by decide +kernel

theorem test_words_major5 : codesAgree [
    (32, 0x0582B20B, .fadd 44 21 72), (32, 0x2582B20B, .fsub 44 21 72), (32, 0x4582B20B, .fmul 44 21 72),
    (32, 0x6582B20B, .ffma 44 21 72), (32, 0x8582B20B, .ffms 44 21 72), (32, 0xA582B20B, .fmin 44 21 72),
    (32, 0xC582B20B, .fmax 44 21 72), (32, 0xE582B20B, .fnma 44 21 72)] = true := by decide +kernel

theorem test_words_major6 : codesAgree [
    (32, 0x0582B20D, .dadd 44 21 72), (32, 0x2582B20D, .dsub 44 21 72), (32, 0x4582B20D, .dmul 44 21 72),
    (32, 0x6582B20D, .dfma 44 21 72), (32, 0x8582B20D, .dfms 44 21 72), (32, 0xA582B20D, .dmin 44 21 72),
    (32, 0xC582B20D, .dmax 44 21 72), (32, 0xE582B20D, .dnma 44 21 72)] = true := by decide +kernel

theorem test_words_major7 : codesAgree [
    (32, 0x0582B20F, .hadd2F16 44 21 72), (32, 0x2582B20F, .hmul2F16 44 21 72), (32, 0x4582B20F, .hfma2F16 44 21 72),
    (32, 0x6582B20F, .hmin2F16 44 21 72), (32, 0x8582B20F, .hadd2Bf16 44 21 72), (32, 0xA582B20F, .hmul2Bf16 44 21 72),
    (32, 0xC582B20F, .hfma2Bf16 44 21 72), (32, 0xE582B20F, .hmin2Bf16 44 21 72)] = true := by decide +kernel

theorem test_words_major8 : codesAgree [
    (32, 0x00058551, .frcp 44 21), (32, 0x20058551, .frsq 44 21), (32, 0x40058551, .fsqrt 44 21),
    (32, 0x60058551, .fex2 44 21), (32, 0x80058551, .flg2 44 21), (32, 0xA0058551, .fsinr 44 21),
    (32, 0xC0058551, .fcosr 44 21), (32, 0xE0058551, .dsqrt 44 21)] = true := by decide +kernel

theorem test_words_major9 : codesAgree [
    (32, 0x0582A953, .icmpS 44 21 4 5), (32, 0x2582A953, .icmpU 44 21 4 5), (32, 0x4582A953, .fcmp 44 21 4 5),
    (32, 0x6582A953, .dcmp 44 21 4 5), (32, 0x8582A953, .hcmp2F16 44 21 4 5), (32, 0xA582A953, .hcmp2Bf16 44 21 4 5),
    (32, 0xC5838153, .plop 44 3 4 5)] = true := by decide +kernel

theorem test_words_major10 : codesAgree [
    (32, 0x42A90B15, .sel 2 21 72 44)] = true := by decide +kernel

theorem test_words_major11 : codesAgree [
    (32, 0x58A2B217, .cvt 2 1 4 5 21 72)] = true := by decide +kernel

theorem test_words_major12 : codesAgree [
    (32, 0x0582B219, .shflIdx 44 21 72), (32, 0x2582B219, .shflUp 44 21 72), (32, 0x4582B219, .shflDn 44 21 72),
    (32, 0x6582B219, .shflXor 44 21 72), (32, 0x81601219, .voteAny 1 3 72), (32, 0xA1601219, .voteAll 1 3 72),
    (32, 0xC1601219, .ballot 1 3 72), (32, 0xE0058559, .matchL 44 21)] = true := by decide +kernel

theorem test_words_major13 : codesAgree [
    (32, 0x0005855B, .rdaddF32 44 21), (32, 0x2005855B, .rdaddF64 44 21), (32, 0x4005855B, .rdaddI32 44 21),
    (32, 0x6005855B, .rdminF32 44 21), (32, 0x8005855B, .rdmaxF32 44 21), (32, 0xA005855B, .rdminI32 44 21),
    (32, 0xC005855B, .rdmaxI32 44 21), (32, 0xE022B21B, .scanI32 1 21 72)] = true := by decide +kernel

theorem test_words_major14 : codesAgree [
    (32, 0x579BC55D, .ldk 179422 21)] = true := by decide +kernel

theorem test_words_major15 : codesAgree [
    (32, 0x0246855F, .ldkh 4660 21)] = true := by decide +kernel

theorem test_words_major16 : codesAgree [
    (32, 0x4054EB21, .ldB 2 21 7 44), (32, 0x4454EB21, .ldBs 2 21 7 44), (32, 0x4854EB21, .ldH 2 21 7 44),
    (32, 0x4C54EB21, .ldHs 2 21 7 44), (32, 0x5054EB21, .ldW 2 21 7 44), (32, 0x5454EB21, .ldD 2 21 7 44),
    (32, 0x5854EB21, .ldQ 2 21 7 44), (32, 0x5C541221, .ldpW 2 21 72)] = true := by decide +kernel

theorem test_words_major17 : codesAgree [
    (32, 0x4054EB23, .stB 2 21 7 44), (32, 0x4454EB23, .stH 2 21 7 44), (32, 0x4854EB23, .stW 2 21 7 44),
    (32, 0x4C54EB23, .stD 2 21 7 44), (32, 0x5054EB23, .stQ 2 21 7 44), (32, 0x54541223, .stpW 2 21 72),
    (32, 0x3854E023, .pref 1 21 7)] = true := by decide +kernel

theorem test_words_major18 : codesAgree [
    (32, 0x00B00565, .ldsW 44 21), (32, 0x04B00565, .ldsD 44 21), (32, 0x08B00565, .ldsQ 44 21),
    (32, 0x0CB00565, .stsW 44 21), (32, 0x10B00565, .stsD 44 21), (32, 0x14B00565, .stsQ 44 21),
    (32, 0x18B00565, .ldsB 44 21), (32, 0x1CB00565, .stsB 44 21)] = true := by decide +kernel

theorem test_words_major19 : codesAgree [
    (32, 0x8054EB27, .atomAdd 2 21 7 44), (32, 0x8454EB27, .atomMinS 2 21 7 44), (32, 0x8854EB27, .atomMaxS 2 21 7 44),
    (32, 0x8C54EB27, .atomAnd 2 21 7 44), (32, 0x9054EB27, .atomOr 2 21 7 44), (32, 0x9454EB27, .atomXor 2 21 7 44),
    (32, 0x9854EB27, .atomExch 2 21 7 44), (32, 0x9C54EB27, .atomCas 2 21 7 44), (32, 0xA054EB27, .redAdd 2 21 7 44),
    (32, 0xA454EB27, .redMinS 2 21 7 44), (32, 0xA854EB27, .redMaxS 2 21 7 44), (32, 0xAC54EB27, .redAnd 2 21 7 44),
    (32, 0xB054EB27, .redOr 2 21 7 44), (32, 0xB454EB27, .redXor 2 21 7 44), (32, 0xB854EB27, .redExch 2 21 7 44)] = true := by decide +kernel

theorem test_words_major20 : codesAgree [
    (32, 0x8054EB29, .atomAddF32 2 21 7 44), (32, 0x8454EB29, .atomAddD 2 21 7 44), (32, 0x8854EB29, .atomCasD 2 21 7 44),
    (32, 0x8C54EB29, .atomExchD 2 21 7 44), (32, 0x9054EB29, .atomMinU 2 21 7 44), (32, 0x9454EB29, .atomMaxU 2 21 7 44),
    (32, 0x9854EB29, .atomIncWrap 2 21 7 44), (32, 0x9C54EB29, .atomAddF64 2 21 7 44),
    (32, 0xA054EB29, .redAddF32 2 21 7 44), (32, 0xA454EB29, .redAddD 2 21 7 44), (32, 0xAC54EB29, .redExchD 2 21 7 44),
    (32, 0xB054EB29, .redMinU 2 21 7 44), (32, 0xB454EB29, .redMaxU 2 21 7 44), (32, 0xB854EB29, .redIncWrap 2 21 7 44),
    (32, 0xBC54EB29, .redAddF64 2 21 7 44)] = true := by decide +kernel

theorem test_words_major21 : codesAgree [
    (32, 0x00B0B22B, .ldv 44 5 72), (32, 0x04B0B22B, .ldvsW 44 5 72), (32, 0x08B0B22B, .ldvsD 44 5 72),
    (32, 0x0CB0B22B, .vrd 44 5 72), (32, 0x10B0B22B, .casvW 44 5 72), (32, 0x14B0B22B, .casvD 44 5 72),
    (32, 0x180000AB, .vchk 2), (32, 0x1C00002B, .vclr)] = true := by decide +kernel

theorem test_words_major22 : codesAgree [
    (32, 0x8380002D, .waitc 2 3), (32, 0x00A5802D, .sleept 44), (32, 0x03C2B22D, .cpoll 3 21 72), (32, 0x0000002D, .acq),
    (32, 0x0020002D, .rel), (32, 0x0040002D, .acqrel), (32, 0x0060002D, .fenceEng)] = true := by decide +kernel

theorem test_words_major23 : codesAgree [
    (32, 0x0582B22F, .cpy 44 21 72), (32, 0x2582B22F, .cpy2d 44 21 72), (32, 0x4582B22F, .gath 44 21 72),
    (32, 0x6582B22F, .scat 44 21 72), (32, 0x8582A02F, .abarInit 44 21), (32, 0xA582B22F, .abarArv 44 21 72),
    (32, 0xC582A02F, .abarWait 44 21), (32, 0xE582B22F, .abarTry 44 21 72)] = true := by decide +kernel

theorem test_words_major24 : codesAgree [
    (32, 0x0582A031, .qinit 44 21), (32, 0x2582A031, .qpush 44 21), (32, 0x40058571, .qpop 44 21),
    (32, 0x6582B231, .qpushTry 44 21 72), (32, 0x80058571, .qtpop 44 21), (32, 0xA582A031, .qallow 44 21),
    (32, 0xC0058031, .qclose 44), (32, 0xE0058571, .qstat 44 21)] = true := by decide +kernel

theorem test_words_major25 : codesAgree [
    (32, 0x0582A133, .ores 44 21 4), (32, 0x200000B3, .orel 2), (32, 0x40058573, .allock 44 21),
    (32, 0x6582A033, .freek 44 21), (32, 0x800580F3, .mld 44 3), (32, 0xA582A133, .mlds 44 21 4),
    (32, 0xC0058033, .mlease 44), (32, 0xE0000033, .mrel)] = true := by decide +kernel

theorem test_words_major26 : codesAgree [
    (32, 0x00407235, .mma 2 3 72), (32, 0x20407235, .mmap 2 3 72), (32, 0x40058035, .mzero 44),
    (32, 0x60058575, .maccr 44 21), (32, 0x8582A035, .maccw 44 21), (32, 0xA0058035, .mst 44), (32, 0xC0058035, .accsave 44),
    (32, 0xE0058035, .accload 44)] = true := by decide +kernel

theorem test_words_major27 : codesAgree [
    (32, 0x579BD837, .bra 179422 1 4), (32, 0x579BD877, .brc 179422 1 4), (32, 0x579BD8B7, .call 179422 1 4),
    (32, 0x000598F7, .brx 44 1 4), (32, 0x00059937, .callx 44 1 4), (32, 0x579BCF77, .jset 179422),
    (32, 0x579BC7B7, .loop 179422 3)] = true := by decide +kernel

theorem test_words_major28 : codesAgree [
    (32, 0x2C000039, .trapi 44), (32, 0x0122A039, .signal 1 21), (32, 0x2C400579, .rdsr 44 21),
    (32, 0x2C62A039, .wrsr 44 21), (32, 0x2C82A1F9, .brec 44 21 7), (32, 0x03A2B239, .vstat 3 21 72),
    (32, 0x00C58039, .rlaunch 44)] = true := by decide +kernel

theorem test_words_major29 : codesAgree [
    (32, 0x0202A03B, .tlbfill 2 21), (32, 0x0222A03B, .tlbinv 2 21), (32, 0x0760123B, .plogrd 3 1 72),
    (32, 0x0085803B, .actset 44), (32, 0x0040003B, .rtt)] = true := by decide +kernel

theorem test_words_major30 : codesAgree [
    (32, 0x0582B23D, .philox 44 21 72), (32, 0x2582A13D, .coll 44 21 4)] = true := by decide +kernel

theorem test_words_parcels : codesAgree [
    (16, 0x1940, .add 3 5), (16, 0x1942, .sub 3 5), (16, 0x1944, .andParcel 3 5), (16, 0x1946, .orParcel 3 5),
    (16, 0x1948, .xorParcel 3 5), (16, 0x194A, .shlParcel 3 5), (16, 0x194C, .shrParcel 3 5), (16, 0x194E, .mov 3 5),
    (16, 0x1950, .faddParcel 3 5), (16, 0x1952, .fsubParcel 3 5), (16, 0x1954, .fmulParcel 3 5),
    (16, 0x1956, .fminParcel 3 5), (16, 0x1958, .fmaxParcel 3 5), (16, 0x195A, .imulParcel 3 5), (16, 0x195C, .addi 3 5),
    (16, 0x195E, .movi 3 5), (16, 0x0B22, .grd 2 1 4), (16, 0x5FE4, .xm 2 1 1 1 1 1 1 1), (16, 0x8D26, .beat 564),
    (16, 0x8D32, .brs 564), (16, 0x02F4, .waitcParcel 2 3), (16, 0x8D36, .sleep 564), (16, 0x0020, .nop),
    (16, 0x0028, .yield), (16, 0x002A, .tfence), (16, 0x002C, .exit), (16, 0x002E, .ret), (16, 0x0030, .join)] = true := by decide +kernel
/-- Words that the spec writes out: R119's and R133's tables, R143 to R191's and R202 to R243's examples, and the programs of files 16 to
19 and 22. -/
theorem test_words_of_spec : codesAgree [
    (16, 0x1F9E, .movi 3 30), (16, 0x005E, .movi 0 1), (16, 0x085C, .addi 1 1), (32, 0xFFFFE5B7, .loop 524287 2),
    (32, 0x1C604101, .iadd 227 2 4), (32, 0x10082221, .ldW 0 2 1 8), (32, 0xFFFF4277, .brc 524282 0 1),
    (32, 0xE0008159, .matchL 4 5), (32, 0xC000A185, .brev 5 6), (32, 0xA000C185, .clz 6 6), (32, 0x8000A1C5, .popc 5 7),
    (32, 0x0FA0C053, .icmpS 125 6 0 1), (32, 0xC0200219, .ballot 0 1 8), (32, 0x10400139, .rdsr 16 4),
    (32, 0x0004412B, .ldv 1 2 4), (32, 0x1004422B, .casvW 1 2 8), (32, 0x1800002B, .vchk 0), (32, 0x1C00002B, .vclr),
    (32, 0x0000002D, .acq), (32, 0x0020002D, .rel), (32, 0x0040002D, .acqrel), (32, 0x0060002D, .fenceEng),
    (32, 0x010080AF, .cpy 8 4 2), (32, 0x00A0402D, .sleept 2), (32, 0x00340325, .ldsW 13 12), (32, 0x21FB605D, .ldk 69595 1),
    (32, 0xC007E193, .plop 0 7 7 6), (32, 0xC0400101, .iaddc 2 0 4), (32, 0x40604453, .fcmp 3 2 2 1),
    (32, 0x00200033, .ores 1 0 0), (32, 0x40022433, .allock 17 16), (32, 0x202004B5, .mmap 1 0 18),
    (32, 0x6002A535, .maccr 21 20), (32, 0x002003B5, .mma 1 0 14), (32, 0xA0020035, .mst 16),
    (32, 0xA0204427, .redAdd 2 8 2 16), (32, 0xA2A1A52F, .abarArv 21 13 20), (32, 0x03C083AD, .cpoll 3 4 14),
    (32, 0x001821E1, .ldB 0 6 1 7), (32, 0x20AF8031, .qpush 5 124), (32, 0x4001E471, .qpop 15 17),
    (32, 0x01000039, .trapi 1), (32, 0x0080403B, .actset 2), (32, 0x2562E039, .wrsr 37 23), (32, 0x0040003B, .rtt),
    (32, 0x1C0C0121, .ldpW 0 3 4), (32, 0x140C0123, .stpW 0 3 4), (32, 0x0F80A253, .icmpS 124 5 1 1),
    (32, 0x00014277, .brc 10 0 1), (32, 0xFFFE45B7, .loop 524274 2)] = true := by decide +kernel

/-- Bytes in memory: the low parcel first, each little-endian (R2, R115, R133: 0x1C604101 lies as 01 41 60 1C). -/
theorem test_bytes_order : (encode (.iadd 0xE3 2 4)).map Code.bytes = some [0x01, 0x41, 0x60, 0x1C] := by decide +kernel

/-! ### Ill-formed terms -/

/-- The reserved selectors 0x7E and 0x7F, in each operand of an instruction (R49, R118). -/
theorem test_wf_selectors : [Instr.iadd 0 0 0x7E, .iadd 0 0xFF 0, .iadd 0x7E 0 0, .popc 0x7F 0, .ldk 0 0x7F, .stW 0 0 0 0x7E, .orel 0,
    .sleept 0x7F, .icmpS 0x7E 0 0 0, .maccw 0 0x7E, .atomAdd 3 0x7F 0 0].map Instr.wf =
    [false, false, false, false, false, false, true, false, false, false, false] := by decide +kernel

/-- Conditions 6 and 7 of an integer compare (R156). -/
theorem test_wf_condition : [Instr.icmpS 0 0 5 0, .icmpS 0 0 6 0, .icmpU 0 0 7 0, .fcmp 0 0 7 0].map Instr.wf =
    [true, false, false, true] := by decide +kernel

/-- Pairings of formats that CVT does not assign (R160, R161). -/
theorem test_wf_cvt : [Instr.cvt 0 0 0 14 0 0, .cvt 0 0 4 4 0 0, .cvt 0 1 0 1 0 0, .cvt 0 0 1 12 0 0, .cvt 0 0 0 4 0 0].map Instr.wf =
    [false, false, false, false, true] := by decide +kernel

/-- Reserved hints of loads, stores and PREF (R192, R196). -/
theorem test_wf_hint : [Instr.ldW 4 0 0 0, .stQ 7 0 0 0, .ldpW 5 0 0, .pref 2 0 0, .pref 1 0 0, .ldW 3 0 0 0].map Instr.wf =
    [false, false, false, false, true, true] := by decide +kernel

/-- A record named by an atomic at a scratchpad scope (R123). -/
theorem test_wf_site : [Instr.redAdd 1 0 3 0, .atomCas 0 0 1 0, .redAdd 2 0 3 0, .atomAdd 1 0 0 0].map Instr.wf =
    [false, false, true, true] := by decide +kernel

/-- VSTAT items, TLB levels, TLBINV scopes and PLOGRD parts that are reserved (R185, R188, R190). -/
theorem test_wf_system : [Instr.vstat 5 0 0, .tlbfill 3 0, .tlbinv 3 0, .tlbinv 1 4, .plogrd 21 0 0, .plogrd 20 0 0].map Instr.wf =
    [false, false, false, false, false, true] := by decide +kernel

/-- XM with a rounding mode and no mode bit (R130), and BRS of the word of its own reserved offset (R122). -/
theorem test_wf_modifier : [Instr.xm 1 0 0 0 0 0 0 0, .xm 1 1 0 0 0 0 0 0, .brs 0x200].map Instr.wf = [false, true, false] := by
  decide +kernel
/-! ### One instruction on one small state; each result is worked out from the rule named -/

/-- A reserved selector traps with cause 0x02 at the handler (R292, R359). -/
theorem test_reserved_selector_traps :
    after (exec (.iadd 0 0 0x7E) base) (fun t => (t.g.sp.trap, t.g.trapCause, t.g.trapPc)) = some (true, 0x02, 0x10000) := by
  decide +kernel

/-- 2^31 − 1 + 1 wraps (R145), and under XM sat stays and raises integer overflow (R97, R131). -/
theorem test_iadd_wraps : laneAfter (.iadd 8 16 24) (withV base [(8, 1), (16, 0x7FFFFFFF)]) 24 5 = some 0x80000000 := by decide +kernel

theorem test_iadd_saturates : after (exec (.iadd 8 16 24) ((withV base [(8, 1), (16, 0x7FFFFFFF)]).modSp fun sp =>
    { sp with xm := some 0x20 })) (fun t => (t.g.read 24 5, t.g.arithFlags)) = some (0x7FFFFFFF, 0b100000) := by decide +kernel

/-- R145: −1 × 1 has the high word −1 signed and 0 unsigned. -/
theorem test_imulh : [Instr.imulhS 8 16 24, .imulhU 8 16 24].map (fun i => laneAfter i (withV base [(8, 1), (16, 0xFFFFFFFF)]) 24 0) =
    [some 0xFFFFFFFF, some 0] := by decide +kernel

/-- R145: 2^32 − 1 + 1 is 0 with a carry into p6; 0 − 1 borrows. -/
theorem test_iaddc_carries : after (exec (.iaddc 8 16 24) (withV base [(8, 1), (16, 0xFFFFFFFF)]))
    (fun t => (t.g.read 24 31, t.g.pred 6 31, t.g.arithFlags)) = some (0, true, 0) := by decide +kernel

theorem test_isubb_borrows : after (exec (.isubb 8 16 24) (withV base [(8, 1), (16, 0)]))
    (fun t => (t.g.read 24 0, t.g.pred 6 0)) = some (0xFFFFFFFF, true) := by decide +kernel

/-- R146: a shift by 32 leaves 0, a shift right of a negative number by 200 its sign; R151: an immediate count is unsigned. -/
theorem test_shift_all : [Instr.shl 8 16 24, .shr 8 16 24, .sar 8 16 24, .sari 200 16 24].map
    (fun i => laneAfter i (withV base [(8, 32), (16, 0x80000001)]) 24 3) = [some 0, some 0, some 0xFFFFFFFF, some 0xFFFFFFFF] := by
  decide +kernel

/-- R148's example. -/
theorem test_bit_field : [Instr.bfxU 8 16 24, .bfxS 8 16 24, .bfi 8 16 24].map
    (fun i => laneAfter i (withV base [(8, 0x0C08), (16, 0xDEADBEEF), (24, 0)]) 24 7) =
    [some 0x00000DBE, some 0xFFFFFDBE, some 0x000EEF00] := by decide +kernel

/-- R149's controls: a, d, a's bytes reversed, a's low byte sign-extended, d's low half above a's, a's low byte with its bits reversed. -/
theorem test_bshuf : [0x03020100, 0x07060504, 0x00010203, 0x18181800, 0x05040100, 0x08080820].map
    (fun c => laneAfter (.bshuf 8 16 24) (withV base [(8, c), (16, 0x112233C4), (24, 0x55667788)]) 24 0) =
    [some 0x112233C4, some 0x55667788, some 0xC4332211, some 0xFFFFFFC4, some 0x778833C4, some 0x00000023] := by decide +kernel

/-- R150: counts of 0, 4 and 40. -/
theorem test_shld : [0, 4, 40].map (fun c => laneAfter (.shld 8 16 24) (withV base [(8, c), (16, 0xA1234567), (24, 0x89ABCDEF)]) 24 0) =
    [some 0x89ABCDEF, some 0x9ABCDEFA, some 0xA1234567] := by decide +kernel

theorem test_shrd : [0, 4, 40].map (fun c => laneAfter (.shrd 8 16 24) (withV base [(8, c), (16, 0xA1234567), (24, 0x89ABCDEF)]) 24 0) =
    [some 0x89ABCDEF, some 0x789ABCDE, some 0xA1234567] := by decide +kernel

/-- R162's example: LDK 0x10FDB, and LDKH 0x809 over it. -/
theorem test_ldk : laneAfter (.ldk 0x10FDB 1) base 1 9 = some 0x00010FDB := by decide +kernel

theorem test_ldkh : laneAfter (.ldkh 0x809 1) (withV base [(1, 0x00010FDB)]) 1 9 = some 0x40490FDB := by decide +kernel

/-- R114: PHILOX of zeros. -/
theorem test_philox : after (exec (.philox 8 16 24) base) (fun t => [24, 25, 26, 27].map fun r => t.g.read r 2) =
    some [0x6627E8D5, 0xE169C58D, 0xBC57AC4C, 0x9B00DBD8] := by decide +kernel

/-- R161's example: FP32 to E4M3 with saturation; 460.0, 500.0 and −0.0. -/
theorem test_cvt_e4m3 : [0x43E60000, 0x43FA0000, 0x80000000].map (fun v => after (exec (.cvt 0 1 0 8 16 24) (withV base [(16, v)]))
    fun t => t.g.read 24 0) = [some 0x7E, some 0x7E, some 0x80] := by decide +kernel

/-- 1.5 + 2.25 = 3.75, and 2^24 + 1 is inexact (R99, R152); a quiet NaN loses to a number in FMIN, and −0 lies below +0 (R104). -/
theorem test_fadd : [(0x3FC00000, 0x40100000), (0x4B800000, 0x3F800000)].map (fun x => after (exec (.fadd 8 16 24)
    (withV base [(16, x.1), (8, x.2)])) fun t => (t.g.read 24 0, t.g.arithFlags)) =
    [some (0x40700000, 0), some (0x4B800000, 0b010000)] := by decide +kernel

theorem test_fmin : [(0x7FC00000, 0x3F800000), (0x00000000, 0x80000000)].map (fun x => laneAfter (.fmin 8 16 24)
    (withV base [(16, x.1), (8, x.2)]) 24 0) = [some 0x3F800000, some 0x80000000] := by decide +kernel

/-- 1.0 + 1.0 in FP64 (R152): the high word goes to the odd register. -/
theorem test_dadd : after (exec (.dadd 8 16 24) (withV base [(16, 0), (17, 0x3FF00000), (8, 0), (9, 0x3FF00000)]))
    (fun t => (t.g.read 24 0, t.g.read 25 0)) = some (0, 0x40000000) := by decide +kernel

/-- R158: AND is truth table 0x88. -/
theorem test_plop : after (exec (.plop 0x88 1 2 3) (base.modG fun g => (g.setPred 1 0xFFFFFFFF fun l => decide (l.val < 2)).setPred 2
    0xFFFFFFFF fun l => decide (0 < l.val))) (fun t => vget t.g.p 3 0) = some 0x2 := by decide +kernel

/-- R168's example, in a split of eight lanes: MATCH; CLZ of the masks reversed is each mask's lowest set bit; POPC their sizes. -/
def elect : State := withLanes (withMask base 0xFF) 4 fun l => [3, 7, 3, 3, 9, 7, 3, 9].getD l 0

theorem test_match : after (exec (.matchL 4 5) elect) (fun t => (List.finRange 8).map fun l => t.g.read 5 (l.castLE (by omega))) =
    some [0x4D, 0x22, 0x4D, 0x4D, 0x90, 0x22, 0x4D, 0x90] := by decide +kernel

theorem test_counts : [Instr.brev 16 24, .clz 16 24, .popc 16 24].map (fun i => laneAfter i (withV base [(16, 0x4D)]) 24 0) =
    [some 0xB2000000, some 25, some 4] := by decide +kernel

/-- R170: in a split of four lanes with 1 in each, SCAN gives 1 to 4, its exclusive form 0 to 3; R166: SHFL.UP by 1 keeps lane 0's own. -/
theorem test_scan : [Instr.scanI32 0 16 24, .scanI32 1 16 24].map (fun i => after (exec i (withV (withMask base 0xF) [(16, 1)])) fun t =>
    [t.g.read 24 0, t.g.read 24 3, t.g.read 24 4]) = [some [1, 4, 0], some [0, 3, 0]] := by decide +kernel

theorem test_shfl_up : after (exec (.shflUp 8 16 24) (withLanes (withV base [(8, 1)]) 16 fun l => l + 10))
    (fun t => [t.g.read 24 0, t.g.read 24 1, t.g.read 24 31]) = some [10, 10, 40] := by decide +kernel

/-- R174: LOOP with s2 = 3 counts to 2 and goes back one parcel pair; with s2 = 1 it falls through. -/
theorem test_loop : [3, 1].map (fun n => after (exec (.loop 0x7FFFF 2) (base.modG fun g => { g with s := vset g.s 2 n })) fun t =>
    (vget t.g.s 2 0, t.g.sp.pc)) = [some (2, 0xFFFE), some (0, 0x10004)] := by decide +kernel

/-- R128: lanes that fail the guard's sample keep their registers. -/
theorem test_guard : after (exec (.grd 0 0 1) (base.modG fun g => g.setPred 1 0xFFFFFFFF fun l => decide (l.val = 4)))
    (fun t => (t.g.sp.guardLeft, t.act, t.g.sp.pc)) = some (1, 0x10, 0x10002) := by decide +kernel

/-- R172: a CALL pushes the address behind it and goes to its target; RET comes back; on an empty stack it is an illegal use. -/
theorem test_call : after (exec (.call 8 0 7) base) (fun t => (t.g.sp.pc, t.g.sp.calls)) = some (0x10010, [0x10004]) := by decide +kernel

theorem test_ret_empty : after (exec .ret base) (fun t => (t.g.sp.trap, t.g.trapCause)) = some (true, 0x03) := by decide +kernel

/-- R28: a BRC that half the lanes take divides the split; the lanes not taking go on behind it. -/
theorem test_brc_divides : after (exec (.brc 8 0 1) (base.modG fun g => g.setPred 1 0xFFFFFFFF fun l => decide (l.val < 16)))
    (fun t => (t.g.splits.map fun x => (x.mask, x.pc)).length) = some 2 := by decide +kernel

/-- R180: TRAPI 1 saves the address behind it, its code 1 above cause 0x10. -/
theorem test_trapi : after (exec (.trapi 1) base) (fun t => (t.g.trapCause, t.g.trapPc, t.g.doneMask)) =
    some (0x0110, 0x10004, 0) := by decide +kernel

/-- R191: budgets below 32 are taken as 32. -/
theorem test_actset : after (exec (.actset 16) (inTrap (withV base [(16, 5)]))) (fun t => (t.coreAt 0).actNext) = some (some 32) := by
  decide +kernel

/-- R58: an element at the extent is cause 0x07; R59: an address that is no multiple of the width 0x09; R57: an element size of 2^5 bytes makes the record invalid, 0x06. -/
theorem test_load_causes : [(0x10000 + 4 * 2 ^ 56 + 2 * 2 ^ 108, 4), (0x10002 + 4 * 2 ^ 56 + 2 * 2 ^ 108, 3), (5 * 2 ^ 108, 0)].map
    (fun x => after (exec (.ldW 0 16 1 24) (withV (withB base 1 x.1) [(16, x.2)])) fun t => t.g.trapCause.toNat % 256) =
    [some 0x07, some 0x09, some 0x06] := by decide +kernel

/-- R183: ARITHFLAGS takes six bits and no more. -/
theorem test_wrsr : [33, 64].map (fun v => after (exec (.wrsr 0x18 16) (withV base [(16, v)])) fun t => (t.g.arithFlags, t.g.sp.trap)) =
    [some (33, false), some (0, true)] := by decide +kernel

/-- R216: ABAR.INIT writes both counts and phase 0. -/
theorem test_abar_init : after (exec (.abarInit 4 2) (withV base [(2, 16), (4, 3)]))
    (fun t => (List.range 3).map fun k => Memory.readLE (t.coreAt 0).scratch (16 + 4 * k) 4) = some [3, 3, 0] := by decide +kernel

/-! ### Every encoded instruction issues somewhere -/

/-- These meet State.issues in the small state. -/
theorem witness_issues_0 : ([
    .iadd 8 16 24, .isub 8 16 24, .imul 8 16 24, .imulhS 8 16 24, .imulhU 8 16 24, .imad 8 16 24, .iaddc 8 16 24,
    .isubb 8 16 24, .and 8 16 24, .or 8 16 24, .xor 8 16 24, .andn 8 16 24, .shl 8 16 24, .shr 8 16 24, .sar 8 16 24,
    .rotl 8 16 24, .iminS 8 16 24, .imaxS 8 16 24, .iminU 8 16 24, .imaxU 8 16 24, .popc 16 24, .clz 16 24, .brev 16 24,
    .iabs 16 24, .bfxU 8 16 24, .bfxS 8 16 24, .bfi 8 16 24, .bshuf 8 16 24, .shld 8 16 24, .shrd 8 16 24, .iaddi 0 16 24,
    .andi 0 16 24, .ori 0 16 24, .xori 0 16 24, .shli 0 16 24, .shri 0 16 24, .sari 0 16 24, .imuli 0 16 24, .fadd 8 16 24,
    .fsub 8 16 24, .fmul 8 16 24, .ffma 8 16 24, .ffms 8 16 24, .fmin 8 16 24, .fmax 8 16 24, .fnma 8 16 24, .dadd 8 16 24,
    .dsub 8 16 24, .dmul 8 16 24, .dfma 8 16 24, .dfms 8 16 24, .dmin 8 16 24, .dmax 8 16 24, .dnma 8 16 24,
    .hadd2F16 8 16 24, .hmul2F16 8 16 24, .hfma2F16 8 16 24, .hmin2F16 8 16 24, .hadd2Bf16 8 16 24, .hmul2Bf16 8 16 24,
    .hfma2Bf16 8 16 24, .hmin2Bf16 8 16 24, .frcp 16 24, .frsq 16 24] : List Instr).all (issuesB base) = true := by decide +kernel

/-- These meet State.issues in the small state. -/
theorem witness_issues_1 : ([
    .fsqrt 16 24, .fex2 16 24, .flg2 16 24, .fsinr 16 24, .fcosr 16 24, .dsqrt 16 24, .icmpS 8 16 1 1, .icmpU 8 16 1 1,
    .fcmp 8 16 1 1, .dcmp 8 16 1 1, .hcmp2F16 8 16 1 2, .hcmp2Bf16 8 16 1 2, .plop 0 8 16 24, .sel 1 8 16 24,
    .cvt 0 0 0 4 16 24, .shflIdx 8 16 24, .shflUp 8 16 24, .shflDn 8 16 24, .shflXor 8 16 24, .voteAny 0 1 24,
    .voteAll 0 1 24, .ballot 0 1 24, .matchL 16 24, .rdaddF32 16 24, .rdaddF64 16 24, .rdaddI32 16 24, .rdminF32 16 24,
    .rdmaxF32 16 24, .rdminI32 16 24, .rdmaxI32 16 24, .scanI32 0 16 24, .ldk 0 24, .ldkh 0 24, .ldB 0 8 0 24,
    .ldBs 0 8 0 24, .ldH 0 8 0 24, .ldHs 0 8 0 24, .ldW 0 8 0 24, .ldD 0 8 0 24, .ldQ 0 8 0 24, .ldpW 0 8 24, .stB 0 8 0 24,
    .stH 0 8 0 24, .stW 0 8 0 24, .stD 0 8 0 24, .stQ 0 8 0 24, .stpW 0 8 24, .pref 0 8 0, .ldsW 8 24, .ldsD 8 24,
    .ldsQ 8 24, .stsW 8 24, .stsD 8 24, .stsQ 8 24, .ldsB 8 24, .stsB 8 24, .atomAdd 0 8 0 24, .atomMinS 0 8 0 24,
    .atomMaxS 0 8 0 24, .atomAnd 0 8 0 24, .atomOr 0 8 0 24, .atomXor 0 8 0 24, .atomExch 0 8 0 24, .atomCas 0 8 0 24] : List Instr).all (issuesB base) = true := by decide +kernel

/-- These meet State.issues in the small state. -/
theorem witness_issues_2 : ([
    .redAdd 0 8 0 24, .redMinS 0 8 0 24, .redMaxS 0 8 0 24, .redAnd 0 8 0 24, .redOr 0 8 0 24, .redXor 0 8 0 24,
    .redExch 0 8 0 24, .atomAddF32 0 8 0 24, .atomAddD 0 8 0 24, .atomCasD 0 8 0 24, .atomExchD 0 8 0 24, .atomMinU 0 8 0 24,
    .atomMaxU 0 8 0 24, .atomIncWrap 0 8 0 24, .atomAddF64 0 8 0 24, .redAddF32 0 8 0 24, .redAddD 0 8 0 24,
    .redExchD 0 8 0 24, .redMinU 0 8 0 24, .redMaxU 0 8 0 24, .redIncWrap 0 8 0 24, .redAddF64 0 8 0 24, .ldv 8 0 24,
    .ldvsW 8 0 24, .ldvsD 8 0 24, .vrd 8 0 24, .casvW 8 0 24, .casvD 8 0 24, .vchk 1, .waitc 1 0, .sleept 16, .cpoll 0 16 24,
    .cpy 8 16 24, .cpy2d 8 16 24, .gath 8 16 24, .scat 8 16 24, .abarInit 8 16, .abarArv 8 16 24, .abarWait 8 16,
    .abarTry 8 16 24, .qinit 8 16, .qpush 8 16, .qpop 16 24, .qpushTry 8 16 24, .qtpop 16 24, .qallow 8 16, .qclose 16,
    .qstat 16 24, .ores 8 16 24, .allock 16 24, .freek 8 16, .mlease 16, .mzero 16, .maccr 16 24, .maccw 8 16, .mst 16, .accsave 16, .accload 16, .bra 2 0 1] : List Instr).all (issuesB base) = true := by decide +kernel

/-- These meet State.issues in the small state. -/
theorem witness_issues_3 : ([
    .brc 2 0 1, .call 2 0 1, .brx 0 0 1, .callx 0 0 1, .jset 2, .loop 2 0, .trapi 0, .signal 0 16, .rdsr 0x10 24,
    .wrsr 0x18 16, .brec 2 16 0, .vstat 0 16 24, .rlaunch 16, .philox 8 16 24, .coll 8 16 0, .add 2 3, .sub 2 3,
    .andParcel 2 3, .orParcel 2 3, .xorParcel 2 3, .shlParcel 2 3, .shrParcel 2 3, .mov 2 3, .faddParcel 2 3,
    .fsubParcel 2 3, .fmulParcel 2 3, .fminParcel 2 3, .fmaxParcel 2 3, .imulParcel 2 3, .addi 2 3, .movi 2 3, .grd 1 0 1,
    .xm 0 0 0 0 0 0 0 1, .beat 0, .brs 2, .waitcParcel 0 1, .sleep 0, .vclr, .acq, .rel, .acqrel, .fenceEng, .mrel, .nop,
    .yield, .tfence, .exit, .ret, .join] : List Instr).all (issuesB base) = true := by decide +kernel

/-- These meet it where the d registers that they name hold reservations. -/
theorem witness_issues_reserved : ([
    .orel 8, .mld 16 8, .mlds 8 16 8, .mma 8 0 24, .mmap 8 0 24] : List Instr).all (issuesB { base with g := { base.g with
      d := vset (vset base.g.d 0 (resRecord 0 3 2 0 0 0 0)) 8 (resRecord 0 3 2 0 0 0 0) } }) = true := by decide +kernel

/-- These meet it in trap mode. -/
theorem witness_issues_trap : ([
    .plogrd 1 1 24, .actset 16, .rtt] : List Instr).all (issuesB (inTrap base)) = true := by decide +kernel

/-- These meet it in the service slot. -/
theorem witness_issues_service : ([
    .tlbfill 0 16, .tlbinv 0 16] : List Instr).all (issuesB (inService base)) = true := by decide +kernel
/-! ### States that meet the hypotheses of the statements -/

theorem flightsNone {s : State} (h : s.flights = []) (f : Flight) : ¬ Earlier s f := by
  rintro ⟨a, -⟩
  rw [h] at a
  exact absurd a List.not_mem_nil

theorem readsDone_of {s : State} (h : s.reqs = []) : ReadsDone s := by
  intro r hr
  rw [h] at hr
  exact absurd hr List.not_mem_nil

theorem released_of {s : State} (h : s.flights = [] ∧ s.reqs = [] ∧ (s.coreAt s.g.core).pantry = []) : Released s :=
  ⟨fun f hf => absurd hf (flightsNone h.1 f), fun e he => by rw [h.2.2] at he; exact absurd he List.not_mem_nil, readsDone_of h.2.1⟩

theorem acquirable_of {s : State} (h : s.flights = []) : Acquirable s := fun f hf => absurd hf (flightsNone h f)

/-- No load and no scratchpad access is in flight, and no request. -/
abbrev Quiet (s : State) : Prop := s.flights.all (fun f => !f.acc.isLoad && !f.acc.acquires && !f.toSpm) = true ∧ s.reqs = []

theorem reaches_of {s : State} {a : BitVec 8} {n : Nat} {o : Nat × Nat} (h : Quiet s) (w : Within s a n o) : Reaches s a n o :=
  ⟨fun f hf => by simpa [and_assoc] using List.all_eq_true.mp h.1 f hf.1, w, by simp [State.writesBehind, h.2]⟩

theorem noDPending_of {s : State} (h : s.reqs = []) : NoDPending s := by
  intro n
  simp [State.dPending, h]

/-- The memories of a state whose cores' scratchpads are in canonical form, as truth values. -/
theorem memOk_of {s : State} (h : [s.dev, s.host, s.imageStore, s.regs.image].all Memory.wf = true ∧
    s.peers = [] ∧ s.cores.all (fun c => c.scratch.wf) = true) : s.memOk := by
  obtain ⟨hm, hp, hc⟩ := h
  constructor
  case scratch => exact Vector.all_eq_true.mp hc
  case peers => simp [hp]
  all_goals simp_all

theorem base_memOk : base.memOk := memOk_of (by decide +kernel)

/-- DecodeOfEncode and EncodeOfDecode: IADD v4, v2, s3! of the spec, with a byte behind it. -/
theorem witness_encoding : (Instr.iadd 0xE3 2 4).wf = true ∧ encode (.iadd 0xE3 2 4) = some ⟨32, 0x1C604101⟩ ∧
    (decode [0x01, 0x41, 0x60, 0x1C, 0x07]).toOption = some (.iadd 0xE3 2 4, [0x07]) := by decide +kernel

/-- StepRunsInstruction: the seated machine's next turn is an issue slot of that group, which fetches the instruction laid there. -/
def fetched : State := (State.reset.withFetchWord 32 0x1C604101).findErrors.choose.2

theorem witness_step_issue :
    (State.reset.withFetchWord 32 0x1C604101).findErrors.choose.1 = some (.issue fetched.g.core fetched.g.slot fetched.g.sp.age) ∧
    fetched.pickCore fetched.g.core = some (fetched.g.slot, fetched.g.sp.age) ∧ fetched.g.live = true ∧ fetched.g.stopped = false ∧
    fetched.mayRun fetched.g = true ∧ fetched.g.sp.mask ≠ 0 ∧ fetched.g.trapMode = false ∧ fetched.g.sp.wait.open_ = true ∧ fetched.g.arrived fetched.g.sp.age = fetched.g ∧ fetched.mergeAt fetched.g = fetched.g ∧
    fetched.g.reportFor fetched.g.sp = none ∧ fetched.pantryReport fetched.g = none ∧
    (match (fetched.fetch fetched.g fetched.g.sp).1 with
      | .instr i => decide (i = .iadd 0xE3 2 4)
      | _ => false) = true ∧
    (fetched.fetch fetched.g fetched.g.sp).2.budgetHolds ((fetched.fetch fetched.g fetched.g.sp).2.weightOf (.iadd 0xE3 2 4)).1 = false := by
  decide +kernel

/-- An XM and the ADDI behind it, in one word. -/
def modified : State := (State.reset.withFetchWord 32 (0x5FE4 + 0x085C * 2 ^ 16)).findErrors.choose.2

theorem witness_step_modifier : (match (modified.fetch modified.g modified.g.sp).1 with
      | .instr i => decide (i = .xm 2 1 1 1 1 1 1 1 ∧ i.head = .p16 18)
      | _ => false) = true ∧
    after (exec (.xm 2 1 1 1 1 1 1 1) (modified.fetch modified.g modified.g.sp).2) (fun v => (v.g.sp.xm.isSome,
      match (v.fetch v.g v.g.sp).1 with
      | .instr j => decide (j = .addi 1 1)
      | _ => false)) = some (true, true) := by decide +kernel

theorem witness_step_fetch : fetched.codeOf fetched.g fetched.g.sp = some { entry := 0x10000, size := 8, patches := [] } ∧
    (match (fetched.fetchParcel fetched.g fetched.g.sp { entry := 0x10000, size := 8, patches := [] } fetched.g.sp.pc).1 with
      | .inr lo => decide (lo = 0x4101)
      | _ => false) = true ∧
    (match (fetched.fetchParcel fetched.g fetched.g.sp { entry := 0x10000, size := 8, patches := [] } (fetched.g.sp.pc + 2)).1 with
      | .inr lo => decide (lo = 0x1C60)
      | _ => false) = true ∧
    (decode (bytesLE 2 0x4101 ++ bytesLE 2 0x1C60)).toOption = some (.iadd 0xE3 2 4, []) ∧
    (decode (bytesLE 2 0x085C)).toOption = some (.addi 1 1, []) := by decide +kernel

theorem witness_step_event : (({ base with agenda := [.event .startUp {}] } : State).findErrors.choose).1 = some (.event .startUp {}) ∧
    Instr.startUp.head = .event := by decide +kernel

/-- StepKeepsMemory: the seated machine has the canonical form, and a step runs from it. -/
theorem witness_step_memory : (State.reset.withFetchWord 32 1).memOk ∧
    (after (step (State.reset.withFetchWord 32 1)) fun _ => ()).isSome = true :=
  ⟨memOk_of (by decide +kernel), by decide +kernel⟩

/-- IllegalTraps: a reserved value, a modifier not taken, a guard window not allowed; an unaligned pair, a predicate pair out of
range, an instruction of the handler outside trap mode. -/
theorem witness_illegal : base.noLane = false ∧ (Instr.iadd 0 0 0x7E).wf = false ∧ encoded (.iadd 0 0 0x7E) ∧
    (base.modSp fun sp => { sp with xm := some 1 }).xmBad (.iadd 8 16 24) = true ∧
    ((base.modSp fun sp => { sp with guardLeft := 1 }).g.sp.guardLeft ≠ 0 ∧ guardable (.bra 0 0 7) = false) ∧
    base.encodingBad (.dadd 8 16 25) = false ∧ (∃ u ∈ uses (.dadd 8 16 25), u.ok base.regLimit = false) ∧
    base.encodingBad (.hcmp2F16 8 16 0 7) = false ∧ predOk (.hcmp2F16 8 16 0 7) = false ∧
    base.encodingBad (.mld 16 3) = false ∧ base.useBad (.mld 16 3) = true ∧
    base.encodingBad (.actset 16) = false ∧ (∀ u ∈ uses (.actset 16), u.ok base.regLimit = true) ∧ predOk (.actset 16) = true ∧
    base.useBad (.actset 16) = false ∧ base.privileged (.actset 16) = false := by
  and_intros <;> first | decide +kernel | (unfold encoded; decide +kernel)

/-- EmptyRegistersAndReissue: source v16 empty; with action 0 it waits, with action 1 it traps; a record being loaded; a re-issue
that skips every lane. -/
def empty16 : State := base.modG fun g => g.setFulls 16 [0] false

theorem witness_empty : empty16.noLane = false ∧ empty16.encodingBad (.iadd 8 16 24) = false ∧
    (∀ u ∈ uses (.iadd 8 16 24), u.ok empty16.regLimit = true) ∧ predOk (.iadd 8 16 24) = true ∧
    empty16.useBad (.iadd 8 16 24) = false ∧ empty16.privileged (.iadd 8 16 24) = true ∧ (∃ u ∈ uses (.iadd 8 16 24), u.trap = false ∧ empty16.useEmpty u = true) ∧
    (∀ u ∈ uses (.iadd 8 0x90 24), u.trap = false → empty16.useEmpty u = false) ∧ recordOf (.iadd 8 0x90 24) = none ∧
    (empty16.trapsOn (.iadd 8 0x90 24)).isSome = true ∧
    empty16.valueBad (.iadd 8 0x90 24) = false ∧
    recordOf (.ldW 0 16 1 24) = some 1 ∧ (base.modG fun g => { g with bPend := 2 }).g.bPend.getLsbD 1 = true := by decide +kernel

/-- The same where a full source shows an illegal use: a reserved bit of a copy's control word. -/
def badControl : State := withV empty16 [(7, 2 ^ 23)]

theorem witness_empty_value : badControl.noLane = false ∧ badControl.encodingBad (.cpy 0x90 4 24) = false ∧
    (∀ u ∈ uses (.cpy 0x90 4 24), u.ok badControl.regLimit = true) ∧ predOk (.cpy 0x90 4 24) = true ∧
    badControl.useBad (.cpy 0x90 4 24) = false ∧ badControl.privileged (.cpy 0x90 4 24) = true ∧
    (∀ u ∈ uses (.cpy 0x90 4 24), u.trap = false → badControl.useEmpty u = false) ∧ recordOf (.cpy 0x90 4 24) = none ∧
    (badControl.trapsOn (.cpy 0x90 4 24)).isSome = true ∧ badControl.valueBad (.cpy 0x90 4 24) = true := by decide +kernel

theorem witness_reissue :
    (base.modSp fun sp => { sp with reissue := some sp.mask }).g.sp.reissue = some 0xFFFFFFFF ∧
    (base.modSp fun sp => { sp with reissue := some sp.mask }).g.sp.mask &&& ~~~0xFFFFFFFF = 0 := by decide +kernel

/-- Traps are traced, in a host event ring of four records at 0x800. -/
def tracing : State := { base with regs := { base.regs with evtring := BitVec.ofNat 256 (0x800 + 2 * 2 ^ 64 + 2 ^ 69 + 2 ^ 70) } }

theorem witness_trap_traced : tracing.memOk ∧ tracing.g.sp.trap = false ∧ tracing.handler.isSome = true ∧
    bbit tracing.regs.evtring 70 = true ∧ tracing.hostRingOpen = true :=
  ⟨memOk_of (by decide +kernel), by decide +kernel⟩

/-- TrapEntry: outside trap mode with a handler; in trap mode, in a running block. -/
theorem witness_trap : base.g.sp.trap = false ∧ base.handler.isSome = true ∧ (inTrap base).g.sp.trap = true ∧
    ((inTrap base).block base.g.block).map Block.ending = some none ∧ base.g.live = true ∧
    bbit base.regs.evtring 70 = false := by decide +kernel

/-- RttReturns: in trap mode behind a trap, and in the service slot. -/
def trapped : State := base.takeTrap { cause := 0x10, code := 1, write := false, pc := 0x10004, mask := 0xFFFFFFFF, done := 0
                                       h0 := 0, h1 := 0, h2 := 0, h3 := 0 }

theorem witness_rtt : trapped.issues .rtt ∧ trapped.g.sp.trap = true ∧ trapped.g.pre.isSome = true ∧ (inService base).issues .rtt ∧
    (inService base).g.service = true ∧ (inService base).g.sp.trap = false ∧ (inService base).g.core < 256 := by
  and_intros <;> first | exact issues_of (by decide +kernel) | decide +kernel

/-- LaneFrame and the statements of results: one instruction of each family issues, and stands where the frame says. -/
theorem witness_lanes : base.issues (.iadd 8 16 24) ∧ base.issues (.cvt 0 0 0 4 16 24) ∧ base.issues (.sel 1 8 16 24) ∧
    base.issues (.scanI32 1 16 24) ∧ base.issues (.philox 8 16 24) ∧ base.issues (.faddParcel 2 3) ∧
    Instr.head (.philox 8 16 24) = .w32 30 0 ∧ Instr.head (.scanI32 1 16 24) = .w32 13 7 ∧ lowest base.act = some 0 ∧
    (Instr.head (.movi 2 3)) = .p16 15 := by
  and_intros <;> first | exact issues_of (by decide +kernel) | decide +kernel

/-- FunnelShifts: a word of the major with the reserved minor 6, and with 7. -/
theorem witness_funnel : ([0xC0000007, 0xE0000007].map fun (w : Nat) => (w % 64, w / 2 ^ 29 % 8)) = [(7, 6), (7, 7)] := by decide

/-- MinMaxRule: a NaN against a number, two NaNs, the two zeros, and a lesser against a greater. -/
theorem witness_minmax : (decodeF fp32 0x7FC00000).isNan = true ∧ (decodeF fp32 0x3F800000).isNan = false ∧
    (decodeF fp32 0x00000000).cmp (decodeF fp32 0x80000000) = some .eq ∧
    (decodeF fp32 0x3F800000).cmp (decodeF fp32 0x40000000) = some .lt ∧
    (decodeF fp32 0x40000000).cmp (decodeF fp32 0x3F800000) = some .gt := by decide +kernel

/-- RoundingRule: three halves of 2^-149 in the format of FP32 lie between two representable values, and round to a finite one. -/
theorem witness_rounding : (3 : Nat) ≠ 0 ∧ decodeF fp32 2 = .fin false 2 (-149) ∧ [Mode.rne, .rup, .rdn, .rtz].all (fun mode =>
      match decodeF fp32 (roundF fp32 mode false (.fin false 3 (-150))).1 with
      | .fin _ _ _ => true
      | _ => false) = true ∧
    decodeF fp32 0x3F800000 = .fin false 0x800000 (-23) ∧ decodeF fp32 0x80000000 = .fin true 0 (-149) := by decide +kernel

/-- BranchesAndCalls: a call stack with room and one that is full; the code of the split. -/
theorem witness_calls : base.issues (.call 8 0 7) ∧ base.lowCond 7 0 = true ∧ base.lowCond 7 1 = false ∧ base.g.sp.calls.length < 8 ∧
    (base.modSp fun sp => { sp with calls := List.replicate 8 0 }).issues (.call 8 0 7) ∧
    (base.modSp fun sp => { sp with calls := List.replicate 8 0 }).lowCond 7 0 = true ∧
    (base.modSp fun sp => { sp with calls := List.replicate 8 0 }).issues (.callx 16 0 7) ∧
    ((base.modSp fun sp => { sp with calls := List.replicate 8 0 }).codeOf base.g base.g.sp).isSome = true ∧
    (base.codeOf base.g base.g.sp).isSome = true ∧ base.issues (.callx 16 0 7) ∧ base.issues .ret ∧
    (base.modSp fun sp => { sp with calls := [4] }).issues .ret := by
  and_intros <;> first | exact issues_of (by decide +kernel) | decide +kernel

/-- LoopsAndJoinPoints: a join stack with room, and a full one. -/
def entry (p : Addr) : JoinEntry := { join := some p, deferred := false, resume := 0, pending := 0, whole := 0 }

def fullJoins : State := base.modSp fun sp => { sp with joins := List.replicate 4 (entry 0x20000) }

theorem witness_jset : base.issues (.jset 8) ∧ base.g.sp.joins.length < 4 ∧ fullJoins.issues (.jset 8) ∧ 4 ≤ fullJoins.g.sp.joins.length ∧
    base.issues (.loop 8 2) := by
  and_intros <;> first | exact issues_of (by decide +kernel) | decide +kernel

/-- DivergenceAndReconvergence: no lane taken, all, the lower half with room for a split, in trap mode with room on the join stack,
and with a full one. -/
def half (s : State) (m : Mask) : State := s.modG fun g => g.setPred 1 0xFFFFFFFF fun l => laneIn m l

def takes (s : State) (m : Mask) : Bool :=
  issuesB s (.brc 8 0 1) && decide (∀ l : Lane, laneIn m l = (laneIn s.act l && (s.g.pred 1 l != false)))

/-- A re-issue for the lower half alone, all of which takes the branch. -/
def partBrc : State := base.modSp fun sp => { sp with reissue := some 0xFFFF0000 }

theorem witness_brc : takes (half base 0) 0 = true ∧ takes (half base 0xFFFFFFFF) base.g.sp.mask = true ∧
    takes (half base 0xFFFF) 0xFFFF = true ∧ (half base 0xFFFF).g.splitCount < 4 ∧ (half base 0xFFFF).g.sp.trap = false ∧
    takes (inTrap (half base 0xFFFF)) 0xFFFF = true ∧ (inTrap (half base 0xFFFF)).g.sp.trap = true ∧
    (inTrap (half base 0xFFFF)).g.sp.joins.length < 4 ∧ takes (inTrap (half fullJoins 0xFFFF)) 0xFFFF = true ∧
    4 ≤ (inTrap (half fullJoins 0xFFFF)).g.sp.joins.length ∧ (0xFFFF : Mask) ≠ 0 ∧ (0xFFFF : Mask) ≠ base.act ∧
    takes (half partBrc 0xFFFF) 0xFFFF = true ∧ (half partBrc 0xFFFF).act = 0xFFFF ∧ (half partBrc 0xFFFF).g.sp.mask ≠ 0xFFFF := by
  decide +kernel

/-- JOIN: no entry; a split of the same join point elsewhere; both there. EXIT: some of the lanes, and all of them with another split
left; in trap mode. -/
def pair (p : Addr) : State := (withMask base 0xFF).modG fun g =>
  { g with sp := { g.sp with joins := [entry 0x10000] }, rest := [{ g.sp with pc := p, mask := 0xFF00, age := 1, joins := [entry 0x10000] }] }

theorem witness_join : base.issues .join ∧ joiner base.g.sp.pc base.g.sp.calls base.g.sp = false ∧ (pair 0x10004).issues .join ∧
    (pair 0x10000).issues .join ∧ joiner (pair 0x10000).g.sp.pc (pair 0x10000).g.sp.calls (pair 0x10000).g.sp = true ∧
    (∃ x ∈ (pair 0x10004).g.splits, x.mask ≠ 0 ∧ joiner (pair 0x10004).g.sp.pc (pair 0x10004).g.sp.calls x = true ∧
      standsAt (pair 0x10004).g.sp.pc x = false) ∧
    (∀ x ∈ (pair 0x10000).g.splits, standsAt (pair 0x10000).g.sp.pc x = true) := by
  and_intros <;> first | exact issues_of (by decide +kernel) | decide +kernel

def someExit : State := base.modSp fun sp => { sp with reissue := some 0xFFFFFFF0 }

/-- All lanes of the lower byte leave, over an entry whose deferral has still to run, and over one whose has run. -/
def deferring : State := (withMask base 0xFF).modSp fun sp => { sp with joins :=
  [{ entry 0x20000 with deferred := true, resume := 0x10008, pending := 0xFF00, whole := 0xFFFF }] }

def parting : State := (withMask base 0xFF).modSp fun sp => { sp with joins := [{ entry 0x20000 with whole := 0xFFFF }] }

theorem witness_exit : (inTrap base).issues .exit ∧ base.issues .exit ∧ base.g.sp.mask &&& ~~~base.act = 0 ∧ base.g.sp.joins = [] ∧
    (pair 0x10004).issues .exit ∧ (pair 0x10004).g.rest ≠ [] ∧ someExit.act = 0xF ∧ someExit.issues .exit ∧
    someExit.g.sp.mask &&& ~~~someExit.act ≠ 0 ∧
    deferring.issues .exit ∧ deferring.g.sp.mask &&& ~~~deferring.act = 0 ∧ deferring.g.exited = 0 ∧
    deferring.g.sp.joins.map (fun e => (e.deferred, e.pending, e.whole)) = [(true, 0xFF00, 0xFFFF)] ∧ parting.issues .exit ∧
    parting.g.sp.mask &&& ~~~parting.act = 0 ∧ parting.g.exited = 0 ∧
    parting.g.sp.joins.map (fun e => (e.deferred, e.join.isSome, e.whole)) = [(false, true, 0xFFFF)] := by
  and_intros <;> first | exact issues_of (by decide +kernel) | decide +kernel

/-- GuardModifierProgress: the beats of the launch's context, a YIELD with no other group and with one that is ready, a SLEEPT of a past
and of a future time, counts of 0 and 1,023. -/
def beating : State := { base with beats := [Beats.fresh 0 0x20100 (cfgOf 0 0) 0] }

/-- A second group, in another slot of the same issue partition. -/
def twoGroups : State := { base with others := [{ base.g with slot := 12, groupix := 1, producer := 1 }] }

theorem witness_progress : beating.issues (.beat 1023) ∧ beating.launch.map (fun l => (l.part, l.ctx)) = some (0, 0x20100) ∧
    (beating.beats.find? fun x => x.part = 0 && x.ctx = 0x20100).isSome = true ∧ base.issues (.sleep 0) ∧ base.issues (.sleep 1023) ∧
    (withV base [(16, 0)]).issues (.sleept 16) ∧ (withV base [(16, 0)]).scalar64 16 ≤ base.timer ∧
    base.timer < (withV base [(16, 0), (17, 1)]).scalar64 16 ∧
    base.g.service = false ∧ (base.others.filter fun x => x.core = base.g.core && !x.service && issuePart x.slot = issuePart base.g.slot && base.groupReady x) = [] ∧
    (twoGroups.others.filter fun x => x.core = base.g.core && !x.service && issuePart x.slot = issuePart base.g.slot &&
      twoGroups.groupReady x) ≠ [] ∧ twoGroups.issues .yield ∧ base.issues (.grd 3 1 0) ∧ base.issues (.xm 3 1 1 1 1 1 1 1) := by
  and_intros <;> first | exact issues_of (by decide +kernel) | decide +kernel

/-- ArithmeticFence: flags with no trap enabled, and with one enabled. -/
def flagged : State := { base with
  g := { base.g with arithFlags := 0b100001 }
  launches := base.launches.map fun l => { l with eff := { l.eff with trapEnable := 0b100000 } } }

theorem witness_tfence : base.issues .tfence ∧ base.launch.isSome = true ∧ flagged.issues .tfence ∧
    (base.launch.map fun l => base.g.arithFlags &&& l.eff.trapEnable) = some 0 ∧
    (flagged.launch.map fun l => flagged.g.arithFlags &&& l.eff.trapEnable) = some 0b100000 ∧ (inTrap flagged).issues .tfence := by
  and_intros <;> first | exact issues_of (by decide +kernel) | decide +kernel

/-- DeliberateTrap: outside and in trap mode, and a word that is TRAPI 255. -/
theorem witness_trapi : base.issues (.trapi 255) ∧ base.g.sp.trap = false ∧ (inTrap base).issues (.trapi 0) ∧
    (inTrap base).g.sp.trap = true ∧ (decode32 0xFF000039).toOption = some (.trapi 255) := by
  and_intros <;> first | exact issues_of (by decide +kernel) | decide +kernel

/-! ### Memory -/

/-- Two active lanes, whose indices in v16 are 0 and 16; record 1 names 4,096 bytes at 0x10100; the lanes have 64 words of their own. -/
def two : State :=
  let s := withB (withLanes (withMask base 3) 16 fun l => 16 * l) 1 (0x10100 + 4096 * 2 ^ 56)
  { s with launches := s.launches.map fun l => { l with ownWords := 64, privBase := 0x200000 } }

def devOf (l : Lane) : Target × Nat := (.dev (0x10100 + 16 * l.val), 0x10100 + 16 * l.val)

def spmOf (l : Lane) : Target × Nat := (.spm 0 (16 * l.val), 16 * l.val)

def ownOf (l : Lane) : Target × Nat :=
  (.dev (two.ownWordAt two.g l (two.srcOf 16 l).toNat), two.ownWordAt two.g l (two.srcOf 16 l).toNat)

/-- The leaf in core 0's TLB that covers every address used here. -/
theorem covered (s : State) (va : Nat) (h : (s.coreAt s.g.core).tlb.head? = some seatLeaf ∧ s.partOf s.g = 0 ∧ va < 2 ^ 30) :
    ((s.coreAt s.g.core).tlb.find? fun e => e.covers (s.partOf s.g) va) = some seatLeaf := by
  obtain ⟨h1, h2, h3⟩ := h
  cases ht : (s.coreAt s.g.core).tlb with
  | nil => rw [ht] at h1; exact absurd h1 (by simp)
  | cons x r =>
    rw [ht] at h1
    obtain rfl : x = seatLeaf := by simpa using h1
    have : seatLeaf.covers (s.partOf s.g) va = true := by
      rw [h2]
      refine Bool.and_eq_true_iff.mpr ⟨rfl, decide_eq_true ?_⟩
      show va / 2 ^ 30 = 0 / 2 ^ 30
      omega
    simp [this]

theorem lanes_of {s : State} {p : Lane → Bool} (h : (lanesOf s.act).all p = true) (l : Lane) (hl : laneIn s.act l = true) : p l = true := by
  refine List.all_eq_true.mp h l ?_
  simp only [lanesOf, List.mem_filter]
  exact ⟨List.mem_finRange l, hl⟩

theorem two_leaf : (two.coreAt two.g.core).tlb.head? = some seatLeaf ∧ two.partOf two.g = 0 ∧ two.inWindow (two.partOf two.g) seatLeaf.pa = true ∧
    two.act ≠ 0 := by decide +kernel

/-- LoadsAndStoresIssue, AtomicsIssue and VersionedIssue: what each access looks up, at each width, finds its place. -/
def recordOk (s : State) (a : Access) (n w : Nat) (tgt : Lane → Target × Nat) : Bool :=
  (lanesOf s.act).all fun l => decide ((s.laneRecord s.g a (s.g.record n) (s.srcOf 16 l).toNat w).1 = (.ok (tgt l).1, (tgt l).2)) &&
    decide (recordEa (s.g.record n) (s.srcOf 16 l).toNat < 2 ^ 30)

theorem looksUp_record {a : Access} {w : Nat} (h : recordOk two a 1 w devOf = true) :
    LooksUp two (fun l => two.laneRecord two.g a (two.g.record 1) (two.srcOf 16 l).toNat w) devOf := by
  refine looksUp_of ⟨two_leaf.2.2.2, fun l hl => ?_⟩
  have := lanes_of h l hl
  simp only [Bool.and_eq_true, decide_eq_true_eq] at this
  exact ⟨this.1, laneRecord_hit two two.g a _ _ w seatLeaf (covered two _ ⟨two_leaf.1, two_leaf.2.1, this.2⟩) rfl two_leaf.2.2.1 rfl⟩

theorem witness_record : ([(.load 1 false 0, 1), (.load 1 true 0, 1), (.load 2 false 0, 2), (.load 2 true 0, 2), (.load 4 false 0, 4),
    (.load 8 false 0, 8), (.load 16 false 0, 16), (.store 1 0, 1), (.store 2 0, 2), (.store 4 0, 4), (.store 8 0, 8), (.store 16 0, 16),
    (.atomic 19 0 4 2 true, 4), (.atomic 19 0 4 2 false, 4), (.atomic 20 1 8 2 true, 8), (.atomic 20 1 8 2 false, 8), (.ldv, 4),
    (.ldvs 4, 4), (.ldvs 8, 8), (.vrd, 4), (.casv 4, 4), (.casv 8, 8), (.cpoll, 8)] : List (Access × Nat)).all
    (fun x => recordOk two x.1 1 x.2 devOf) = true := by decide +kernel

theorem witness_looksUp_record :
    LooksUp two (fun l => two.laneRecord two.g (.load 4 false 0) (two.g.record 1) (two.srcOf 16 l).toNat 4) devOf ∧
    LooksUp two (fun l => two.laneRecord two.g (.store 16 0) (two.g.record 1) (two.srcOf 16 l).toNat 16) devOf ∧
    LooksUp two (fun l => two.laneRecord two.g (.atomic 20 1 8 2 true) (two.g.record 1) (two.srcOf 16 l).toNat 8) devOf ∧
    LooksUp two (fun l => two.laneRecord two.g (.casv 8) (two.g.record 1) (two.srcOf 16 l).toNat 8) devOf :=
  ⟨looksUp_record (List.all_eq_true.mp witness_record (.load 4 false 0, 4) (by decide)),
    looksUp_record (List.all_eq_true.mp witness_record (.store 16 0, 16) (by decide)),
    looksUp_record (List.all_eq_true.mp witness_record (.atomic 20 1 8 2 true, 8) (by decide)),
    looksUp_record (List.all_eq_true.mp witness_record (.casv 8, 8) (by decide))⟩

theorem witness_spm : ([(1, false), (2, false), (4, false), (8, false), (16, false), (4, true), (8, true)] : List (Nat × Bool)).all (fun x =>
    (lanesOf two.act).all fun l => decide ((two.laneSpm two.g (two.srcOf 16 l).toNat x.1 x.2) = (.ok (spmOf l).1, (spmOf l).2))) = true := by
  decide +kernel

theorem witness_looksUp_spm : LooksUp two (fun l => (two.laneSpm two.g (two.srcOf 16 l).toNat 4 true, two)) spmOf :=
  looksUp_of ⟨two_leaf.2.2.2, fun l hl => ⟨by
    simpa using lanes_of (List.all_eq_true.mp witness_spm (4, true) (by decide)) l hl, rfl⟩⟩

theorem witness_own : ([.loadOwn 0, .storeOwn 0] : List Access).all (fun a => (lanesOf two.act).all fun l =>
    decide ((two.laneOwn two.g a l (two.srcOf 16 l).toNat).1 = (.ok (ownOf l).1, (ownOf l).2)) &&
      decide (two.ownWordAt two.g l (two.srcOf 16 l).toNat < 2 ^ 30)) = true := by decide +kernel

theorem witness_looksUp_own : LooksUp two (fun l => two.laneOwn two.g (.loadOwn 0) l (two.srcOf 16 l).toNat) ownOf := by
  refine looksUp_of ⟨two_leaf.2.2.2, fun l hl => ?_⟩
  have := lanes_of (List.all_eq_true.mp witness_own (.loadOwn 0) (by decide)) l hl
  simp only [Bool.and_eq_true, decide_eq_true_eq] at this
  exact ⟨this.1, laneOwn_hit two two.g _ l _ seatLeaf (covered two _ ⟨two_leaf.1, two_leaf.2.1, this.2⟩) rfl two_leaf.2.2.1 rfl⟩

theorem witness_memory_issue : ([.ldB 0 16 1 24, .ldQ 0 16 1 24, .ldpW 0 16 24, .ldsQ 16 24, .stB 0 16 1 24, .stQ 0 16 1 24, .stpW 0 16 24,
    .stsQ 16 24, .atomAdd 2 16 1 24, .atomAdd 0 16 0 24, .atomCasD 2 16 1 24, .redAdd 2 16 1 24, .redAddF64 1 16 0 24, .ldv 16 1 24,
    .ldvsD 16 1 24, .casvD 16 1 24, .vrd 16 1 24, .pref 1 16 1, .pref 0 16 2] : List Instr).all (issuesB two) = true := by decide +kernel

/-- StoresIssue's PREF with an invalid record; VersionedIssue's snapshot room, CPOLL and BREC. -/
def recBase : State := withV two [(18, 0x10100), (19, 0)]

theorem witness_versioned : recordValid (BitVec.ofNat 128 (5 * 2 ^ 108)) = false ∧
    two.myPantry = [] ∧ two.g.snaps.length + (two.snapsPending two.g).length + popcount two.act ≤ 64 ∧ two.issues (.vchk 6) ∧ two.issues .vclr ∧
    two.issues (.cpoll 1 16 24) ∧ lowest two.act = some 0 ∧ recBase.issues (.brec 0xFF 18 31) ∧ lowest recBase.act = some 0 ∧
    (BitVec.ofInt 56 ((recBase.g.read64 18 0).toNat + 16 * (0xFF : BitVec 8).toInt)).toNat = 0x100F0 ∧
    (recBase.laneTranslate recBase.g (.brec 31) false 0x100F0).1 = .ok (.dev 0x100F0) ∧
    (recBase.laneTranslate recBase.g (.brec 31) false 0x100F0).2 = recBase := by
  have same := laneTranslate_hit recBase recBase.g (.brec 31) false 0x100F0 seatLeaf (covered recBase _ (by decide +kernel)) rfl (by decide +kernel) rfl
  and_intros <;> first | exact same | exact issues_of (by decide +kernel) | decide +kernel

/-- RecordChecks at the edges: an invalid record; index extent, and the last index below it; an unaligned base; no swizzle with a
stride of 0 and of 20. -/
theorem witness_records :
    let r := fun (n : Nat) => BitVec.ofNat 128 n
    recordValid (r (5 * 2 ^ 108)) = false ∧ recordValid (r (0x10100 + 64 * 2 ^ 56 + 2 * 2 ^ 108)) = true ∧
    recExtent (r (0x10100 + 64 * 2 ^ 56 + 2 * 2 ^ 108)) < 64 + max (4 / recElem (r (0x10100 + 64 * 2 ^ 56 + 2 * 2 ^ 108))) 1 ∧
    63 + max (4 / recElem (r (0x10100 + 64 * 2 ^ 56 + 2 * 2 ^ 108))) 1 ≤ recExtent (r (0x10100 + 64 * 2 ^ 56 + 2 * 2 ^ 108)) ∧
    recordEa (r (0x10102 + 64 * 2 ^ 56 + 2 * 2 ^ 108)) 3 % 4 = 2 ∧ recordEa (r (0x10100 + 64 * 2 ^ 56 + 2 * 2 ^ 108)) 63 = 0x101FC ∧
    recHost (r 0x10100) = false ∧ recordEa (r (0x10100 + 20 * 2 ^ 88)) 3 = 0x1013C := by decide +kernel

/-- LaneCauseTraps: both lanes' indices lie behind the extent, behind the block's scratchpads and behind the lane's words; a record
in host memory that is not enabled. -/
def outside : State := withLanes (withB two 2 (0x10100 + 2 * 2 ^ 108)) 17 fun l => 2 ^ 20 + 16 * l

theorem laneRecord_beyond (s : State) (g : Group) (a : Access) (r : BitVec 128) (i w : Nat) (hv : recordValid r = true)
    (hx : recExtent r = 0) : s.laneRecord g a r i w = ((.bad 0x07 0, recordEa r i), s) := by
  have : recordCovers r i w = false := by simp only [recordCovers, hx, decide_eq_false_iff_not]; omega
  simp [State.laneRecord, hv, this]

theorem laneOwn_beyond (s : State) (g : Group) (a : Access) (l : Lane) (w : Nat)
    (h : ∀ x, s.launchOf g.launch = some x → x.ownWords ≤ w) : s.laneOwn g a l w = ((.bad 0x0A 0, s.ownWordAt g l w), s) := by
  cases hs : s.launchOf g.launch with
  | none => simp [State.laneOwn, hs]
  | some x => simp [State.laneOwn, hs, h x hs]

theorem witness_lane_issue : ([.ldB 0 17 2 24, .ldQ 0 17 2 24, .stB 0 17 2 24, .stQ 0 17 2 24, .ldpW 0 17 24, .stpW 0 17 24, .ldsB 17 24,
    .stsQ 17 24, .atomAdd 1 17 0 24, .atomAdd 2 17 2 24, .atomCasD 0 17 0 24, .redAddF64 3 17 2 24, .ldv 17 2 24, .ldvsD 17 2 24,
    .vrd 17 2 24, .casvD 17 2 24, .cpoll 2 17 24] : List Instr).all (issuesB outside) = true ∧ outside.myPantry = [] ∧
    laneIn outside.act 0 = true ∧ lowest outside.act = some 0 := by decide +kernel

theorem witness_lane_record (a : Access) (w : Nat) (l : Lane) : outside.laneRecord outside.g a (outside.g.record 2)
    (outside.srcOf 17 l).toNat w = ((.bad 0x07 0, recordEa (outside.g.record 2) (outside.srcOf 17 l).toNat), outside) :=
  laneRecord_beyond _ _ _ _ _ _ (by decide +kernel) (by decide +kernel)

theorem witness_lane_spm : ([(1, false), (4, true), (4, false), (8, true), (8, false), (16, false)] : List (Nat × Bool)).all (fun x =>
    (lanesOf outside.act).all fun l => decide ((outside.laneSpm outside.g (outside.srcOf 17 l).toNat x.1 x.2) =
      (.bad 0x08 0, (outside.srcOf 17 l).toNat % 2 ^ 21))) = true := by decide +kernel

theorem witness_lane_own (a : Access) (l : Lane) (hl : laneIn outside.act l = true) : outside.laneOwn outside.g a l
    (outside.srcOf 17 l).toNat = ((.bad 0x0A 0, outside.ownWordAt outside.g l (outside.srcOf 17 l).toNat), outside) := by
  have h : ((lanesOf outside.act).all fun l => (outside.launchOf outside.g.launch).all fun x =>
      decide (x.ownWords ≤ (outside.srcOf 17 l).toNat)) = true := by decide +kernel
  refine laneOwn_beyond _ _ _ _ _ fun x hx => ?_
  have := lanes_of h l hl
  simpa [hx] using this

/-- A leaf of host memory, for a partition whose host port is closed. -/
def hostly : State := recBase.modCore 0 fun c => { c with tlb := [{ seatLeaf with reach := 1 }] }

theorem laneTranslate_closed (s : State) (g : Group) (va n : Nat) (e : TlbEntry)
    (ht : ((s.coreAt g.core).tlb.find? fun e => e.covers (s.partOf g) va) = some e) (hr : e.reach = 1)
    (hl : s.hostLive (s.partOf g) = false) (hp : s.pantryPage g va false = false) (hs : g.service = false)
    (hb : Access.siteBad (.brec n) 1 = false) (hk : Access.parks (.brec n) = false) (hq : s.pantryPage g va true = false) :
    s.laneTranslate g (.brec n) false va = (.bad 0x0C 4, s) := by
  simp [State.laneTranslate, State.lookup, ht, State.checkLeaf, hr, hl, hp, hs, hb, hk, hq, Access.isWrite]

theorem witness_lane_brec : hostly.issues (.brec 0xFF 18 31) ∧ lowest hostly.act = some 0 ∧
    0x100F0 = (BitVec.ofInt 56 ((hostly.g.read64 18 0).toNat + 16 * (0xFF : BitVec 8).toInt)).toNat ∧
    hostly.laneTranslate hostly.g (.brec 31) false 0x100F0 = (.bad 0x0C 4, hostly) := by
  have tlb : (hostly.coreAt hostly.g.core).tlb.head? = some { seatLeaf with reach := 1 } ∧ hostly.partOf hostly.g = 0 := by decide +kernel
  have found : ((hostly.coreAt hostly.g.core).tlb.find? fun e => e.covers (hostly.partOf hostly.g) 0x100F0) =
      some { seatLeaf with reach := 1 } := by decide +kernel
  refine ⟨issues_of (by decide +kernel), by decide +kernel, by decide +kernel, ?_⟩
  apply laneTranslate_closed _ _ _ _ _ found rfl <;> decide +kernel

/-- StorePerformed: ST.W of both lanes has issued, and its flight is the step's. -/
def storing : State := at_ ((after (exec (.stW 0 16 1 24) two) id).getD two) { id := two.nextId }

theorem storing_memOk : storing.memOk := memOk_of (by decide +kernel)

theorem witness_store : Smap.wf 0 storing.versions = true ∧
    (storing.flight storing.ev.id).map (fun f => (storing.mayPerform f, f.acc, f.held, f.lanes)) = some (true, .store 4 0, [],
      [(0, 0x10100, 0), (1, 0x10110, 0)].map fun x => { lane := x.1, tgt := .dev x.2.1, v := x.2.2, c := 0, va := x.2.1 : LaneAcc }) ∧
    storing.ev.line = 0 ∧ (∀ a ∈ [0x10100, 0x10110], a % 4 = 0 ∧ storing.poisoned (a / 128) = false) ∧
    (∀ x ∈ (storing.coreAt 0).l1, x.dirty = 0) ∧ storing.flights.all (fun f => !storing.flightBehind f) = true ∧
    (∀ a ∈ [0x10100, 0x10110], storing.ownParked 0 0 (a / 128) = false) ∧
    storing.vdOf storing.g.launch = none ∧ (storing.groupAt 0 0).map (fun g => g.launch) = some storing.g.launch := by decide +kernel

theorem witness_store_log : storing.logTargets none [.dev 0x10100, .dev 0x10110] = some storing := rfl

/-- Atomics: 19.0 twice at one word. -/
theorem witness_atomics : base.memOk ∧ (atomicNew 19 0 4 0 7 0).2 = true ∧ (atomicNew 19 0 4 7 9 0).2 = true :=
  ⟨base_memOk, by decide +kernel, by decide +kernel⟩

/-- LoadFills: LD.W of both lanes has issued; before and behind its being performed. -/
def loading : State := at_ ((after (exec (.ldW 0 16 1 24) two) id).getD two) { id := two.nextId }

def performed : State := (after (exec .accessPerformed loading) id).getD loading

theorem witness_fill : (loading.flight loading.ev.id).map (fun f => f.performed) = some false ∧
    (performed.flight performed.ev.id).map (fun f => (f.performed, f.words, f.dst, f.trap, f.core, f.slot)) =
      some (true, [0], 24, false, performed.g.core, performed.g.slot) ∧
    (performed.flight performed.ev.id).map (fun f => f.acc) = some (.load 4 false 0) ∧
    performed.g.live = true ∧ (performed.g.waiter performed.ev.id).isNone = true := by decide +kernel

/-- A performed access of each form that a fill tells apart, its destination a v, an s, an o register, h0 to h3 in trap mode, or nul. -/
def performedAs (a : Access) (d : BitVec 7) (w : List Nat) (trap : Bool) (r : List (Nat × Nat)) : State :=
  { performed with flights := performed.flights.map fun f => { f with acc := a, dst := d, words := w, trap := trap, results := r } }

def fills (a : Access) (d : BitVec 7) (w : List Nat) (trap : Bool) : Bool :=
  let s := performedAs a d w trap [(0, 0x80)]
  s.g.live && (s.flight s.ev.id).any fun f => f.performed && decide (f.acc = a ∧ f.core = s.g.core ∧ f.slot = s.g.slot ∧
    f.results = [(0, 0x80)]) && (s.g.waiter f.id).isNone

theorem witness_fill_forms : [fills .ready 24 [0] false, fills (.loadOwn 0) 24 [0] false, fills (.load 16 false 0) 24 [0, 1, 2, 3] false,
    fills (.atomic 20 1 8 2 true) 112 [0, 1] false, fills (.load 1 true 0) 24 [0] false, fills (.load 2 true 0) 100 [0] false,
    fills .ldv 96 [0, 1] false, fills (.casv 8) 24 [0, 2] false, fills .vrd 0x7C [0] false, fills (.load 8 false 0) 108 [0, 1] true,
    fills (.brec 31) 0x7C [] false].all id = true := by decide +kernel

/-! ### Ordering, barriers and queues -/

def loadFlight : Flight := loading.flights.head (by decide +kernel)

def storeFlight : Flight := storing.flights.head (by decide +kernel)

theorem early_load : Earlier loading loadFlight := by
  unfold Earlier
  decide +kernel

theorem early_store : Earlier storing storeFlight := by
  unfold Earlier
  decide +kernel

/-- FencesAndWaits: nothing outstanding; a load in the way of an acquire; a store in the way of a release; a request that has not
read its sources; WAITC at its bound, above it, and with 63. -/
def copying : State := withV base [(4, 0), (5, 0), (6, 64), (7, 2 ^ 5 + 3 * 2 ^ 6)]

def requested : State := (after (exec (.cpy 12 4 16) copying) id).getD copying

def counted : State := base.modG fun g => { g with counters := vset g.counters 1 5 }

theorem witness_fences : Acquirable base ∧ Released base ∧ ReadsDone base ∧ ¬ Acquirable loading ∧ ¬ Released storing ∧
    ¬ ReadsDone requested ∧ loading.issues .acq ∧ storing.issues .rel ∧ (storing.issues .acqrel ∧ ReadsDone storing) ∧
    requested.issues .fenceEng ∧ (∀ e ∈ (storing.coreAt 0).pantry, e.slot ≠ storing.g.slot) := by
  refine ⟨acquirable_of (by decide +kernel), released_of (by decide +kernel), readsDone_of (by decide +kernel), fun h => absurd (h loadFlight early_load).1 (by decide +kernel), fun h => absurd (h.1 storeFlight early_store) (by decide +kernel), fun h => absurd (h (requested.reqs.head (by decide +kernel)) (List.head_mem _) (by decide +kernel) (by decide +kernel) (by decide +kernel)) (by decide +kernel), ?_, ?_, ⟨issues_of (by decide +kernel), readsDone_of (by decide +kernel)⟩, ?_, ?_⟩ <;> first | exact issues_of (by decide +kernel) | decide +kernel

theorem witness_waitc : counted.issues (.waitc 1 5) ∧ counted.issues (.waitc 1 4) ∧ counted.issues (.waitc 1 63) ∧
    counted.issues (.waitcParcel 5 1) ∧ vget counted.g.counters 1 0 = 5 ∧
    loading.issues (.waitc 1 0) ∧ loading.issues (.waitcParcel 0 1) ∧ vget loading.g.counters 1 0 = 0 := by
  and_intros <;> first | exact issues_of (by decide +kernel) | decide +kernel

/-- BarrierObjects: an object at 16 in the share, with B in v5. -/
def objects (b : Nat) : State := withV base [(2, 16), (5, b)]

def barrier (b c l p : Nat) : State := withMem (objects b) 16 16 (c + l * 2 ^ 32 + p * 2 ^ 64)

theorem witness_barrier : Reaches (barrier 4 5 4 7) 2 16 (0, 16) ∧ IsBarrier (barrier 4 5 4 7) (0, 16) 5 4 7 ∧
    IsBarrier (barrier 1 1 1 0) (0, 16) 1 1 0 ∧ (barrier 4 5 4 7).issues (.abarArv 5 2 24) ∧ Released (barrier 4 5 4 7) ∧
    (barrier 4 5 4 7).issues (.abarWait 5 2) ∧ (barrier 4 5 4 7).issues (.abarTry 5 2 24) ∧ (objects 65535).issues (.abarInit 5 2) ∧
    ((objects 65535).srcOf 5 0).toNat = 65535 := by
  refine ⟨reaches_of (by unfold Quiet; decide +kernel) ⟨0, by decide +kernel⟩, ?_, ?_, ?_, released_of (by decide +kernel), ?_, ?_, ?_, ?_⟩ <;>
    first | exact issues_of (by decide +kernel) | (try unfold IsBarrier) <;> decide +kernel

/-- QueueObjects: a queue of four elements at 16, of 4 or 8 bytes, holding one or none, open or closed, with an allowance or none. -/
def qHead_ (head tail count : Nat) (closed wide : Bool) : Nat :=
  3 + b2n wide * 2 ^ 8 + b2n closed * 2 ^ 9 + head * 2 ^ 16 + tail * 2 ^ 24 + count * 2 ^ 32

def queue (b h al : Nat) : State := withMem (withMem (objects b) 16 16 h) 32 2 al

theorem isQueue_of {s : State} {a : BitVec 8} {o : Nat × Nat} {x : Nat} (l : Lane)
    (header : Quiet s ∧ lowest s.act = some l ∧ x = s.spmRead o 16 ∧ qBad x = false)
    (bytes : [400, 400 + qDepth x * qSize x].all (fun n => decide (s.object (s.srcOf a l) n = some o)) = true) : IsQueue s a o x := by
  obtain ⟨quiet, low, read, sound⟩ := header
  have inside : ∀ n ∈ [400, 400 + qDepth x * qSize x], Within s a n o := fun n hn =>
    ⟨l, low, by simpa using List.all_eq_true.mp bytes n hn⟩
  exact ⟨reaches_of quiet (inside _ (by simp)), read, sound, inside _ (by simp)⟩

/-- The queues, with their headers. -/
def queues : List (State × Nat) :=
  [(1, 2, false, false, 0), (1, 0, false, true, 0), (0, 2, true, false, 1), (0, 2, false, false, 1)].map
    fun (x : Nat × Nat × Bool × Bool × Nat) =>
      let h := qHead_ x.2.2.2.2 1 x.1 x.2.2.1 x.2.2.2.1
      (queue 9 h x.2.1, h)

theorem witness_queue : ∀ y ∈ queues, IsQueue y.1 2 (0, 16) y.2 := by
  have header : queues.all (fun y => decide (Quiet y.1 ∧ lowest y.1.act = some 0 ∧ y.2 = y.1.spmRead (0, 16) 16 ∧ qBad y.2 = false)) =
      true := by simp only [Quiet]; decide +kernel
  have bytes : queues.all (fun y => [400, 400 + qDepth y.2 * qSize y.2].all fun n =>
      decide (y.1.object (y.1.srcOf 2 0) n = some (0, 16))) = true := by decide +kernel
  intro y hy
  exact isQueue_of 0 (of_decide_eq_true (List.all_eq_true.mp header y hy)) (List.all_eq_true.mp bytes y hy)

/-- A queue of one element whose group has an atomic with return in flight. -/
def awaiting : State :=
  { queue 9 (qHead_ 0 1 1 false false) 2 with flights := [{ loadFlight with acc := .atomic 19 0 4 2 true }] }

theorem witness_queue_issue :
    ([.qpush 5 2, .qpushTry 5 2 24, .qpop 2 24, .qtpop 2 24, .qallow 5 2, .qclose 2, .qstat 2 24] : List Instr).all
      (issuesB (queue 9 (qHead_ 0 1 1 false false) 2)) = true ∧
    (queue 9 (qHead_ 0 1 1 false false) 2).popWait = [] ∧
    (queue 9 (qHead_ 0 1 1 false false) 2).allowance (0, 16) 0 = 2 ∧ (queue 9 (qHead_ 0 1 1 false true) 0).allowance (0, 16) 0 = 0 ∧
    issuesB awaiting (.qpop 2 24) = true ∧ issuesB { awaiting with flights := awaiting.flights } (.abarWait 5 2) = true ∧
    awaiting.popWait = [] := by decide +kernel

theorem witness_queue_ready : Released (queue 9 (qHead_ 0 1 1 false false) 2) ∧ Acquirable (queue 9 (qHead_ 0 1 1 false false) 2) ∧
    UseReady (queue 9 (qHead_ 0 1 1 false true) 0) (srcUse 4 1 2) ∧ UseReady (queue 9 (qHead_ 0 1 1 false true) 0) (writeUse 24 4) := by
  refine ⟨released_of (by decide +kernel), acquirable_of (by decide +kernel), ?_, ?_⟩ <;> unfold UseReady <;> decide +kernel

theorem witness_queue_wait : IsQueue awaiting 2 (0, 16) (qHead_ 0 1 1 false false) ∧ ¬ Acquirable awaiting := by
  constructor
  · exact isQueue_of 0 (by unfold Quiet; decide +kernel) (by decide +kernel)
  · intro h
    have early : Earlier awaiting (awaiting.flights.head (by decide +kernel)) := by unfold Earlier; decide +kernel
    exact absurd (h _ early).2 (by decide +kernel)

theorem witness_queue_init : (objects 7).issues (.qinit 5 2) ∧ Reaches (objects 7) 2 400 (0, 16) ∧
    Within (objects 7) 2 (400 + qDepth 7 * qSize 7) (0, 16) ∧ ((objects 7).srcOf 5 0).toNat < 2 ^ 9 :=
  ⟨issues_of (by decide +kernel), reaches_of (by unfold Quiet; decide +kernel) ⟨0, by decide +kernel⟩, ⟨0, by decide +kernel⟩, by decide +kernel⟩

/-- QALLOW of the last free allowances of an empty queue, to the block's only group. -/
theorem witness_queue_allow :
    let s := queue (0 + 4 * 2 ^ 16) (qHead_ 1 1 0 false false) 2
    s.issues (.qallow 5 2) ∧ (s.srcOf 5 0).toNat = 0 + 4 * 2 ^ 16 ∧ (s.block s.g.block).map (fun y => y.groups) = some 1 ∧
    ((List.range 64).map fun j => if j = 0 then 4 else s.allowance (0, 16) j).sum + qCount (qHead_ 1 1 0 false false) ≤
      qDepth (qHead_ 1 1 0 false false) := by
  and_intros <;> first | exact issues_of (by decide +kernel) | decide +kernel

/-- QueueOrder: an empty queue and one that holds an element, each with room, pushed to and popped by a producer with an allowance. -/
theorem witness_queue_order : (queue 9 (qHead_ 1 1 0 false false) 2).memOk ∧ qBad (qHead_ 1 1 0 false false) = false ∧
    qCount (qHead_ 1 1 0 false false) < qDepth (qHead_ 1 1 0 false false) ∧
    qHead_ 1 1 0 false false = (queue 9 (qHead_ 1 1 0 false false) 2).spmRead (0, 16) 16 ∧ (0, 16).2 % 16 = 0 ∧ (0, 16).1 < 256 ∧
    0 < (queue 9 (qHead_ 1 1 0 false false) 2).allowance (0, 16) 0 ∧ 77 < 2 ^ (8 * qSize (qHead_ 1 1 0 false false)) ∧
    (queue 9 (qHead_ 0 1 1 false true) 2).memOk ∧ qBad (qHead_ 0 1 1 false true) = false ∧ 0 < qCount (qHead_ 0 1 1 false true) ∧
    qCount (qHead_ 0 1 1 false true) < qDepth (qHead_ 0 1 1 false true) ∧
    qHead_ 0 1 1 false true = (queue 9 (qHead_ 0 1 1 false true) 2).spmRead (0, 16) 16 ∧
    0 < (queue 9 (qHead_ 0 1 1 false true) 2).allowance (0, 16) 0 := by
  and_intros <;> first | exact memOk_of (by decide +kernel) | decide +kernel

/-! ### Engine requests, the matrix engine, system instructions -/

/-- A request may issue, and no record is being loaded. -/
theorem witness_may : (∀ c ∈ [0, 1, 2, 3], MayRequest base c) ∧ NoRecordPending base :=
  ⟨by unfold MayRequest; decide +kernel, by unfold NoRecordPending; decide +kernel⟩

/-- CopiesIssue: CPY with a legal and with an illegal control word (bit 23 is reserved), CPY2D of two rows, GATH with a completion
object, SCAT. -/
def gathering : State := withV base [(4, 11), (5, 12), (6, 256), (7, 2 + 2 ^ 17 + 4 * 2 ^ 12), (20, 9)]

theorem witness_copies : copying.issues (.cpy 12 4 16) ∧ lowest copying.act = some 0 ∧
    controlBad (copying.g.readWord 4 3 0).toNat = false ∧ controlBad (2 ^ 23) = true ∧
    (withV base [(24, 0), (25, 0), (26, 64), (27, 2 ^ 5 + 3 * 2 ^ 6), (28, 2), (29, 100), (30, 200)]).issues (.cpy2d 12 24 16) ∧
    gathering.issues (.gath 4 20 16) ∧ gatherBad (gathering.g.readWord 4 3 0).toNat false = false ∧
    (withV gathering [(7, 2 * 2 ^ 6)]).issues (.scat 4 20 16) ∧ gatherBad (2 * 2 ^ 6) true = false ∧
    0 < copying.rate (copying.pathOf 0 0 []) ∧ gatherBad (2 ^ 23) false = true ∧ gatherBad (2 ^ 23) true = true := by
  and_intros <;> first | exact issues_of (by decide +kernel) | decide +kernel

/-- The counters of both classes at 63. -/
def crowded (s : State) : State := s.modG fun g => { g with counters := vset (vset g.counters 0 63) 1 63 }

theorem witness_copies_wait : (crowded copying).issues (.cpy 12 4 16) ∧ (crowded copying).issues (.cpy2d 12 24 16) ∧
    (crowded gathering).issues (.gath 4 20 16) ∧ (crowded gathering).issues (.scat 4 20 16) ∧
    [0, 1].all (fun c => decide (63 ≤ vget (crowded copying).g.counters c 0 ∧ 63 ≤ vget (crowded gathering).g.counters c 0)) = true := by
  and_intros <;> first | exact issues_of (by decide +kernel) | decide +kernel

/-- Collectives: the first of a block's two groups. -/
def grouped : State := { withV base [(4, 7), (5, 64)] with blocks := base.blocks.map fun b => { b with groups := 2 } }

theorem witness_coll : grouped.issues (.coll 5 4 7) ∧ MayRequest grouped 3 ∧ grouped.colls = [] ∧
    (grouped.block grouped.g.block).map (fun y => y.groups) = some 2 :=
  ⟨issues_of (by decide +kernel), by unfold MayRequest; decide +kernel, by decide +kernel, by decide +kernel⟩

/-- A block of n groups, one of which has begun a collective, behind one of another block; it can start only where the partition's
node allows it. -/
def standing (n : Nat) : State :=
  let x : CollRun := { block := base.g.block, order := 1, args := [{ producer := 5, req := 100, treg := 7, desc := 7, obj := 64 }], started := false
                       die := 0, comm := 0, tile := 0, stopped := false, owing := 0, touched := [] }
  { grouped with blocks := base.blocks.map fun b => { b with groups := n }, colls := [{ x with block := 99, order := 0 }, x] }

theorem collEn_none {s : State} {part : Nat} (h : s.prcb part = 0) : s.collEn part = (false, s) := by simp [State.collEn, h]

theorem witness_coll_join : [2, 3].all (fun n => issuesB (standing n) (.coll 5 4 7)) = true ∧
    [2, 3].all (fun n => decide (((standing n).block (standing n).g.block).map (fun y => (y.groups, y.part)) = some (n, 0))) = true ∧
    (standing 2).colls.all (fun c => c.args.all fun z => decide (z.req ≠ (standing 2).nextId ∧ z.producer ≠ (standing 2).g.producer)) = true ∧
    (standing 2).colls.map (fun c => (c.block == (standing 2).g.block, c.order)) = [(false, 0), (true, 1)] := by decide +kernel

theorem witness_coll_fail :
    let x : CollArg := { producer := (standing 2).g.producer, req := (standing 2).nextId, treg := 7, desc := 7, obj := 64 }
    let r := ((standing 2).colls.map fun c => { c with args := c.args ++ [x] }).getLast (by decide +kernel)
    let u : State := { ((standing 2).addRequest 3 1 (.coll (collComm x.desc)) none 0 0).movedTo ((standing 2).g.sp.pc + 4) with
      colls := (standing 2).colls.dropLast ++ [r] }
    u.collEn 0 = (false, u) ∧ u.collBad r = 2 := ⟨collEn_none (by decide +kernel), by decide +kernel⟩

/-- ReservationsAndBanks: three units of the lowest run, and four banks; freeing them; a bank that is not the group's. -/
def matrix : State := withV base [(4, 3 + 2 * 2 ^ 9), (5, 1 + 2 * 2 ^ 16), (6, 4), (7, 1)]

def reserved : State := (after (exec (.ores 5 4 3) matrix) id).getD matrix

def banked : State := (after (exec (.allock 6 20) reserved) id).getD matrix

theorem witness_ores : matrix.issues (.ores 5 4 3) ∧ NoDPending matrix ∧ resValid (DReg matrix 3) = false ∧
    (matrix.engine 0).oresQ = [] ∧ freeRun (matrix.engine 0).unitOwner 256 3 = some 0 ∧ formatOk 2 0 = true ∧
    3 + heldBy (matrix.engine 0).unitOwner (ownerKey 0 0) ≤ 256 ∧ fld (3 + 2 * 2 ^ 9) 16 16 = 0 ∧
    reserved.issues (.orel 3) ∧ NoDPending reserved ∧ resValid (DReg reserved 3) = true := by
  and_intros <;> first | exact issues_of (by decide +kernel) | exact noDPending_of (by decide +kernel) | decide +kernel

theorem witness_banks : matrix.issues (.allock 6 20) ∧ 4 + heldBy (matrix.engine 0).bankOwner (ownerKey 0 0) ≤ matrix.bankLimit ∧
    matrix.blockBanks 0 matrix.g.block + 4 ≤ matrix.bankLimit ∧ (matrix.engine 0).allockQ = [] ∧
    freeRun (matrix.engine 0).bankOwner 64 4 = some 0 ∧ (withV banked [(8, 0), (9, 2)]).issues (.freek 9 8) ∧
    (banked.engine 0).owns (ownerKey 0 0) 0 2 = true ∧ (banked.engine 0).owns (ownerKey 0 0) 3 2 = false ∧ banked.reqs = [] := by
  and_intros <;> first | exact issues_of (by decide +kernel) | decide +kernel

/-- MatrixRequests: descriptors that each instruction accepts, and its operands. -/
def matrixLoad : State := withV reserved [(8, 0x1000), (9, 1), (10, 256), (11, 2 + 5 * 2 ^ 16)]

def scaleLoad : State :=
  let s := withV { reserved with g := { reserved.g with d := vset reserved.g.d 3 (resRecord 0 3 4 0 0 16 32) } }
    [(8, 0x1000), (9, 1), (10, 256), (11, 2 + 5 * 2 ^ 16), (12, 1)]
  s

theorem witness_loads : matrixLoad.issues (.mld 8 3) ∧ resValid (DReg matrixLoad 3) = true ∧ resStrided (DReg matrixLoad 3) = false ∧
    areaFits (DReg matrixLoad 3) 0 2 5 (sliceBytes (resFmt (DReg matrixLoad 3))) = true ∧ MayRequest matrixLoad 2 ∧
    scaleLoad.issues (.mlds 12 8 3) ∧ scaleLoad.srcOf 12 0 = 1 ∧ 0 < zpBytes (resFmt (DReg scaleLoad 3)) (resGlen (DReg scaleLoad 3)) ∧
    areaFits (DReg scaleLoad 3) (resZp (DReg scaleLoad 3)) 2 5 (zpBytes (resFmt (DReg scaleLoad 3)) (resGlen (DReg scaleLoad 3))) = true ∧
    0 < scaleBytes (resFmt (DReg scaleLoad 3)) (resGlen (DReg scaleLoad 3)) := by
  and_intros <;> first | exact issues_of (by decide +kernel) | decide +kernel

def saving : State := inTrap (withV banked [(8, 0x1000), (9, 1), (10, 0), (11, 1 + 64 * 3)])

theorem witness_matrix : (withV banked [(8, 1 + 64 * 3)]).issues (.mzero 8) ∧ (banked.engine 0).owns (ownerKey 0 0) 1 3 = true ∧
    (withV banked [(8, 0x1000), (9, 1), (10, 256), (11, 1 + 64 * 2 + 256 * 3)]).issues (.mst 8) ∧ 0x100001000 % convBytes 3 = 0 ∧
    saving.issues (.accsave 8) ∧ saving.issues (.accload 8) ∧ saving.g.service = false ∧ saving.g.core = 0 ∧ saving.g.slot = 0 ∧
    MayRequest saving 2 ∧ (withV banked [(8, 1 + 64 * 7 + 512 * 3)]).issues (.maccr 8 20) ∧
    (withV banked [(8, 1 + 64 * 7 + 512 * 3)]).issues (.maccw 8 9) := by
  and_intros <;> first | exact issues_of (by decide +kernel) | decide +kernel

/-- MatrixOperations: two legal reservations, four quarters; a block that holds the lease. -/
def multiply : State :=
  let s := withV banked [(8, 0 + 1 * 2 ^ 16), (9, 0)]
  { s with g := { s.g with d := vset (vset s.g.d 3 (resRecord 0 3 2 0 0 0 0)) 4 (resRecord 0 3 2 0 0 0 0) } }

def leased : State := (withV banked [(8, 9)]).modEngine 0 fun c =>
  { c with lease := some { block := banked.g.block, left := 3, lastEntry := 0 } }

theorem witness_mma : multiply.issues (.mma 4 3 8) ∧ resValid (DReg multiply 3) = true ∧ resValid (DReg multiply 4) = true ∧
    pairOk false multiply.classA (DReg multiply 3) (DReg multiply 4) = true ∧ (quarterLanes multiply.act).length = 4 ∧
    (∀ l ∈ quarterLanes multiply.act, multiply.quarterOk false (DReg multiply 3) (DReg multiply 4) (multiply.g.readWord 8 0 l).toNat
      (multiply.g.readWord 8 1 l).toNat = true) ∧ vget multiply.g.counters 2 0 + 4 ≤ 63 ∧ (multiply.engine 0).table.length + 4 ≤ 64 ∧
    multiply.g.sp.wait = .none ∧ NoDPending multiply := by
  and_intros <;> first | exact issues_of (by decide +kernel) | exact noDPending_of (by decide +kernel) | decide +kernel

theorem witness_lease : leased.issues (.mlease 8) ∧ (leased.engine 0).lease.map (fun x => x.block) = some leased.g.block ∧
    (leased.engine 0).table = [] ∧ (leased.engine 0).leaseOver = false ∧ leased.issues .mrel ∧ leased.g.core < 256 := by
  and_intros <;> first | exact issues_of (by decide +kernel) | decide +kernel

/-- SpecialRegisters: a register of one word, one of two, one that may not be read; writes that are taken and that are not. -/
theorem witness_rdsr : base.issues (.rdsr 0x00 24) ∧ srTile 0x00 = false ∧ (base.readSr 0x00 0).isSome = true ∧
    base.issues (.rdsr 0x10 24) ∧ srWords 0x10 = 2 ∧ (base.readSr 0x10 0).isSome = true ∧ base.noLane = false ∧
    base.encodingBad (.rdsr 0x09 24) = false ∧ srReadable 0x09 base.g.sp.trap = false ∧
    base.encodingBad (.wrsr 0x20 16) = false ∧ srWritable 0x20 base.g.sp.trap = false ∧ (inTrap base).readSr 0x20 0 = some 0 := by
  and_intros <;> first | exact issues_of (by decide +kernel) | decide +kernel

theorem witness_wrsr : (withV base [(16, 63)]).issues (.wrsr 0x18 16) ∧ ((withV base [(16, 63)]).g.readWord 16 0 0).toNat = 63 ∧
    (withV base [(16, 64)]).issues (.wrsr 0x18 16) ∧ ((withV base [(16, 64)]).g.readWord 16 0 0).toNat = 64 ∧
    (([0x20, 0x22, 0x24, 0x25] : List (BitVec 8)).all fun i => issuesB (inTrap base) (.wrsr i 16)) = true ∧
    (inTrap base).g.sp.trap = true ∧ ((inTrap base).g.readWord 16 0 0).toNat < 2 ^ 17 ∧ ((inTrap base).g.readWord 16 0 0).toNat % 2 = 0 ∧
    ((inTrap base).g.readWord 16 1 0).toNat < 2 ^ 24 := by
  and_intros <;> first | exact issues_of (by decide +kernel) | decide +kernel

/-- SystemInstructions: a queue of the launch's own virtual device and one that is not; a launch whose queue holds a slot. -/
def bound : State := { withV base [(16, 33), (17, 2)] with
  regs := { base.regs with vdbind := vset base.regs.vdbind 0 (BitVec.ofNat 64 (2 ^ 32 + 64 * 2 ^ 20)) } }

def slotted : State := { base with slots := [(3, { queue := 0, woken := 0, awake := true, idleSince := 0, held := none, command := none })] }

theorem witness_signal : bound.issues (.signal 0 16) ∧ Released bound ∧ bound.signalOk (bound.srcOf 16 0) = true ∧
    (withV base [(16, 33)]).issues (.signal 0 16) ∧ (withV base [(16, 33)]).signalOk 33 = false ∧ bound.issues (.signal 1 16) :=
  ⟨issues_of (by decide +kernel), released_of (by decide +kernel), by and_intros <;> first | exact issues_of (by decide +kernel) | decide +kernel⟩

theorem witness_rlaunch : slotted.issues (.rlaunch 16) ∧ Released slotted ∧ slotted.launch.map (fun y => y.queue) = some 0 ∧ (∃ z ∈ slotted.slots, z.2.queue = 0) ∧
    base.issues (.rlaunch 16) ∧ Released base ∧ base.launch.isSome = true ∧ base.slots = [] :=
  ⟨issues_of (by decide +kernel), released_of (by decide +kernel), by decide +kernel, by decide +kernel, issues_of (by decide +kernel),
    released_of (by decide +kernel), by decide +kernel, rfl⟩

theorem witness_vstat : ([0, 1, 2, 3, 4] : List (BitVec 8)).all (fun i => issuesB (withLanes base 16 fun l => 8 * l + 7) (.vstat i 16 24)) = true ∧
    (inTrap (withV base [(16, 31)])).issues (.actset 16) ∧ (inTrap (withV base [(16, 1025)])).issues (.actset 16) :=
  ⟨by decide +kernel, issues_of (by decide +kernel), issues_of (by decide +kernel)⟩

def filling : State := inService (withV base [(16, 0x20000), (17, 0), (18, 7), (19, 5)])

theorem witness_tlb : ([0, 1, 2] : List (BitVec 2)).all (fun n => issuesB filling (.tlbfill n 16)) = true ∧
    fld ((filling.g.readWord 16 2 0).toNat + 2 ^ 32 * (filling.g.readWord 16 3 0).toNat) 0 2 = 3 ∧
    issuesB filling (.tlbinv 0 16) = true ∧ issuesB filling (.tlbinv 1 0) = true ∧ issuesB filling (.tlbinv 2 16) = true ∧
    (withV base [(18, 1)]).srcOf 18 0 = 1 := by decide +kernel

/-- An unmappable pantry entry of the group, read in trap mode. -/
def parked : PantryEntry :=
  { id := 5, core := 0, slot := 0, split := 0, anc := [0], part := 0, vline := 0x800, kind := 0, op := 0, site := 0, unmappable := true
    reported := false, trapped := false, lanes := 1, groupix := 0, reason := 1, stamp := 7, bytemask := 5, word := 9, data := [] }

def parking : State := (inTrap base).modCore 0 fun c => { c with pantry := [parked] }

theorem witness_plogrd : parking.issues (.plogrd 0 0 24) ∧ (inTrap base).issues (.plogrd 20 1 24) ∧ parking.served = (0, 0) ∧
    parking.flights = [] ∧ ((parking.coreAt 0).pantry.find? fun x => x.slot = 0 && x.unmappable) = some parked := by
  and_intros <;> first | exact issues_of (by decide +kernel) | decide +kernel

/-- The handler, with a store of three banks, 24 rows, outstanding. -/
def rowing (n : Nat) : State := inTrap { withV base [(16, n)] with reqs := [{
  id := 9, core := 0, slot := 0, owner := 0, block := base.g.block, split := 0, anc := [0], cls := 2, part := 0
  kind := .mst 0x1000 256 0 3 0 false, pos := 1, stopped := none, waiting := false, done := false, compl := none, promise := 0
  engine := 0, retired := false }] }

/-- SpecialRegisters' tile words: ready, and behind a load; MROW without a request. -/
theorem witness_tile : (withV base [(16, 128)]).issues (.wrsr 0x40 16) ∧ TileReady (withV base [(16, 128)]) ∧
    ((withV base [(16, 128)]).srcOf 16 0).toNat = 128 ∧ loading.issues (.rdsr 0x4F 25) ∧ ¬ TileReady loading ∧
    (loading.block loading.g.block).isSome = true ∧ (inTrap base).issues (.wrsr 0x38 16) ∧
    ((inTrap base).rowRequest (inTrap base).g).isNone = true ∧ (rowing 24).issues (.wrsr 0x38 16) ∧
    (((rowing 24).rowRequest (rowing 24).g).map fun r => r.kind.rows) = some 24 ∧ fld ((rowing 24).srcOf 16 0).toNat 0 16 = 24 ∧
    fld ((rowing 25).srcOf 16 0).toNat 0 16 = 25 ∧ fld ((rowing (2 ^ 16)).srcOf 16 0).toNat 16 14 = 1 := by
  have late : ¬ TileReady loading := fun h => absurd (h loadFlight early_load).1 (by decide +kernel)
  have ready : TileReady (withV base [(16, 128)]) := fun f hf => absurd hf (flightsNone (by decide +kernel) f)
  and_intros <;> first | exact ready | exact late | exact issues_of (by decide +kernel) | decide +kernel


/-! ### The device's own steps -/

theorem event_here : EventHere (at_ base {}) := by unfold EventHere; decide +kernel

/-- RequestSteps: the copy is done; its next piece fails; its promise is reached; its group has a report. -/
def finished : State := at_ { requested with reqs := requested.reqs.map fun r => { r with done := true } } { id := copying.nextId }

def refusedPiece : State := at_ requested { id := copying.nextId }

def lateCopy : State := at_ { requested with reqs := requested.reqs.map fun r => { r with promise := 0 } } { id := copying.nextId }

def aFrame (cause : Nat) : Frame :=
  { cause := cause, code := 0, write := false, pc := 0, mask := 0, done := 0, h0 := 1, h1 := 2, h2 := 3, h3 := 4 }

def reported (cause : Nat) : State := { base with g := { base.g with reports := [{ req := 7, frame := aFrame cause }] } }

/-- A report about another split's access stands before one about the split's own. -/
def splitReport : State := { base with g := { base.g with reports :=
  [{ req := 6, split := some 77, frame := aFrame 0x0D }, { req := 7, split := some base.g.sp.age, frame := aFrame 0x0D }] } }

theorem witness_request : RequestHere finished (finished.reqs.head (by decide +kernel)) ∧
    (finished.reqs.map fun r => (r.done, r.stopped == none, r.compl == none, r.cls)) = [(true, true, true, 0)] ∧
    RequestHere refusedPiece (refusedPiece.reqs.head (by decide +kernel)) ∧
    (refusedPiece.reqs.map fun r => r.done) = [false] ∧ RequestHere lateCopy (lateCopy.reqs.head (by decide +kernel)) ∧
    (lateCopy.reqs.map fun r => (r.cls, r.left, decide (r.promise ≤ lateCopy.timer))) = [(0, 64, true)] ∧
    EventHere (at_ (reported 0x10) {}) ∧ (reported 0x10).g.trapMode = false ∧
    (reported 0x10).clockStopped (coreCluster (reported 0x10).g.core) = false ∧
    (splitReport.g.reports.find? fun y => y.split.all fun a => a ∈ splitReport.g.sp.anc).map (fun x => (x.frame.cause, x.split)) =
      some (0x0D, some splitReport.g.sp.age) ∧ splitReport.g.reports.length = 2 := by
  unfold RequestHere EventHere
  decide +kernel

theorem witness_request_stop : refusedPiece.piece (refusedPiece.reqs.head (by decide +kernel)) = .stops ⟨7, 0, true, 0⟩ refusedPiece := rfl

/-- WaitsEnd: times come and to come; a YIELD over for each reason and not over; a window to open with a budget and without; a lease
256 clocks after its last entry, and one clock before. -/
def waiting (w : Wait) : State := at_ ((base.modSp fun sp => { sp with wait := w }).modCore 0 fun c => { c with round := 3 }) {}

theorem witness_waits : ([.sleept 0, .sleept 1, .sleep 0, .sleep 1, .yielded [] 9, .yielded [3] 5, .yielded [3] 6] : List Wait).all
    (fun w => decide ((waiting w).g.sp.wait = w ∧ (waiting w).g.live = true ∧ (waiting w).ev.core = (waiting w).g.core ∧
      (waiting w).ev.slot = (waiting w).g.slot ∧ (waiting w).ev.age = (waiting w).g.sp.age)) = true ∧
    ((waiting .none).coreAt 0).slotNo (waiting .none).g.partNo = 6 ∧ base.timer = 0 ∧ (base.engine base.g.core).cycle = 0 := by decide +kernel

def window (b : Option Nat) : State := at_ (base.modCore 3 fun c => { c with actWindow := 1, actNext := b, actCount := 9 }) { core := 3 }

theorem witness_window : ([none, some 100] : List (Option Nat)).all (fun b => decide ((window b).ev.core = 3 ∧
    ((window b).coreAt 3).actWindow ≠ ((window b).engine 3).cycle / 32)) = true := by decide +kernel

def idleLease (clock : Nat) : State :=
  at_ (base.modCluster 5 fun c => { c with clock := clock, lease := some { block := 0, left := 3, lastEntry := 0 } }) { cl := 5 }

theorem witness_idle_lease : ([255000, 256000] : List Nat).all (fun n => decide (((idleLease n).clusterAt 5).lease.isSome = true ∧
    ((idleLease n).clusterAt 5).table = [])) = true ∧ ((idleLease 256000).clusterAt 5).cycle = 256 := by decide +kernel

/-- GroupsAndPasses: a group without lanes beside another of its block; one entry of the lease's block, whose request has its turn. -/
def emptied : State := at_ (twoGroups.modSp fun sp => { sp with mask := 0 }) {}

theorem witness_group_end : EventHere emptied ∧ emptied.g.service = false ∧ (∀ x ∈ emptied.g.splits, x.mask = 0) ∧
    emptied.endingOf emptied.g = false ∧ emptied.g.reports = [] ∧ (emptied.coreAt emptied.g.core).l1 = [] ∧
    (emptied.coreAt emptied.g.core).pantry = [] ∧ emptied.flights = [] ∧ emptied.reqs = [] ∧
    (emptied.block emptied.g.block).map (fun b => b.restoring) = some none ∧
    (∃ x ∈ emptied.others, x.block = emptied.g.block ∧ ¬ (x.core = emptied.g.core ∧ x.slot = emptied.g.slot)) := by
  unfold EventHere
  decide +kernel

/-- A quarter-operation of two legal ranges on bank 2. -/
def quarterReq : EngReq :=
  { id := 9, core := 0, slot := 0, owner := 0, block := base.g.block, split := 0, anc := [0], cls := 2, part := 0
    kind := .mma false (resRecord 0 3 2 0 0 0 0) (resRecord 0 3 2 0 0 0 0) 0 2 0, pos := 0, stopped := none, waiting := false
    done := false, compl := none, promise := 0, engine := 0, retired := false }

def passing (left : Nat) : State := at_ ({ base with reqs := [quarterReq] }.modCluster 0 fun c =>
  { c with lease := some { block := base.g.block, left := left, lastEntry := 0 }
           table := [{ core := 0, slot := 0, split := 0, block := base.g.block, req := 9, prio := 0, age := 4, lease := none, passed := 0 }] }) {}

/-- A vault of the cluster is hot. -/
def halted : State := at_ { base with vaults := base.vaults.map fun v => { v with hot := true } } {}

theorem witness_pass_stopped : halted.clockStopped halted.ev.cl = true ∧ (passing 1).clockStopped (passing 1).ev.cl = false := by decide +kernel

theorem witness_pass : ([1, 1024] : List Nat).all (fun n => decide ((((passing n).clusterAt 0).table.map fun e => (e.block, e.lease, e.req)) =
    [(base.g.block, none, 9)] ∧ ((passing n).clusterAt 0).lease.map (fun x => x.block) = some base.g.block)) = true ∧
    ((passing 1).reqs.find? fun q => q.id = 9) = some quarterReq ∧ (passing 1).engineTurn quarterReq = true ∧ (passing 1).loadsDone quarterReq = true := by decide +kernel

/-- MatrixSums: an operand buffer of zeros, canonical banks, and reservations of each kind of format whose elements and scales are zero. -/
def zeroEngine : Cluster := { Cluster.reset with opBuf := (List.range 512).map fun k => (k, 1) }

def resAt (f g : Nat) : BitVec 64 := BitVec.ofNat 64 (2 ^ 17 * f + 2 ^ 21 * g)

theorem zero_means (F : Format) (h : F = e4m3 ∨ F = bf16 ∨ F = fp16) : Means F 0 0 := by
  rcases h with h | h | h <;> subst h <;> exact ⟨false, 0, _, rfl, by simp [exactOf]⟩

theorem witness_matrix_sums : Smap.wf none zeroEngine.banks = true ∧
    ([0, 1, 2, 3, 4, 5, 6].map fun f => fmtAt (resAt f (if f < 4 then 0 else 2))) = [0, 1, 2, 3, 4, 5, 6] ∧ groupAt (resAt 5 2) = 128 ∧
    (∀ k, k < 128 → elementAt zeroEngine (resAt 0 0) 0 k = 0 ∧ elementAt zeroEngine (resAt 2 0) 0 k = 0 ∧
      elementAt zeroEngine (resAt 6 2) 0 k = 0) ∧
    scaleAt zeroEngine (resAt 5 2) 0 0 = 0 ∧ scaleAt zeroEngine (resAt 0 0) 0 3 ≠ 255 ∧
    Means (floatOf 0) 0 0 ∧ Means (floatOf 2) 0 0 ∧ Means fp16 0 0 := by
  and_intros <;> first | exact zero_means _ (by simp [floatOf]) | decide +kernel

/-- CollectiveSteps: a collective of one die in communicator 5, whose tile of 1,024 bytes lies in the share; of two devices; stopped;
with every chunk moved. -/
def collective (devices progress len : Nat) : State :=
  let c := bset (bset (bset (bset 0 4 1 1) 10 8 1) 18 8 (devices - 1)) 64 32 progress
  let tile : BitVec 64 := BitVec.ofNat 64 (128 + len * 2 ^ 32)
  at_ { base with
    regs := { base.regs with comm := vset base.regs.comm 5 c, devnum := bset (bset 0 0 8 3) 8 1 1 }
    blocks := base.blocks.map fun b => { b with tiles := vset b.tiles 7 tile }
    colls := [{ block := base.g.block, order := 0, args := [{ producer := 0, req := 11, treg := 7, desc := 2 + 2 * 8 + 5 * 256, obj := 0 }]
                started := true, die := 0, comm := 5, tile := tile, stopped := false, owing := 0, touched := [] }] }
    { comm := 5, remote := [{ comm := 5, rank := 1, bytes := List.replicate 1024 3 }] }

theorem witness_chunk : ([(1, 0), (2, 0)] : List (Nat × Nat)).all (fun x =>
    let s := collective x.1 x.2 1024
    decide (s.chunkChoice s.ev.die = some 5 ∧ s.ev.store = false ∧ s.members 5 = s.colls ∧ s.colls.findSome? (fun r => s.tileHole r.block r.tile
      (chunkRange (s.comm 5) (tileLen r.tile) (commProgress (s.comm 5))).1
      (chunkRange (s.comm 5) (tileLen r.tile) (commProgress (s.comm 5))).2) = none)) = true := by decide +kernel

theorem witness_credit : ([0, 7] : List Nat).all (fun d => Smap.wf 0 (base.dieAt d).rail.buffers) = true := by decide +kernel

def stoppedColl : State :=
  { collective 1 0 1024 with colls := (collective 1 0 1024).colls.map fun r => { r with stopped := true } }

theorem witness_coll_resume : (stoppedColl.colls.map fun r => (r.stopped, r.owing, r.comm, r.args.length)) = [(true, 0, 5, 1)] ∧
    (stoppedColl.block base.g.block).isSome = true := by decide +kernel

theorem witness_coll_complete : (collective 1 1 1024).collOver 5 = true ∧ (collective 1 0 0).collOver 5 = true := by decide +kernel

/-- WalksAndReplays: tables that map the first GiB to the window's start; a page request; a store in the pantry. -/
def tables : State :=
  let m := Memory.writeLE (Memory.writeLE (Memory.writeLE base.dev 0x100000 8 (1 + 0x1010 * 2 ^ 16)) 0x101000 8 (1 + 0x1020 * 2 ^ 16))
    0x102000 8 143
  { base with dev := m, regs := { base.regs with part := vset base.regs.part 0 (bset seatPart 560 52 0x100000) } }

theorem tables_memOk : tables.memOk := memOk_of (by decide +kernel)

theorem witness_walk : ([0, 0x3FFFFFFF] : List Nat).all (fun va => decide (tables.walk 0 va = .leaf seatLeaf)) = true := by decide +kernel

def paging : State := at_ (tables.modCore 9 fun c => { c with pageReqs := [{ part := 0, page := 4, write := true, fetch := false }] }) { core := 9 }

theorem witness_page_request : (paging.coreAt 9).pageReqs = [{ part := 0, page := 4, write := true, fetch := false }] ∧ paging.ev.ok = false ∧
    paging.walk 0 (4 * 2 ^ 16) = .leaf seatLeaf ∧ paging.flights = [] ∧ paging.completions = [] := by decide +kernel

/-- A store of bytes 0 and 2 of a line. -/
def parkedStore : PantryEntry :=
  { parked with unmappable := false, reason := 0, lanes := 0, data := (List.range 128).map fun k => BitVec.ofNat 8 (k + 1) }

def replaying : State := at_ (tables.modCore 0 fun c => { c with pantry := [parkedStore] }) { va := 0x40000 }

theorem replaying_memOk : replaying.memOk := memOk_of (by decide +kernel)

theorem logTargets_none (s : State) (l : List Target) : s.logTargets none l = some s := by
  induction l with
  | nil => rfl
  | cons x l ih => cases x <;> simp [State.logTargets, State.logPage, ih]

theorem witness_replay : (replaying.coreAt 0).pantry = [parkedStore] ∧ (replaying.coreAt 0).l1 = [] ∧ parkedStore.part = replaying.ev.part ∧
    parkedStore.vline * 128 / 2 ^ 16 = replaying.ev.va / 2 ^ 16 ∧ parkedStore.unmappable = false ∧ parkedStore.kind = 0 ∧
    replaying.flights = [] ∧ replaying.reqs = [] ∧ replaying.walk 0 (parkedStore.vline * 128) = .leaf seatLeaf ∧ replaying.poisoned (0x40000 / 128) = false ∧
    (replaying.checkLeaf 0 0 (parkedStore.vline * 128) seatLeaf true false true).1 = .ok (.dev 0x40000) ∧
    (replaying.checkLeaf 0 0 (parkedStore.vline * 128) seatLeaf true false true).2 = replaying ∧
    ((replaying.groupAt 0 0).map fun g => replaying.vdOf g.launch) = some none ∧
    replaying.lookup 0 0 (parkedStore.vline * 128) true false (replaying.slotDomain 0 0) = (.leaf seatLeaf, replaying) := by
  have found : (replaying.coreAt 0).tlb.find? (fun e => e.covers 0 (parkedStore.vline * 128)) = some seatLeaf := by decide +kernel
  have here : replaying.lookup 0 0 (parkedStore.vline * 128) true false (replaying.slotDomain 0 0) = (.leaf seatLeaf, replaying) := by
    simp only [State.lookup, found]
  have same : (replaying.checkLeaf 0 0 (parkedStore.vline * 128) seatLeaf true false true).2 = replaying :=
    checkLeaf_window _ _ _ _ _ _ _ _ rfl (by decide +kernel)
  and_intros <;> first | with_reducible exact same | with_reducible exact here | decide +kernel

/-- OutsideRequests: a request that hits cluster 0's TLBs; a peer with the partition's pod tag, loading and storing across the window's
first and last bytes, and one outside it; the host through BAR2. -/
def outer : State := { base with
  regs := { base.regs with
    part := vset base.regs.part 0 (bset seatPart 632 16 0xBEEF), devnum := bset (bset 0 0 8 3) 8 1 1
    vdbind := vset base.regs.vdbind 4 (BitVec.ofNat 64 (2 ^ 32)) } }

theorem outer_memOk : outer.memOk := memOk_of (by decide +kernel)

def remoteOne (w : Bool) : Remote :=
  { id := 6, cl := 0, part := 0, va := 0x40000, write := w, again := 0, refused := 0, answered := none, value := 0 }

def retrying : State := { outer with remotes := [{ remoteOne true with refused := 63 }], ev := { id := 6 } }

theorem witness_remote : (at_ outer { id := 6, va := 0x40000 }).ev.id = 6 ∧ (outer.clusterAt 0).gated = false ∧
    (outer.clusterAt 0).gating = false ∧
    ((List.range 4).flatMap (fun k => (outer.coreAt (clusterCore 0 k)).tlb) ++ (outer.clusterAt 0).tlb).find?
      (fun y => y.covers 0 0x40000) = some seatLeaf ∧
    (outer.checkLeaf (clusterCore 0 0) 0 0x40000 seatLeaf true false false).1 = .ok (.dev 0x40000) ∧
    (outer.checkLeaf (clusterCore 0 0) 0 0x40000 seatLeaf true false false).2 = outer ∧
    (retrying.remotes.map fun r => (r.id, r.answered == none, decide (r.again ≤ retrying.timer))) = [(6, true, true)] ∧
    (retrying.checkLeaf (clusterCore 0 0) 0 0x40000 seatLeaf true false false).2 = retrying := by
  have same : ∀ s, s = outer ∨ s = retrying → (s.checkLeaf (clusterCore 0 0) 0 0x40000 seatLeaf true false false).2 = s := by
    rintro s (rfl | rfl) <;> exact checkLeaf_window _ _ _ _ _ _ _ _ rfl (by decide +kernel)
  and_intros <;> first | with_reducible exact same _ (.inl rfl) | with_reducible exact same _ (.inr rfl) | decide +kernel

def peering (pa tag : Nat) (op : PeerOp) : State := at_ outer { peer := ⟨7, tag, pa, 4, op⟩, id := 8 }

/-- The same while die 0's link retrains. -/
def jammed : State := (peering 0 0xBEEF .load).modDie 0 fun d => { d with rail := { d.rail with retraining := some 0 } }

theorem witness_peer_refused : [(0, 0xBEEE), (3 * 2 ^ 30 - 3, 0xBEEF)].all (fun x => [PeerOp.load, .store [1, 2, 3, 4], .atomic 19 0 [(0, 1, 0)]].all fun op =>
      let s := peering x.1 x.2 op
      bbit s.regs.devnum 8 && bget s.regs.devnum 0 8 != s.ev.peer.sender && !(s.dieAt s.ev.die).rail.failed && (s.dieAt s.ev.die).rail.takes 1) = true ∧
    (peering 0 0xBEEE .load).windowOf 0 4 = some 0 ∧ (peering 0 0xBEEE .load).podtag 0 ≠ (peering 0 0xBEEE .load).ev.peer.podtag ∧
    (peering (3 * 2 ^ 30 - 3) 0xBEEF .load).windowOf (3 * 2 ^ 30 - 3) 4 = none ∧ jammed.ev.peer.width = 4 ∧
    bbit jammed.regs.devnum 8 = true ∧ bget jammed.regs.devnum 0 8 ≠ jammed.ev.peer.sender ∧ (jammed.dieAt jammed.ev.die).rail.failed = false ∧
    (jammed.dieAt jammed.ev.die).rail.takes 1 = false := by decide +kernel

theorem witness_peer : bbit outer.regs.devnum 8 = true ∧ bget outer.regs.devnum 0 8 = 3 ∧ (outer.dieAt 0).rail.takes 1 = true ∧ outer.windowOf 0 4 = some 0 ∧
    outer.windowOf (3 * 2 ^ 30 - 4) 4 = some 0 ∧ outer.windowOf (3 * 2 ^ 30 - 3) 4 = none ∧ outer.podtag 0 = 0xBEEF ∧
    outer.windowOf 0 (4 + 0) = some 0 ∧ outer.poisonAt 0 4 = false ∧ outer.hushed = [] ∧
    (outer.dieAt 0).rail.failed = false ∧ outer.memOk ∧ bbit base.regs.devnum 8 = false := by
  and_intros <;> first | exact outer_memOk | decide +kernel

def hostAccess (off : Nat) (store : Bool) : State := at_ outer { vd := 4, off := off, store := store, size := 4, bytes := [1, 2, 3] }

/-- No port is in use; the device is not enabled; its partition is not active; an access crosses the window's end. -/
theorem witness_bar2_refused : ({ outer with ports := outer.ports.map fun p => { p with enabled := false } } : State).vfLive 4 = false ∧
    outer.vfLive 4 = true ∧ vbEnabled (outer.vdbind 5) = false ∧ vbPart (outer.vdbind 5) = 0 ∧ outer.partActive 0 = true ∧
    ({ outer with regs := { outer.regs with part := vset outer.regs.part 0 0 } } : State).partActive 0 = false ∧
    outer.inWindow 0 (outer.windowLo 0 + (3 * 2 ^ 30 - 3) + 4 - 1) = false ∧ outer.inWindow 0 (outer.windowLo 0 + 3 * 2 ^ 30) = false := by
  decide +kernel

theorem witness_bar2 : outer.vfLive 4 = true ∧ outer.hushed = [] ∧ vbEnabled (outer.vdbind 4) = true ∧ vbPart (outer.vdbind 4) = 0 ∧ outer.partActive 0 = true ∧
    outer.inWindow 0 (outer.windowLo 0) = true ∧ outer.inWindow 0 (outer.windowLo 0 + (3 * 2 ^ 30 - 4) + 4 - 1) = true ∧
    vbPart (State.reset.vdbind 4) = 0 ∧ State.reset.partActive 0 = false := by decide +kernel

/-- RailPorts: the device's own number, a flit of another; a store with two flits; 16 resends; retraining since 1,000,000 ticks. -/
def railing (r : Rail) (e : EvArgs) : State := { outer.modDie 3 fun d => { d with rail := r } with timer := 1000000, ev := { e with die := 3 } }

def busyRail : Rail := { Rail.reset with store := [{ chan := 1, seq := 4 }, { chan := 1, seq := 5 }], recvSeq := 2 ^ 32 - 1, resends := 16 }

theorem witness_rail : ([railing busyRail { flit := ⟨3, 0, 0, 0, true⟩ }, railing busyRail { flit := ⟨2, 3, 0, 2 ^ 32 - 1, true⟩ }] : List State).all
    (fun s => bbit s.regs.devnum 8 && !(s.dieAt 3).rail.failed && (s.dieAt 3).rail.retraining.isNone && s.ev.flit.ok && bget s.regs.devnum 0 8 == 3) = true ∧
    ((railing busyRail {}).dieAt 3).rail = busyRail ∧ (railing busyRail { ok := true, value := 4 }).ev.ok = true ∧
    ((railing { busyRail with retraining := some 0 } {}).dieAt 3).rail.retraining = some 0 ∧ (railing busyRail {}).flights = [] ∧
    (railing busyRail {}).colls = [] ∧ (railing busyRail {}).completions = [] := by decide +kernel

/-- FrontEndSteps: queue 5 in service, whose header and ring of 16 commands stand at 0x201000; the device's own queue, unmapped and
mapped; virtual device 4 with queues 5 and 6. -/
def fields (l : List (Nat × Nat)) : Nat := (l.map fun x => x.2 * 2 ^ x.1).sum

def ringing (w c : Nat) : State :=
  { tables with
    dev := Memory.writeLE (Memory.writeLE tables.dev 0x201000 8 w) (0x201040 + 32 * 3) 16 c
    regs := { tables.regs with
      qdesc := Smap.set 0 tables.regs.qdesc 5 (BitVec.ofNat 128 (fields [(0, 0x201000), (64, 4), (69, 1)]))
      vdbind := vset tables.regs.vdbind 4 (BitVec.ofNat 64 (fields [(8, 5), (20, 2), (32, 1)])) } }

def slot5 (c : Option (Nat × Nat × Option Nat)) : QSlot := { queue := 5, woken := 0, awake := true, idleSince := 0, held := none, command := c }

def mapped (w c : Nat) (x : Option (Nat × Nat × Option Nat)) : State := { ringing w c with slots := [(9, slot5 x)], ev := { slot := 9, q := 5, vd := 4 } }

theorem witness_notify : qdEnabled ((ringing 0 0).qdesc 5) = true ∧ qdStopped ((ringing 0 0).qdesc 5) = false ∧ (ringing 0 0).slots = [] ∧
    (ringing 0 0).pending = [] ∧ (ringing 0 0).queueHeld 5 = false ∧ (mapped 0 0 none).slots.length = 1 ∧
    (ringing 0 0).vfLive 4 = true ∧ ({ ringing 0 0 with ports := (ringing 0 0).ports.map fun p => { p with enabled := false } } : State).vfLive 4 = false ∧
    vbEnabled ((ringing 0 0).vdbind 4) = true ∧ vbHas ((ringing 0 0).vdbind 4) 5 = true ∧ vbHas ((ringing 0 0).vdbind 4) 6 = true ∧
    vbHas ((ringing 0 0).vdbind 4) 7 = false ∧ vbEnabled ((ringing 0 0).vdbind 3) = false := by decide +kernel

/-- Four commands written and three taken. -/
def turning : State := { mapped 4 (fields [(0, 1), (64, 0x202200)]) none with dev := Memory.writeLE (mapped 4 (fields [(0, 1), (64, 0x202200)]) none).dev 0x201008 4 3 }

theorem witness_turn : turning.nextServed turning.nextSlot = some (9, slot5 none) ∧ turning.rlaunches = [] ∧
    turning.reach (qdPart (turning.qdesc 5)) (qdRing (turning.qdesc 5)) = .ok (.dev 0x201000) true ∧
    turning.reach (qdPart (turning.qdesc 5)) (qdRing (turning.qdesc 5) + 64 + 32 * 3) = .ok (.dev 0x2010A0) true ∧
    fld (turning.peek (.dev 0x201000) 16) 0 32 = 4 ∧ fld (turning.peek (.dev 0x201000) 16) 64 32 = 3 ∧
    turning.readWordsAt 0 (0x201000 + 64 + 32 * 3) 4 = .val (fields [(0, 1), (64, 0x202200)]) ∧
    fld (turning.peek (.dev 0x201000) 16) 32 32 = 0 ∧ turning.peek (.dev 0x201000) 64 / 2 ^ 96 = 0 ∧
    turning.commandBad 5 (fields [(0, 1), (64, 0x202200)]) = false := by decide +kernel

def noOp : State := mapped 1 0 (some (0, 0, none))

theorem noOp_memOk : noOp.memOk := memOk_of (by decide +kernel)

theorem witness_no_op : noOp.slots = [(noOp.ev.slot, slot5 (some (0, 0, none)))] ∧
    noOp.reach (qdPart (noOp.qdesc 5)) (qdRing (noOp.qdesc 5)) = .ok (.dev 0x201000) true ∧ 0x201000 % 4096 = 0 := by decide +kernel

/-- A launch of three blocks of 40 lanes, with its context, its partition node and its kernel's header; and one whose RCB lies on an
absent page. -/
def launching (rcb : Nat) : State :=
  let s := mapped 1 0 (some (1, rcb, none))
  { s with
    launches := [], blocks := [], g := Group.empty
    regs := { s.regs with part := vset s.regs.part 0 (bset (s.partRec 0) 656 56 0x202000) }
    dev := [(0x202000, 256, fields [(0, 1)]), (0x202100, 256, fields [(0, 2), (64, 0x202000)]),
        (0x202200, 256, fields [(0, 4), (64, 0x202100), (960, 0x300000), (1024, 0x77), (1088, 0x210000), (1216, 3), (1248, 1), (1264, 1),
          (1472, 0x400000)]),
        (0x210000, 64, fields [(0, 0x5A52454E), (32, 1), (64, 2), (96, 64), (128, 16), (136, 40), (160, 1), (176, 4)])].foldl
      (fun m x => Memory.writeLE m x.1 x.2.1 x.2.2) s.dev }

theorem witness_launch : (match (launching 0x202200).accept 5 0x202200 none with
      | .done t => t.launches.map fun l => (l.state, l.gridX, l.lanes, l.regs, l.scratchBytes, l.ctx)
      | .hold _ => []) = [(1, 3, 40, 16, 256, 0x202100)] ∧
    (match (launching 0x40000000).accept 5 0x40000000 none with
      | .done _ => 0
      | .hold a => a) = 0x40000000 ∧
    (launching 0x202200).slots.find? (fun y => y.1 = (launching 0x202200).ev.slot) = some (9, slot5 (some (1, 0x202200, none))) ∧
    (launching 0x202200).ringReady 9 5 = none := by
  decide +kernel

def idleQueue : State := { mapped 0 0 none with timer := 2 ^ 16 }

theorem witness_idle_queue : idleQueue.slots.find? (fun z => z.2.queue = idleQueue.ev.q) = some (9, slot5 none) ∧
    idleQueue.queueBusy idleQueue.ev.q = false ∧ (slot5 none).idleSince + 2 ^ 16 ≤ idleQueue.timer ∧ idleQueue.pending = [] ∧
    idleQueue.rlaunches = [] ∧ idleQueue.slots.all (fun z => z.2.command.isNone) = true ∧ ({ idleQueue with slots := [] } : State).holdsCommands idleQueue.ev.q = false := by
  decide +kernel

def longWait : State :=
  { ringing 0 0 with pending := [{ queue := 5, since := 0, reported := false }], timer := 1000001, ev := { q := 5 } }

theorem witness_notify_wait : longWait.prcb (qdPart (longWait.qdesc 5)) = 0 ∧
    0 + 1000000 < longWait.timer ∧ (longWait.pending.map fun p => (p.queue, p.reported)) = [(5, false)] := by
  decide +kernel

/-- BucketsAndBudgets: a dry bucket of the launch's virtual device; a node that has used up a budget of 5. -/
def dry : State := { base with
  launches := base.launches.map fun l => { l with vd := some 2 }
  regs := { base.regs with vdsched := vset base.regs.vdsched 2 (BitVec.ofNat 128 (fields [(0, 7), (32, 50)])) }, ev := { vd := 2 } }

theorem witness_dry : dry.vdHeld 2 = true ∧ (dry.launches.map fun l => (decide (l.rcb = l.head), l.vd, l.state, l.freezing)) = [(true, some 2, 2, false)] := by
  decide +kernel

/-- A refill is due. -/
theorem witness_refill : (2 ^ 20 : Nat) % 2 ^ 20 = 0 ∧ ({ dry with timer := 2 ^ 20 } : State).refilled ≠ 2 ^ 20 := by decide +kernel

def spent : State :=
  let s := launching 0x202200
  let v := fields [(0, 2), (64, 0x202000), (128, 5), (1992, 5)]
  { s with
    dev := Memory.writeLE s.dev 0x202100 256 v
    nodes := [{ part := 0, va := 0x202100, image := BitVec.ofNat 2048 v }], ev := { va := 0x202100 } }

theorem readNode_same {s : State} {part va v : Nat} (h : s.nodeNow part va = .val v) (hn : (s.node part va).isSome = true)
    (hm : modFirst (fun n => n.part = part && n.va = va) (fun n => { n with image := (s.readNode part va).1 }) s.nodes = s.nodes) :
    (s.readNode part va).2 = s := by
  have : (s.readNode part va).2 = s.modNode part va fun n => { n with image := (s.readNode part va).1 } := by
    simp only [State.readNode, h]
  rw [this, State.modNode, if_pos hn, hm]

theorem witness_budget : (spent.readNode 0 0x202100).1 = BitVec.ofNat 2048 (fields [(0, 2), (64, 0x202000), (128, 5), (1992, 5)]) ∧
    (spent.readNode 0 0x202100).2 = spent ∧ rcbBudget (spent.image 0 0x202100) = 5 ∧ rcbConsumed (spent.image 0 0x202100) = 5 :=
  ⟨by decide +kernel, readNode_same (v := fields [(0, 2), (64, 0x202000), (128, 5), (1992, 5)]) (by decide +kernel) (by decide +kernel)
    (by decide +kernel), by decide +kernel, by decide +kernel⟩

/-- PlacementSteps: no launch wants a block; one does; one has been refused for room alone for more than 2^20 ticks; a cluster without
work; a cluster that wakes. -/
def wanting : State := { base with launches := base.launches.map fun l => { l with gridPos := 0, waitSince := some 0 }, timer := 2 ^ 20 + 1, ev := { rcb := 0x20000 } }

/-- Two launches that want blocks, the later with the higher priority. -/
def rivals : State := { wanting with launches := wanting.launches ++ wanting.launches.map fun l =>
  { l with rcb := 0x21000, head := 0x21000, eff := { l.eff with priority := 9 } } }

theorem witness_placement : base.passDue = [] ∧ rivals.passDue = [] ∧ (base.launches.filter fun x => x.wants) = [] ∧
    ((rivals.launches.filter fun x => x.wants).map fun l => l.eff.priority) = [(rivals.launches.map fun l => l.eff.priority).headD 0, 9] ∧
    (base.blocks ++ rivals.blocks).all (fun b => b.restoring.isNone) = true ∧
    ((wanting.launchOf wanting.ev.rcb).map fun l => l.waitSince) = some (some 0) ∧ 0 + 2 ^ 20 < wanting.timer := by decide +kernel

/-- A load of the cluster's core is in flight. -/
def busyCluster : State := { base with flights := [{ loadFlight with core := clusterCore 63 0 }] }

theorem witness_gate_busy : (busyCluster.clusterAt 63).unitOwner = [] ∧ (busyCluster.clusterAt 63).bankOwner = [] ∧
    busyCluster.groups.all (fun g => decide (coreCluster g.core ≠ 63)) = true ∧ (busyCluster.clusterAt 63).gated = false ∧
    busyCluster.flights.any (fun f => decide (coreCluster f.core = 63)) = true := by decide +kernel

theorem witness_gate : (base.clusterAt 63).gated = false ∧ (base.clusterAt 63).unitOwner = [] ∧ (base.clusterAt 63).bankOwner = [] ∧
    (∀ g ∈ base.groups, coreCluster g.core ≠ 63) ∧ base.flights = [] ∧ base.reqs = [] ∧
    ((base.modCluster 63 fun c => { c with gated := true, waking := true }).clusterAt 63).waking = true := by decide +kernel

/-- A collective that its last group starts: the partition's node allows it, and communicator 5 is bound to die 0. -/
def startingColl : State :=
  let v := fields [(0, 1), (5, 1)]
  let x : CollRun := { block := base.g.block, order := 1, args := [{ producer := 5, req := 100, treg := 7, desc := 2 + 2 * 8 + 5 * 256, obj := 64 }]
                       started := false, die := 0, comm := 0, tile := 0, stopped := false, owing := 0, touched := [] }
  { withV tables [(4, 2 + 2 * 8 + 5 * 256), (5, 64)] with
    dev := Memory.writeLE tables.dev 0x202000 256 v
    nodes := [{ part := 0, va := 0x202000, image := BitVec.ofNat 2048 v }]
    regs := { tables.regs with
      part := vset tables.regs.part 0 (bset (tables.partRec 0) 656 56 0x202000)
      comm := vset tables.regs.comm 5 (bset (bset 0 4 1 1) 10 8 1) }
    blocks := base.blocks.map fun b => { b with groups := 2, tiles := vset b.tiles 7 (BitVec.ofNat 64 (128 + 1024 * 2 ^ 32)) }
    colls := [x] }

theorem witness_coll_start :
    let s := startingColl
    let x : CollArg := { producer := s.g.producer, req := s.nextId, treg := 7, desc := s.srcOf 4 0, obj := s.srcOf 5 0 }
    let r := (s.colls.map fun c => { c with args := c.args ++ [x] }).getLast (by decide +kernel)
    let u : State := { (s.addRequest 3 1 (.coll (collComm x.desc)) none 0 0).movedTo (s.g.sp.pc + 4) with colls := [r] }
    issuesB s (.coll 5 4 7) = true ∧ lowest s.act = some 0 ∧ r.args.length = 2 ∧ u.collEn 0 = (true, u) ∧ u.collBad r = 0 := by
  intro s x r u
  have same : (u.readNode 0 0x202000).2 = u :=
    readNode_same (v := fields [(0, 1), (5, 1)]) (by decide +kernel) (by decide +kernel) (by decide +kernel)
  have node : u.prcb 0 = 0x202000 ∧ rcbColl (u.readNode 0 0x202000).1 = true := by decide +kernel
  refine ⟨by decide +kernel, by decide +kernel, by decide +kernel, ?_, by decide +kernel⟩
  simp only [State.collEn, node.1, node.2, same]
  rfl

/-- PreemptionSteps: the launch running, draining without blocks, draining past its deadline, drained, frozen; and a block that can be
written, whose context's save area at 0x500000 has room. -/
def preempted (f : Launch → Launch) : State := at_ { base with launches := base.launches.map f, timer := 4000001 } { rcb := 0x20000 }

def drained : State := { preempted (fun l => { l with state := 3, drain := some { since := 0, self := false } }) with blocks := [], g := Group.empty }

theorem witness_preempt : ([preempted id, preempted fun l => { l with state := 1 }, drained,
      preempted fun l => { l with state := 3, drain := some { since := 0, self := true } }, preempted fun l => { l with state := 4 },
      preempted fun l => { l with state := 6 }] : List State).all
      (fun s => match s.launches with
        | [l] => decide (l.rcb = s.ev.rcb) && decide (l.head = l.rcb) && !l.freezing
        | _ => false) = true ∧
    drained.running 0x20000 = [] ∧ (preempted id).running 0x20000 ≠ [] ∧ (preempted id).launches.all Launch.busy = true ∧
    (preempted id).launches.all (fun l => decide (0 + l.eff.drainDeadline < 4000001)) = true := by decide +kernel

def freezing (limit : Nat) : State := at_ { tables with
    dev := Memory.writeLE tables.dev 0x500000 24 (fields [(0, 128), (128, limit)])
    launches := base.launches.map fun l => { l with freezing := true, saveArea := 0x500000, regs := 8 }
    blocks := base.blocks.map fun b => { b with regs := 8, share := 0 }
    g := { base.g with stopped := true } } { blk := base.g.block }

theorem witness_freeze : ((freezing 65536).launches.map fun l => (decide (l.head = l.rcb), l.freezing)) = [(true, true)] ∧
    ((freezing 65536).block base.g.block).map (fun b => (b.ending, b.head)) = some (none, 0x20000) ∧
    (freezing 65536).blocks.all (fun b => b.restoring.isNone) = true ∧ (freezing 65536).groups.all (fun g => g.halting.isEmpty) = true ∧
    (freezing 65536).flights = [] ∧
    (freezing 65536).reqs = [] ∧ (freezing 65536).cores.all (fun c => c.l1.isEmpty) = true ∧
    (freezing 65536).areaRead 0 0x500000 128 = .val (fields [(0, 128), (128, 65536)]) ∧
    anySet (fields [(0, 128), (128, 65536)]) [(96, 32), (192, 832)] = false ∧ (freezing 65536).areaLines 0 0x500000 1 = .inr [0x500000] := by decide +kernel

theorem witness_freeze_room : ((freezing 65536).blocks.map fun b =>
    match (freezing 65536).areaLines b.part (0x500000 + 128) ((((freezing 65536).blockRecord b).length + 127) / 128) with
      | .inr l => decide (l ≠ []) && decide (128 + ((freezing 65536).blockRecord b).length ≤ 65536)
      | .inl _ => false) = [true] := by decide +kernel

/-- GeyserSteps: a context whose period ends now; a controller of two members that hears its own number; a window to close; a step with
an integrator at its limit; a pool way that waits; a bind of a node that is not there, and of one that is; a controller to unbind. -/
def served (f : Loop → Loop) : State :=
  let b := { Beats.fresh 0 0x20100 (cfgOf 0 1) 0 with count := 5 }
  at_ ({ base with
    beats := [{ b with cfg := { b.cfg with target := 0x30000 } }], timer := 2 ^ 20 + 64000
    ways := [{ part := 0, way := 2, owner := 0, next := [3], since := 0, slow := false }] }.modLoop 0 fun l =>
      f { l with serves := some (0, 0x20100) }) { ctx := 0x20100, way := 2 }

theorem witness_period : (match (served id).beats with
    | [b] => decide (b.part = (served id).ev.part) && decide (b.ctx = (served id).ev.ctx) && decide (b.stop ≤ (served id).timer) && b.cfg.valid
    | _ => false) = true := by decide +kernel

def merging (heard : Bool) : State := served fun l =>
  { l with members := 2, heard := heard, window := some { period := 0, close := 2 ^ 20 + 64000, count := 5, idle := false, up := true, dn := false } }

theorem witness_merge : ([true, false] : List Bool).all (fun h => let l := (merging h).loopAt 0
    decide (l.serves = some (0, 0x20100)) && decide (1 < l.members) && !l.alone && !l.fresh && decide (l.others = []) && !l.ownMissed && decide (l.own.due = 0) && !l.own.excluded &&
    decide ((merging h).ev.id = bget (merging h).regs.devnum 0 8)) = true ∧ (2 ^ 20 + 64000 : Nat) ≤ (merging true).timer := by decide +kernel

def stepping (n : Nat) (i : Int) (up dn : Bool) : State := served fun l =>
  { l with integrator := i, satUp := up, satDown := dn, step := some { index := 1, count := some n, sats := none } }

theorem witness_geyser_step : ((stepping 5 100 false true).loopAt 0).step = some { index := 1, count := some 5, sats := none } ∧
    ((stepping 5 100 false true).loopAt 0).serves = some (0, 0x20100) := by decide +kernel

theorem witness_way : (served id).ways = [{ part := 0, way := 2, owner := 0, next := [3], since := 0, slow := false }] ∧
    0 + 2 ^ 20 ≤ (served id).timer := by decide +kernel

def binding (ctx : Nat) : State :=
  let s := launching 0x202200
  let v := fields [(0, 2), (4, 1), (16, 2 ^ 10), (64, 0x202000), (320, 0x30000), (640, 2 ^ 32 - 5), (736, 7)]
  at_ { s with
    dev := Memory.writeLE s.dev 0x202100 256 v
    regs := { s.regs with gloop := vset s.regs.gloop 127 (BitVec.ofNat 128 (fields [(0, ctx), (88, 1)])) } } { m := 127 }

theorem witness_bind : let s := binding 0x202100
    glEnable (s.gloop 127) = true ∧ (s.loopAt 127).serves = none ∧ s.partActive 0 = true ∧
    s.nodeNow 0 0x202100 = .val (fields [(0, 2), (4, 1), (16, 2 ^ 10), (64, 0x202000), (320, 0x30000), (640, 2 ^ 32 - 5), (736, 7)]) ∧
    s.loops.all (fun l => decide (l.serves = none)) = true ∧ glMembers (s.gloop 127) = 1 ∧
    (binding 0x202180).nodeNow 0 0x40000000 = .absent 0x40000000 := by decide +kernel

theorem witness_bind_admission :
    let s := binding 0x202100
    let x := BitVec.ofNat 2048 (fields [(0, 2), (4, 1), (16, 2 ^ 10), (64, 0x202000), (320, 0x30000), (640, 2 ^ 32 - 5), (736, 7)])
    let s0 := s.modNode 0 0x202100 fun n => { n with image := x }
    rcbPart x = 0 ∧ rcbKind x = 2 ∧ rcbGeyser x = true ∧ (s0.readCfg 0 0x202100).1.valid = true ∧
    (s0.readCfg 0 0x202100).2.admission 0 0x202100 (s0.readCfg 0 0x202100).1.usable (s0.readCfg 0 0x202100).1 = none := by decide +kernel

/-- A write-protected node refuses a bind. -/
def unboundable : State := { binding 0x202100 with dev := Memory.writeLE (binding 0x202100).dev 0x102000 8 139 }

theorem witness_bind_refused : unboundable.nodeNow 0 0x202100 = .bad 0x0C ∧ glEnable (unboundable.gloop 127) = true ∧
    glEnable ((served id).gloop 0) = false := by decide +kernel

/-- ClocksAndSensors: a rise decided; a window of matrix work, full and not; windows of current and power, over and not; errors of a line. -/
def heated (e : EvArgs) (f : Die → Die) : State := at_ { base.modDie 2 f with timer := 2 ^ 16 } { e with die := 2 }

theorem witness_clock : ((heated {} fun d => { d with rising := some (20, 0) }).dieAt 2).rising = some (20, 0) ∧
    4096000 ≤ ((heated {} fun d => { d with weight := 10, matrix := 5, window := 4096000 }).dieAt 2).window ∧
    ((heated {} fun d => { d with window := 4095999 }).dieAt 2).window < 4096000 ∧
    ((heated {} fun d => { d with measured := 2 ^ 16 - 1024 }).dieAt 2).measured + 1024 ≤ (heated {} id).timer ∧
    (heated {} id).timer < ((heated {} fun d => { d with measured := 2 ^ 16 - 1023 }).dieAt 2).measured + 1024 ∧
    (heated {} id).timer < (heated {} id).powerAt + 2 ^ 20 ∧
    ({ heated {} id with timer := 2 ^ 20 } : State).powerAt + 2 ^ 20 ≤ ({ heated {} id with timer := 2 ^ 20 } : State).timer ∧ (base.vaultAt 255).fenced = false ∧
    (2 ^ 16 : Nat) % 2 ^ 16 = 0 ∧ (base.vaultAt 255).sampled ≠ some (2 ^ 16) ∧ (base.vaultAt 255).refreshAt ≤ 2 * 2 ^ 16 ∧
    ((heated {} fun d => { d with quietSince := 0 }).dieAt 2).quietSince + 2 ^ 16 ≤ 2 ^ 16 := by decide +kernel

theorem witness_scrub : (at_ base { line := 5, scrub := .uncorrectable }).poisoned 5 = false ∧
    (at_ base { line := 5, scrub := .uncorrectable }).reaching 5 = false ∧
    (at_ loading { line := 0x10100 / 128, scrub := .uncorrectable }).reaching (0x10100 / 128) = true ∧ Smap.wf 0 base.poison = true ∧
    base.vaultOf (5 * 128) < 256 ∧ (base.vaultAt (base.vaultOf (5 * 128))).scrubbed = base.timer / 2 ^ 36 ∧
    Smap.wf 0 (base.vaultAt (base.vaultOf (5 * 128))).corrected = true := by decide +kernel

/-- RegisterWrites: DEVNUM with no partition, and with one; a partition to activate and one to end; a virtual device; a queue; a tail. -/
def write (s : State) (off size value : Nat) : State := at_ s { bar := 0, off := off, size := size, value := value }

def quiet : State := { State.reset with power := .up }

theorem witness_devnum : (List.range 16).all (fun p => !quiet.partActive p) = true ∧ base.partActive 0 = true ∧ base.power = .up := by decide +kernel

def activating : State :=
  write { quiet with regs := { quiet.regs with part := vset quiet.regs.part 15 (bset (bset (bset 0 255 1 1) 512 10 765) 619 1 1) } }
    (0x10000 + 15 * 128 + 76) 4 (2 ^ 10)

theorem witness_activate : activating.regOf activating.ev = some (.part 15, 76) ∧ activating.partActive 15 = false ∧
    bbit (activating.partAfter 15 76) 618 = true ∧ partBad (activating.partAfter 15 76) = false ∧
    activating.activationRefused 15 (activating.partAfter 15 76) = none ∧
    activating.vaults.all (fun v => v.stale.isEmpty) = true := by decide +kernel

def deactivating : State := write { base with launches := [] } (0x10000 + 76) 4 0

theorem deactivating_memOk : deactivating.memOk := memOk_of (by decide +kernel)

theorem witness_deactivate : deactivating.regOf deactivating.ev = some (.part 0, 76) ∧ deactivating.partActive 0 = true ∧
    bbit (deactivating.partAfter 0 76) 618 = false ∧ partBad (deactivating.partAfter 0 76) = false ∧ deactivating.partitionIdle 0 = true := by
  decide +kernel

def enabling : State := write outer (0x20000 + 7 * 0x40 + 0x10) 8 (fields [(8, 100), (20, 3), (32, 1)])

theorem witness_vdbind : enabling.regOf enabling.ev = some (.vdbind 7, 0) ∧ vbEnabled (enabling.vdbind 7) = false ∧
    vbEnabled (wrote (enabling.vdbind 7) vdbindFields 0 enabling.ev) = true ∧
    enabling.vdbindBad 7 (wrote (enabling.vdbind 7) vdbindFields 0 enabling.ev) = false := by decide +kernel

def queueOn (q v : Nat) : State := write (ringing 0 0) (0x80000 + 16 * q + 8) 8 v

theorem witness_queue_enable : (queueOn 4095 (2 ^ 5 + 4)).regOf (queueOn 4095 (2 ^ 5 + 4)).ev = some (.qdesc 4095, 8) ∧
    coversBit 8 (queueOn 4095 (2 ^ 5 + 4)).ev 69 = true ∧ qdEnabled ((queueOn 4095 (2 ^ 5 + 4)).qdesc 4095) = false ∧
    qdescBad ((queueOn 4095 (2 ^ 5 + 4)).qdescAfter 4095 8) = false ∧ qdEnabled ((queueOn 4095 (2 ^ 5 + 4)).qdescAfter 4095 8) = true ∧
    qdescBad ((queueOn 5 0).qdescAfter 5 8) = false ∧ qdEnabled ((queueOn 5 0).qdescAfter 5 8) = false ∧ (queueOn 5 0).pending = [] ∧
    (queueOn 5 0).slots.all (fun y => y.2.command.isNone) = true := by
  decide +kernel

def tailing : State :=
  write { quiet with regs := { quiet.regs with vdlog := vset quiet.regs.vdlog 31 (BitVec.ofNat 256 (fields [(64, 9), (96, 3), (128, 2 ^ 32 - 1)])) } }
    (0x20000 + 31 * 0x40 + 0x20 + 16) 4 2

/-- 512 entries, in a log of 512: the tail stays, or falls behind the log's oldest. -/
def tailingBy (n : Nat) : State :=
  write { quiet with regs := { quiet.regs with vdlog := vset quiet.regs.vdlog 31 (BitVec.ofNat 256 (fields [(64, 9), (96, 512), (128, 0)])) } }
    (0x20000 + 31 * 0x40 + 0x20 + 16) 4 (if n = 0 then 0 else 2 ^ 32 - 1)

theorem witness_tail : tailing.regOf tailing.ev = some (.vdlog 31, 16) ∧ coversBit 16 tailing.ev 128 = true ∧
    tailing.vdlogBad 31 16 (wrote (tailing.vdlog 31) vdlogFields 16 tailing.ev) = false ∧
    bget (wrote (tailing.vdlog 31) [(128, 32)] 16 tailing.ev) 128 32 = 2 ∧ [0, 1].map (fun n =>
      let s := tailingBy n
      let r := wrote (s.vdlog 31) vdlogFields 16 s.ev
      decide (s.regOf s.ev = some (.vdlog 31, 16)) && coversBit 16 s.ev 128 && !s.vdlogBad 31 16 r &&
        decide ((bget r 96 32 + 2 ^ 32 - bget (wrote (s.vdlog 31) [(128, 32)] 16 s.ev) 128 32) % 2 ^ 32 ≤ 2 ^ bget r 64 5)) =
      [true, false] := by decide +kernel

/-- StartUp: power-on; recovery with an image that verifies and one that does not. -/
def recovering (ok : Bool) : State := at_ { State.reset with power := .recovery } { bar := 4, off := 0x400, size := 4, value := 3, ok := ok }

theorem witness_start_up : State.reset.power = .starting ∧ State.reset.regs.steprec = Vector.replicate 16 0 ∧ State.reset.ev.results = [] ∧
    State.reset.down = [] ∧ (recovering true).regOf (recovering true).ev = some (.recovery, 0) ∧
    bbit (wrote (recovering true).regs.recovery [(0, 1), (1, 1)] 0 (recovering true).ev) 0 = true ∧ (recovering true).ev.ok = true ∧
    (recovering false).ev.ok = false := by decide +kernel

/-! ### States that meet the hypotheses of the later parts -/

/-- AbsentPages: of two lanes, the second's page is absent. -/
def apart : State := withB (withLanes two 16 fun l => 2 ^ 30 * l) 1 (0x10100 + (2 ^ 32 - 1) * 2 ^ 56)

def apartOf (l : Lane) : Option Target × Nat := (if l = 0 then some (.dev 0x10100) else none, 0x10100 + 2 ^ 30 * l.val)

/-- What the look-ups of an access leave. -/
def looked (a : Access) (w : Nat) : List LaneOut × State :=
  lookLanes (fun v l => v.laneRecord apart.g a (apart.g.record 1) (apart.srcOf 16 l).toNat w) (lanesOf apart.act) apart

theorem looksAway_of {a : Access} {w : Nat} (h : (looked a w).1 = (lanesOf apart.act).map fun l =>
      { lane := l, va := (apartOf l).2, res := match (apartOf l).1 with
          | some x => .ok x
          | none => .absent : LaneOut }) :
    LooksAway apart (fun v l => v.laneRecord apart.g a (apart.g.record 1) (apart.srcOf 16 l).toNat w) apartOf (looked a w).2 :=
  Prod.ext h rfl

theorem witness_absent : LooksAway apart (fun v l => v.laneRecord apart.g (.load 4 false 0) (apart.g.record 1) (apart.srcOf 16 l).toNat 4)
      apartOf (looked (.load 4 false 0) 4).2 ∧
    LooksAway apart (fun v l => v.laneRecord apart.g (.store 4 0) (apart.g.record 1) (apart.srcOf 16 l).toNat 4) apartOf (looked (.store 4 0) 4).2 ∧
    LooksAway apart (fun v l => v.laneRecord apart.g (.atomic 19 0 4 2 true) (apart.g.record 1) (apart.srcOf 16 l).toNat 4) apartOf
      (looked (.atomic 19 0 4 2 true) 4).2 ∧
    LooksAway apart (fun v l => v.laneRecord apart.g (.atomic 19 0 4 2 false) (apart.g.record 1) (apart.srcOf 16 l).toNat 4) apartOf
      (looked (.atomic 19 0 4 2 false) 4).2 :=
  by and_intros <;> exact looksAway_of (by decide +kernel)

theorem witness_absent_issue : ([.ldW 0 16 1 24, .stW 0 16 1 24, .atomAdd 2 16 1 24, .redAdd 2 16 1 24] : List Instr).all (issuesB apart) = true ∧
    apart.act ≠ 0 ∧ (looked (.load 4 false 0) 4).2.g.core < 256 ∧
    ((lanesOf apart.act).filter fun l => (apartOf l).1.isNone) = [1] ∧
    ((looked (.store 4 0) 4).2.coreAt 0).pantry.length + 1 ≤ 512 := by decide +kernel

/-- LoadsPerformed: each access of both lanes at two places of one line, of one lane, or of the scratchpad. -/
def loadingAs (a : Access) (l : List LaneAcc) : State :=
  { loading with flights := loading.flights.map fun f => { f with acc := a, lanes := l, held := [] } }

def devLanes (n : Nat) : List LaneAcc := [(0, 0x10100), (1, 0x10110)].take n |>.map fun x =>
  { lane := x.1, tgt := .dev x.2, v := 7, c := 0, va := x.2 : LaneAcc }

def spmLanes : List LaneAcc := [{ lane := 0, tgt := .spm 0 16, v := 0, c := 0, va := 16 }]

def mayBind (s : State) : Bool :=
  (s.flight s.ev.id).any (fun f => s.mayPerform f && f.held.isEmpty && !f.lanes.isEmpty && f.core == s.g.core && f.slot == s.g.slot &&
    !s.flightBehind f && f.lanes.all fun x => !s.poisoned (x.tgt.line.2.2) && !s.ownParked f.core f.slot x.tgt.line.2.2) &&
  s.g.live && s.ev.line == 0 && (s.coreAt s.g.core).l1.all (fun x => x.dirty == 0)

theorem witness_bind_loads : (([.load 4 false 0, .load 1 true 0, .load 16 false 0, .loadOwn 0, .ldv, .ldvs 4, .ldvs 8, .vrd, .cpoll, .brec 3] :
      List Access).all fun a => mayBind (loadingAs a (devLanes 2)) && ((loadingAs a (devLanes 2)).coreAt 0).l1.isEmpty) = true ∧
    mayBind (loadingAs (.load 8 false 0) spmLanes) = true ∧ loading.g.snaps.length + 2 ≤ 64 := by decide +kernel

/-- The line stands whole in the core's L1. -/
def cached : State := (loadingAs (.load 4 false 0) (devLanes 2)).modCore 0 fun c =>
  { c with l1 := [{ line := 0x10100 / 128, valid := BitVec.allOnes 32, data := Vector.replicate 32 5, own := none, dirty := 0, hint := 0 }] }

theorem witness_bind_cached : mayBind cached = true ∧ ((cached.coreAt 0).line (0x10100 / 128)).map (fun y => (y.own, decide (y.valid = BitVec.allOnes 32))) =
    some (none, true) := by decide +kernel

/-- A CASV of one lane, with its entry and without. -/
def swapping (l : List Snap) : State :=
  let s := loadingAs (.casv 4) (devLanes 1)
  { s with g := { s.g with snaps := l } }

theorem witness_casv : [[], [{ lane := 0, line := 0x10100 / 128, version := 0, stamp := 0 }]].all (fun l => mayBind (swapping l)) = true ∧
    (swapping []).memOk ∧ Smap.wf 0 (swapping []).versions = true ∧ (swapping []).vdOf (swapping []).g.launch = none ∧
    ((swapping [{ lane := 0, line := 0x10100 / 128, version := 0, stamp := 0 }]).g.snap 0 (0x10100 / 128)).isSome = true ∧
    ((swapping []).g.snap 0 (0x10100 / 128)).isNone = true ∧ (swapping []).timer < 0 + 2 ^ 32 ∧ (swapping []).clearOf (0x10100 / 128) ≤ 0 := by
  and_intros <;> first | exact memOk_of (by decide +kernel) | decide +kernel

/-- VCHK to p6: to be performed, and to fill, its split waiting for it. -/
def checking : State :=
  let s := loadingAs (.vchk 6) []
  s.modSp fun sp => { sp with wait := .check s.ev.id }

def checked : State := (after (exec .accessPerformed checking) id).getD checking

theorem witness_vchk : (checking.flight checking.ev.id).any (fun f => checking.mayPerform f && f.held.isEmpty && f.lanes.isEmpty) = true ∧
    (checked.flight checked.ev.id).any (fun f => f.performed && decide (f.acc = .vchk 6)) = true ∧
    checked.g.waiter checked.ev.id = some checked.g.sp ∧ checked.g.sp.wait = .check checked.ev.id := by decide +kernel

theorem witness_fill_cpoll : fills .cpoll 24 [0, 1] false = true := by decide +kernel

/-- SpecialRegisters: the words that RDSR finds have a block, a launch, a beat record, and a row request. -/
theorem witness_words : (base.block base.g.block).isSome = true ∧ base.launch.isSome = true ∧ base.beats = [] ∧
    beating.beats.map (fun b => (b.part, b.ctx)) = [(0, 0x20100)] ∧ beating.launch.map (fun y => (y.part, y.ctx)) = some (0, 0x20100) ∧
    base.reqs = [] ∧ (rowing 24).reqs.map (fun r => (r.core, r.slot, decide (r.kind = .mst 0x1000 256 0 3 0 false), r.pos)) =
      [((rowing 24).g.core, (rowing 24).g.slot, true, 1)] := by decide +kernel

/-- MatrixOperations: no lease, and a full table; GroupsAndPasses: an entry and a waiting MLEASE, without a lease. -/
def unleased (n : Nat) : State := (withV banked [(8, 9)]).modEngine 0 fun c =>
  { c with table := (List.range n).map fun k =>
      { core := 0, slot := 1, split := 0, block := 99, req := 100 + k, prio := 0, age := k, lease := none, passed := 0 } }

theorem witness_mlease : [0, 63, 64].all (fun n => issuesB (unleased n) (.mlease 8) && decide (((unleased n).engine 0).table.length = n) &&
    ((unleased n).engine 0).lease.isNone) = true ∧ lowest (unleased 0).act = some 0 := by decide +kernel

def firstPass (l : Option Nat) : State := (passing 1).modCluster 0 fun c =>
  { c with lease := none, table := c.table.map fun e => { e with lease := l, split := base.g.sp.age } }

theorem witness_first_pass : [none, some 5].all (fun l => ((firstPass l).clusterAt 0).lease.isNone &&
      decide (((firstPass l).clusterAt 0).table.map (fun e => (e.core, e.slot, e.split, e.lease)) =
        [((firstPass l).g.core, (firstPass l).g.slot, (firstPass l).g.sp.age, l)]) && !(firstPass l).clockStopped (firstPass l).ev.cl) = true ∧
    ((firstPass none).reqs.find? fun q => q.id = 9) = some quarterReq ∧ (firstPass none).engineTurn quarterReq = true ∧
    (firstPass none).loadsDone quarterReq = true ∧ (firstPass none).g.live = true ∧ (firstPass none).g.rest = [] := by decide +kernel

/-- CopyPieces and MatrixPieces: one request, whose piece is the step's. -/
def pieceAt (k : ReqKind) (pos : Nat) : State :=
  at_ { base with reqs := [{ quarterReq with kind := k, pos := pos }] } { id := 9 }

def pieceReq (k : ReqKind) (pos : Nat) : EngReq := { quarterReq with kind := k, pos := pos }

def turnOf (s : State) (r : EngReq) : Bool :=
  (s.flight s.ev.id).isNone && decide (s.reqs.find? (fun x => x.id = s.ev.id) = some r) && !r.done && r.stopped.isNone && !r.detached &&
    s.priorDone r && !s.requestBehind r && decide (r.core < 256)

theorem pieceOf_of {s : State} {r : EngReq} (h : turnOf s r = true) : PieceOf s r := by
  simp only [turnOf, Bool.and_eq_true, Option.isNone_iff_eq_none, decide_eq_true_eq, Bool.not_eq_true'] at h
  unfold PieceOf
  tauto

/-- The leaf in core 0's TLB covers what an engine reaches below 1 GiB. -/
theorem engine_covered (s : State) (r : EngReq) (va : Nat)
    (h : (s.coreAt r.core).tlb.head? = some seatLeaf ∧ r.part = 0 ∧ va < 2 ^ 30) :
    ((s.coreAt r.core).tlb.find? fun e => e.covers r.part va) = some seatLeaf := by
  obtain ⟨h1, h2, h3⟩ := h
  cases ht : (s.coreAt r.core).tlb with
  | nil => rw [ht] at h1; exact absurd h1 (by simp)
  | cons x l =>
    rw [ht] at h1
    obtain rfl : x = seatLeaf := by simpa using h1
    have : seatLeaf.covers r.part va = true := by
      rw [h2]
      refine Bool.and_eq_true_iff.mpr ⟨rfl, decide_eq_true ?_⟩
      show va / 2 ^ 30 = 0 / 2 ^ 30
      omega
    simp [this]

theorem reaches_byte {s : State} {r : EngReq} {va : Nat} {w : Bool} {t : Target}
    (h : (s.coreAt r.core).tlb.head? = some seatLeaf ∧ r.part = 0 ∧ va < 2 ^ 30 ∧ s.inWindow r.part seatLeaf.pa = true)
    (hh : s.hushed = []) (ht : (s.engineReach r va w).1 = .ok t) : s.engineReach r va w = (.ok t, s) :=
  Prod.ext ht (engineReach_hit s r va w seatLeaf (engine_covered s r va ⟨h.1, h.2.1, h.2.2.1⟩) rfl h.2.2.2 hh)

theorem piece_leaf (k : ReqKind) (pos : Nat) : ((pieceAt k pos).coreAt (pieceReq k pos).core).tlb.head? = some seatLeaf ∧
    (pieceReq k pos).part = 0 ∧ (pieceAt k pos).inWindow (pieceReq k pos).part seatLeaf.pa = true := by
  have h : (base.coreAt 0).tlb.head? = some seatLeaf ∧ base.inWindow 0 seatLeaf.pa = true := by decide +kernel
  exact ⟨h.1, rfl, h.2⟩

theorem piece_reaches {k : ReqKind} {pos va : Nat} {w : Bool} {t : Target} (hv : va < 2 ^ 30)
    (ht : ((pieceAt k pos).engineReach (pieceReq k pos) va w).1 = .ok t) :
    (pieceAt k pos).engineReach (pieceReq k pos) va w = (.ok t, pieceAt k pos) :=
  reaches_byte ⟨(piece_leaf k pos).1, (piece_leaf k pos).2.1, hv, (piece_leaf k pos).2.2⟩ rfl ht

/-- 4,096 bytes at an address. -/
def bytesRecord (a : Nat) : BitVec 128 := BitVec.ofNat 128 (a + 4096 * 2 ^ 56)

/-- A copy of three bytes, the third to the next line, and out of and into the scratchpads. -/
def copyKind (out into : Bool) : ReqKind :=
  .copy { scr := out, rcd := bytesRecord 0x10100, idx := 0 } { scr := into, rcd := bytesRecord 0x1027E, idx := 0 } 1 3 0 0

/-- Byte b of a side lies at y: its index, its address, and where that leads. -/
def sideOk (s : State) (r : EngReq) (x : Side) (b : Nat) (w : Bool) (y : Target) : Bool :=
  let i := (x.idx + 0 * 0) % 2 ^ 32
  let j := (i + b / recElem x.rcd) % 2 ^ 32
  let va := (recordEa x.rcd j + b % recElem x.rcd) % 2 ^ 56
  if x.scr then decide ((s.spmIn r.core r.block ((i + b) % 2 ^ 32) 1).map (fun z => Target.spm z.1 z.2) = some y)
  else recordValid x.rcd && recordCovers x.rcd j 1 && !recReadOnly x.rcd && !recHost x.rcd && decide (va < 2 ^ 30) &&
    decide ((s.engineReach r va w).1 = .ok y)

theorem sideAt_of {k : ReqKind} {x : Side} {b : Nat} {w : Bool} {y : Target} (h : sideOk (pieceAt k 0) (pieceReq k 0) x b w y = true) :
    SideAt (pieceAt k 0) (pieceReq k 0) x 0 0 b w y := by
  unfold sideOk at h
  cases hx : x.scr
  · simp only [hx, Bool.false_eq_true, ite_false, Bool.and_eq_true, Bool.not_eq_true', decide_eq_true_eq] at h
    obtain ⟨⟨⟨⟨⟨hv, hc⟩, hr⟩, hh⟩, ha⟩, hy⟩ := h
    exact .inr ⟨hx, hv, hc, fun _ => hr, .inl ⟨hh, piece_reaches ha hy⟩⟩
  · simp only [hx, ite_true, decide_eq_true_eq, Option.map_eq_some_iff, Prod.exists] at h
    obtain ⟨c, o, ho, rfl⟩ := h
    exact .inl ⟨hx, c, o, ho, rfl⟩

/-- Byte b of the copy's sides. -/
def copyOk (out into : Bool) (b : Nat) : Bool :=
  match copyKind out into with
  | .copy src dst _ _ _ _ =>
    let s := pieceAt (copyKind out into) 0
    let r := pieceReq (copyKind out into) 0
    sideOk s r src b false (if out then .spm 0 b else .dev (0x10100 + b)) && sideOk s r dst b true (if into then .spm 0 b else .dev (0x1027E + b))
  | _ => false

/-- Two bytes to device memory, the third on another line; three to the scratchpad. -/
theorem witness_copy_piece : ([(false, false), (true, false), (false, true)].all fun x =>
      turnOf (pieceAt (copyKind x.1 x.2) 0) (pieceReq (copyKind x.1 x.2) 0) && [0, 1, 2].all (copyOk x.1 x.2)) = true ∧
    (Target.dev (0x1027E + 1)).line = (Target.dev 0x1027E).line ∧ (Target.dev (0x1027E + 2)).line ≠ (Target.dev 0x1027E).line ∧
    (Target.spm 0 2).line = (Target.spm 0 0).line ∧ base.poisoned (0x1027E / 128) = false ∧ base.memOk ∧ Smap.wf 0 base.versions = true ∧
    (pieceAt (copyKind false false) 0).reqVd (pieceReq (copyKind false false) 0) = none := by
  and_intros <;> first | exact base_memOk | decide +kernel

/-- A leaf that leads to peer 7, which grants a window to the partition's tag. -/
def awayLeaf : TlbEntry := { seatLeaf with reach := 2, peer := 7 }

def awayPiece : State :=
  let s := pieceAt (copyKind true false) 0
  ({ s with
      peers := [{ num := 7, mem := [], windows := [(0, 2 ^ 30, s.podtag 0)] }]
      regs := { s.regs with devnum := bset (bset s.regs.devnum 0 8 3) 8 1 1 } } : State).modCore 0 fun c => { c with tlb := [awayLeaf] }

/-- A record of host memory, whose port is open to the partition. -/
def hostRecord : BitVec 128 := BitVec.ofNat 128 (0x1027E + 4096 * 2 ^ 56 + 2 ^ 116)

/-- The partition reaches its host. -/
def hosted (s : State) : State :=
  { s with
    ports := s.ports.map fun p => { p with enabled := true }
    regs := { s.regs with part := vset s.regs.part 0 (bset (s.partRec 0) 617 1 1) } }

theorem witness_away_piece :
    MemoryAt awayPiece (pieceReq (copyKind true false) 0) (bytesRecord 0x1027E) 0x1027E true (.peer 7 0x1027E) ∧
    turnOf awayPiece (pieceReq (copyKind true false) 0) = true ∧ (awayPiece.peer 7).isSome = true ∧
    recHost hostRecord = true ∧ recordValid hostRecord = true ∧
    MemoryAt (hosted (pieceAt (copyKind true false) 0)) (pieceReq (copyKind true false) 0) hostRecord 0x1027E true (.host 0 0x1027E) ∧
    turnOf (hosted (pieceAt (copyKind true false) 0)) (pieceReq (copyKind true false) 0) = true := by
  refine ⟨.inl ⟨by decide +kernel, ?_⟩, ?turn, ?peer, ?host, ?valid, .inr ⟨by decide +kernel, ?away⟩, ?same⟩
  case turn | peer | host | valid | away | same => decide +kernel
  have ht : (awayPiece.coreAt 0).tlb = [awayLeaf] := by decide +kernel
  have hc : awayLeaf.covers 0 (0x1027E % 2 ^ 56) = true := by decide +kernel
  have hl : awayPiece.lookup 0 0 (0x1027E % 2 ^ 56) true false (awayPiece.reqDomain (pieceReq (copyKind true false) 0)) = (.leaf awayLeaf, awayPiece) := by
    simp only [State.lookup, ht, List.find?_cons, hc]
  have hk : awayPiece.checkLeaf 0 0 (0x1027E % 2 ^ 56) awayLeaf true false true = (.ok (.peer 7 0x1027E), awayPiece) := by
    have h0 : bbit awayPiece.regs.devnum 8 = true ∧ bget awayPiece.regs.devnum 0 8 ≠ 7 ∧
      (awayPiece.dieAt (coreDie 0)).rail.failed = false := by decide +kernel
    have h1 : awayPiece.peer 7 = some { num := 7, mem := [], windows := [(0, 2 ^ 30, awayPiece.podtag 0)] } := by decide +kernel
    have hw : awayLeaf.reach = 2 ∧ awayLeaf.write = true ∧ awayLeaf.peer = 7 ∧ awayLeaf.pa + (0x1027E % 2 ^ 56) % pageSize awayLeaf.size = 0x1027E := by
      decide +kernel
    simp only [State.checkLeaf, hw, h0, h1]
    simp
  have hx : awayPiece.translate 0 0 (0x1027E % 2 ^ 56) true false true (awayPiece.reqDomain (pieceReq (copyKind true false) 0)) =
      (.ok (.peer 7 0x1027E), awayPiece) := by
    rw [State.translate, hl]
    exact hk
  have hr : awayPiece.railHolds (coreDie 0) = false := by decide +kernel
  change awayPiece.engineReach _ _ _ = _
  simp only [State.engineReach, show (pieceReq (copyKind true false) 0).core = 0 from rfl, show (pieceReq (copyKind true false) 0).part = 0 from rfl, hx, hr]
  rfl

/-- GATH and SCAT of lane 3, whose element of four bytes is the record's sixth. -/
def wordsRecord : BitVec 128 := BitVec.ofNat 128 (0x10100 + 4096 * 2 ^ 56 + 2 * 2 ^ 108)

def laneKind (scatter : Bool) : ReqKind :=
  if scatter = true then .scatter wordsRecord [(3, 6)] 64 else .gather wordsRecord [(3, 6)] 64

theorem lane_byte {scatter : Bool} {k : Nat} (hk : k < 4) : MemoryAt (pieceAt (laneKind scatter) 0) (pieceReq (laneKind scatter) 0) wordsRecord
    (0x10118 + k) scatter (.dev (0x10118 + k)) := by
  refine .inl ⟨by decide +kernel, piece_reaches (by omega) ?_⟩
  have all : [0, 1, 2, 3].all (fun k => [true, false].all fun scatter => decide (((pieceAt (laneKind scatter) 0).engineReach
    (pieceReq (laneKind scatter) 0) ((0x10118 + k) % 2 ^ 56) scatter).1 = .ok (.dev (0x10118 + k)))) = true := by decide +kernel
  have := List.all_eq_true.mp (List.all_eq_true.mp all k (by simp; omega)) scatter (by cases scatter <;> simp)
  exact of_decide_eq_true this

theorem witness_lane_piece : [true, false].all (fun z => turnOf (pieceAt (laneKind z) 0) (pieceReq (laneKind z) 0)) = true ∧
    recElem wordsRecord = 4 ∧ recordEa wordsRecord 6 = 0x10118 ∧ recordValid wordsRecord = true ∧ recordCovers wordsRecord 6 1 = true ∧
    recReadOnly wordsRecord = false ∧ [0, 1, 2, 3].all (fun k => decide ((pieceAt (laneKind true) 0).spmIn 0 base.g.block
      ((64 + 3 * 4 + k) % 2 ^ 32) 1 = some (0, 76 + k))) = true := by decide +kernel

/-- MatrixPieces: MLD of each layout, MLDS of scales and of zero points, MST, ACCSAVE and ACCLOAD of each kind. -/
def matrixKinds : List (ReqKind × Nat) :=
  [(.mld (resRecord 0 3 2 0 0 0 0) 0x10200 256 1 3, 2), (.mld (resRecord 0 3 6 0 1 0 0) 0x10200 256 0 128, 127),
    (.mlds (resRecord 0 3 4 0 0 16 32) false 0x10200 256 1 3, 2), (.mlds (resRecord 0 3 6 0 0 16 32) true 0x10200 256 1 3, 2),
    (.mst 0x10200 256 0 3 1 false, 23), (.accSave 0 0x10200 (1 + 64 * 2), 63), (.accSave 1 0x10200 (resRecord 0 3 2 0 0 0 0).toNat, 0),
    (.accSave 2 0x10200 0, 0), (.accLoad 0 0x10200 (1 + 64 * 2), 63), (.accLoad 1 0x10200 3, 0), (.accLoad 1 0x10200 3, 1), (.accLoad 2 0x10200 0, 0)]

theorem witness_matrix_piece : (matrixKinds.all fun x => turnOf (pieceAt x.1 x.2) (pieceReq x.1 x.2) &&
      (pieceAt x.1 x.2).engineTurn (pieceReq x.1 x.2)) = true ∧
    Smap.wf 0 (base.engine 0).opBuf = true ∧ Smap.wf none (base.engine 0).banks = true ∧ Smap.wf 0 (base.engine 0).unitOwner = true ∧
    Smap.wf 0 (base.engine 0).bankOwner = true ∧ (base.engine 0).oresQ = [] ∧ (base.groupAt 0 0).isSome = true ∧ (base.engine 0).lease = none := by
  decide +kernel

/-- The lines of a row, and of an image, in device memory. -/
def rowTargets (n : Nat) : List Target := (List.range n).map fun k => .dev (0x10400 + k)

theorem engine_lines {k : ReqKind} {pos : Nat} {w : Bool} (h : ((pieceAt k pos).engineReach (pieceReq k pos) 0x10400 w).1 = .ok (.dev 0x10400) ∧
      ((pieceAt k pos).engineReach (pieceReq k pos) 0x10480 w).1 = .ok (.dev 0x10480)) :
    engineLines (pieceReq k pos) w (lineParts 0x10400 256) (pieceAt k pos) = (.inl (rowTargets 256), pieceAt k pos) := by
  have parts : lineParts 0x10400 256 = [(0x10400, 128), (0x10480, 128)] := by decide +kernel
  have first := piece_reaches (by decide) h.1
  have second := piece_reaches (by decide) h.2
  rw [parts]
  simp only [engineLines, Nat.reduceMod, Nat.reducePow, first, second, List.append_nil]
  refine Prod.ext (congrArg Sum.inl ?_) rfl
  decide +kernel

theorem witness_matrix_lines :
    (∀ k ∈ ([(.mld (resRecord 0 3 2 0 0 0 0) 0x10200 256 1 3, 2), (.mst 0x10200 256 0 3 1 false, 3)] : List (ReqKind × Nat)),
      engineLines (pieceReq k.1 k.2) (decide (k.2 = 3)) (lineParts 0x10400 256) (pieceAt k.1 k.2) = (.inl (rowTargets 256), pieceAt k.1 k.2)) ∧
    ((pieceAt (.accSave 2 0x10200 0) 0).engineReach (pieceReq (.accSave 2 0x10200 0) 0) ((0x10200 + 128 * 0) % 2 ^ 56) true =
      (.ok (.dev 0x10200), pieceAt (.accSave 2 0x10200 0) 0)) ∧
    ((pieceAt (.accLoad 1 0x10200 3) 1).engineReach (pieceReq (.accLoad 1 0x10200 3) 1) ((0x10200 + 64 * 1) % 2 ^ 56) false =
      (.ok (.dev 0x10240), pieceAt (.accLoad 1 0x10200 3) 1)) := by
  refine ⟨?_, piece_reaches (by decide) (by decide +kernel), piece_reaches (by decide) (by decide +kernel)⟩
  intro k hk
  simp only [List.mem_cons, List.mem_nil_iff, or_false] at hk
  rcases hk with rfl | rfl <;> exact engine_lines (by decide +kernel)

/-! ### The front end -/

/-- FrontEndSteps: the queue is disabled, stopped, or its virtual device is dry. -/
def shut (bits : BitVec 128) (level : Nat) : State :=
  { ringing 0 0 with
    regs := { (ringing 0 0).regs with
      qdesc := Smap.set 0 (ringing 0 0).regs.qdesc 5 bits
      vdsched := vset (ringing 0 0).regs.vdsched 4 (BitVec.ofNat 128 (fields [(0, level), (32, 50)])) }
    ev := { slot := 9, q := 5, vd := 4 } }

def bits5 (x : Nat) : BitVec 128 := BitVec.ofNat 128 (fields [(0, 0x201000), (64, 4)] + x * 2 ^ 69)

theorem witness_shut : qdEnabled ((shut (bits5 0) 0).qdesc 5) = false ∧ qdEnabled ((shut (bits5 3) 0).qdesc 5) = true ∧
    qdStopped ((shut (bits5 3) 0).qdesc 5) = true ∧ (shut (bits5 3) 0).queueHeld 5 = false ∧ qdEnabled ((shut (bits5 1) 7).qdesc 5) = true ∧
    qdStopped ((shut (bits5 1) 7).qdesc 5) = false ∧ (shut (bits5 1) 7).queueHeld 5 = true ∧ (shut (bits5 3) 0).slots = [] ∧
    (shut (bits5 3) 0).pending = [] ∧ (shut (bits5 1) 7).slots = [] ∧ (shut (bits5 1) 7).pending = [] ∧ (shut (bits5 1) 7).vfLive 4 = true ∧
    vbEnabled ((shut (bits5 1) 7).vdbind 4) = true ∧ vbHas ((shut (bits5 1) 7).vdbind 4) 5 = true := by decide +kernel

/-- The launch command of a queue whose virtual device has gone dry. -/
def dryLaunch : State := { shut (bits5 1) 7 with slots := [(9, slot5 (some (1, 0x202200, none)))] }

theorem witness_dry_launch : dryLaunch.slots.find? (fun y => y.1 = dryLaunch.ev.slot) = some (dryLaunch.ev.slot, slot5 (some (1, 0x202200, none))) ∧
    (slot5 (some (1, 0x202200, none))).held = none ∧ dryLaunch.queueHeld 5 = true := by decide +kernel

/-- Words of 64 bits from an address on that are not 0. -/
def wordsAt (l : List (Nat × Nat)) (m : Memory) : Memory := l.foldl (fun m x => Memory.writeLE m x.1 8 x.2) m

/-- LaunchOutcomes: a launch with a completion word in host memory, whose path has begun; its kernel's header has this magic. -/
def offered (magic : Nat) : State :=
  let s := hosted (mapped 1 0 (some (1, 0x202200, none)))
  { s with
    launches := [], blocks := [], g := Group.empty
    regs := { s.regs with vdbind := vset s.regs.vdbind 4 0, part := vset s.regs.part 0 (bset (s.partRec 0) 656 56 0x202000) }
    dev := wordsAt [(0x202000, 1), (0x2020E0, 1), (0x202100, 2), (0x202108, 0x202000), (0x2021E0, 1), (0x202200, 4), (0x202208, 0x202100),
      (0x202278, 0x300000 + 2 ^ 56), (0x202280, 0x77), (0x202288, 0x210000), (0x202298, 3 + 2 ^ 32 + 2 ^ 48), (0x2022B8, 0x400000),
      (0x2022E0, 1), (0x210000, magic + 2 ^ 32), (0x210008, 2 + 64 * 2 ^ 32), (0x210010, 16 + 40 * 2 ^ 8 + 2 ^ 32 + 4 * 2 ^ 48)] s.dev }

def offer : BitVec 2048 := BitVec.ofNat 2048 (fields [(0, 4), (64, 0x202100), (960, 0x300000), (1016, 1), (1024, 0x77), (1088, 0x210000), (1216, 3),
  (1248, 1), (1264, 1), (1472, 0x400000), (1792, 1)])

theorem foldl_same {α β : Type} {f : β → α → β} {b : β} {l : List α} (h : ∀ x ∈ l, f b x = b) : l.foldl f b = b := by
  induction l with
  | nil => rfl
  | cons x l ih => rw [List.foldl_cons, h x (by simp), ih fun y hy => h y (by simp [hy])]

/-- An address whose walk finds a page of the partition's window. -/
def tame (s : State) (va : Nat) : Bool :=
  match s.walk 0 va with
  | .leaf e => e.reach = 0 && s.inWindow 0 e.pa
  | _ => false

theorem walkNote_tame {s : State} {va : Nat} (hh : s.hushed = []) (h : tame s va = true) : s.walkNote 0 va = s := by
  unfold tame at h
  split at h
  · rename_i e he
    simp only [Bool.and_eq_true, decide_eq_true_eq] at h
    simp [State.walkNote, State.refusalEvent, he, h.1, h.2, revealAt_none s _ hh]
  · simp at h

theorem railDie_dev (s : State) (die pa : Nat) : s.railDie die [.dev pa] = s := rfl

theorem acceptNotes_tame {s : State} {va : Nat} {x : BitVec 2048} (hh : s.hushed = []) (h : (s.acceptNames 0 va x).all (tame s) = true) :
    s.acceptNotes 0 va x = s :=
  foldl_same fun a ha => walkNote_tame hh (List.all_eq_true.mp h a ha)

/-- What lies behind an address is the device's own memory. -/
def atHome (s : State) (a : Nat) : Bool :=
  match s.reach 0 a with
  | .ok (.dev _) _ => true
  | _ => false

theorem sentReads_home {s : State} {va : Nat} {x : BitVec 2048}
    (h : ((s.acceptBytes 0 va x).all fun y => (List.range ((y.2 + 127) / 128)).all fun k => atHome s (y.1 + 128 * k)) = true) :
    s.sentReads 0 va x = s := by
  refine foldl_same fun y hy => foldl_same fun k hk => ?_
  have := List.all_eq_true.mp (List.all_eq_true.mp h y hy) k hk
  unfold atHome at this
  split at this
  · rename_i pa w hr
    simp only [hr]
    exact railDie_dev s _ pa
  · simp at this

theorem offered_same (m : Nat) (hm : m = 0 ∨ m = 0x5A52454E) : (offered m).sentReads 0 0x202200 offer = offered m ∧
    (offered m).acceptNotes 0 0x202200 offer = offered m := by
  rcases hm with rfl | rfl <;> exact ⟨sentReads_home (by decide +kernel), acceptNotes_tame rfl (by decide +kernel)⟩

theorem offered_memOk : (offered 0).memOk ∧ (offered 0x5A52454E).memOk :=
  ⟨memOk_of (by decide +kernel), memOk_of (by decide +kernel)⟩

theorem witness_offered : ([0, 0x5A52454E] : List Nat).all (fun m =>
      decide ((offered m).rcbRead 0 0x202200 = .val offer.toNat) && (offered m).launches.isEmpty &&
      decide ((offered m).deviceLeaf 0 (0x202200 + 248) true = .inr 0x2022F8) && (offered m).hostLive 0 && ((offered m).queueVd 5).isNone &&
      ((offered m).checkSub 0 5 0x202200 offer none).absent.isNone) = true ∧
    rcbPart offer = 0 ∧ rcbBundleCount offer = 0 ∧ chainBad [(0x202200, offer)] = false ∧ rcbReach offer = 1 ∧ rcbCompletion offer ≠ 0 ∧
    bbit (offered 0).regs.evtring 69 = false ∧ bbit ((offered 0).partRec 0) 781 = false := by decide +kernel

theorem witness_refused : ((offered 0).checkSub 0 5 0x202200 offer none).details = [2] := by decide +kernel

theorem witness_accepted : ((offered 0x5A52454E).checkSub 0 5 0x202200 offer none).details = [] ∧
    (((offered 0x5A52454E).checkSub 0 5 0x202200 offer none).launch.any fun z =>
      z.2.all (fun y => rcbCreated y.2 != 0) && placeable [{ z.1 with head := nodeKey 0 0x202200 }] &&
      decide ((blockGroups [{ z.1 with head := nodeKey 0 0x202200 }]).length ≤ 64)) = true := by decide +kernel

/-- The last group of the last block of the only launch, whose completion word lies in host memory. -/
def closing : State :=
  let s := hosted tables
  at_ (({ s with launches := s.launches.map fun l =>
    { l with completion := 0x300000, completionReach := 1, completionValue := 0x77, vd := none } } : State).modSp fun sp => { sp with mask := 0 }) {}

theorem witness_retired : EventHere closing ∧ closing.g.service = false ∧ (∀ x ∈ closing.g.splits, x.mask = 0) ∧ closing.g.reports = [] ∧
    (closing.coreAt closing.g.core).l1 = [] ∧ (closing.coreAt closing.g.core).pantry = [] ∧ closing.flights = [] ∧ closing.reqs = [] ∧
    closing.others = [] ∧ closing.pending = [] ∧ (closing.block closing.g.block).map (fun b => (b.restoring.isNone, b.ending.isNone, b.head)) =
      some (true, true, (closing.launches.map fun l => l.rcb).headD 1) ∧
    closing.launches.length = 1 ∧ closing.launches.all (fun l => decide (l.head = l.rcb) && decide (l.total = l.ended + 1) &&
      decide (l.completionReach = 1) && l.vd.isNone && !closing.queueHeld l.queue && closing.hostLive l.part &&
      decide (closing.deviceLeaf l.part (l.va + 248) true = .inr (l.va + 248))) = true := by
  and_intros <;> decide +kernel

theorem closing_memOk : closing.memOk := memOk_of (by decide +kernel)

/-! ### Special functions, conversions and the tree -/

/-- SpecialFunctions: a quarter, an integer and a power of two, a negative number, 4.0 as FP64, and NaNs of both kinds. -/
theorem witness_special : decodeF fp32 0x3E800000 = .fin false (2 ^ 23) (-25) ∧ decodeF fp32 0x40000000 = .fin false (2 ^ 23) (-22) ∧
    decodeF fp32 0xBF800000 = .fin true (2 ^ 23) (-23) ∧ decodeF fp32 1 = .fin false 1 (-149) ∧
    decodeF fp64 0x4010000000000000 = .fin false (2 ^ 52) (-50) ∧ decodeF fp32 0x7FC00000 = .nan false ∧ decodeF fp32 0x7F800001 = .nan true ∧
    decodeF fp64 0x7FF0000000000001 = .nan true ∧ (2 : Int) ^ 23 * 4 = 2 ^ 25 := by decide +kernel

/-- Conversions: 1.5, 512.0, a zero, an infinity and a NaN of each format that has them. -/
theorem witness_conversions : decodeF fp32 0x3FC00000 = .fin false (3 * 2 ^ 22) (-23) ∧ decodeF fp32 0x44000000 = .fin false (2 ^ 23) (-14) ∧
    decodeF fp64 0x3FF8000000000000 = .fin false (3 * 2 ^ 51) (-52) ∧ decodeF fp16 0x3E00 = .fin false (3 * 2 ^ 9) (-10) ∧
    decodeF bf16 0xBFC0 = .fin true (3 * 2 ^ 6) (-7) ∧ decodeF fp32 0x80000000 = .fin true 0 (-149) ∧ decodeF fp16 0xFC00 = .inf true ∧
    decodeF bf16 0x7FC0 = .nan false ∧ decodeF e4m3 0x7E = .fin false 14 5 ∧ decodeF e4m3 0x80 = .fin true 0 (-9) ∧ decodeF e4m3 0x7F = .nan false ∧
    decodeF e5m2 0x7C = .inf false ∧ decodeF e5m2 0x7B = .fin false 7 13 ∧ decodeF e5m2 0x7D = .nan true := by decide +kernel

/-- ReductionTree: of lanes 0, 1 and 3, the first level joins 0 and 1 and leaves 3 as it is. -/
theorem witness_tree : (reduceLanes (fun a b => ((a + 2 * b : Nat), (0 : BitVec 6))) 0xB fun l => l.val).1 = some 8 := by decide +kernel

end Sys2Proof.Tests
end

section
/-! ### Decoding and encoding

Each branch of the opcode map reads the fields of one layout, and the code of the instruction it gives is the sum of those
fields at their places; with the constant fields that the branch tests, they tile the word (R121, R126, R133). -/

namespace Sys2Proof

/-- A branch of the decoder gives, if anything, an instruction whose code is the n-bit number w. -/
def Encodes (n w : Nat) (o : Option Instr) : Prop := ∀ i, o = some i → encode i = some ⟨n, w⟩

theorem Encodes.none {n w : Nat} : Encodes n w none := nofun

theorem Encodes.some {n w c : Nat} {i : Instr} (he : encode i = some ⟨n, c⟩) (hc : c = w) : Encodes n w (some i) := by
  rintro _ ⟨⟩
  rw [he, hc]

theorem Encodes.ite {n w : Nat} {p : Prop} [Decidable p] {a b : Option Instr} (ha : p → Encodes n w a)
    (hb : Encodes n w b) : Encodes n w (if p then a else b) := by
  split
  · exact ha ‹p›
  · exact hb

section
variable {w : Nat} (hw : w < 2 ^ 32)
include hw

theorem encodes_decodeMajor0 (hm : w % 64 = 1) : Encodes 32 w (decodeMajor0 w) := by
  unfold decodeMajor0
  repeat' refine Encodes.ite (fun hc => Encodes.some rfl ?_) ?_
  all_goals simp only [Encodes.none, fld, BitVec.toNat_ofNat, Nat.mod_mod] at * <;> omega

theorem encodes_decodeMajor1 (hm : w % 64 = 3) : Encodes 32 w (decodeMajor1 w) := by
  unfold decodeMajor1
  repeat' refine Encodes.ite (fun hc => Encodes.some rfl ?_) ?_
  all_goals simp only [Encodes.none, fld, BitVec.toNat_ofNat, Nat.mod_mod] at * <;> omega

theorem encodes_decodeMajor2 (hm : w % 64 = 5) : Encodes 32 w (decodeMajor2 w) := by
  unfold decodeMajor2
  repeat' refine Encodes.ite (fun hc => Encodes.some rfl ?_) ?_
  all_goals simp only [Encodes.none, fld, BitVec.toNat_ofNat, Nat.mod_mod] at * <;> omega

theorem encodes_decodeMajor3 (hm : w % 64 = 7) : Encodes 32 w (decodeMajor3 w) := by
  unfold decodeMajor3
  repeat' refine Encodes.ite (fun hc => Encodes.some rfl ?_) ?_
  all_goals simp only [Encodes.none, fld, BitVec.toNat_ofNat, Nat.mod_mod] at * <;> omega

theorem encodes_decodeMajor4 (hm : w % 64 = 9) : Encodes 32 w (decodeMajor4 w) := by
  unfold decodeMajor4
  repeat' refine Encodes.ite (fun hc => Encodes.some rfl ?_) ?_
  all_goals simp only [Encodes.none, fld, BitVec.toNat_ofNat, Nat.mod_mod] at * <;> omega

theorem encodes_decodeMajor5 (hm : w % 64 = 11) : Encodes 32 w (decodeMajor5 w) := by
  unfold decodeMajor5
  repeat' refine Encodes.ite (fun hc => Encodes.some rfl ?_) ?_
  all_goals simp only [Encodes.none, fld, BitVec.toNat_ofNat, Nat.mod_mod] at * <;> omega

theorem encodes_decodeMajor6 (hm : w % 64 = 13) : Encodes 32 w (decodeMajor6 w) := by
  unfold decodeMajor6
  repeat' refine Encodes.ite (fun hc => Encodes.some rfl ?_) ?_
  all_goals simp only [Encodes.none, fld, BitVec.toNat_ofNat, Nat.mod_mod] at * <;> omega

theorem encodes_decodeMajor7 (hm : w % 64 = 15) : Encodes 32 w (decodeMajor7 w) := by
  unfold decodeMajor7
  repeat' refine Encodes.ite (fun hc => Encodes.some rfl ?_) ?_
  all_goals simp only [Encodes.none, fld, BitVec.toNat_ofNat, Nat.mod_mod] at * <;> omega

theorem encodes_decodeMajor8 (hm : w % 64 = 17) : Encodes 32 w (decodeMajor8 w) := by
  unfold decodeMajor8
  repeat' refine Encodes.ite (fun hc => Encodes.some rfl ?_) ?_
  all_goals simp only [Encodes.none, fld, BitVec.toNat_ofNat, Nat.mod_mod] at * <;> omega

theorem encodes_decodeMajor9 (hm : w % 64 = 19) : Encodes 32 w (decodeMajor9 w) := by
  unfold decodeMajor9
  repeat' refine Encodes.ite (fun hc => Encodes.some rfl ?_) ?_
  all_goals simp only [Encodes.none, fld, BitVec.toNat_ofNat, Nat.mod_mod] at * <;> omega

theorem encodes_decodeMajor10 (hm : w % 64 = 21) : Encodes 32 w (decodeMajor10 w) := by
  refine Encodes.some rfl ?_
  simp only [fld, BitVec.toNat_ofNat, Nat.mod_mod]
  omega

theorem encodes_decodeMajor11 (hm : w % 64 = 23) : Encodes 32 w (decodeMajor11 w) := by
  unfold decodeMajor11
  repeat' refine Encodes.ite (fun hc => Encodes.some rfl ?_) ?_
  all_goals simp only [Encodes.none, fld, BitVec.toNat_ofNat, Nat.mod_mod] at * <;> omega

theorem encodes_decodeMajor12 (hm : w % 64 = 25) : Encodes 32 w (decodeMajor12 w) := by
  unfold decodeMajor12
  repeat' refine Encodes.ite (fun hc => Encodes.some rfl ?_) ?_
  all_goals simp only [Encodes.none, fld, BitVec.toNat_ofNat, Nat.mod_mod] at * <;> omega

theorem encodes_decodeMajor13 (hm : w % 64 = 27) : Encodes 32 w (decodeMajor13 w) := by
  unfold decodeMajor13
  repeat' refine Encodes.ite (fun hc => Encodes.some rfl ?_) ?_
  all_goals simp only [Encodes.none, fld, BitVec.toNat_ofNat, Nat.mod_mod] at * <;> omega

theorem encodes_decodeMajor14 (hm : w % 64 = 29) : Encodes 32 w (decodeMajor14 w) := by
  refine Encodes.some rfl ?_
  simp only [fld, BitVec.toNat_ofNat, Nat.mod_mod]
  omega

theorem encodes_decodeMajor15 (hm : w % 64 = 31) : Encodes 32 w (decodeMajor15 w) := by
  unfold decodeMajor15
  repeat' refine Encodes.ite (fun hc => Encodes.some rfl ?_) ?_
  all_goals simp only [Encodes.none, fld, BitVec.toNat_ofNat, Nat.mod_mod] at * <;> omega

theorem encodes_decodeMajor16 (hm : w % 64 = 33) : Encodes 32 w (decodeMajor16 w) := by
  unfold decodeMajor16
  repeat' refine Encodes.ite (fun hc => Encodes.some rfl ?_) ?_
  all_goals simp only [Encodes.none, fld, BitVec.toNat_ofNat, Nat.mod_mod] at * <;> omega

theorem encodes_decodeMajor17 (hm : w % 64 = 35) : Encodes 32 w (decodeMajor17 w) := by
  unfold decodeMajor17
  repeat' refine Encodes.ite (fun hc => Encodes.some rfl ?_) ?_
  all_goals simp only [Encodes.none, fld, BitVec.toNat_ofNat, Nat.mod_mod] at * <;> omega

theorem encodes_decodeMajor18 (hm : w % 64 = 37) : Encodes 32 w (decodeMajor18 w) := by
  unfold decodeMajor18
  repeat' refine Encodes.ite (fun hc => Encodes.some rfl ?_) ?_
  all_goals simp only [Encodes.none, fld, BitVec.toNat_ofNat, Nat.mod_mod] at * <;> omega

theorem encodes_decodeMajor19 (hm : w % 64 = 39) : Encodes 32 w (decodeMajor19 w) := by
  unfold decodeMajor19
  repeat' refine Encodes.ite (fun hc => Encodes.some rfl ?_) ?_
  all_goals simp only [Encodes.none, fld, BitVec.toNat_ofNat, Nat.mod_mod] at * <;> omega

theorem encodes_decodeMajor20 (hm : w % 64 = 41) : Encodes 32 w (decodeMajor20 w) := by
  unfold decodeMajor20
  repeat' refine Encodes.ite (fun hc => Encodes.some rfl ?_) ?_
  all_goals simp only [Encodes.none, fld, BitVec.toNat_ofNat, Nat.mod_mod] at * <;> omega

theorem encodes_decodeMajor21 (hm : w % 64 = 43) : Encodes 32 w (decodeMajor21 w) := by
  unfold decodeMajor21
  repeat' refine Encodes.ite (fun hc => Encodes.some rfl ?_) ?_
  all_goals simp only [Encodes.none, fld, BitVec.toNat_ofNat, Nat.mod_mod] at * <;> omega

theorem encodes_decodeMajor22 (hm : w % 64 = 45) : Encodes 32 w (decodeMajor22 w) := by
  unfold decodeMajor22
  repeat' refine Encodes.ite (fun hc => Encodes.some rfl ?_) ?_
  all_goals simp only [Encodes.none, fld, BitVec.toNat_ofNat, Nat.mod_mod] at * <;> omega

theorem encodes_decodeMajor23 (hm : w % 64 = 47) : Encodes 32 w (decodeMajor23 w) := by
  unfold decodeMajor23
  repeat' refine Encodes.ite (fun hc => Encodes.some rfl ?_) ?_
  all_goals simp only [Encodes.none, fld, BitVec.toNat_ofNat, Nat.mod_mod] at * <;> omega

theorem encodes_decodeMajor24 (hm : w % 64 = 49) : Encodes 32 w (decodeMajor24 w) := by
  unfold decodeMajor24
  repeat' refine Encodes.ite (fun hc => Encodes.some rfl ?_) ?_
  all_goals simp only [Encodes.none, fld, BitVec.toNat_ofNat, Nat.mod_mod] at * <;> omega

theorem encodes_decodeMajor25 (hm : w % 64 = 51) : Encodes 32 w (decodeMajor25 w) := by
  unfold decodeMajor25
  repeat' refine Encodes.ite (fun hc => Encodes.some rfl ?_) ?_
  all_goals simp only [Encodes.none, fld, BitVec.toNat_ofNat, Nat.mod_mod] at * <;> omega

theorem encodes_decodeMajor26 (hm : w % 64 = 53) : Encodes 32 w (decodeMajor26 w) := by
  unfold decodeMajor26
  repeat' refine Encodes.ite (fun hc => Encodes.some rfl ?_) ?_
  all_goals simp only [Encodes.none, fld, BitVec.toNat_ofNat, Nat.mod_mod] at * <;> omega

theorem encodes_decodeMajor27 (hm : w % 64 = 55) : Encodes 32 w (decodeMajor27 w) := by
  unfold decodeMajor27
  repeat' refine Encodes.ite (fun hc => Encodes.some rfl ?_) ?_
  all_goals simp only [Encodes.none, fld, BitVec.toNat_ofNat, Nat.mod_mod] at * <;> omega

theorem encodes_decodeMajor28 (hm : w % 64 = 57) : Encodes 32 w (decodeMajor28 w) := by
  unfold decodeMajor28
  repeat' refine Encodes.ite (fun hc => Encodes.some rfl ?_) ?_
  all_goals simp only [Encodes.none, fld, BitVec.toNat_ofNat, Nat.mod_mod] at * <;> omega

theorem encodes_decodeMajor29 (hm : w % 64 = 59) : Encodes 32 w (decodeMajor29 w) := by
  unfold decodeMajor29
  repeat' refine Encodes.ite (fun hc => Encodes.some rfl ?_) ?_
  all_goals simp only [Encodes.none, fld, BitVec.toNat_ofNat, Nat.mod_mod] at * <;> omega

theorem encodes_decodeMajor30 (hm : w % 64 = 61) : Encodes 32 w (decodeMajor30 w) := by
  unfold decodeMajor30
  repeat' refine Encodes.ite (fun hc => Encodes.some rfl ?_) ?_
  all_goals simp only [Encodes.none, fld, BitVec.toNat_ofNat, Nat.mod_mod] at * <;> omega

/-- The code of what a 32-bit word decodes to is that word. -/
theorem encodes_decodeRaw32 (hodd : w % 2 = 1) : Encodes 32 w (decodeRaw32 w) := by
  have hsplit : w % 64 = 2 * fld w 1 5 + 1 := by simp only [fld]; omega
  unfold decodeRaw32
  split
  case h_1 hm => exact encodes_decodeMajor0 hw (by rw [hsplit, hm])
  case h_2 hm => exact encodes_decodeMajor1 hw (by rw [hsplit, hm])
  case h_3 hm => exact encodes_decodeMajor2 hw (by rw [hsplit, hm])
  case h_4 hm => exact encodes_decodeMajor3 hw (by rw [hsplit, hm])
  case h_5 hm => exact encodes_decodeMajor4 hw (by rw [hsplit, hm])
  case h_6 hm => exact encodes_decodeMajor5 hw (by rw [hsplit, hm])
  case h_7 hm => exact encodes_decodeMajor6 hw (by rw [hsplit, hm])
  case h_8 hm => exact encodes_decodeMajor7 hw (by rw [hsplit, hm])
  case h_9 hm => exact encodes_decodeMajor8 hw (by rw [hsplit, hm])
  case h_10 hm => exact encodes_decodeMajor9 hw (by rw [hsplit, hm])
  case h_11 hm => exact encodes_decodeMajor10 hw (by rw [hsplit, hm])
  case h_12 hm => exact encodes_decodeMajor11 hw (by rw [hsplit, hm])
  case h_13 hm => exact encodes_decodeMajor12 hw (by rw [hsplit, hm])
  case h_14 hm => exact encodes_decodeMajor13 hw (by rw [hsplit, hm])
  case h_15 hm => exact encodes_decodeMajor14 hw (by rw [hsplit, hm])
  case h_16 hm => exact encodes_decodeMajor15 hw (by rw [hsplit, hm])
  case h_17 hm => exact encodes_decodeMajor16 hw (by rw [hsplit, hm])
  case h_18 hm => exact encodes_decodeMajor17 hw (by rw [hsplit, hm])
  case h_19 hm => exact encodes_decodeMajor18 hw (by rw [hsplit, hm])
  case h_20 hm => exact encodes_decodeMajor19 hw (by rw [hsplit, hm])
  case h_21 hm => exact encodes_decodeMajor20 hw (by rw [hsplit, hm])
  case h_22 hm => exact encodes_decodeMajor21 hw (by rw [hsplit, hm])
  case h_23 hm => exact encodes_decodeMajor22 hw (by rw [hsplit, hm])
  case h_24 hm => exact encodes_decodeMajor23 hw (by rw [hsplit, hm])
  case h_25 hm => exact encodes_decodeMajor24 hw (by rw [hsplit, hm])
  case h_26 hm => exact encodes_decodeMajor25 hw (by rw [hsplit, hm])
  case h_27 hm => exact encodes_decodeMajor26 hw (by rw [hsplit, hm])
  case h_28 hm => exact encodes_decodeMajor27 hw (by rw [hsplit, hm])
  case h_29 hm => exact encodes_decodeMajor28 hw (by rw [hsplit, hm])
  case h_30 hm => exact encodes_decodeMajor29 hw (by rw [hsplit, hm])
  case h_31 hm => exact encodes_decodeMajor30 hw (by rw [hsplit, hm])
  case h_32 => exact Encodes.none

end

/-- Two fields of five bits above the op number tile a parcel (R126). -/
theorem two_fields_tile {w op : Nat} (hw : w < 2 ^ 16) (hop : w % 64 = 2 * op) :
    2 * op + (BitVec.ofNat 5 (fld w 11 5)).toNat * 2048 + (BitVec.ofNat 5 (fld w 6 5)).toNat * 64 = w := by
  simp only [fld, BitVec.toNat_ofNat, Nat.mod_mod]
  omega

/-- One field of ten bits above the op number tiles a parcel (R126, R127). -/
theorem one_field_tiles {w op : Nat} (hw : w < 2 ^ 16) (hop : w % 64 = 2 * op) :
    2 * op + (BitVec.ofNat 10 (fld w 6 10)).toNat * 64 = w := by
  simp only [fld, BitVec.toNat_ofNat, Nat.mod_mod]
  omega

/-- A parcel without fields is its op number (R127). -/
theorem no_field_tiles {w op : Nat} (hw : w < 2 ^ 16) (hop : w % 64 = 2 * op) (hz : fld w 6 10 = 0) : 2 * op = w := by
  simp only [fld] at hz
  omega

/-- The code of what a parcel decodes to is that parcel. -/
theorem encodes_decodeRaw16 {w : Nat} (hw : w < 2 ^ 16) (heven : w % 2 = 0) : Encodes 16 w (decodeRaw16 w) := by
  have hsplit : w % 64 = 2 * fld w 1 5 := by simp only [fld]; omega
  unfold decodeRaw16
  split
  case h_29 => exact Encodes.none
  all_goals
    rename_i hop
    rw [hop] at hsplit
  case h_17 | h_18 | h_21 =>
    refine Encodes.ite (fun hc => Encodes.some rfl ?_) Encodes.none
    simp only [fld, BitVec.toNat_ofNat, Nat.mod_mod] at *
    omega
  case h_23 | h_24 | h_25 | h_26 | h_27 | h_28 =>
    exact Encodes.ite (fun hz => Encodes.some rfl (no_field_tiles hw hsplit hz)) Encodes.none
  case h_19 | h_20 | h_22 => exact Encodes.some rfl (one_field_tiles hw hsplit)
  all_goals exact Encodes.some rfl (two_fields_tile hw hsplit)

/-! ### Bytes and words -/

theorem bytesLE_ofBytes {n : Nat} (l : List Byte) (hn : l.length = n) : bytesLE n (Machine.ofBytes l) = l := by
  subst hn
  induction l with
  | nil => rfl
  | cons x r ih =>
    have hx : BitVec.ofNat 8 (x.toNat + 256 * Machine.ofBytes r) = x := BitVec.eq_of_toNat_eq (by simp [Nat.mod_eq_of_lt x.isLt])
    have hr : (x.toNat + 256 * Machine.ofBytes r) / 256 = Machine.ofBytes r := by omega
    rw [Machine.ofBytes, List.length_cons, bytesLE, hx, hr, ih]

theorem parcelOf_eq_ofBytes (b0 b1 : Byte) : parcelOf b0 b1 = Machine.ofBytes [b0, b1] := by
  simp [parcelOf, Machine.ofBytes]

theorem word_eq_ofBytes (b0 b1 b2 b3 : Byte) :
    parcelOf b0 b1 + 65536 * parcelOf b2 b3 = Machine.ofBytes [b0, b1, b2, b3] := by
  simp only [parcelOf, Machine.ofBytes]
  omega

theorem parcelOf_lt (b0 b1 : Byte) : parcelOf b0 b1 < 2 ^ 16 := by
  simp only [parcelOf]
  omega

/-! ### What the decoder answers is well-formed and has the code it was read from -/

theorem decode16_ok {w : Nat} {i : Instr} (hw : w < 2 ^ 16) (hbit : w % 2 = 0) (h : decode16 w = .ok i) :
    i.wf = true ∧ encode i = some ⟨16, w⟩ := by
  unfold decode16 at h
  split at h
  case h_1 => cases h
  case h_2 j hj =>
    split at h
    case isTrue hwf =>
      cases h
      exact ⟨hwf, encodes_decodeRaw16 hw hbit i hj⟩
    case isFalse => cases h

theorem decode32_ok {w : Nat} {i : Instr} (hw : w < 2 ^ 32) (hbit : w % 2 = 1) (h : decode32 w = .ok i) :
    i.wf = true ∧ encode i = some ⟨32, w⟩ := by
  unfold decode32 at h
  split at h
  case h_1 => cases h
  case h_2 j hj =>
    split at h
    case isTrue hwf =>
      cases h
      exact ⟨hwf, encodes_decodeRaw32 hw hbit i hj⟩
    case isFalse => cases h

theorem decode_parcel {b0 b1 : Byte} {l rest : List Byte} {i : Instr} (heven : parcelOf b0 b1 % 2 = 0)
    (h : decode (b0 :: b1 :: l) = .ok (i, rest)) : decode16 (parcelOf b0 b1) = .ok i ∧ l = rest := by
  simp only [decode, heven, if_true] at h
  cases hd : decode16 (parcelOf b0 b1) with
  | error e => simp [hd, Except.map] at h
  | ok j => simpa [hd, Except.map] using h

theorem decode_word {b0 b1 : Byte} {l rest : List Byte} {i : Instr} (hodd : parcelOf b0 b1 % 2 = 1)
    (h : decode (b0 :: b1 :: l) = .ok (i, rest)) :
    ∃ b2 b3, l = b2 :: b3 :: rest ∧ decode32 (parcelOf b0 b1 + 65536 * parcelOf b2 b3) = .ok i := by
  have hne : ¬ parcelOf b0 b1 % 2 = 0 := by omega
  match l with
  | [] | [_] => simp [decode, hne] at h
  | b2 :: b3 :: r =>
    simp only [decode, hne, if_false] at h
    cases hd : decode32 (parcelOf b0 b1 + 65536 * parcelOf b2 b3) with
    | error e => simp [hd, Except.map] at h
    | ok j =>
      simp only [hd, Except.map, Except.ok.injEq, Prod.mk.injEq] at h
      exact ⟨b2, b3, by rw [h.2], by rw [← h.1]; exact hd⟩

theorem bytes_parcel (b0 b1 : Byte) : (⟨16, parcelOf b0 b1⟩ : Code).bytes = [b0, b1] := by
  rw [parcelOf_eq_ofBytes]
  exact bytesLE_ofBytes _ (by simp)

theorem bytes_word (b0 b1 b2 b3 : Byte) :
    (⟨32, parcelOf b0 b1 + 65536 * parcelOf b2 b3⟩ : Code).bytes = [b0, b1, b2, b3] := by
  rw [word_eq_ofBytes]
  exact bytesLE_ofBytes _ (by simp)

/-- Settles O3: the length bit of the first parcel decides which of the two maps reads the bytes, and every branch of
either gives an instruction whose code is what it read. -/
theorem encodeOfDecode : Obligations.EncodeOfDecode := by
  unfold Obligations.EncodeOfDecode
  intro bs rest i h
  match bs with
  | [] | [_] => simp [decode] at h
  | b0 :: b1 :: l =>
    have hp := parcelOf_lt b0 b1
    rcases Nat.mod_two_eq_zero_or_one (parcelOf b0 b1) with heven | hodd
    · obtain ⟨hd, rfl⟩ := decode_parcel heven h
      obtain ⟨hwf, henc⟩ := decode16_ok hp heven hd
      exact ⟨hwf, _, henc, by rw [bytes_parcel]; rfl⟩
    · obtain ⟨b2, b3, rfl, hd⟩ := decode_word hodd h
      have hq := parcelOf_lt b2 b3
      obtain ⟨hwf, henc⟩ := decode32_ok (by omega) (by omega) hd
      exact ⟨hwf, _, henc, by rw [bytes_word]; rfl⟩

end Sys2Proof
end

section
/-! ### Fields of records -/

namespace Sys2Proof.Machine

theorem testBit_fld (x lo w k : Nat) : (fld x lo w).testBit k = (decide (k < w) && x.testBit (lo + k)) := by
  rw [fld, Nat.testBit_mod_two_pow, Nat.testBit_div_two_pow, Nat.add_comm]

/-- Replacing a field leaves what lies below and above it. -/
theorem replace_fld (x lo w v : Nat) : x - fld x lo w * 2 ^ lo + v % 2 ^ w * 2 ^ lo =
    2 ^ lo * (2 ^ w * (x / 2 ^ lo / 2 ^ w) + v % 2 ^ w) + x % 2 ^ lo := by
  have hlo := Nat.div_add_mod x (2 ^ lo)
  have hw := Nat.div_add_mod (x / 2 ^ lo) (2 ^ w)
  have hx : x = 2 ^ lo * (2 ^ w * (x / 2 ^ lo / 2 ^ w)) + fld x lo w * 2 ^ lo + x % 2 ^ lo := by
    calc x = 2 ^ lo * (x / 2 ^ lo) + x % 2 ^ lo := hlo.symm
      _ = 2 ^ lo * (2 ^ w * (x / 2 ^ lo / 2 ^ w) + x / 2 ^ lo % 2 ^ w) + x % 2 ^ lo := by rw [hw]
      _ = _ := by rw [fld, Nat.mul_add, Nat.mul_comm (2 ^ lo) (x / 2 ^ lo % 2 ^ w)]
  rw [Nat.mul_add, Nat.mul_comm (2 ^ lo) (v % 2 ^ w)]
  omega

theorem getLsbD_bset {n : Nat} (x : BitVec n) (lo w v i : Nat) : (bset x lo w v).getLsbD i =
    (decide (i < n) && if lo ≤ i ∧ i < lo + w then v.testBit (i - lo) else x.getLsbD i) := by
  rw [bset, BitVec.getLsbD_ofNat, replace_fld, Nat.testBit_two_pow_mul_add _ (Nat.mod_lt _ (Nat.two_pow_pos lo)),
    Nat.testBit_two_pow_mul_add _ (Nat.mod_lt _ (Nat.two_pow_pos w)), Nat.testBit_mod_two_pow, Nat.testBit_mod_two_pow,
    Nat.testBit_div_two_pow, Nat.testBit_div_two_pow]
  simp only [BitVec.getLsbD]
  by_cases hlo : i < lo
  · simp [hlo, show ¬ lo ≤ i by omega]
  · by_cases hw : i < lo + w
    · simp [hlo, hw, show lo ≤ i by omega, show i - lo < w by omega]
    · simp [hlo, hw, show ¬ i - lo < w by omega, show i - lo - w + w + lo = i by omega]

theorem getLsbD_wrote {n : Nat} (old : BitVec n) (fields : List (Nat × Nat)) (byte : Nat) (e : EvArgs) (i : Nat) :
    (wrote old fields byte e).getLsbD i =
      if (fieldsMask n fields).getLsbD i then (bset old (8 * byte) (8 * e.size) e.value).getLsbD i else old.getLsbD i := by
  by_cases hi : i < n
  · simp only [wrote, BitVec.getLsbD_or, BitVec.getLsbD_and, BitVec.getLsbD_not, hi]
    cases (fieldsMask n fields).getLsbD i <;> simp
  · simp [BitVec.getLsbD_of_ge _ _ (Nat.le_of_not_lt hi)]

/-- Fields whose bits agree are equal. -/
theorem bget_congr {n m : Nat} {x : BitVec n} {y : BitVec m} {lo lo' w : Nat}
    (h : ∀ k, k < w → x.getLsbD (lo + k) = y.getLsbD (lo' + k)) : bget x lo w = bget y lo' w := by
  refine Nat.eq_of_testBit_eq fun k => ?_
  simp only [bget, testBit_fld]
  by_cases hk : k < w
  · simpa [hk, BitVec.getLsbD] using h k hk
  · simp [hk]

theorem bget_bset_disjoint {n : Nat} (x : BitVec n) {lo w v lo' w' : Nat} (h : lo' + w' ≤ lo ∨ lo + w ≤ lo') :
    bget (bset x lo w v) lo' w' = bget x lo' w' := by
  refine bget_congr fun k hk => ?_
  rw [getLsbD_bset, if_neg (by omega)]
  by_cases hn : lo' + k < n
  · simp [hn]
  · simp [hn, BitVec.getLsbD_of_ge _ _ (Nat.le_of_not_lt hn)]

theorem bget_bset_same {n : Nat} (x : BitVec n) {lo w v : Nat} (h : lo + w ≤ n) : bget (bset x lo w v) lo w = v % 2 ^ w := by
  refine Nat.eq_of_testBit_eq fun k => ?_
  rw [bget, testBit_fld, Nat.testBit_mod_two_pow]
  by_cases hk : k < w
  · have := getLsbD_bset x lo w v (lo + k)
    rw [if_pos (by omega)] at this
    simpa [hk, show lo + k < n by omega, BitVec.getLsbD] using this
  · simp [hk]

theorem bget_lt {n : Nat} (x : BitVec n) (lo w : Nat) : bget x lo w < 2 ^ w := Nat.mod_lt _ (Nat.two_pow_pos w)

theorem bbit_bset_other {n : Nat} (x : BitVec n) {lo w v i : Nat} (h : i < lo ∨ lo + w ≤ i) :
    bbit (bset x lo w v) i = bbit x i := by
  rw [bbit, getLsbD_bset, if_neg (by omega), bbit]
  by_cases hn : i < n
  · simp [hn]
  · simp [hn, BitVec.getLsbD_of_ge _ _ (Nat.le_of_not_lt hn)]

theorem bbit_bset_same {n : Nat} (x : BitVec n) {i v : Nat} (h : i < n) : bbit (bset x i 1 v) i = v.testBit 0 := by
  rw [bbit, getLsbD_bset, if_pos (by omega)]
  simp [h]

/-- A write that covers writable bits from the record's start enters them (R5). -/
theorem bget_wrote_covered {n : Nat} (old : BitVec n) {fields : List (Nat × Nat)} {e : EvArgs} {w : Nat}
    (hm : ∀ k, k < w → (fieldsMask n fields).getLsbD k = true) (hs : w ≤ 8 * e.size) :
    bget (wrote old fields 0 e) 0 w = e.value % 2 ^ w := by
  refine Nat.eq_of_testBit_eq fun k => ?_
  rw [bget, testBit_fld, Nat.testBit_mod_two_pow]
  by_cases hk : k < w
  · have hkn : k < n := by
      by_contra hge
      have := hm k hk
      rw [BitVec.getLsbD_of_ge _ _ (Nat.le_of_not_lt hge)] at this
      cases this
    have := getLsbD_wrote old fields 0 e k
    rw [if_pos (hm k hk), getLsbD_bset, if_pos (by omega)] at this
    simpa [hk, hkn, BitVec.getLsbD] using this
  · simp [hk]

theorem vget_replicate {α : Type} {n i : Nat} (x d : α) (h : i < n) : vget (Vector.replicate n x) i d = x := by
  simp [vget, h]

theorem vget_map {α β : Type} {n i : Nat} (f : α → β) (v : Vector α n) (d : α) (d' : β) (h : i < n) :
    vget (v.map f) i d' = f (vget v i d) := by
  simp [vget, h]

theorem vget_ofFn {α : Type} {n i : Nat} (f : Fin n → α) (d : α) (h : i < n) : vget (Vector.ofFn f) i d = f ⟨i, h⟩ := by
  simp [vget, h]

/-! ### Tables without a range of keys -/

theorem Smap.get_without_inside {α : Type} {d : α} {lo hi k : Nat} (m : Smap α) (hl : lo ≤ k) (hh : k < hi) :
    Smap.get d (m.without lo hi) k = d := by
  induction m with
  | nil => rfl
  | cons x r ih =>
    by_cases hx : (decide (x.1 < lo) || decide (hi ≤ x.1)) = true
    · have hne : k ≠ x.1 := by rintro rfl; simp at hx; omega
      simp only [Smap.without, List.filter, hx, Smap.get, if_neg hne]
      split
      · rfl
      · exact ih
    · simp only [Smap.without, List.filter, hx]
      exact ih

theorem Smap.get_without_outside {α : Type} [DecidableEq α] {d : α} {lo hi k b : Nat} {m : Smap α}
    (h : Smap.wfFrom d b m = true) (hk : k < lo ∨ hi ≤ k) : Smap.get d (m.without lo hi) k = Smap.get d m k := by
  induction m generalizing b with
  | nil => rfl
  | cons x r ih =>
    obtain ⟨k', y⟩ := x
    simp only [Smap.wfFrom, Bool.and_eq_true, decide_eq_true_eq] at h
    have hr := ih h.2
    by_cases hx : (decide (k' < lo) || decide (hi ≤ k')) = true
    · simp only [Smap.without, List.filter, hx, Smap.get]
      rw [← Smap.without, hr]
    · have hne : k ≠ k' := by rintro rfl; simp at hx; omega
      simp only [Smap.without, List.filter, hx, Smap.get, if_neg hne]
      rw [← Smap.without, hr]
      split
      · exact Smap.get_below h.2 (by omega)
      · rfl

/-- What is folded over a list keeps whatever every step of it keeps. -/
theorem foldl_keeps {α β γ : Type} (p : β → γ) {f : β → α → β} (h : ∀ b a, p (f b a) = p b) (l : List α) (b : β) :
    p (l.foldl f b) = p b := by
  induction l generalizing b with
  | nil => rfl
  | cons x r ih => rw [List.foldl_cons, ih, h]

end Sys2Proof.Machine
end

section
/-! ### The machine right after reset -/

namespace Sys2Proof.Machine

theorem resetValuesPart : ResetValuesPart := by
  unfold ResetValuesPart
  refine ⟨rfl, rfl, rfl, rfl, fun c hc => ?_, fun c hc => ?_, fun v hv => ?_, fun p hp => vget_replicate _ _ hp,
    fun v hv => vget_replicate _ _ hv, by decide +kernel, by decide +kernel, fun d hd => ?_, fun v hv => ?_,
    rfl, fun _ => rfl, fun _ => rfl⟩
  · rw [State.coreAt, State.reset, vget_replicate _ _ hc]
    rfl
  · rw [State.clusterAt, State.reset, vget_replicate _ _ hc]
    rfl
  · rw [State.reset, Regs.reset, vget_replicate _ _ hv]
    decide
  · rw [State.dieAt, State.reset, vget_replicate _ _ hd]
    rfl
  · rw [State.vaultAt, State.reset, vget_replicate _ _ hv]
    rfl

theorem resetMemoryPart : ResetMemoryPart where
  dev := rfl
  host := rfl
  store := rfl
  image := rfl
  scratch c h := by
    have hc : State.reset.cores[c] = Core.reset := Vector.getElem_replicate h
    rw [hc]
    rfl
  peers := nofun

/-- Settles O5: every table of the reset state is one record repeated, and every memory is empty. -/
theorem resetState : Obligations.ResetState := ⟨resetValuesPart, resetMemoryPart⟩

end Sys2Proof.Machine
end

section
/-! ### Start-up (R418) -/

namespace Sys2Proof.Machine

/-- Start-up runs, and no step of it has failed or is told to fail. -/
structure State.Clean (s : State) : Prop where
  power : s.power = .starting
  steprec : s.regs.steprec = Vector.replicate 16 0
  results : s.ev.results = []
  down : s.down = []

/-- Every die is at clock step 16. -/
def State.AtStep16 (s : State) : Prop := ∀ d, d < 8 → (s.dieAt d).step = 16

theorem bset_zero (n lo w : Nat) : bset 0#n lo w 0 = 0#n := by simp [bset, fld]

/-- Step records that read 0 stay as they are when 0 is written. -/
theorem State.setStepRec_zero {s : State} (n : Nat) (h : s.regs.steprec = Vector.replicate 16 0) :
    s.setStepRec n 0#32 = s := by
  have hv : vset s.regs.steprec (n - 1) 0#32 = s.regs.steprec := by
    rw [h]
    ext i hi
    simp [vset]
  rw [State.setStepRec, hv]

/-- A step that finds nothing failed and is told of no failure passes: no unit runs its alternative, none is out of use. -/
theorem State.startStep_clean {s : State} (h : s.Clean) (n : Nat) :
    s.startStep n = ({ s with altDown := s.altDown.filter fun x => x.1 ≠ n } : State).unitsAfter n [] [] := by
  obtain ⟨_, hrec, hres, hdown⟩ := h
  have h0 : s.stepRec n = 0 := by simp [State.stepRec, hrec, vget]
  simp [State.startStep, h0, hres, hdown, bbit, bset_zero, List.filter_filter, State.setStepRec_zero, hrec]

theorem State.unitsAfter_clean {s : State} (h : s.Clean) {n : Nat} (hn : n ≠ 16) : (s.unitsAfter n [] []).Clean := by
  obtain ⟨hp, hrec, hres, hdown⟩ := h
  unfold State.unitsAfter
  split
  case h_13 => exact absurd rfl hn
  all_goals exact ⟨hp, hrec, hres, hdown⟩

theorem State.unitsAfter_memory (s : State) {n : Nat} (hn : n ≠ 16) :
    (s.unitsAfter n [] []).dev = s.dev ∧ (s.unitsAfter n [] []).imageStore = s.imageStore := by
  unfold State.unitsAfter
  split
  case h_13 => exact absurd rfl hn
  all_goals exact ⟨rfl, rfl⟩

theorem State.unitsAfter_nine_atStep16 (s : State) : (s.unitsAfter 9 [] []).AtStep16 := by
  intro d hd
  simp [State.unitsAfter, State.dieAt, vget_map _ _ Die.reset _ hd]

theorem State.unitsAfter_atStep16 {s : State} {n : Nat} (hn : n ≠ 16) (h : s.AtStep16) : (s.unitsAfter n [] []).AtStep16 := by
  by_cases h9 : n = 9
  · subst h9
    exact s.unitsAfter_nine_atStep16
  · intro d hd
    have hd16 := h d hd
    unfold State.unitsAfter
    split
    case h_7 => exact absurd rfl h9
    case h_13 => exact absurd rfl hn
    all_goals simpa [State.dieAt, vget_ofFn _ _ hd, vget_map _ _ Die.reset _ hd] using hd16

/-- Steps without a failure, the last step apart, leave start-up running, memory and the image store as they are, and every
die at clock step 16 once step 9 has run. -/
theorem State.startSteps_clean {l : List Nat} (hl : ∀ n ∈ l, n ≠ 16) (m : List Nat) {s : State} (h : s.Clean) :
    ∃ t : State, State.startSteps (l ++ m) s = State.startSteps m t ∧ t.Clean ∧ t.dev = s.dev ∧ t.imageStore = s.imageStore ∧
      (9 ∈ l ∨ s.AtStep16 → t.AtStep16) := by
  induction l generalizing s with
  | nil => exact ⟨s, rfl, h, rfl, rfl, fun h16 => h16.resolve_left List.not_mem_nil⟩
  | cons n r ih =>
    obtain ⟨hn, hr⟩ := List.forall_mem_cons.1 hl
    have hstep := State.startStep_clean h n
    have hkept : ({ s with altDown := s.altDown.filter fun x => x.1 ≠ n } : State).Clean := ⟨h.1, h.2, h.3, h.4⟩
    obtain ⟨hdev, himage⟩ := State.unitsAfter_memory { s with altDown := s.altDown.filter fun x => x.1 ≠ n } hn
    have hclean := State.unitsAfter_clean hkept hn
    rw [← hstep] at hdev himage hclean
    obtain ⟨t, ht, hc, hd, hi, h16⟩ := ih hr hclean
    refine ⟨t, ?_, hc, hd.trans hdev, hi.trans himage, fun hor => h16 ?_⟩
    · rw [← ht, List.cons_append, State.startSteps, if_pos h.power]
    · by_cases hr9 : 9 ∈ r
      · exact Or.inl hr9
      · refine Or.inr ?_
        rw [hstep]
        rcases hor with h9 | h16s
        · obtain rfl : 9 = n := (List.mem_cons.1 h9).resolve_right hr9
          exact State.unitsAfter_nine_atStep16 _
        · exact State.unitsAfter_atStep16 hn h16s

theorem State.postHost_dev (s : State) (e : Event) : (s.postHost e).dev = s.dev := by
  unfold State.postHost; split <;> rfl

theorem State.postHost_power (s : State) (e : Event) : (s.postHost e).power = s.power := by
  unfold State.postHost; split <;> rfl

theorem State.postHost_dies (s : State) (e : Event) : (s.postHost e).dies = s.dies := by
  unfold State.postHost; split <;> rfl

theorem State.postHost_imageStore (s : State) (e : Event) : (s.postHost e).imageStore = s.imageStore := by
  unfold State.postHost; split <;> rfl

/-- An event that names no fault domain reaches the host ring and the cellar alone (R363). -/
theorem State.post_of_no_domain (s : State) {e : Event} (h : e.domain = 0) : s.post e = s.postHost e := by
  simp [State.post, h]

/-- The last step tells the host that the device is up (R418). -/
theorem State.startStep_last {s : State} (h : s.Clean) :
    (s.startStep 16).power = .up ∧ (s.startStep 16).dev = s.dev ∧ (s.startStep 16).imageStore = s.imageStore ∧
      (s.startStep 16).dies = s.dies := by
  rw [State.startStep_clean h, State.unitsAfter, State.post_of_no_domain _ rfl]
  exact ⟨rfl, State.postHost_dev _ _, State.postHost_imageStore _ _, State.postHost_dies _ _⟩

/-- Steps without a failure that end with the last bring the device up. -/
theorem State.startSteps_up {l : List Nat} (hl : ∀ n ∈ l, n ≠ 16) {s : State} (h : s.Clean) :
    (State.startSteps (l ++ [16]) s).power = .up ∧ (State.startSteps (l ++ [16]) s).dev = s.dev ∧
      (State.startSteps (l ++ [16]) s).imageStore = s.imageStore ∧ (9 ∈ l → (State.startSteps (l ++ [16]) s).AtStep16) := by
  obtain ⟨t, ht, hc, hdev, himage, h16⟩ := State.startSteps_clean hl [16] h
  obtain ⟨hup, hd, hi, hdies⟩ := State.startStep_last hc
  rw [ht, State.startSteps, if_pos hc.power, State.startSteps]
  refine ⟨hup, hd.trans hdev, hi.trans himage, fun h9 d hlt => ?_⟩
  rw [State.dieAt, hdies]
  exact h16 (Or.inl h9) d hlt

/-- RECOVERY's record replaced. -/
def State.withRecovery (s : State) (r : BitVec 64) : State := { s with regs := { s.regs with recovery := r } }

/-- The machine on which start-up goes on behind a verified image, which is stored when bit 1 asks for it (R420). -/
def State.recovered (s : State) (r : BitVec 64) : State :=
  { (if bbit r 1 then { s.withRecovery r with imageStore := s.regs.image } else s.withRecovery r) with power := .starting }

theorem State.recovered_clean {s : State} (r : BitVec 64) (hrec : s.regs.steprec = Vector.replicate 16 0)
    (hres : s.ev.results = []) (hdown : s.down = []) : (s.recovered r).Clean := by
  unfold State.recovered
  split <;> exact ⟨rfl, hrec, hres, hdown⟩

/-- What RECOVERY_GO does once go is written while the device is at recovery (R419, R420). -/
theorem execRecoveryGo_go {s : State} {byte : Nat} (hp : s.power = .recovery) (hreg : s.regOf s.ev = some (.recovery, byte))
    (hgo : bbit (wrote s.regs.recovery [(0, 1), (1, 1)] byte s.ev) 0 = true) :
    execRecoveryGo s = .next (
      let r := wrote s.regs.recovery [(0, 1), (1, 1)] byte s.ev
      if s.ev.ok = false then (s.withRecovery r).post (Event.of 0x5B 0 0)
      else State.startSteps (List.range' 3 14) (s.recovered r)) := by
  simp [execRecoveryGo, hreg, hgo, hp, State.withRecovery, State.recovered]

/-- Start-up and recovery (R418 to R420). -/
theorem startUpPart : StartUpPart := by
  refine ⟨fun s hp hrec hres hdown => ?_, fun s byte hp hreg hgo => ⟨fun hbad => ?_, fun hok hrec hres hdown => ?_⟩⟩
  · obtain ⟨hup, hdev, -, h16⟩ := State.startSteps_up (l := List.range' 1 15) (by decide) ⟨hp, hrec, hres, hdown⟩
    refine ⟨_, ?_, hup, hdev, h16 (by decide)⟩
    change execStartUp s = _
    rw [execStartUp, if_pos hp]
    rfl
  · refine ⟨_, (execRecoveryGo_go hp hreg hgo).trans (congrArg _ (if_pos hbad)), ?_, ?_⟩
    · rw [State.post_of_no_domain _ rfl, State.postHost_power]
      exact hp
    · rw [State.post_of_no_domain _ rfl, State.postHost_dev]
      rfl
  · obtain ⟨hup, -, himage, -⟩ := State.startSteps_up (l := List.range' 3 13) (by decide)
      (State.recovered_clean (wrote s.regs.recovery [(0, 1), (1, 1)] byte s.ev) hrec hres hdown)
    refine ⟨_, (execRecoveryGo_go hp hreg hgo).trans (congrArg _ (if_neg (by simp [hok]))), hup, fun hstore => ?_⟩
    exact himage.trans (by rw [State.recovered, if_pos hstore])

end Sys2Proof.Machine
end

section
/-! ### What leaves the dirty logs' records as they are

Of all that a move of a log's tail can set going, only logging a page writes a VDLOG record, and that writes its head and its
throttled bit (R324). -/

namespace Sys2Proof.Machine

theorem State.withEvtring_vdlog (s : State) (m : Memory) (r : BitVec 256) :
    ({ s with host := m, regs := { s.regs with evtring := r } } : State).regs.vdlog = s.regs.vdlog := rfl

@[simp] theorem State.postHost_vdlog (s : State) (e : Event) : (s.postHost e).regs.vdlog = s.regs.vdlog := by
  unfold State.postHost
  split
  · exact State.withEvtring_vdlog (s.toCellar _) _ _
  · rfl

@[simp] theorem State.setOwner_vdlog (s : State) (w : Nat) (o : Option Nat) :
    (s.setOwner w o).regs.vdlog = s.regs.vdlog := by
  unfold State.setOwner
  dsimp only
  split
  · rfl
  · split <;> rfl

@[simp] theorem State.slicePut_vdlog (s : State) (l o : Nat) (d : Bool) : (s.slicePut l o d).regs.vdlog = s.regs.vdlog := by
  unfold State.slicePut
  split
  · rfl
  · split
    · rfl
    · dsimp only
      split
      · rfl
      · split <;> rfl

@[simp] theorem State.tally_vdlog (s : State) (src n : Nat) (c : Option Nat) (d : Nat) :
    (s.tally src n c d).regs.vdlog = s.regs.vdlog := by
  unfold State.tally
  cases c with
  | none => dsimp only; split <;> rfl
  | some c => dsimp only; split <;> split <;> rfl

@[simp] theorem State.lineWrite_vdlog (s : State) (l : Nat) (b : List (Nat × Byte)) (o : Option Nat) :
    (s.lineWrite l b o).regs.vdlog = s.regs.vdlog := by
  have howners := foldl_keeps (fun t : State => t.regs.vdlog) (f := fun t w => t.setOwner (32 * l + w) o)
    (fun t w => t.setOwner_vdlog (32 * l + w) o)
  unfold State.lineWrite
  rw [State.tally_vdlog, State.slicePut_vdlog]
  cases o <;> (split <;> [split; skip]) <;> exact howners _ _

@[simp] theorem State.homeWrite_vdlog (s : State) (b : List (Nat × Byte)) (o : Option Nat) :
    (s.homeWrite b o).regs.vdlog = s.regs.vdlog :=
  foldl_keeps (fun t : State => t.regs.vdlog) (fun t l => t.lineWrite_vdlog l _ o) _ s

@[simp] theorem State.post_vdlog (s : State) (e : Event) : (s.post e).regs.vdlog = s.regs.vdlog := by
  unfold State.post
  dsimp only
  split
  · simp
  · split
    · split <;> simp
    · simp

@[simp] theorem State.revealAt_vdlog (s : State) (t : Target) : (s.revealAt t).regs.vdlog = s.regs.vdlog := by
  unfold State.revealAt
  split
  · split
    · simp
    · rfl
  · rfl

@[simp] theorem State.revealWalk_vdlog (s : State) (p va : Nat) : (s.revealWalk p va).regs.vdlog = s.regs.vdlog := by
  unfold State.revealWalk
  split
  · simp
  · rfl

@[simp] theorem State.walkNote_vdlog (s : State) (p va : Nat) : (s.walkNote p va).regs.vdlog = s.regs.vdlog := by
  have hnoted : ((s.refusalEvent p va).elim s s.post).regs.vdlog = s.regs.vdlog := by
    cases s.refusalEvent p va <;> simp
  unfold State.walkNote
  dsimp only
  split
  · rw [State.revealWalk_vdlog, hnoted]
  · split
    · rw [State.revealAt_vdlog, hnoted]
    · exact hnoted
  · exact hnoted

@[simp] theorem State.modNode_vdlog (s : State) (p va : Nat) (f : Node → Node) :
    (s.modNode p va f).regs.vdlog = s.regs.vdlog := by
  unfold State.modNode
  split <;> rfl

@[simp] theorem State.rcbEvent_vdlog (s : State) (p va d : Nat) : (s.rcbEvent p va d).regs.vdlog = s.regs.vdlog :=
  State.post_vdlog s _

@[simp] theorem State.readNode_vdlog (s : State) (p va : Nat) : (s.readNode p va).2.regs.vdlog = s.regs.vdlog := by
  unfold State.readNode
  split <;> simp

@[simp] theorem State.writeNode_vdlog (s : State) (p va lo w v : Nat) :
    (s.writeNode p va lo w v).regs.vdlog = s.regs.vdlog := by
  unfold State.writeNode
  dsimp only
  split <;> simp

@[simp] theorem State.setPending_vdlog (s : State) (q : Nat) : (s.setPending q).regs.vdlog = s.regs.vdlog := by
  unfold State.setPending
  split <;> rfl

@[simp] theorem State.mapAt_vdlog (s : State) (n q : Nat) : (s.mapAt n q).regs.vdlog = s.regs.vdlog := rfl

@[simp] theorem State.mapQueue_vdlog (s : State) (new : List Nat) (q : Nat) :
    (s.mapQueue new q).regs.vdlog = s.regs.vdlog := by
  unfold State.mapQueue
  split
  · rfl
  · split
    · rfl
    · split
      · rfl
      · dsimp only
        rw [State.mapAt_vdlog]
        split
        · exact State.setPending_vdlog _ _
        · rfl

@[simp] theorem State.mapFrom_vdlog (n : Nat) (s : State) (seen : List Nat) :
    (s.mapFrom seen n).regs.vdlog = s.regs.vdlog := by
  induction n generalizing s seen with
  | zero => rfl
  | succ n ih =>
    rw [State.mapFrom]
    split
    · rfl
    · rw [ih, State.mapQueue_vdlog]

@[simp] theorem State.mapPending_vdlog (s : State) : s.mapPending.regs.vdlog = s.regs.vdlog := State.mapFrom_vdlog _ _ _

@[simp] theorem State.setState_vdlog (s : State) (rcb st : Nat) : (s.setState rcb st).regs.vdlog = s.regs.vdlog := by
  unfold State.setState
  split
  · rfl
  · dsimp only
    split <;> simp [State.modLaunch]

@[simp] theorem State.setStates_vdlog (s : State) (head st : Nat) : (s.setStates head st).regs.vdlog = s.regs.vdlog :=
  foldl_keeps (fun t : State => t.regs.vdlog) (fun t (l : Launch) => t.setState_vdlog l.rcb st) _ s

@[simp] theorem State.pathNow_vdlog (s : State) (p : Nat) (path : List Nat) :
    (s.pathNow p path).2.regs.vdlog = s.regs.vdlog :=
  foldl_keeps (fun x : List (Nat × BitVec 2048) × State => x.2.regs.vdlog) (fun x va => x.2.readNode_vdlog p va) path _

@[simp] theorem State.resumeLaunch_vdlog (s : State) (head : Nat) : (s.resumeLaunch head).regs.vdlog = s.regs.vdlog := by
  unfold State.resumeLaunch
  dsimp only
  rw [State.setStates_vdlog]
  refine foldl_keeps (fun t : State => t.regs.vdlog) (fun t (l : Launch) => ?_) _ s
  dsimp only [State.modLaunch]
  exact t.pathNow_vdlog l.part l.path

@[simp] theorem State.selfResumes_vdlog (s : State) : s.selfResumes.regs.vdlog = s.regs.vdlog :=
  foldl_keeps (fun t : State => t.regs.vdlog) (fun t (l : Launch) => t.resumeLaunch_vdlog l.head) _ s

@[simp] theorem State.vdFree_vdlog (s : State) (v : Nat) : (s.vdFree v).regs.vdlog = s.regs.vdlog := by
  unfold State.vdFree
  split <;> simp

@[simp] theorem State.logFullEvent_vdlog (s : State) (vd : Option Nat) : (s.logFullEvent vd).regs.vdlog = s.regs.vdlog := by
  unfold State.logFullEvent
  split
  · rfl
  · split <;> simp

/-! ### The tails of the dirty logs -/

/-- The tail of a virtual device's dirty log (R323). -/
def State.tailOf (s : State) (v : Nat) : Nat := bget (s.vdlog v) 128 32

theorem State.tailOf_congr {s t : State} (h : t.regs.vdlog = s.regs.vdlog) (v : Nat) : t.tailOf v = s.tailOf v := by
  rw [State.tailOf, State.vdlog, h, State.tailOf, State.vdlog]

/-- Logging a page moves no tail. -/
theorem State.logPage_tailOf {s t : State} {vd : Option Nat} {host : Bool} {addr : Nat} (h : s.logPage vd host addr = some t)
    (v : Nat) : t.tailOf v = s.tailOf v := by
  cases vd with
  | none => cases h; rfl
  | some u =>
    simp only [State.logPage] at h
    split at h
    · cases h; rfl
    · split at h
      · cases h
      · cases h
        simp only [State.tailOf, State.vdlog, vget_vset]
        split
        · rename_i hv
          rw [bget_bset_disjoint _ (by omega), bget_bset_disjoint _ (by omega), hv.1]
        · rfl

theorem State.logTargets_tailOf {vd : Option Nat} {l : List Target} {s t : State} (h : s.logTargets vd l = some t) (v : Nat) :
    t.tailOf v = s.tailOf v := by
  induction l generalizing s with
  | nil => cases h; rfl
  | cons x r ih =>
    cases x with
    | dev pa =>
      obtain ⟨u, hu, ht⟩ := Option.bind_eq_some_iff.1 h
      exact (ih ht).trans (State.logPage_tailOf hu v)
    | host p ha =>
      obtain ⟨u, hu, ht⟩ := Option.bind_eq_some_iff.1 h
      exact (ih ht).trans (State.logPage_tailOf hu v)
    | _ => exact ih h

/-- A store that is logged first, or waits for room in the log, moves no tail when it moves none itself. -/
theorem State.logged_tailOf {s : State} {vd : Option Nat} {x : Target} {f : State → State} {v : Nat}
    (hf : ∀ u : State, (f u).regs.vdlog = u.regs.vdlog) :
    (match s.logTargets vd [x] with
      | some u => (f u, true)
      | none => (s.logFullEvent vd, false)).1.tailOf v = s.tailOf v := by
  split
  · rename_i u hu
    exact (State.tailOf_congr (hf u) v).trans (State.logTargets_tailOf hu v)
  · exact State.tailOf_congr (s.logFullEvent_vdlog vd) v

@[simp] theorem State.storeCompletion_tailOf (s : State) (c : Completion) (v : Nat) :
    (s.storeCompletion c).1.tailOf v = s.tailOf v := by
  unfold State.storeCompletion
  dsimp only
  split
  · split
    · rfl
    · exact State.logged_tailOf fun _ => rfl
  · split
    · rfl
    · exact State.tailOf_congr (s.walkNote_vdlog _ _) v
    · split
      · rfl
      · split
        · split
          · rfl
          · exact State.logged_tailOf fun u => u.homeWrite_vdlog _ _
        · split
          · rfl
          · refine State.tailOf_congr ?_ v
            unfold State.railDie
            split <;> rfl
        · rfl

@[simp] theorem State.retryCompletions_tailOf (s : State) (v : Nat) : s.retryCompletions.tailOf v = s.tailOf v := by
  refine foldl_keeps (fun t : State => t.tailOf v) (fun t c => ?_) s.completions { s with completions := [] }
  dsimp only
  split
  · exact t.storeCompletion_tailOf c v
  · exact t.storeCompletion_tailOf c v

end Sys2Proof.Machine
end

section
/-! ### Writes of the register spaces -/

namespace Sys2Proof.Machine

/-! #### DEVNUM (R314) -/

theorem State.regOf_devnum {s : State} (hp : s.power = .up) (hb : s.ev.bar = 0) (ho : s.ev.off = 0x60008)
    (hs : s.ev.size = 8) : s.regOf s.ev = some (.devnum, 0) := by
  simp [State.regOf, hp, hb, ho, hs, bar0Reg]

/-- A write of DEVNUM has no row of its own. -/
theorem execRegisterWrite_of_devnum {s : State} (hreg : s.regOf s.ev = some (.devnum, 0)) :
    execRegisterWrite s = .next (s.plainWrite .devnum 0) := by
  simp [execRegisterWrite, State.writeRow, hreg]

theorem registerWrite_devnum (s : State) (hp : s.power = .up) (hb : s.ev.bar = 0) (ho : s.ev.off = 0x60008) (hs : s.ev.size = 8) :
    ((∀ p, p < 16 → s.partActive p = false) → ∃ t, exec .registerWrite s = .next t ∧
      bget t.regs.devnum 0 9 = s.ev.value % 2 ^ 9 ∧ t = { s with regs := { s.regs with devnum := t.regs.devnum } }) ∧
    ((∃ p, p < 16 ∧ s.partActive p = true) → exec .registerWrite s =
      .next (s.postHost (Event.of 0x5E (0x60008 % 2 ^ 16) (s.ev.value % 2 ^ 56)))) := by
  have hreg := State.regOf_devnum hp hb ho hs
  have hexec : exec .registerWrite s = .next (s.plainWrite .devnum 0) := execRegisterWrite_of_devnum hreg
  refine ⟨fun hnone => ?_, fun ⟨p, hlt, hact⟩ => ?_⟩
  · have hany : (List.range 16).any s.partActive = false := by simpa using hnone
    refine ⟨_, hexec, ?_, ?_⟩
    · rw [State.plainWrite, hany]
      exact bget_wrote_covered s.regs.devnum (by decide) (by omega)
    · rw [State.plainWrite, hany]
      rfl
  · have hany : (List.range 16).any s.partActive = true := List.any_eq_true.2 ⟨p, List.mem_range.2 hlt, hact⟩
    have hrefused : s.writeRefused = s.postHost (Event.of 0x5E (0x60008 % 2 ^ 16) (s.ev.value % 2 ^ 56)) := by
      simp only [State.writeRefused, hreg, ho]
    rw [hexec, State.plainWrite, if_pos hany, hrefused]

/-! #### Partitions coming and going (R69, R316, R317, R320) -/

theorem State.setPart_partRec (s : State) {p : Nat} (r : BitVec 1024) (hp : p < 16) : (s.setPart p r).partRec p = r := by
  rw [State.partRec, State.setPart, vget_vset, if_pos ⟨rfl, hp⟩]

/-- The machine with a partition's key in every die (R69, R316). -/
def State.withKey (s : State) (p : Nat) : State :=
  { s.setPart p (bset (s.partRec p) 619 1 1) with dies := s.dies.map fun d => { d with keys := d.keys ||| (1#16 <<< p) } }

theorem exec_partitionKeyLoad {s : State} (hp : s.ev.part < 16) : exec .partitionKeyLoad s = .next (s.withKey s.ev.part) := by
  change execPartitionKeyLoad s = _
  simp [execPartitionKeyLoad, State.withKey, hp]

theorem partitionKeyLoad_loads (s : State) (hp : s.ev.part < 16) : ∃ t, exec .partitionKeyLoad s = .next t ∧
    bbit (t.partRec s.ev.part) 619 = true ∧ (∀ d, d < 8 → (t.dieAt d).keys.getLsbD s.ev.part = true) ∧ s.sameMemory t := by
  have hrec : (s.withKey s.ev.part).partRec s.ev.part = bset (s.partRec s.ev.part) 619 1 1 :=
    (s.setPart_partRec (bset (s.partRec s.ev.part) 619 1 1) hp : _)
  refine ⟨_, exec_partitionKeyLoad hp, ?_, fun d hd => ?_, fun _ => rfl, fun _ => rfl, fun _ _ => rfl, rfl⟩
  · rw [hrec, bbit_bset_same _ (by omega)]
    rfl
  · rw [State.dieAt, State.withKey, vget_map _ _ Die.reset _ hd]
    simp [hp]

/-- What an activation takes over from before reaches no register, version, scratchpad, host memory or peer. -/
theorem State.inherit_keeps (s : State) (p : Nat) :
    ((s.inherit p).regs, (s.inherit p).versions, (s.inherit p).host, (s.inherit p).cores, (s.inherit p).peers) =
      (s.regs, s.versions, s.host, s.cores, s.peers) := by
  unfold State.inherit
  refine foldl_keeps (fun t : State => (t.regs, t.versions, t.host, t.cores, t.peers)) (fun t x => ?_) _ s
  dsimp only [State.modVault]
  exact foldl_keeps (fun t : State => (t.regs, t.versions, t.host, t.cores, t.peers)) (fun _ _ => by dsimp only) _ t

/-- Where no vault holds anything from before, an activation takes over no byte. -/
theorem State.inherit_dev {s : State} (h : ∀ v, v < 256 → (s.vaultAt v).stale = []) (p : Nat) : (s.inherit p).dev = s.dev := by
  refine List.foldlRecOn (motive := fun t : State => t.dev = s.dev) _ _ rfl fun t ht x hx => ?_
  have hv : x.1 < 256 := by
    have := List.fst_mem_of_mem_zipIdx hx
    simp only [bits256, List.mem_filter, List.mem_range] at this
    exact this.1
  rw [h x.1 hv]
  exact ht

theorem recWindow_dvd (r : BitVec 1024) : 128 ∣ (recWindow r).2 :=
  ⟨(bget r 512 10 + 3 * (bits256 (bget r 0 256)).length) * 2 ^ 23, by simp only [recWindow, gib]; ring⟩

/-- What an activation leaves: the record that was written, versions without those of the window (R69, R317), and the
scratchpads, host memory and peers as they were. -/
theorem State.activate_keeps (s : State) (p : Nat) (r : BitVec 1024) :
    (s.activate p r).regs = (s.setPart p r).regs ∧
      (s.activate p r).versions = Smap.without s.versions ((recWindow r).1 / 128) ((recWindow r).2 / 128) ∧
      (s.activate p r).host = s.host ∧ (s.activate p r).cores = s.cores ∧ (s.activate p r).peers = s.peers := by
  have h := State.inherit_keeps { s.setPart p r with
    versions := Smap.without (s.setPart p r).versions ((recWindow r).1 / 128) ((recWindow r).2 / 128) } p
  simp only [Prod.mk.injEq] at h
  exact h

theorem State.activate_partRec (s : State) {p : Nat} (r : BitVec 1024) (hp : p < 16) : (s.activate p r).partRec p = r := by
  rw [State.partRec, (s.activate_keeps p r).1]
  exact s.setPart_partRec r hp

theorem State.activate_version (s : State) (p : Nat) {r : BitVec 1024} {l : Nat} (hlo : (recWindow r).1 ≤ l * 128)
    (hhi : l * 128 < (recWindow r).2) : Smap.get 0 (s.activate p r).versions l = 0 := by
  obtain ⟨k, hk⟩ := recWindow_dvd r
  rw [(s.activate_keeps p r).2.1]
  exact Smap.get_without_inside _ (by omega) (by omega)

theorem State.activate_sameMemory {s : State} (h : ∀ v, v < 256 → (s.vaultAt v).stale = []) (p : Nat) (r : BitVec 1024) :
    s.sameMemory (s.activate p r) := by
  obtain ⟨-, -, hhost, hcores, hpeers⟩ := s.activate_keeps p r
  have hdev : (s.activate p r).dev = s.dev := State.inherit_dev (s := { s.setPart p r with
    versions := Smap.without (s.setPart p r).versions ((recWindow r).1 / 128) ((recWindow r).2 / 128) }) h p
  exact ⟨fun a => by rw [hdev], fun a => by rw [hhost], fun c a => by rw [State.coreAt, hcores, State.coreAt], hpeers⟩

theorem exec_partActivate {s : State} {p byte : Nat} (hreg : s.regOf s.ev = some (.part p, byte)) (hidle : s.partActive p = false)
    (hset : bbit (s.partAfter p byte) 618 = true) (hgood : partBad (s.partAfter p byte) = false)
    (hok : s.activationRefused p (s.partAfter p byte) = none) :
    exec .partActivate s = .next (s.activate p (s.partAfter p byte)) := by
  change execPartActivate s = _
  simp [execPartActivate, hreg, hidle, hset, hgood, hok]

/-- What a discarded partition leaves of the memories: its window is dropped from device memory, host memory stays. -/
theorem State.discard_memory (s : State) (p : Nat) :
    (s.discard p).dev = Smap.without s.dev (s.windowLo p) (s.windowHi p) ∧ (s.discard p).host = s.host := by
  have h (lines : List Nat) (f : Nat → Vault → Vault) :
      ((lines.foldl (fun t l => t.modVault (s.vaultOf (l * 128)) (f l)) s).dev,
        (lines.foldl (fun t l => t.modVault (s.vaultOf (l * 128)) (f l)) s).host) = (s.dev, s.host) :=
    foldl_keeps (fun t : State => (t.dev, t.host)) (fun t l => by rw [State.modVault_dev, State.modVault_host]) lines s
  unfold State.discard
  dsimp only
  exact ⟨congrArg (fun m => Smap.without m.1 (s.windowLo p) (s.windowHi p)) (h _ _), congrArg Prod.snd (h _ _)⟩

theorem State.deactivate_partRec (s : State) {p : Nat} (r : BitVec 1024) (hp : p < 16) :
    (s.deactivate p r).partRec p = bset r 619 1 0 := (s.discard p).setPart_partRec _ hp

theorem State.deactivate_key (s : State) {p d : Nat} (r : BitVec 1024) (hp : p < 16) (hd : d < 8) :
    ((s.deactivate p r).dieAt d).keys.getLsbD p = false := by
  unfold State.deactivate
  rw [State.dieAt, vget_map _ _ Die.reset _ hd]
  simp [hp]

/-- A partition's window reads 0 once its key is discarded, and no other byte changes (log entry 1). -/
theorem State.deactivate_read {s : State} (hok : s.memOk) (p : Nat) (r : BitVec 1024) (a : Nat) :
    Memory.read (s.deactivate p r).dev a =
      if s.windowLo p ≤ a ∧ a < s.windowHi p then 0 else Memory.read s.dev a := by
  have hdev : (s.deactivate p r).dev = Smap.without s.dev (s.windowLo p) (s.windowHi p) := (s.discard_memory p).1
  rw [hdev, Memory.read]
  split
  · rename_i h
    exact Smap.get_without_inside _ h.1 h.2
  · exact Smap.get_without_outside hok.dev (by omega)

theorem exec_partDeactivate {s : State} {p byte : Nat} (hreg : s.regOf s.ev = some (.part p, byte)) (hact : s.partActive p = true)
    (hclear : bbit (s.partAfter p byte) 618 = false) (hgood : partBad (s.partAfter p byte) = false)
    (hidle : s.partitionIdle p = true) : exec .partDeactivate s = .next (s.deactivate p (s.partAfter p byte)) := by
  change execPartDeactivate s = _
  simp [execPartDeactivate, hreg, hact, hclear, hgood, hidle]

/-! #### Virtual devices and queues (R248, R313, R321) -/

theorem exec_vdbindEnable {s : State} {v byte : Nat} (hreg : s.regOf s.ev = some (.vdbind v, byte))
    (hoff : vbEnabled (s.vdbind v) = false) (hon : vbEnabled (wrote (s.vdbind v) vdbindFields byte s.ev) = true)
    (hgood : s.vdbindBad v (wrote (s.vdbind v) vdbindFields byte s.ev) = false) : exec .vdbindEnable s = .next
      ({ s with regs := { s.regs with
          vdbind := vset s.regs.vdbind v (wrote (s.vdbind v) vdbindFields byte s.ev) } } : State).mapPending := by
  change execVdbindEnable s = _
  simp [execVdbindEnable, hreg, hoff, hon, hgood]

theorem exec_queueEnable {s : State} {q byte : Nat} (hreg : s.regOf s.ev = some (.qdesc q, byte))
    (hcov : coversBit byte s.ev 69 = true) (hgood : qdescBad (s.qdescAfter q byte) = false)
    (hoff : qdEnabled (s.qdesc q) = false) (hon : qdEnabled (s.qdescAfter q byte) = true) :
    exec .queueEnable s = .next (s.setQdesc q (s.qdescAfter q byte)) := by
  change execQueueEnable s = _
  simp [execQueueEnable, hreg, hcov, hgood, hoff, hon]

/-- With no queue pending, none is mapped. -/
theorem State.mapPending_nothing {s : State} (h : s.pending = []) : s.mapPending = s := by
  have hn (n : Nat) : s.mapFrom [] n = s := by
    cases n with
    | zero => rfl
    | succ n => rw [State.mapFrom, h]; rfl
  exact hn _

/-- A queue without a command of its own in a slot leaves the slots, and no launch waits again. -/
theorem State.unmapQueue_idle {s : State} {q : Nat} (h : ∀ y ∈ s.slots, y.2.queue = q → y.2.command = none) :
    s.unmapQueue q = { s with slots := s.slots.filter fun y => y.2.queue ≠ q } := by
  have hnone : (s.slots.filterMap fun y => match y.2.command with
      | some (_, rcb, some ctx) => if y.2.queue = q then some ({ queue := q, rcb := rcb, ctx := ctx } : RLaunch) else none
      | _ => none) = [] := by
    refine List.filterMap_eq_nil_iff.2 fun y hy => ?_
    by_cases hq : y.2.queue = q
    · rw [h y hy hq]
    · split
      · exact if_neg hq
      · rfl
  rw [State.unmapQueue]
  exact congrArg (fun l => ({ s with slots := s.slots.filter fun y => y.2.queue ≠ q, rlaunches := l ++ s.rlaunches } : State)) hnone

theorem exec_queueDisable {s : State} {q byte : Nat} (hreg : s.regOf s.ev = some (.qdesc q, byte))
    (hcov : coversBit byte s.ev 69 = true) (hgood : qdescBad (s.qdescAfter q byte) = false)
    (hoff : qdEnabled (s.qdescAfter q byte) = false) (hpend : s.pending = [])
    (hslots : ∀ y ∈ s.slots, y.2.queue = q → y.2.command = none) : exec .queueDisable s = .next
      { s.setQdesc q (bset (s.qdescAfter q byte) 70 1 0) with slots := s.slots.filter fun y => y.2.queue ≠ q } := by
  have hempty : ({ s.setQdesc q (bset (s.qdescAfter q byte) 70 1 0) with
      pending := (s.setQdesc q (bset (s.qdescAfter q byte) 70 1 0)).pending.filter fun x => x.queue ≠ q } : State) =
      s.setQdesc q (bset (s.qdescAfter q byte) 70 1 0) := by
    have hp : (s.setQdesc q (bset (s.qdescAfter q byte) 70 1 0)).pending = [] := hpend
    rw [hp, List.filter_nil, ← hp]
  have hidle := State.unmapQueue_idle (s := s.setQdesc q (bset (s.qdescAfter q byte) 70 1 0)) hslots
  change execQueueDisable s = _
  simp only [execQueueDisable, hreg, hcov, hgood, hoff, Bool.true_eq_false, Bool.false_eq_true, or_self, if_false]
  rw [hempty, hidle]
  exact congrArg _ (State.mapPending_nothing hpend)

/-! #### The tail of a dirty log (R323, R324, R417) -/

theorem exec_vdlogTailWrite {s : State} {v byte : Nat} (hreg : s.regOf s.ev = some (.vdlog v, byte))
    (hcov : coversBit byte s.ev 128 = true) (hgood : s.vdlogBad v byte (wrote (s.vdlog v) vdlogFields byte s.ev) = false) :
    exec .vdlogTailWrite s = .next ((s.setVdlog v (wrote (s.vdlog v) vdlogFields byte s.ev)).moveTail v
      (bget (wrote (s.vdlog v) [(128, 32)] byte s.ev) 128 32)) := by
  change execVdlogTailWrite s = _
  simp [execVdlogTailWrite, hreg, hcov, hgood]

theorem State.setVdlog_field (s : State) {v lo w : Nat} (r : BitVec 256) (hv : v < 32) (h : lo + w ≤ 73 ∨ 74 ≤ lo) :
    bget ((s.setVdlog v r).vdlog v) lo w = bget r lo w := by
  rw [State.vdlog, State.setVdlog, vget_vset, if_pos ⟨rfl, hv⟩]
  exact bget_bset_disjoint r (by omega)

/-- A tail that would leave more entries than the ring holds, or fewer than none, is ignored. -/
theorem State.moveTail_ignored {s : State} {v tail : Nat}
    (h : 2 ^ bget (s.vdlog v) 64 5 < (bget (s.vdlog v) 96 32 + 2 ^ 32 - tail) % 2 ^ 32) : s.moveTail v tail = s := if_pos h

/-- Any other tail stands, whatever its moving sets going. -/
theorem State.moveTail_tailOf {s : State} {v tail : Nat} (hv : v < 32) (htail : tail < 2 ^ 32)
    (h : (bget (s.vdlog v) 96 32 + 2 ^ 32 - tail) % 2 ^ 32 ≤ 2 ^ bget (s.vdlog v) 64 5) :
    (s.moveTail v tail).tailOf v = tail := by
  have hset : (s.setVdlog v (bset (s.vdlog v) 128 32 tail)).tailOf v = tail := by
    rw [State.tailOf, State.setVdlog_field _ _ hv (by omega), bget_bset_same _ (by omega), Nat.mod_eq_of_lt htail]
  unfold State.moveTail
  dsimp only
  rw [if_neg (Nat.not_lt.2 h)]
  refine (State.retryCompletions_tailOf _ v).trans ?_
  exact (State.tailOf_congr (State.vdFree_vdlog _ v) v).trans hset

/-- Writes of the register spaces. -/
theorem registerWritesPart : RegisterWritesPart := by
  refine ⟨registerWrite_devnum, partitionKeyLoad_loads, fun s p byte hreg => ⟨fun hidle hset hgood hok hp => ?_,
      fun hmem hact hclear hgood hidle hp => ?_⟩,
    fun s v byte hreg hoff hon hgood => exec_vdbindEnable hreg hoff hon hgood,
    fun s q byte hreg hcov hgood => ⟨fun hoff hon => exec_queueEnable hreg hcov hgood hoff hon,
      fun hoff hpend hslots => exec_queueDisable hreg hcov hgood hoff hpend hslots⟩,
    fun s v byte hreg hcov hv hgood => ⟨fun hleft => ?_, fun hleft => ?_⟩⟩
  · exact ⟨_, exec_partActivate hreg hidle hset hgood hok, s.activate_partRec _ hp, fun l hlo hhi => s.activate_version p hlo hhi,
      fun hstale => State.activate_sameMemory hstale p _⟩
  · refine ⟨_, exec_partDeactivate hreg hact hclear hgood hidle, ?_, ?_, fun d hd => s.deactivate_key _ hp hd, fun a hlo hhi => ?_,
      fun a hout => ?_, (s.discard_memory p).2⟩
    · rw [s.deactivate_partRec _ hp, bbit_bset_same _ (by omega)]
      rfl
    · rw [s.deactivate_partRec _ hp, bbit_bset_other _ (by omega), hclear]
    · rw [State.deactivate_read hmem, if_pos ⟨hlo, hhi⟩]
    · rw [State.deactivate_read hmem, if_neg (by omega)]
  · refine ⟨_, exec_vdlogTailWrite hreg hcov hgood, State.moveTail_tailOf hv (bget_lt _ _ _) ?_⟩
    rw [State.setVdlog_field _ _ hv (by omega), State.setVdlog_field _ _ hv (by omega)]
    exact hleft
  · rw [exec_vdlogTailWrite hreg hcov hgood, State.moveTail_ignored]
    rw [State.setVdlog_field _ _ hv (by omega), State.setVdlog_field _ _ hv (by omega)]
    exact hleft

/-- Settles O58: each write is its row applied where the premises let it through, and start-up is sixteen steps that pass. -/
theorem registersAndStartUp : Obligations.RegistersAndStartUp := ⟨registerWritesPart, startUpPart⟩

end Sys2Proof.Machine
end

section
namespace Sys2Proof.Machine

/-! ### The frame of the lane instructions (R45, R49) -/

/-- A group that differs from another in what a lane instruction may write. -/
def Group.laneOnly (g t : Group) : Prop :=
  t = { g with v := t.v, s := t.s, o := t.o, h := t.h, q := t.q, p := t.p, arithFlags := t.arithFlags, sp := t.sp }

theorem Group.laneOnly.trans {a b c : Group} (h : a.laneOnly b) (k : b.laneOnly c) : a.laneOnly c := by
  unfold Group.laneOnly at h k ⊢
  rw [h] at k
  exact k

theorem Group.writeReg_laneOnly (g : Group) (d : Nat) (m : Mask) (f : Lane → Word) : g.laneOnly (g.writeReg d m f) := by
  unfold Group.laneOnly
  rw [Group.writeReg_frame]

theorem Group.writeWord_laneOnly (g : Group) (d k : Nat) (m : Mask) (f : Lane → Word) : g.laneOnly (g.writeWord d k m f) := by
  unfold Group.laneOnly
  rw [Group.writeWord_frame]

theorem Group.shiftQ_laneOnly (g : Group) (m : Mask) (f : Lane → Word) : g.laneOnly (g.shiftQ m f) := rfl
theorem Group.setPred_laneOnly (g : Group) (n : Nat) (m : Mask) (f : Lane → Bool) : g.laneOnly (g.setPred n m f) := rfl
theorem Group.flag_laneOnly (g : Group) (x : BitVec 6) : g.laneOnly (g.flag x) := rfl

theorem Group.put_laneOnly (g : Group) (d : Nat) (m : Mask) (f : Lane → Word) : g.laneOnly (g.put d m f) :=
  (g.writeReg_laneOnly d m f).trans (Group.shiftQ_laneOnly _ m f)

theorem Group.put64_laneOnly (g : Group) (d : Nat) (m : Mask) (f : Lane → BitVec 64) : g.laneOnly (g.put64 d m f) :=
  (((g.writeWord_laneOnly d 0 m _).trans (Group.writeWord_laneOnly _ d 1 m _)).trans (Group.shiftQ_laneOnly _ m _)).trans
    (Group.shiftQ_laneOnly _ m _)

/-- The answer is a next state that differs in the issuing group's lane state alone. -/
def State.AnswersLaneOnly (s : State) (o : Out) : Prop := ∃ t, o = .next t ∧ s.laneOnly t

section

variable {s : State} {i : Instr}

/-- An instruction that always completes and writes lane state alone. -/
theorem State.issues.complete_laneOnly (h : s.issues i) {f : State → Group → Group} (hf : s.g.laneOnly (f s s.g)) :
    s.AnswersLaneOnly (Machine.complete i s fun t => t.modG (f t)) :=
  ⟨_, h.complete_eq _, rfl, hf.trans rfl⟩

theorem State.issues.laneOp_laneOnly (h : s.issues i) (d : Nat) (f : State → Lane → Word × BitVec 6) :
    s.AnswersLaneOnly (laneOp i s d f) := ⟨_, h.laneOp_eq d f, s.laneResult_laneOnly i d _⟩

theorem State.issues.laneOp64_laneOnly (h : s.issues i) (d : Nat) (f : State → Lane → BitVec 64 × BitVec 6) :
    s.AnswersLaneOnly (laneOp64 i s d f) := ⟨_, h.laneOp64_eq d f, s.laneResult64_laneOnly i d _⟩

theorem State.issues.compareOp_laneOnly (h : s.issues i) (p : BitVec 3) (f : State → Lane → Bool × BitVec 6) :
    s.AnswersLaneOnly (compareOp i s p f) := ⟨_, h.compareOp_eq p f, s.compared_laneOnly i p.toNat _⟩

theorem State.issues.carryOp_laneOnly (h : s.issues i) (b a : BitVec 8) (d : BitVec 7) (sub : Bool) :
    s.AnswersLaneOnly (carryOp i s b a d sub) :=
  h.complete_laneOnly ((Group.put_laneOnly _ _ _ _).trans (Group.setPred_laneOnly _ _ _ _))

theorem State.issues.comparePacked_laneOnly (h : s.issues i) (b a : BitVec 8) (c p : BitVec 3) (F : Format) :
    s.AnswersLaneOnly (comparePacked i s b a c p F) :=
  h.complete_laneOnly (((Group.setPred_laneOnly _ _ _ _).trans (Group.setPred_laneOnly _ _ _ _)).trans (Group.flag_laneOnly _ _))

theorem State.issues.reduce32_laneOnly (h : s.issues i) (a : BitVec 8) (d : BitVec 7)
    (op : State → Nat → Nat → Nat × BitVec 6) (float : Bool) : s.AnswersLaneOnly (reduce32 i s a d op float) :=
  h.complete_laneOnly ((Group.put_laneOnly _ _ _ _).trans (Group.flag_laneOnly _ _))

/-- The rows of majors 0 to 15 and 30 minor 0, and of parcels 0 to 16. -/
def isLaneInstr (i : Instr) : Bool :=
  match i.head with
  | .w32 major minor => decide (major ≤ 15) || (major == 30 && minor == 0)
  | .p16 op => decide (op ≤ 16)
  | .event => false

/-- Every lane instruction is one of few shapes, each of which writes lane state alone. -/
theorem State.issues.exec_laneOnly (h : s.issues i) (hl : isLaneInstr i = true) : s.AnswersLaneOnly (exec i s) := by
  cases i with
  | iadd | isub | imul | imulhS | imulhU | imad | and | or | xor | andn | shl | shr | sar | rotl | iminS | imaxS | iminU
  | imaxU | popc | clz | brev | iabs | bfxU | bfxS | bfi | bshuf | shld | shrd | iaddi | andi | ori | xori | shli | shri
  | sari | imuli | fadd | fsub | fmul | ffma | ffms | fmin | fmax | fnma | hadd2F16 | hmul2F16 | hfma2F16 | hmin2F16
  | hadd2Bf16 | hmul2Bf16 | hfma2Bf16 | hmin2Bf16 | frcp | frsq | fsqrt | fex2 | flg2 | fsinr | fcosr | sel | shflIdx
  | shflUp | shflDn | shflXor | voteAny | voteAll | ballot | matchL | scanI32 | ldk | ldkh | add | sub | andParcel | orParcel
  | xorParcel | shlParcel | shrParcel | mov | faddParcel | fsubParcel | fmulParcel | fminParcel | fmaxParcel | imulParcel
  | addi | movi =>
    dsimp only [exec, execIadd, execIsub, execImul, execImulhS, execImulhU, execImad, execAnd, execOr, execXor, execAndn, execShl,
      execShr, execSar, execRotl, execIminS, execImaxS, execIminU, execImaxU, execPopc, execClz, execBrev, execIabs, execBfxU,
      execBfxS, execBfi, execBshuf, execShld, execShrd, execIaddi, execAndi, execOri, execXori, execShli, execShri, execSari,
      execImuli, execFadd, execFsub, execFmul, execFfma, execFfms, execFmin, execFmax, execFnma, execHadd2F16, execHmul2F16,
      execHfma2F16, execHmin2F16, execHadd2Bf16, execHmul2Bf16, execHfma2Bf16, execHmin2Bf16, execFrcp, execFrsq, execFsqrt,
      execFex2, execFlg2, execFsinr, execFcosr, execSel, execShflIdx, execShflUp, execShflDn, execShflXor, execVoteAny,
      execVoteAll, execBallot, execMatchL, execScanI32, execLdk, execLdkh, execAdd, execSub, execAndParcel, execOrParcel,
      execXorParcel, execShlParcel, execShrParcel, execMov, execFaddParcel, execFsubParcel, execFmulParcel, execFminParcel,
      execFmaxParcel, execImulParcel, execAddi, execMovi, parcel2, parcelF, bin, tern, una, single, packed, special, shuffle, vote]
    exact h.laneOp_laneOnly _ _
  | dadd | dsub | dmul | dfma | dfms | dmin | dmax | dnma | dsqrt =>
    dsimp only [exec, execDadd, execDsub, execDmul, execDfma, execDfms, execDmin, execDmax, execDnma, execDsqrt,
      double]
    exact h.laneOp64_laneOnly _ _
  | iaddc | isubb =>
    dsimp only [exec, execIaddc, execIsubb]
    exact h.carryOp_laneOnly _ _ _ _
  | icmpS | icmpU | fcmp | dcmp =>
    dsimp only [exec, execIcmpS, execIcmpU, execFcmp, execDcmp]
    exact h.compareOp_laneOnly _ _
  | hcmp2F16 | hcmp2Bf16 =>
    dsimp only [exec, execHcmp2F16, execHcmp2Bf16]
    exact h.comparePacked_laneOnly _ _ _ _ _
  | rdaddF32 | rdaddI32 | rdminF32 | rdmaxF32 | rdminI32 | rdmaxI32 =>
    dsimp only [exec, execRdaddF32, execRdaddI32, execRdminF32, execRdmaxF32, execRdminI32, execRdmaxI32]
    exact h.reduce32_laneOnly _ _ _ _
  | plop =>
    dsimp only [exec, execPlop]
    exact h.complete_laneOnly (Group.setPred_laneOnly _ _ _ _)
  | cvt m t x e a d =>
    dsimp only [exec, execCvt]
    by_cases hw : cvtWords e.toNat = 2
    · rw [if_pos hw]
      exact h.laneOp64_laneOnly _ _
    · rw [if_neg hw]
      exact h.laneOp_laneOnly _ _
  | rdaddF64 =>
    dsimp only [exec, execRdaddF64]
    exact h.complete_laneOnly ((Group.put64_laneOnly _ _ _ _).trans (Group.flag_laneOnly _ _))
  | philox b a d =>
    dsimp only [exec, execPhilox]
    refine h.complete_laneOnly ?_
    have word : ∀ (g : Group) (k : Nat) (m : Mask) (f : Lane → Word), g.laneOnly ((g.writeWord d.toNat k m f).shiftQ m f) :=
      fun g k m f => (g.writeWord_laneOnly d.toNat k m f).trans (Group.shiftQ_laneOnly _ m f)
    exact (((word _ _ _ _).trans (word _ _ _ _)).trans (word _ _ _ _)).trans (word _ _ _ _)
  | nop =>
    dsimp only [exec, execNop]
    exact ⟨_, h.complete_eq id, rfl, rfl⟩
  | _ => exact absurd hl Bool.false_ne_true

end

end Sys2Proof.Machine

namespace Sys2Proof

open Machine

/-- Settles O11: what a lane instruction writes lies in its group, and no byte of memory lies there. -/
theorem laneFrame : Obligations.LaneFrame := by
  intro i s h hd
  have hl : isLaneInstr i = true := by
    unfold isLaneInstr
    cases hi : i.head <;> rw [hi] at hd
    · simpa using hd
    · simpa using hd
    · exact hd.elim
  obtain ⟨t, he, ht⟩ := h.exec_laneOnly hl
  exact ⟨t, he, ht, ht.sameMemory⟩

end Sys2Proof
end

section
namespace Sys2Proof.Machine

/-! ### Atomics (R48, R199) -/

theorem toSigned_toNat {n : Nat} (x : BitVec n) : toSigned n x.toNat = x.toInt := by
  simp only [toSigned, Nat.mod_eq_of_lt x.isLt, BitVec.toInt_eq_toNat_cond]

/-- Two ways to order equal words answer the same word. -/
theorem minSigned_eq (m v : Word) : (if toSigned 32 m.toNat ≤ toSigned 32 v.toNat then m.toNat else v.toNat) =
    (if m.slt v then m else v).toNat := by
  simp only [toSigned_toNat, BitVec.slt_iff_toInt_lt]
  rcases lt_trichotomy m.toInt v.toInt with h | h | h
  · rw [if_pos h.le, if_pos h]
  · rw [if_pos h.le, if_neg h.not_lt, BitVec.eq_of_toInt_eq h]
  · rw [if_neg h.not_ge, if_neg h.not_gt]

theorem maxSigned_eq (m v : Word) : (if toSigned 32 m.toNat ≤ toSigned 32 v.toNat then v.toNat else m.toNat) =
    (if m.slt v then v else m).toNat := by
  simp only [toSigned_toNat, BitVec.slt_iff_toInt_lt]
  rcases lt_trichotomy m.toInt v.toInt with h | h | h
  · rw [if_pos h.le, if_pos h]
  · rw [if_pos h.le, if_neg h.not_lt, BitVec.eq_of_toInt_eq h]
  · rw [if_neg h.not_ge, if_neg h.not_gt]

theorem minUnsigned_eq (m v : Word) : min m.toNat v.toNat = (if m.ult v then m else v).toNat := by
  simp only [BitVec.ult, decide_eq_true_eq]
  split <;> omega

theorem maxUnsigned_eq (m v : Word) : max m.toNat v.toNat = (if m.ult v then v else m).toNat := by
  simp only [BitVec.ult, decide_eq_true_eq]
  split <;> omega

/-- Where the count has not reached v, m + 1 does not wrap. -/
theorem incWrap_eq (m v : Word) : (if v.toNat ≤ m.toNat then 0 else m.toNat + 1) = (if v ≤ m then 0 else m + 1).toNat := by
  simp only [BitVec.le_def]
  have := v.isLt
  split
  · rfl
  · have hm : m.toNat + 1 < 2 ^ 32 := by omega
    rw [BitVec.toNat_add_of_lt hm]
    rfl

/-- A compare and exchange of numbers that stand for bit vectors. -/
theorem casNew_eq {n : Nat} (m v c : BitVec n) : (if m.toNat = c.toNat then (v.toNat, true) else (m.toNat, false)) =
    if m = c then (v.toNat, true) else (m.toNat, false) := by simp only [BitVec.toNat_inj]

theorem atomicResultsPart : AtomicResultsPart := by
  refine ⟨fun m v c => ?_, fun m v c => ?_⟩
  · refine ⟨?_, congrArg (·, true) (minSigned_eq m v), congrArg (·, true) (maxSigned_eq m v), ?_, ?_, ?_, rfl, casNew_eq m v c,
      congrArg (·, true) (minUnsigned_eq m v), congrArg (·, true) (maxUnsigned_eq m v), congrArg (·, true) (incWrap_eq m v), rfl⟩
    · exact congrArg (·, true) (BitVec.toNat_add m v).symm
    · exact congrArg (·, true) (BitVec.toNat_and m v).symm
    · exact congrArg (·, true) (BitVec.toNat_or m v).symm
    · exact congrArg (·, true) (BitVec.toNat_xor m v).symm
  · exact ⟨congrArg (·, true) (BitVec.toNat_add m v).symm, casNew_eq m v c, rfl, rfl⟩

/-- A scratchpad word that an atomic's lane changes: the next lane finds it changed. -/
theorem atomicFold_spm {major minor core o old : Nat} {n : Nat × Bool} {a : LaneAcc} {r : List LaneAcc} {s : State} {m : Memory}
    (ht : a.tgt = .spm core o) (hold : Memory.readLE (s.coreAt core).scratch o 4 = old)
    (hn : atomicNew major minor 4 old a.v a.c = n) (hw : n.2 = true) :
    atomicFold major minor 4 (a :: r) s m =
      let rest := atomicFold major minor 4 r (s.scratchStore core o 4 n.1) m
      (rest.1, (a.lane, old) :: rest.2.1, rest.2.2.1, rest.2.2.2) := by
  simp only [atomicFold, ht, State.siteMem, hold, hn, hw, State.atomicElsewhere, if_true, List.nil_append]

/-- Lanes that write no device memory leave what their fold leaves. -/
theorem State.atomicLanes_eq {s t : State} {core major minor width : Nat} {l : List LaneAcc} {res : List (Nat × Nat)} {m : Memory}
    (hd : devLanes l = []) (hf : atomicFold major minor width l s s.dev = ([], res, t, m)) :
    s.atomicLanes core major minor width l = (res, t) := by
  simp only [State.atomicLanes, hd, List.foldl_nil, hf, List.map_nil, List.eraseDups_nil]

theorem State.scratchStore_scratch {s : State} {core : Nat} (o n v : Nat) (hc : core < 256) :
    ((s.scratchStore core o n v).coreAt core).scratch = Memory.writeLE (s.coreAt core).scratch o n v := by
  simp only [State.scratchStore, State.coreAt, State.modCore, vget_vset, hc, and_self, if_true]

theorem State.memOk.scratch_wf {s : State} (h : s.memOk) {core : Nat} (hc : core < 256) : (s.coreAt core).scratch.wf = true := by
  simpa only [State.coreAt, vget, hc, dif_pos] using h.scratch core hc

/-- Two lanes at one scratchpad word: the second finds what the first left, modulo the width of the word. -/
theorem State.atomicLanes_two {s : State} {core major minor o : Nat} {a b : LaneAcc} {n1 n2 : Nat × Bool} (hm : s.memOk)
    (hc : core < 256) (ha : a.tgt = .spm core o) (hb : b.tgt = .spm core o)
    (h1 : atomicNew major minor 4 (Memory.readLE (s.coreAt core).scratch o 4) a.v a.c = n1) (hw1 : n1.2 = true)
    (h2 : atomicNew major minor 4 (n1.1 % 2 ^ 32) b.v b.c = n2) (hw2 : n2.2 = true) :
    s.atomicLanes core major minor 4 [a, b] =
      ([(a.lane, Memory.readLE (s.coreAt core).scratch o 4), (b.lane, n1.1 % 2 ^ 32)],
        (s.scratchStore core o 4 n1.1).scratchStore core o 4 n2.1) := by
  have hfound : Memory.readLE ((s.scratchStore core o 4 n1.1).coreAt core).scratch o 4 = n1.1 % 2 ^ 32 := by
    rw [State.scratchStore_scratch o 4 n1.1 hc, Memory.readLE_writeLE (hm.scratch_wf hc)]
    norm_num
  apply State.atomicLanes_eq
  · simp only [devLanes, List.filterMap_cons, ha, hb, List.filterMap_nil]
  · rw [atomicFold_spm ha rfl h1 hw1, atomicFold_spm hb hfound h2 hw2]
    rfl

theorem atomicsFollowPart : AtomicsFollowPart := by
  intro s core major minor o x y hm hc old n1 n2 h1 h2 l r
  have hr : r = _ := State.atomicLanes_two (o := o) hm hc rfl rfl rfl h1 rfl h2
  have hwf := hm.scratch_wf hc
  have hwf1 := Memory.writeLE_wf (a := o) (n := 4) (v := n1.1) hwf
  have hleft : (r.2.coreAt core).scratch = Memory.writeLE (Memory.writeLE (s.coreAt core).scratch o 4 n1.1) o 4 n2.1 := by
    rw [hr, State.scratchStore_scratch o 4 n2.1 hc, State.scratchStore_scratch o 4 n1.1 hc]
  refine ⟨by rw [hr], ?_, fun a ha => ?_, by rw [hr]; rfl, by rw [hr]; rfl⟩
  · rw [hleft, Memory.readLE_writeLE hwf1]
    norm_num
  · rw [hleft, Memory.read_writeLE_outside hwf1 ha, Memory.read_writeLE_outside hwf ha]

end Sys2Proof.Machine

namespace Sys2Proof

/-- Settles O38: the values are those of the words, and the second lane's fold starts from the first lane's store. -/
theorem atomics : Obligations.Atomics := ⟨Machine.atomicResultsPart, Machine.atomicsFollowPart⟩

end Sys2Proof
end

section
namespace Sys2Proof.Machine

/-! ### Masks as sets of lanes -/

/-- Masks are equal when they hold the same lanes. -/
theorem mask_ext {a b : Mask} (h : ∀ l, laneIn a l = laneIn b l) : a = b :=
  BitVec.eq_of_getLsbD_eq fun i hi => h ⟨i, hi⟩

theorem laneIn_or (a b : Mask) (l : Lane) : laneIn (a ||| b) l = (laneIn a l || laneIn b l) := BitVec.getLsbD_or
theorem laneIn_zero (l : Lane) : laneIn 0 l = false := BitVec.getLsbD_zero

theorem laneIn_bit (j l : Lane) : laneIn (1#32 <<< j.val) l = decide (j = l) := by
  simp only [laneIn, BitVec.getLsbD_shiftLeft, BitVec.getLsbD_one]
  have := j.isLt
  have := l.isLt
  by_cases h : j = l
  · simp [h]
  · have : j.val ≠ l.val := fun e => h (Fin.ext e)
    simp [h]
    omega

theorem laneIn_maskOf (p : Lane → Bool) (l : Lane) : laneIn (maskOf p) l = p l := by
  have hfold : ∀ (ls : List Lane) (m : Mask),
      laneIn (ls.foldl (fun m j => if p j then m ||| (1#32 <<< j.val) else m) m) l = (laneIn m l || (ls.contains l && p l)) := by
    intro ls
    induction ls with
    | nil => simp
    | cons j r ih =>
      intro m
      rw [List.foldl_cons, ih]
      by_cases hj : j = l
      · subst hj
        cases hp : p j <;> simp [laneIn_or, laneIn_bit]
      · have hl : ¬ l = j := fun e => hj e.symm
        cases hp : p j <;> simp [laneIn_or, laneIn_bit, hj, hl]
  have hall : lanes.contains l = true := by simp [lanes]
  rw [maskOf, hfold, hall]
  exact (congrArg (· || p l) (laneIn_zero l)).trans (Bool.false_or _)

theorem mask_ne_zero_iff (m : Mask) : m ≠ 0 ↔ ∃ l, laneIn m l = true := by
  constructor
  · intro h
    obtain ⟨l, hl⟩ := List.exists_mem_of_ne_nil _ (lanesOf_ne_nil m h)
    exact ⟨l, (mem_lanesOf m l).1 hl⟩
  · rintro ⟨l, hl⟩ rfl
    rw [laneIn_zero] at hl
    exact absurd hl Bool.false_ne_true

/-! ### Votes (R47, R167, R168) -/

theorem laneIn_voteMask (s : State) (p : BitVec 3) (n : BitVec 1) (l : Lane) :
    laneIn (voteMask s p n) l = (laneIn s.act l && (s.g.pred p.toNat l != (n = 1#1))) := laneIn_maskOf _ _

theorem voteMask_eq_zero_iff (s : State) (p : BitVec 3) (n : BitVec 1) : voteMask s p n = 0 ↔
    ¬ ∃ l, laneIn s.act l = true ∧ (s.g.pred p.toNat l != (n = 1#1)) = true := by
  rw [← not_iff_not, not_not, ← ne_eq, mask_ne_zero_iff]
  simp only [laneIn_voteMask, Bool.and_eq_true]

theorem voteMask_eq_act_iff (s : State) (p : BitVec 3) (n : BitVec 1) : voteMask s p n = s.act ↔
    ∀ l, laneIn s.act l = true → (s.g.pred p.toNat l != (n = 1#1)) = true := by
  constructor
  · intro h l hl
    rw [← h, laneIn_voteMask, Bool.and_eq_true] at hl
    exact hl.2
  · intro h
    refine mask_ext fun l => ?_
    rw [laneIn_voteMask]
    cases hl : laneIn s.act l
    · rfl
    · rw [h l hl]; rfl

theorem votesPart : VotesPart := by
  intro n p a d s c
  refine ⟨fun h => ?_, fun h => ?_, fun h => ⟨voteMask s p n, laneIn_voteMask s p n, ?_⟩, fun h =>
    ⟨fun l => maskOf fun j => laneIn s.act j && s.g.read (selOf a) j = s.g.read (selOf a) l, fun l j => laneIn_maskOf _ _, ?_⟩⟩
  · dsimp only [exec, execVoteAny, vote]
    simp only [h.laneOp_eq, voteMask_eq_zero_iff, ite_not]
    rfl
  · dsimp only [exec, execVoteAll, vote]
    simp only [h.laneOp_eq, voteMask_eq_act_iff]
    rfl
  · dsimp only [exec, execBallot, vote]
    exact h.laneOp_eq _ _
  · dsimp only [exec, execMatchL]
    exact h.laneOp_eq _ _

/-! ### The tree of R109 -/

/-- Two neighbours combined, an empty one leaving the other as it is. -/
def treeNode {α : Type} (op : α → α → α × BitVec 6) : Option α → Option α → Option α
  | some a, some b => some (op a b).1
  | some a, none => some a
  | none, b => b

/-- Place i of level k of the tree over a list. -/
def treeAt {α : Type} (op : α → α → α × BitVec 6) (l : List (Option α)) : Nat → Nat → Option α
  | 0, i => l[i]?.join
  | k + 1, i => treeNode op (treeAt op l k (2 * i)) (treeAt op l k (2 * i + 1))

section

variable {α : Type} {op : α → α → α × BitVec 6}

/-- The conditions that combining two neighbours raises. -/
def treeFlags {α : Type} (op : α → α → α × BitVec 6) : Option α → Option α → BitVec 6
  | some a, some b => (op a b).2
  | _, _ => 0

theorem treeLevel_cons_cons (x y : Option α) (r : List (Option α)) : treeLevel op (x :: y :: r) =
    (treeNode op x y :: (treeLevel op r).1, treeFlags op x y ||| (treeLevel op r).2) := by
  cases x <;> cases y <;> simp [treeLevel, treeNode, treeFlags]

theorem treeFlags_getLsbD (x y : Option α) (c : Nat) : (treeFlags op x y).getLsbD c = true ↔
    ∃ a b, x = some a ∧ y = some b ∧ (op a b).2.getLsbD c = true := by
  cases x <;> cases y <;> simp [treeFlags]

theorem treeNode_none (x : Option α) : treeNode op x none = x := by cases x <;> rfl

theorem treeLevel_get (l : List (Option α)) (i : Nat) :
    (treeLevel op l).1[i]?.join = treeNode op (l[2 * i]?.join) (l[2 * i + 1]?.join) := by
  induction l using List.twoStepInduction generalizing i with
  | nil => rfl
  | singleton x => cases i <;> simp [treeLevel, treeNode_none]
  | cons_cons x y r ih =>
    rw [treeLevel_cons_cons]
    cases i with
    | zero => rfl
    | succ i => simpa [show 2 * (i + 1) = 2 * i + 2 by ring] using ih i

theorem treeLevel_length (l : List (Option α)) : (treeLevel op l).1.length = (l.length + 1) / 2 := by
  induction l using List.twoStepInduction with
  | nil => simp [treeLevel]
  | singleton x => simp [treeLevel]
  | cons_cons x y r ih =>
    rw [treeLevel_cons_cons, List.length_cons, ih, List.length_cons, List.length_cons]
    omega

/-- A level raises the conditions of its combinations. -/
theorem treeLevel_flags (l : List (Option α)) (c : Nat) : (treeLevel op l).2.getLsbD c = true ↔
    ∃ i a b, l[2 * i]?.join = some a ∧ l[2 * i + 1]?.join = some b ∧ (op a b).2.getLsbD c = true := by
  induction l using List.twoStepInduction with
  | nil => simp [treeLevel]
  | singleton x => simp [treeLevel]
  | cons_cons x y r ih =>
    rw [treeLevel_cons_cons, BitVec.getLsbD_or, Bool.or_eq_true, treeFlags_getLsbD, ih]
    constructor
    · rintro (⟨a, b, rfl, rfl, h⟩ | ⟨i, a, b, h⟩)
      · exact ⟨0, a, b, rfl, rfl, h⟩
      · exact ⟨i + 1, a, b, h⟩
    · rintro ⟨i, a, b, ha, hb, h⟩
      cases i with
      | zero => exact .inl ⟨a, b, ha, hb, h⟩
      | succ i => exact .inr ⟨i, a, b, ha, hb, h⟩

theorem treeAt_level (l : List (Option α)) (k i : Nat) : treeAt op (treeLevel op l).1 k i = treeAt op l (k + 1) i := by
  induction k generalizing i with
  | zero => exact treeLevel_get l i
  | succ k ih => rw [treeAt, ih, ih]; rfl

theorem treeFold_value (n : Nat) (l : List (Option α)) : (treeFold op n l).1 = treeAt op l n 0 := by
  induction n generalizing l with
  | zero => cases l <;> rfl
  | succ n ih => rw [treeFold, ih, treeAt_level]

/-- The whole tree raises the conditions of every combination of every level. -/
theorem treeFold_flags (n : Nat) (l : List (Option α)) (c : Nat) : (treeFold op n l).2.getLsbD c = true ↔
    ∃ k i a b, k < n ∧ treeAt op l k (2 * i) = some a ∧ treeAt op l k (2 * i + 1) = some b ∧ (op a b).2.getLsbD c = true := by
  induction n generalizing l with
  | zero => simp [treeFold]
  | succ n ih =>
    rw [treeFold, BitVec.getLsbD_or, Bool.or_eq_true, treeLevel_flags, ih]
    simp only [treeAt_level]
    constructor
    · rintro (⟨i, a, b, h⟩ | ⟨k, i, a, b, hk, h⟩)
      · exact ⟨0, i, a, b, n.succ_pos, h⟩
      · exact ⟨k + 1, i, a, b, Nat.succ_lt_succ hk, h⟩
    · rintro ⟨k, i, a, b, hk, h⟩
      cases k with
      | zero => exact .inl ⟨i, a, b, h⟩
      | succ k => exact .inr ⟨k, i, a, b, Nat.lt_of_succ_lt_succ hk, h⟩

/-- A place of level k stands over 2^k places of the list. -/
theorem treeAt_bound {l : List (Option α)} {k i : Nat} {a : α} (h : treeAt op l k i = some a) : i * 2 ^ k < l.length := by
  induction k generalizing i a with
  | zero =>
    have : i < l.length := by
      by_contra hn
      rw [treeAt, List.getElem?_eq_none (by omega)] at h
      exact absurd h nofun
    omega
  | succ k ih =>
    have hpow : i * 2 ^ (k + 1) = 2 * i * 2 ^ k := by ring
    rw [treeAt] at h
    cases hx : treeAt op l k (2 * i) with
    | some x => exact hpow ▸ ih hx
    | none =>
      cases hy : treeAt op l k (2 * i + 1) with
      | none => rw [hx, hy] at h; exact absurd h nofun
      | some y =>
        have := ih hy
        rw [hpow]
        exact lt_of_le_of_lt (Nat.mul_le_mul_right _ (Nat.le_succ _)) this

/-- A quantity that every combination adds is that of the whole list. -/
theorem treeFold_sum {β : Type} [AddCommMonoid β] {f : α → β} (hop : ∀ a b, f (op a b).1 = f a + f b) {n : Nat}
    {l : List (Option α)} (hl : l.length ≤ 2 ^ n) : (treeFold op n l).1.elim 0 f = (l.map fun x => x.elim 0 f).sum := by
  have hnode : ∀ x y, (treeNode op x y).elim 0 f = x.elim 0 f + y.elim 0 f := by
    intro x y
    cases x <;> cases y <;> simp [treeNode, hop]
  have hlevel : ∀ l : List (Option α), ((treeLevel op l).1.map fun x => x.elim 0 f).sum = (l.map fun x => x.elim 0 f).sum := by
    intro l
    induction l using List.twoStepInduction with
    | nil => simp [treeLevel]
    | singleton x => simp [treeLevel]
    | cons_cons x y r ih => simp only [treeLevel_cons_cons, List.map_cons, List.sum_cons, hnode, ih, add_assoc]
  induction n generalizing l with
  | zero =>
    match l, hl with
    | [], _ => rfl
    | [x], _ => simp [treeFold]
  | succ n ih =>
    rw [treeFold, ih (by rw [treeLevel_length]; omega), hlevel]

/-- Where every combination is one of its operands and stands before both, so is the result among all. -/
theorem treeFold_least {R : α → α → Prop} (hr : ∀ a, R a a) (ht : ∀ a b c, R a b → R b c → R a c)
    (hop : ∀ a b, ((op a b).1 = a ∨ (op a b).1 = b) ∧ R (op a b).1 a ∧ R (op a b).1 b) {n : Nat} {l : List (Option α)}
    (hl : l.length ≤ 2 ^ n) : (∀ z, (treeFold op n l).1 = some z → some z ∈ l) ∧
      ∀ x, some x ∈ l → ∃ z, (treeFold op n l).1 = some z ∧ R z x := by
  have hnode : ∀ x y, (∀ z, treeNode op x y = some z → some z = x ∨ some z = y) ∧
      ∀ w, some w = x ∨ some w = y → ∃ z, treeNode op x y = some z ∧ R z w := by
    intro x y
    match x, y with
    | some a, some b =>
      obtain ⟨hsel, ha, hb⟩ := hop a b
      refine ⟨?_, ?_⟩
      · rintro z ⟨⟩
        exact hsel.imp (congrArg some) (congrArg some)
      · rintro w (⟨⟨⟩⟩ | ⟨⟨⟩⟩)
        · exact ⟨_, rfl, ha⟩
        · exact ⟨_, rfl, hb⟩
    | some a, none => simp [treeNode, hr, eq_comm]
    | none, y => exact ⟨fun z hz => .inr hz.symm, fun w hw => ⟨w, (hw.resolve_left nofun).symm, hr w⟩⟩
  have hlevel : ∀ l : List (Option α), (∀ z, some z ∈ (treeLevel op l).1 → some z ∈ l) ∧
      ∀ x, some x ∈ l → ∃ z, some z ∈ (treeLevel op l).1 ∧ R z x := by
    intro l
    induction l using List.twoStepInduction with
    | nil => simp [treeLevel]
    | singleton x => exact ⟨fun z hz => by simpa [treeLevel] using hz, fun z hz => ⟨z, by simpa [treeLevel] using hz, hr z⟩⟩
    | cons_cons x y r ih =>
      obtain ⟨hfrom, hto⟩ := ih
      obtain ⟨hin, hbelow⟩ := hnode x y
      rw [treeLevel_cons_cons]
      simp only [List.mem_cons]
      refine ⟨fun z hz => ?_, fun w hw => ?_⟩
      · rcases hz with hz | hz
        · rcases hin z hz.symm with h | h
          · exact .inl h
          · exact .inr (.inl h)
        · exact .inr (.inr (hfrom z hz))
      · rcases or_assoc.2 hw with hw | hw
        · obtain ⟨z, hz, hzw⟩ := hbelow w hw
          exact ⟨z, .inl hz.symm, hzw⟩
        · obtain ⟨z, hz, hzw⟩ := hto w hw
          exact ⟨z, .inr hz, hzw⟩
  induction n generalizing l with
  | zero =>
    match l, hl with
    | [], _ => simp [treeFold]
    | [x], _ => cases x <;> simp [treeFold, hr]
  | succ n ih =>
    obtain ⟨hfrom, hto⟩ := hlevel l
    obtain ⟨hin, hbelow⟩ := ih (l := (treeLevel op l).1) (by rw [treeLevel_length]; omega)
    refine ⟨fun z hz => hfrom z (hin z hz), fun x hx => ?_⟩
    obtain ⟨y, hy, hyx⟩ := hto x hx
    obtain ⟨z, hz, hzy⟩ := hbelow y hy
    exact ⟨z, hz, ht z y x hzy hyx⟩

end

/-! ### Reductions (R104, R169) -/

section

variable {α : Type} {op : α → α → α × BitVec 6} {m : Mask} {x : Lane → α}

/-- The list of lanes' values that R109's tree stands over. -/
def laneValues (m : Mask) (x : Lane → α) : List (Option α) := lanes.map fun l => if laneIn m l then some (x l) else none

theorem laneValues_length (m : Mask) (x : Lane → α) : (laneValues m x).length = 2 ^ 5 := by simp [laneValues, lanes]

theorem mem_laneValues {z : α} : some z ∈ laneValues m x ↔ ∃ l, laneIn m l = true ∧ x l = z := by
  simp [laneValues, lanes]

/-- Operations that raise nothing make a reduction that raises nothing. -/
theorem reduceLanes_no_flag (h : ∀ a b, (op a b).2 = 0) : (reduceLanes op m x).2 = 0 := by
  refine BitVec.eq_of_getLsbD_eq fun c _ => Eq.trans (Bool.eq_false_iff.2 fun hc => ?_) BitVec.getLsbD_zero.symm
  obtain ⟨k, i, a, b, -, -, -, hab⟩ := (treeFold_flags 5 _ c).1 hc
  rw [h a b] at hab
  exact Bool.false_ne_true (BitVec.getLsbD_zero.symm.trans hab)

theorem reduceLanes_sum {β : Type} [AddCommMonoid β] {f : α → β} (hop : ∀ a b, f (op a b).1 = f a + f b) :
    (reduceLanes op m x).1.elim 0 f = ((lanesOf m).map fun l => f (x l)).sum := by
  refine (treeFold_sum hop (laneValues_length m x).le).trans ?_
  rw [laneValues, List.map_map, lanesOf]
  induction lanes with
  | nil => rfl
  | cons l r ih => cases hl : laneIn m l <;> simp [hl, ih]

/-- Where every combination is one of its operands and stands before both: the result is an active lane's value, and stands
before every active lane's. -/
theorem reduceLanes_least {R : α → α → Prop} (hr : ∀ a, R a a) (ht : ∀ a b c, R a b → R b c → R a c)
    (hop : ∀ a b, ((op a b).1 = a ∨ (op a b).1 = b) ∧ R (op a b).1 a ∧ R (op a b).1 b) (hm : m ≠ 0) :
    ∃ z, (reduceLanes op m x).1 = some z ∧ (∃ l, laneIn m l = true ∧ x l = z) ∧ ∀ l, laneIn m l = true → R z (x l) := by
  obtain ⟨hin, hbelow⟩ := treeFold_least hr ht hop (laneValues_length m x).le
  obtain ⟨j, hj⟩ := (mask_ne_zero_iff m).1 hm
  obtain ⟨z, hz, -⟩ := hbelow (x j) (mem_laneValues.2 ⟨j, hj, rfl⟩)
  refine ⟨z, hz, mem_laneValues.1 (hin z hz), fun l hl => ?_⟩
  obtain ⟨y, hy, hyl⟩ := hbelow (x l) (mem_laneValues.2 ⟨l, hl, rfl⟩)
  obtain rfl : z = y := Option.some.inj (hz.symm.trans hy)
  exact hyl

end

theorem reductionTreePart : ReductionTreePart := by
  refine ⟨fun α op m x => ⟨treeAt op (laneValues m x), fun l => ?_, fun k i _ _ => ?_, treeFold_value 5 _, fun c => ?_⟩,
    fun F x f => ⟨fun z hz => ?_, fun hn => ?_⟩⟩
  · simp [treeAt, laneValues, lanes]
  · rfl
  · refine (treeFold_flags 5 (laneValues m x) c).trans ⟨?_, ?_⟩
    · rintro ⟨k, i, a, b, hk, ha, hb, hc⟩
      have hlen := treeAt_bound hb
      rw [laneValues_length, show 5 = 1 + (4 - k) + k by omega, Nat.pow_add, Nat.mul_lt_mul_right (Nat.two_pow_pos k), Nat.pow_add]
        at hlen
      exact ⟨k, i, a, b, hk, by omega, ha, hb, hc⟩
    · rintro ⟨k, i, a, b, hk, -, h⟩
      exact ⟨k, i, a, b, hk, h⟩
  · cases z <;> simp [finishReduce, hz, FVal.isNan, FVal.sig]
  · have hnan : (decodeF F x).isNan = false := by
      cases hd : decodeF F x with
      | nan z => exact absurd hd (hn z)
      | _ => rfl
    simp only [finishReduce, hnan, Bool.false_eq_true, if_false]

/-- Lanes that raise nothing leave no flag raised. -/
theorem State.raised_zero (s : State) : (s.raised fun _ => 0) = 0 := by
  simp [State.raised]

/-- An integer reduction without conditions gives every active lane the one value, and raises nothing. -/
theorem State.issues.reduce32_eq {s : State} {i : Instr} (h : s.issues i) (a : BitVec 8) (d : BitVec 7)
    {op : Nat → Nat → Nat × BitVec 6} (hop : ∀ x y, (op x y).2 = 0) :
    reduce32 i s a d (fun _ => op) false = .next (s.laneResult i d.toNat fun _ =>
      (BitVec.ofNat 32 ((reduceLanes op s.act fun l => (s.srcOf a l).toNat).1.getD 0), 0)) := by
  have hflag : (reduceLanes op s.act fun l => (s.srcOf a l).toNat).2 = 0 := reduceLanes_no_flag hop
  unfold State.srcOf at hflag
  simp only [reduce32, h.complete_eq, Bool.false_eq_true, if_false, hflag, ite_self, State.laneResult, State.raised_zero]
  rfl

/-- The sum modulo 2^32 of the active lanes' words. -/
theorem reduceLanes_add (m : Mask) (x : Lane → Word) :
    BitVec.ofNat 32 ((reduceLanes (fun a b => ((a + b) % 2 ^ 32, (0 : BitVec 6))) m fun l => (x l).toNat).1.getD 0) =
      ((lanesOf m).map x).sum := by
  have hsum := reduceLanes_sum (op := fun a b : Nat => ((a + b) % 2 ^ 32, (0 : BitVec 6))) (f := BitVec.ofNat 32) (m := m)
    (x := fun l => (x l).toNat) fun a b => by
      apply BitVec.eq_of_toNat_eq
      simp
  simp only [BitVec.ofNat_toNat, BitVec.setWidth_eq] at hsum
  rw [← hsum]
  cases (reduceLanes _ m _).1 <;> rfl

/-- A reduction whose every combination is the one of two words that stands first in a signed order gives an active lane's
word that stands before every active lane's. -/
theorem State.issues.reduce32_extreme {s : State} {i : Instr} (h : s.issues i) (a : BitVec 8) (d : BitVec 7)
    {op : Nat → Nat → Nat × BitVec 6} (hflag : ∀ x y, (op x y).2 = 0) {R : Int → Int → Prop} (hr : ∀ a, R a a)
    (ht : ∀ a b c, R a b → R b c → R a c)
    (hop : ∀ a b, ((op a b).1 = a ∨ (op a b).1 = b) ∧ R (toSigned 32 (op a b).1) (toSigned 32 a) ∧
      R (toSigned 32 (op a b).1) (toSigned 32 b)) :
    ∃ m : Word, reduce32 i s a d (fun _ => op) false = .next (s.laneResult i d.toNat fun _ => (m, 0)) ∧
      (s.act ≠ 0 → (∃ l, laneIn s.act l = true ∧ m = s.srcOf a l) ∧
        ∀ l, laneIn s.act l = true → R m.toInt (s.srcOf a l).toInt) := by
  refine ⟨_, h.reduce32_eq a d hflag, fun hm => ?_⟩
  obtain ⟨z, hz, ⟨j, hj, hjz⟩, hall⟩ := reduceLanes_least (R := fun a b => R (toSigned 32 a) (toSigned 32 b))
    (x := fun l => (s.srcOf a l).toNat) (fun a => hr _) (fun a b c => ht _ _ _) hop hm
  have hw : BitVec.ofNat 32 ((reduceLanes op s.act fun l => (s.srcOf a l).toNat).1.getD 0) = s.srcOf a j := by
    rw [hz, ← hjz, Option.getD_some, BitVec.ofNat_toNat, BitVec.setWidth_eq]
  rw [hw]
  refine ⟨⟨j, hj, rfl⟩, fun l hl => ?_⟩
  have := hall l hl
  rwa [← hjz, toSigned_toNat, toSigned_toNat] at this

theorem reductionsPart : ReductionsPart := by
  intro a d s A tree one
  refine ⟨fun h => ?_, fun h => ?_, fun h => ?_, fun h => ⟨_, rfl, ?_⟩, fun h => ?_, fun h => ?_, fun h => ?_⟩
  · dsimp only [exec, execRdaddF32, reduce32]
    exact h.complete_eq _
  · dsimp only [exec, execRdminF32, reduce32]
    exact h.complete_eq _
  · dsimp only [exec, execRdmaxF32, reduce32]
    exact h.complete_eq _
  · dsimp only [exec, execRdaddF64]
    exact h.complete_eq _
  · dsimp only [exec, execRdaddI32]
    rw [h.reduce32_eq a d fun _ _ => rfl, reduceLanes_add]
  · dsimp only [exec, execRdminI32]
    refine h.reduce32_extreme a d (fun _ _ => rfl) (fun _ => le_refl _) (fun _ _ _ => le_trans) fun a b => ?_
    dsimp only
    split <;> simp_all [le_of_lt]
  · dsimp only [exec, execRdmaxI32]
    refine h.reduce32_extreme (R := fun a b => b ≤ a) a d (fun _ _ => rfl) (fun _ => le_refl _) (fun _ _ _ h k => le_trans k h)
      fun a b => ?_
    dsimp only
    split <;> simp_all [le_of_lt]

end Sys2Proof.Machine

namespace Sys2Proof

/-- Settles O23: a vote is a mask of lanes, and a reduction is its tree over the list of the lanes' values. -/
theorem votesAndReductions : Obligations.VotesAndReductions :=
  ⟨Machine.votesPart, Machine.reductionsPart, Machine.reductionTreePart⟩

end Sys2Proof
end

section
namespace Sys2Proof.Machine

/-! ### A step runs the instruction at the split's pc (R34, R115, R131, R257) -/

/-- A group whose split stands at the front stays as it is when that split is brought there. -/
theorem Group.focus_self (g : Group) : g.focus g.sp.age = g := if_pos rfl

/-- A live group at the front stays there, with its first split. -/
theorem State.focus_self {s : State} (hlive : s.g.live = true) : s.focus s.g.core s.g.slot s.g.sp.age = s := by
  rw [State.focus, if_pos ⟨hlive, rfl, rfl⟩, Group.focus_self]

/-- A slot whose split stands at the front, may issue, and has no arrival, report or pantry entry fetches. -/
theorem State.slotFor_front {t : State} (hlive : t.g.live = true) (hmay : t.mayRun t.g = true) (hmask : t.g.sp.mask ≠ 0)
    (htrap : t.g.trapMode = true → t.g.sp.trap = true) (hopen : t.g.sp.wait.open_ = true)
    (harr : t.g.arrived t.g.sp.age = t.g) (hmerge : t.mergeAt t.g = t.g)
    (hrep : t.g.trapMode = false → t.g.reportFor t.g.sp = none ∧ t.pantryReport t.g = none) :
    t.slotFor t.g.core t.g.slot t.g.sp.age = t.fetchSlot := by
  have hturn : ¬ (t.g.trapMode = true ∧ t.g.sp.trap = false) := fun ⟨hm, hs⟩ => by simp [htrap hm] at hs
  have hnone : (if t.g.trapMode then none else t.pantryReport t.g) = none := by
    cases hm : t.g.trapMode
    · exact (hrep hm).2
    · rfl
  have hquiet : (!t.g.trapMode && (t.g.reportFor t.g.sp).isSome) = false := by
    cases hm : t.g.trapMode
    · simp [(hrep hm).1]
    · rfl
  simp only [State.slotFor, State.focus_self hlive, harr, hmerge, hmay, hmask, hopen, hturn, hnone, hquiet, ne_eq, not_true_eq_false,
    Bool.true_eq_false, or_false, if_false, Bool.false_eq_true]

/-- The instruction at the pc, where the activity budget does not hold it, acts in the slot. -/
theorem State.fetchSlot_run {t u : State} {i : Instr} (hf : t.fetch t.g t.g.sp = (.instr i, u))
    (hb : u.budgetHolds (u.weightOf i).1 = false) : t.fetchSlot = .run i (u.weightOf i).1 (u.weightOf i).2 u := by
  simp only [State.fetchSlot, hf, hb, Bool.false_eq_true, if_false]

/-- The slot that a core gives a split which no freeze stops is one of that split. -/
theorem State.prepare_front {t : State} (hpick : t.pickCore t.g.core = some (t.g.slot, t.g.sp.age)) (hlive : t.g.live = true)
    (hstop : t.g.stopped = false) :
    t.prepare t.g.core t.g.slot t.g.sp.age = t.slotFor t.g.core t.g.slot t.g.sp.age := by
  simp only [State.prepare, hpick, if_true, State.slotOn, State.focus_self hlive, hstop, Bool.false_eq_true, if_false]

/-- An instruction other than XM acts alone. -/
theorem State.act_of_not_xm {i : Instr} (hi : i.head ≠ .p16 18) (u : State) : u.act_ i = exec i u := by
  unfold State.act_
  cases exec i u <;> simp [hi]

/-- An XM acts with the instruction behind it. -/
theorem State.act_of_xm {i j : Instr} {u v w : State} (hi : i.head = .p16 18) (hx : exec i u = .next v)
    (hxm : v.g.sp.xm ≠ none) (hf : v.fetch v.g v.g.sp = (.instr j, w)) : u.act_ i = exec j w := by
  have hsome : v.g.sp.xm.isNone = false := by simpa [Option.isSome_iff_ne_none] using hxm
  simp only [State.act_, hx, hi, hsome, hf, ne_eq, not_true_eq_false, Bool.false_eq_true, or_self, if_false]

theorem bytesLE_two (n : Nat) : bytesLE 2 n = [BitVec.ofNat 8 n, BitVec.ofNat 8 (n / 256)] := rfl

/-- A parcel's number is that of its two bytes. -/
theorem parcelOf_bytesLE {n : Nat} (h : n < 2 ^ 16) : parcelOf (BitVec.ofNat 8 n) (BitVec.ofNat 8 (n / 256)) = n := by
  simp only [parcelOf, BitVec.toNat_ofNat]
  omega

/-- An even parcel decodes as an instruction of 16 bits. -/
theorem decode16_of_decode {lo : Nat} {i : Instr} (hlo : lo < 2 ^ 16) (heven : lo % 2 = 0)
    (h : decode (bytesLE 2 lo) = .ok (i, [])) : decode16 lo = .ok i := by
  simp only [bytesLE_two, decode, parcelOf_bytesLE hlo, heven, if_true] at h
  cases hd : decode16 lo with
  | error e => simp [hd, Except.map] at h
  | ok j => simpa [hd, Except.map] using h

/-- An odd parcel and the one behind it decode as an instruction of 32 bits. -/
theorem decode32_of_decode {lo hi : Nat} {i : Instr} (hlo : lo < 2 ^ 16) (hhi : hi < 2 ^ 16) (hodd : lo % 2 = 1)
    (h : decode (bytesLE 2 lo ++ bytesLE 2 hi) = .ok (i, [])) : decode32 (lo + 2 ^ 16 * hi) = .ok i := by
  simp only [bytesLE_two, List.cons_append, List.nil_append, decode, parcelOf_bytesLE hlo, parcelOf_bytesLE hhi, hodd,
    Nat.one_ne_zero, if_false] at h
  cases hd : decode32 (lo + 65536 * hi) with
  | error e => simp [hd, Except.map] at h
  | ok j => simpa [hd, Except.map] using h

/-- A fetch of an even parcel finds what its bytes decode to. -/
theorem State.fetch_parcel {s t : State} {k : Kernel} {i : Instr} {lo : Nat} (hk : s.codeOf s.g s.g.sp = some k)
    (hp : s.fetchParcel s.g s.g.sp k s.g.sp.pc = (.inr lo, t)) (hlo : lo < 2 ^ 16) (heven : lo % 2 = 0)
    (hd : decode (bytesLE 2 lo) = .ok (i, [])) : s.fetch s.g s.g.sp = (.instr i, t) := by
  simp only [State.fetch, hk, hp, heven, if_true, decode16_of_decode hlo heven hd]

/-- A fetch of an odd parcel, where no patch lies, finds what its bytes and the next two decode to. -/
theorem State.fetch_word {s t u : State} {k : Kernel} {i : Instr} {lo hi : Nat} (hk : s.codeOf s.g s.g.sp = some k)
    (hp : s.fetchParcel s.g s.g.sp k s.g.sp.pc = (.inr lo, t)) (hlo : lo < 2 ^ 16) (hodd : lo % 2 = 1)
    (hq : t.fetchParcel s.g s.g.sp k (s.g.sp.pc + 2) = (.inr hi, u)) (hhi : hi < 2 ^ 16)
    (hpatch : (k.patches.find? fun p => p.parcel = (s.g.sp.pc.toNat - k.entry.toNat) / 2) = none)
    (hd : decode (bytesLE 2 lo ++ bytesLE 2 hi) = .ok (i, [])) : s.fetch s.g s.g.sp = (.instr i, u) := by
  simp only [State.fetch, hk, hp, hodd, Nat.one_ne_zero, if_false, hq, hpatch, decode32_of_decode hlo hhi hodd hd]

end Sys2Proof.Machine

namespace Sys2Proof
open Machine

/-- Settles O4: the conditions of the slot take it to the fetch, and an XM acts with what is behind it. -/
theorem stepRunsInstruction : Obligations.StepRunsInstruction := by
  unfold Obligations.StepRunsInstruction
  refine ⟨fun s t u i hc hpick hlive hstop hmay hmask htrap hopen harr hmerge hrep hf hb => ?_,
    fun s t u k i lo hi hk hp hlo => ⟨State.fetch_parcel hk hp hlo, State.fetch_word hk hp hlo⟩,
    fun s t i a hc hi => ?_, fun s t hc => ?_⟩
  · have hstep : step s = after (fun v => u.afterIssue v i (u.weightOf i).1 (u.weightOf i).2) (u.act_ i) := by
      simp only [step, hc, State.take, State.prepare_front hpick hlive hstop,
        State.slotFor_front hlive hmay hmask htrap hopen harr hmerge hrep, State.fetchSlot_run hf hb]
    refine ⟨fun hi => ?_, fun j v w hi hx hxm hj => ?_⟩
    · rw [hstep, State.act_of_not_xm hi]
    · rw [hstep, State.act_of_xm hi hx hxm hj]
  · simp only [step, hc, State.take, hi, if_true]
  · simp only [step, hc]

end Sys2Proof
end

section
namespace Sys2Proof.Machine

/-! ### Divergent branches (R28, R29, R171) -/

/-- An offset of parcels from the pc, as an integer (R117). -/
theorem State.target_eq (s : State) (o : BitVec 19) :
    s.target o = BitVec.ofInt 56 (s.g.sp.pc.toNat + 2 * o.toInt) := by
  have hsign : (o.signExtend 56) = BitVec.ofInt 56 o.toInt := rfl
  rw [State.target, hsign, BitVec.ofInt_add, BitVec.ofInt_mul, BitVec.ofInt_natCast, BitVec.mul_comm]
  simp

theorem State.jump_eq (s : State) (a : Addr) : s.jump a = s.movedTo a := rfl

theorem State.finish_eq (s : State) (i : Instr) : s.finish i = s.movedTo (s.g.sp.pc + BitVec.ofNat 56 i.size) := rfl

/-- The lanes that take a branch are the active ones whose condition holds. -/
theorem taken_eq {s : State} {taken : Mask} {p : BitVec 3} {n : BitVec 1}
    (h : ∀ l : Lane, laneIn taken l = (laneIn s.act l && (s.g.pred p.toNat l != (n = 1#1)))) :
    (maskOf fun l => laneIn s.act l && s.g.cond p n l) = taken :=
  mask_ext fun l => (laneIn_maskOf _ l).trans (h l).symm

/-- What a BRC that issues comes to. -/
theorem State.issues.brc_eq {s : State} {o : BitVec 19} {n : BitVec 1} {p : BitVec 3} (h : s.issues (.brc o n p)) {taken : Mask}
    (ht : (maskOf fun l => laneIn s.act l && s.g.cond p n l) = taken) :
    exec (.brc o n p) s =
      if taken = 0 then .next (s.finish (.brc o n p))
      else if taken = s.act then .next (s.jump (s.target o))
      else if s.g.splitCount < 4 ∧ s.g.sp.trap = false then .next (s.modG fun g => g.divide taken (s.target o) (s.g.sp.pc + 4))
      else if 4 ≤ s.g.sp.joins.length then operandTrap (.brc o n p) s
      else .next (s.modG fun g => g.serialise taken (s.target o) (s.g.sp.pc + 4)) := by
  dsimp only [exec, execBrc]
  rw [h.run_eq, ht]

theorem divergencePart : DivergencePart := by
  intro o n p s taken h ht
  have hx := h.brc_eq (taken_eq ht)
  rw [s.target_eq o] at hx
  have hserial : (4 ≤ s.g.splitCount ∨ s.g.sp.trap = true) → ¬ (s.g.splitCount < 4 ∧ s.g.sp.trap = false) :=
    fun hs ⟨h4, htrap⟩ => hs.elim (Nat.not_le.2 h4) fun e => by simp [htrap] at e
  refine ⟨fun h0 => ?_, fun h0 ha => ?_, fun h0 ha h4 htrap => ?_, fun h0 ha hs hj => ?_, fun h0 ha hs hj => ?_⟩
  · rw [hx, if_pos h0, State.finish_eq]
    rfl
  · rw [hx, if_neg h0, if_pos ha, State.jump_eq]
  · rw [hx, if_neg h0, if_neg ha, if_pos ⟨h4, htrap⟩]
    exact ⟨_, rfl, by simp [Group.divide, State.movedTo, Split.finish], by simp [Group.divide, State.movedTo, Split.finish], rfl⟩
  · rw [hx, if_neg h0, if_neg ha, if_neg (hserial hs), if_neg (Nat.not_le.2 hj)]
    refine ⟨_, rfl, ?_, rfl⟩
    cases hjs : s.g.sp.joins <;> simp [Group.serialise, State.movedTo, Split.finish, hjs]
  · rw [hx, if_neg h0, if_neg ha, if_neg (hserial hs), if_pos hj, operandTrap]

/-! ### Where splits meet again (R31, R73, R172) -/

theorem oldest_cons (d y : Split) (l : List Split) :
    oldest d (y :: l) = oldest (if y.age < d.age then y else d) l := rfl

/-- The oldest is one of those it is taken from. -/
theorem oldest_mem (d : Split) (l : List Split) : oldest d l ∈ d :: l := by
  induction l generalizing d with
  | nil => exact List.mem_singleton_self d
  | cons y r ih =>
    rw [oldest_cons]
    rcases List.mem_cons.1 (ih (if y.age < d.age then y else d)) with h | h
    · rw [h]
      split <;> simp
    · simp [h]

/-- No split is older than the oldest. -/
theorem oldest_le (d : Split) (l : List Split) : ∀ x ∈ d :: l, (oldest d l).age ≤ x.age := by
  induction l generalizing d with
  | nil => simp [oldest]
  | cons y r ih =>
    have hpick : (if y.age < d.age then y else d).age ≤ d.age ∧ (if y.age < d.age then y else d).age ≤ y.age := by
      split <;> omega
    have hle := ih (if y.age < d.age then y else d)
    have hfirst := hle _ List.mem_cons_self
    rw [oldest_cons, List.forall_mem_cons, List.forall_mem_cons]
    exact ⟨hfirst.trans hpick.1, hfirst.trans hpick.2, fun x hx => hle x (List.mem_cons_of_mem _ hx)⟩

/-- A merged split holds the lanes that any of its parts holds. -/
theorem laneIn_unionMask (l : List Split) (k : Lane) : laneIn (unionMask l) k = l.any fun x => laneIn x.mask k := by
  have hfold : ∀ m : Mask, laneIn (l.foldl (fun m x => m ||| x.mask) m) k = (laneIn m k || l.any fun x => laneIn x.mask k) := by
    induction l with
    | nil => simp
    | cons x r ih =>
      intro m
      rw [List.foldl_cons, ih, laneIn_or, List.any_cons, Bool.or_assoc]
  rw [unionMask, hfold, laneIn_zero, Bool.false_or]

theorem mem_unionAnc (l : List Split) (a : Nat) : a ∈ unionAnc l ↔ ∃ x ∈ l, a ∈ x.anc := by
  simp [unionAnc, List.mem_eraseDups]

/-- The splits that a JOIN of the group's first split concerns. -/
def Group.joiners (g : Group) : List Split := g.splits.filter fun x => x.mask != 0 && joiner g.sp.pc g.sp.calls x

theorem Group.mem_joiners {g : Group} {x : Split} :
    x ∈ g.joiners ↔ x ∈ g.splits ∧ x.mask ≠ 0 ∧ joiner g.sp.pc g.sp.calls x = true := by
  simp [Group.joiners]

/-- What a JOIN that issues comes to. -/
theorem State.issues.join_eq {s : State} (h : s.issues .join) : exec .join s =
    if joiner s.g.sp.pc s.g.sp.calls s.g.sp = false then .next (s.finish .join)
    else if s.g.joiners.all (standsAt s.g.sp.pc) = true then .next (s.modG fun g => g.joinAt s.g.sp.pc (s.g.sp.pc + 2))
    else waits s := by
  dsimp only [exec, execJoin]
  rw [h.run_eq]
  simp only [Bool.not_eq_true']
  rfl

/-- The splits of a JOIN become one with the lanes of all of them. -/
theorem Group.laneIn_joinAt (g : Group) (a : Addr) (l : Lane) : laneIn (g.joinAt g.sp.pc a).sp.mask l =
    g.splits.any fun x => joiner g.sp.pc g.sp.calls x && laneIn x.mask l := by
  change laneIn (unionMask g.joiners) l = _
  rw [laneIn_unionMask, Bool.eq_iff_iff, List.any_eq_true, List.any_eq_true]
  simp only [Group.mem_joiners, Bool.and_eq_true]
  constructor
  · rintro ⟨x, ⟨hmem, -, hx⟩, hl⟩
    exact ⟨x, hmem, hx, hl⟩
  · rintro ⟨x, hmem, hx, hl⟩
    exact ⟨x, ⟨hmem, (mask_ne_zero_iff _).2 ⟨l, hl⟩, hx⟩, hl⟩

/-- The one whose age and stacks the merged split takes is a split that the JOIN concerns. -/
theorem Group.oldest_joiners {g : Group} (h : joiner g.sp.pc g.sp.calls g.sp = true) :
    oldest g.sp g.joiners ∈ g.splits ∧ joiner g.sp.pc g.sp.calls (oldest g.sp g.joiners) = true := by
  rcases List.mem_cons.1 (oldest_mem g.sp g.joiners) with ho | ho
  · rw [ho]
    exact ⟨List.mem_cons_self, h⟩
  · obtain ⟨hmem, -, hx⟩ := Group.mem_joiners.1 ho
    exact ⟨hmem, hx⟩

theorem Group.mem_joinAt_anc (g : Group) (a : Addr) (n : Nat) : n ∈ (g.joinAt g.sp.pc a).sp.anc ↔
    ∃ x ∈ g.splits, x.mask ≠ 0 ∧ joiner g.sp.pc g.sp.calls x = true ∧ n ∈ x.anc := by
  change n ∈ unionAnc g.joiners ↔ _
  simp only [mem_unionAnc, Group.mem_joiners, and_assoc]

/-! ### Lanes that leave (R33, R175) -/

/-- A split as EXIT leaves it before its deferrals are looked at: the other lanes, behind the instruction. -/
def Split.exitLeft (sp : Split) (m : Mask) (next : Addr) : Split :=
  { sp with mask := sp.mask &&& ~~~m, pc := next, wait := .none, xm := none, reissue := none }

theorem Split.settle_of_mask {sp : Split} (h : sp.mask ≠ 0) (ex : Mask) (n : Nat) : sp.settle ex n = sp := by
  cases n
  · rfl
  · rw [Split.settle, if_pos h]

theorem Split.settle_of_joins {sp : Split} (h : sp.joins = []) (ex : Mask) (n : Nat) : sp.settle ex n = sp := by
  cases n <;> simp [Split.settle, h]

/-- A split without lanes goes on with those that its top entry defers. -/
theorem Split.settle_deferred {sp : Split} {e : JoinEntry} {r : List JoinEntry} (h0 : sp.mask = 0) (hj : sp.joins = e :: r)
    (hd : e.deferred = true) (ex : Mask) (n : Nat) : sp.settle ex (n + 1) =
      ({ sp with mask := e.pending &&& ~~~ex, pc := e.resume
                 joins := { e with deferred := false, pending := 0 } :: r } : Split).settle ex n := by
  simp [Split.settle, h0, hj, hd]

/-- A split without lanes and deferral goes on with those that wait at its join PC. -/
theorem Split.settle_whole {sp : Split} {e : JoinEntry} {r : List JoinEntry} {j : Addr} (h0 : sp.mask = 0) (hj : sp.joins = e :: r)
    (hd : e.deferred = false) (hpc : e.join = some j) (ex : Mask) (n : Nat) : sp.settle ex (n + 1) =
      ({ sp with mask := e.whole &&& ~~~ex, pc := j, joins := r } : Split).settle ex n := by
  simp [Split.settle, h0, hj, hd, hpc]

theorem Group.dissolve_of_mask {g : Group} (h : g.sp.mask ≠ 0) : g.dissolve = g := if_pos h

theorem Group.dissolve_of_empty {g : Group} {x : Split} {r : List Split} (h : g.sp.mask = 0) (hr : g.rest = x :: r) :
    g.dissolve = { g with sp := x, rest := r } := by
  rw [Group.dissolve, if_neg (not_not_intro h), hr]

/-- Dissolving leaves a group's registers and its exited lanes as they are. -/
theorem Group.dissolve_frame (g : Group) : g.dissolve = { g with sp := g.dissolve.sp, rest := g.dissolve.rest } := by
  unfold Group.dissolve
  split
  · rfl
  · split <;> rfl

/-- A group as EXIT leaves it while its first split still holds lanes. -/
def Group.exitKept (g : Group) (m : Mask) (sp : Split) : Group := { g with exited := g.exited ||| m, sp := sp }

theorem Group.exitLanes_eq (g : Group) (m : Mask) (next : Addr) :
    g.exitLanes m next = (g.exitKept m ((g.sp.exitLeft m next).settle (g.exited ||| m) 9)).dissolve := rfl

/-- EXIT takes its lanes out for good, and leaves the registers. -/
theorem Group.exitLanes_frame (g : Group) (m : Mask) (next : Addr) : g.exitLanes m next =
    { g with exited := g.exited ||| m, sp := (g.exitLanes m next).sp, rest := (g.exitLanes m next).rest } := by
  rw [Group.exitLanes_eq]
  exact Group.dissolve_frame _

/-- A split that still holds lanes once its deferrals are looked at goes on. -/
theorem Group.exitLanes_of_settle {g : Group} {m : Mask} {next : Addr} {sp : Split}
    (h : (g.sp.exitLeft m next).settle (g.exited ||| m) 9 = sp) (hm : sp.mask ≠ 0) : g.exitLanes m next = g.exitKept m sp := by
  rw [Group.exitLanes_eq, h]
  exact Group.dissolve_of_mask hm

/-- Where no lane is left and nothing is deferred, the next split of the group comes to the front. -/
theorem Group.exitLanes_dissolve {g : Group} {m : Mask} {next : Addr} {x : Split} {r : List Split} (h0 : g.sp.mask &&& ~~~m = 0)
    (hj : g.sp.joins = []) (hr : g.rest = x :: r) : (g.exitLanes m next).sp = x ∧ (g.exitLanes m next).rest = r := by
  rw [Group.exitLanes_eq, Split.settle_of_joins (sp := g.sp.exitLeft m next) hj,
    Group.dissolve_of_empty (g := g.exitKept m (g.sp.exitLeft m next)) h0 hr]
  exact ⟨rfl, rfl⟩

section
variable {sp : Split} {m ex : Mask} {next : Addr} {e : JoinEntry} {r : List JoinEntry}

/-- Where no lane is left, those that the top entry defers go on. -/
theorem Split.exitLeft_deferred (h0 : sp.mask &&& ~~~m = 0) (hj : sp.joins = e :: r) (hd : e.deferred = true)
    (hl : e.pending &&& ~~~ex ≠ 0) : (sp.exitLeft m next).settle ex 9 =
      { sp with mask := e.pending &&& ~~~ex, pc := e.resume, joins := { e with deferred := false, pending := 0 } :: r
                wait := .none, xm := none, reissue := none } := by
  rw [Split.settle_deferred (sp := sp.exitLeft m next) h0 hj hd, Split.settle_of_mask (by exact hl)]
  rfl

/-- Where the deferred lanes have left too, those that wait at the join PC go on there. -/
theorem Split.exitLeft_whole {j : Addr} (h0 : sp.mask &&& ~~~m = 0) (hj : sp.joins = e :: r) (hpc : e.join = some j)
    (hl : e.deferred = false ∨ e.pending &&& ~~~ex = 0) (hw : e.whole &&& ~~~ex ≠ 0) : (sp.exitLeft m next).settle ex 9 =
      { sp with mask := e.whole &&& ~~~ex, pc := j, joins := r, wait := .none, xm := none, reissue := none } := by
  cases hd : e.deferred
  case false =>
    rw [Split.settle_whole (sp := sp.exitLeft m next) h0 hj hd hpc, Split.settle_of_mask (by exact hw)]
    rfl
  case true =>
    have hl : e.pending &&& ~~~ex = 0 := hl.resolve_left (by simp [hd])
    rw [Split.settle_deferred (sp := sp.exitLeft m next) h0 hj hd,
      Split.settle_whole (e := { e with deferred := false, pending := 0 }) hl rfl rfl hpc, Split.settle_of_mask (by exact hw)]
    rfl

end

/-- What an EXIT that issues comes to. -/
theorem State.issues.exit_eq {s : State} (h : s.issues .exit) : exec .exit s =
    if s.g.sp.trap = true then operandTrap .exit s
    else .next (s.modG fun g => g.exitLanes s.act (g.sp.pc + 2)) := by
  dsimp only [exec, execExit]
  rw [h.run_eq]

theorem reconvergencePart : ReconvergencePart := by
  refine ⟨fun s h => ⟨fun hm => ?_, fun x hmem hm hmask hmx hst => ?_, fun hm hall => ?_⟩, fun s h => ⟨fun htrap => ?_, fun htrap => ?_⟩⟩
  · rw [h.join_eq, if_pos hm, State.finish_eq]
    rfl
  · have hsome : ¬ s.g.joiners.all (standsAt s.g.sp.pc) = true := fun ha => by
      simp [List.all_eq_true.1 ha x (Group.mem_joiners.2 ⟨hmem, hmask, hmx⟩)] at hst
    rw [h.join_eq, if_neg (by simp [hm]), if_neg hsome]
    rfl
  · have hev : s.g.joiners.all (standsAt s.g.sp.pc) = true := List.all_eq_true.2 fun x hx =>
      have ⟨hmem, hmask, hmx⟩ := Group.mem_joiners.1 hx
      hall x hmem hmask hmx
    obtain ⟨homem, hoj⟩ := Group.oldest_joiners hm
    rw [h.join_eq, if_neg (by simp [hm]), if_pos hev]
    refine ⟨_, rfl, rfl, rfl, Group.laneIn_joinAt s.g _, ⟨oldest s.g.sp s.g.joiners, homem, hoj, fun x hmem hmask hmx => ?_, rfl⟩,
      Group.mem_joinAt_anc s.g _, rfl, rfl⟩
    exact oldest_le _ _ x (List.mem_cons_of_mem _ (Group.mem_joiners.2 ⟨hmem, hmask, hmx⟩))
  · rw [h.exit_eq, if_pos htrap, operandTrap]
  · rw [h.exit_eq, if_neg (by simp [htrap])]
    have hframe := s.g.exitLanes_frame s.act (s.g.sp.pc + 2)
    have hex : (s.g.exitLanes s.act (s.g.sp.pc + 2)).exited = s.g.exited ||| s.act := congrArg Group.exited hframe
    have hv : (s.g.exitLanes s.act (s.g.sp.pc + 2)).v = s.g.v := by rw [hframe]
    have hs : (s.g.exitLanes s.act (s.g.sp.pc + 2)).s = s.g.s := by rw [hframe]
    refine ⟨_, rfl, hex, fun hleft => ?_, fun h0 hj x r hr => Group.exitLanes_dissolve h0 hj hr, fun h0 e r hj => ?_,
      hv, hs, fun _ => rfl, fun _ => rfl, fun _ _ => rfl, rfl⟩
    · rw [State.modG_g, Group.exitLanes_of_settle (Split.settle_of_mask (by exact hleft) _ _) (by exact hleft)]
      exact ⟨rfl, rfl, rfl⟩
    · simp only [State.modG_g, hex]
      refine ⟨fun hd hl => ?_, fun hl hw j hpc => ?_⟩
      · rw [Group.exitLanes_of_settle (Split.exitLeft_deferred h0 hj hd hl) (by exact hl)]
        exact ⟨rfl, rfl⟩
      · rw [Group.exitLanes_of_settle (Split.exitLeft_whole h0 hj hpc hl hw) (by exact hw)]
        exact ⟨rfl, rfl⟩

end Sys2Proof.Machine

namespace Sys2Proof
open Machine

/-- Settles O27: a branch by its three outcomes, a JOIN by the splits that it concerns, and an EXIT by what its split still defers. -/
theorem divergenceAndReconvergence : Obligations.DivergenceAndReconvergence := ⟨divergencePart, reconvergencePart⟩

end Sys2Proof
end

section
namespace Sys2Proof.Machine

/-! ### Reading behind the writes of a destination (R49, R51) -/

/-- A write of a register leaves the others. -/
theorem Group.read_writeReg_other (g : Group) {d sel : Nat} (m : Mask) (f : Lane → Word) (h : sel ≠ d) (l : Lane) :
    (g.writeReg d m f).read sel l = g.read sel l := by
  unfold Group.writeReg
  split
  · simp only [Group.read, vget_vset, h, false_and, if_false]
  · split
    · cases lowest m
      · rfl
      · dsimp only
        split <;> simp only [Group.read, vget_vset] <;> grind
    · split
      · simp only [Group.read, vget_vset]
        grind
      · rfl

/-- What a register reads behind a write of it. -/
theorem Group.read_writeReg_same (g : Group) {d : Nat} (m : Mask) (f : Lane → Word) (h : d < 120) (l : Lane) :
    (g.writeReg d m f).read d l =
      if 96 ≤ d ∧ d < 112 then (lowest m).elim (g.read d l) f
      else if laneIn m l = true then f l else g.read d l := by
  unfold Group.writeReg
  split
  · rw [if_neg (by omega)]
    simp only [Group.read, vget_vset, *, true_and, if_true, Row.update_get]
  · split
    · rw [if_pos (by omega)]
      cases lowest m
      · rfl
      · dsimp only
        split <;> simp only [Group.read, vget_vset] <;> grind
    · rw [if_neg (by omega)]
      have : d - 112 < 8 := by omega
      simp only [Group.read, vget_vset, *, and_self, if_true, if_false, Row.update_get]

/-- The words of a destination are received one after another. -/
theorem received_writeWords (g : Group) (d n : Nat) (m : Mask) (f : Nat → Lane → Word) :
    Received g ((List.range n).foldl (fun h k => h.writeWord d k m (f k)) g) d n m f := by
  induction n with
  | zero =>
    intro sel l _
    rw [if_neg (by omega)]
    rfl
  | succ n ih =>
    intro sel l hsel
    rw [List.range_succ, List.foldl_append, List.foldl_cons, List.foldl_nil, Group.writeWord]
    have hb := ih sel l hsel
    split
    · rw [hb, if_neg (by omega), if_neg (by omega)]
    · by_cases hk : sel = d + n
      · subst hk
        rw [if_neg (by omega)] at hb
        by_cases h120 : d + n < 120
        · have hin : d ≤ d + n ∧ d + n < d + (n + 1) ∧ d + n < 120 := by omega
          rw [Group.read_writeReg_same _ _ _ h120, if_pos hin, hb, Nat.add_sub_cancel_left]
          cases lowest m <;> rfl
        · rw [if_neg (by omega), ← hb, Group.writeReg, if_neg (by omega), if_neg (by omega), if_neg h120]
      · rw [Group.read_writeReg_other _ _ _ hk, hb]
        have hiff : (d ≤ sel ∧ sel < d + (n + 1) ∧ sel < 120) ↔ (d ≤ sel ∧ sel < d + n ∧ sel < 120) := by omega
        simp only [hiff]

/-! ### The special registers of a split (R182) -/

/-- A tile register's access waits for no flight of the split exactly when none of its loads and scratchpad accesses is outstanding. -/
theorem spmReady_iff (s : State) : s.spmReady = true ↔ TileReady s := by
  simp only [State.spmReady, State.mine, TileReady, Earlier, Bool.not_eq_true', List.any_eq_false, List.mem_filter, Bool.and_eq_true,
    decide_eq_true_eq, List.contains_iff_mem, Bool.or_eq_true, not_or, Bool.not_eq_true, and_assoc]

theorem srReadable_iff (n : Nat) (trap : Bool) : srReadable n trap = true ↔
    n ≤ 8 ∨ n ∈ [0x10, 0x12, 0x14, 0x18, 0x28, 0x30, 0x31, 0x32, 0x33, 0x38] ∨
      (0x40 ≤ n ∧ n ≤ 0x4F) ∨ (trap = true ∧ n ∈ [0x20, 0x22, 0x24, 0x25]) := by
  cases trap
  · simp [srReadable, srTrap, srTile]
    omega
  · simp [srReadable, srTrap, srTile]
    omega

theorem srWritable_iff (n : Nat) (trap : Bool) : srWritable n trap = true ↔
    n = 0x18 ∨ (0x40 ≤ n ∧ n ≤ 0x4F) ∨ (trap = true ∧ n ∈ [0x20, 0x22, 0x24, 0x25, 0x38]) := by
  cases trap
  · simp [srWritable, srTile]
  · simp [srWritable, srTrap, srTile]
    omega

theorem srTile_iff (n : Nat) : srTile n = true ↔ 0x40 ≤ n ∧ n ≤ 0x4F := by simp [srTile]

/-- The identifiers that a chain of cases passes over on the way to a tile register. -/
theorem srTrap_of_srTile {n : Nat} (h : srTile n = true) : srTrap n = false := by
  rw [srTile_iff] at h
  simp only [srTrap, Bool.or_eq_false_iff, decide_eq_false_iff_not]
  omega

theorem State.readSr_tile {s : State} {n : Nat} (h : srTile n = true) (l : Lane) : s.readSr n l = some (s.tileWord n) := by
  have ⟨hlo, hhi⟩ := (srTile_iff n).1 h
  simp (disch := omega) only [State.readSr, if_neg, srTrap_of_srTile h, Bool.false_eq_true, if_false, h, if_true]

/-- A register that may be read has a value. -/
theorem State.readSr_isSome {s : State} {n : Nat} (h : srReadable n s.g.sp.trap = true) (l : Lane) : (s.readSr n l).isSome = true := by
  rcases (srReadable_iff n s.g.sp.trap).1 h with hn | hn | hn | ⟨ht, hn⟩
  · interval_cases n
    all_goals rfl
  · simp only [List.mem_cons, List.not_mem_nil, or_false] at hn
    rcases hn with rfl | rfl | rfl | rfl | rfl | rfl | rfl | rfl | rfl | rfl <;> rfl
  · rw [State.readSr_tile ((srTile_iff n).2 hn)]
    rfl
  · simp only [List.mem_cons, List.not_mem_nil, or_false] at hn
    rcases hn with rfl | rfl | rfl | rfl <;> simp [State.readSr, ht, srTrap]

/-- A request that MROW looks for. -/
def State.countsRow (s : State) (r : EngReq) : Bool :=
  r.core = s.g.core && r.slot = s.g.slot && match r.kind with
    | .mld _ _ _ _ _ => true
    | .mlds _ _ _ _ _ _ => true
    | .mst _ _ _ _ _ _ => true
    | _ => false

theorem State.rowRequest_eq (s : State) : s.rowRequest s.g = s.reqs.find? s.countsRow := rfl

theorem State.countsRow_iff (s : State) (r : EngReq) : s.countsRow r = true ↔ RowOf s r := by
  simp only [State.countsRow, RowOf, Bool.and_eq_true, decide_eq_true_eq, and_assoc]
  cases r.kind <;> simp

theorem State.rowRequest_none {s : State} (h : ∀ x ∈ s.reqs, ¬ RowOf s x) : s.rowRequest s.g = none :=
  List.find?_eq_none.2 fun x hx hp => h x hx ((s.countsRow_iff x).1 hp)

theorem State.rowRequest_first {s : State} {p q : List EngReq} {r : EngReq} (hs : s.reqs = p ++ r :: q)
    (hp : ∀ x ∈ p, ¬ RowOf s x) (hr : RowOf s r) : s.rowRequest s.g = some r := by
  rw [State.rowRequest_eq]
  exact List.find?_eq_some_iff_append.2 ⟨(s.countsRow_iff r).2 hr, p, q, hs, fun x hx => by
    simpa using fun hx' => hp x hx ((s.countsRow_iff x).1 hx')⟩

/-- MROW is 0 while no such request is outstanding. -/
theorem State.readSr_row_none {s : State} (h : s.rowRequest s.g = none) (l : Lane) : s.readSr 0x38 l = some 0 := by
  change some (s.mrow s.g).toNat = some 0
  simp only [State.mrow, h]
  rfl

/-- The bit of MROW that tells an MST. -/
theorem b2n_of_iff {p : Bool} {b : Nat} (hb : b < 2) (h : b = 1 ↔ p = true) : b2n p = b := by
  cases p <;> simp at h <;> simp [b2n] <;> omega

/-- The request is an MST. -/
def ReqKind.isMst : ReqKind → Bool
  | .mst _ _ _ _ _ _ => true
  | _ => false

theorem ReqKind.isMst_iff (k : ReqKind) : k.isMst = true ↔ ∃ c d e f g h, k = .mst c d e f g h := by
  cases k <;> simp [ReqKind.isMst]

/-- MROW tells how far the oldest request has come, whether it stores, and that there is one. -/
theorem State.readSr_row_some {s : State} {r : EngReq} (h : s.rowRequest s.g = some r) (hpos : r.pos < 2 ^ 16) {b : Nat} (hb : b < 2)
    (hst : b = 1 ↔ ∃ c d e f g h, r.kind = .mst c d e f g h) (l : Lane) :
    s.readSr 0x38 l = some (r.pos + b * 2 ^ 30 + 2 ^ 31) := by
  have hbit : b2n r.kind.isMst = b := b2n_of_iff hb (hst.trans (ReqKind.isMst_iff _).symm)
  have hrow : s.mrow s.g = BitVec.ofNat 32 (r.pos % 2 ^ 16 + b2n r.kind.isMst * 2 ^ 30 + 2 ^ 31) := by
    simp only [State.mrow, h]
    rfl
  change some (s.mrow s.g).toNat = _
  rw [hrow, hbit, BitVec.toNat_ofNat, Nat.mod_eq_of_lt hpos, Nat.mod_eq_of_lt (by omega)]

/-- The beats record of a launch's context (R177). -/
theorem State.readSr_beats_some {s : State} {y : Launch} {b : Beats} {p q : List Beats} (hy : s.launch = some y)
    (hs : s.beats = p ++ b :: q) (hp : ∀ x ∈ p, x.part ≠ y.part ∨ x.ctx ≠ y.ctx) (hpart : b.part = y.part) (hctx : b.ctx = y.ctx)
    (l : Lane) : s.readSr 0x14 l = some b.count := by
  have hfind : (s.beats.find? fun b => b.part = y.part && b.ctx = y.ctx) = some b :=
    List.find?_eq_some_iff_append.2 ⟨by simp [hpart, hctx], p, q, hs, fun x hx => by
      rcases hp x hx with h | h <;> simp [h]⟩
  change some s.beatsNow = _
  simp only [State.beatsNow, hy, hfind]

theorem State.readSr_beats_none {s : State} {y : Launch} (hy : s.launch = some y)
    (hs : ∀ x ∈ s.beats, x.part ≠ y.part ∨ x.ctx ≠ y.ctx) (l : Lane) : s.readSr 0x14 l = some 0 := by
  have hfind : (s.beats.find? fun b => b.part = y.part && b.ctx = y.ctx) = none :=
    List.find?_eq_none.2 fun x hx => by rcases hs x hx with h | h <;> simp [h]
  change some s.beatsNow = _
  simp only [State.beatsNow, hy, hfind]

theorem State.readSr_tileWord {s : State} {b : Block} (hb : s.block s.g.block = some b) {n : Nat} (hn : n < 16) (l : Lane) :
    s.readSr (0x40 + n) l = some (bget (vget b.tiles (n / 2) 0) (32 * (n % 2)) 32) := by
  have htile : (0x40 + n - 0x40) / 2 = n / 2 ∧ (0x40 + n) % 2 = n % 2 := by omega
  rw [State.readSr_tile ((srTile_iff _).2 (by omega)), State.tileWord, htile.1, htile.2]
  simp only [hb]

/-! ### RDSR (R182, R183) -/

/-- Writing a destination leaves all but the registers as it is. -/
theorem Group.writeWords_frame (g : Group) (d : Nat) (m : Mask) (f : Nat → Lane → Word) (ks : List Nat) :
    ∃ v s o h, ks.foldl (fun h k => h.writeWord d k m (f k)) g = { g with v := v, s := s, o := o, h := h } := by
  induction ks generalizing g with
  | nil => exact ⟨g.v, g.s, g.o, g.h, rfl⟩
  | cons k r ih =>
    obtain ⟨v, s, o, h, he⟩ := ih (g.writeWord d k m (f k))
    rw [List.foldl_cons, he, Group.writeWord_frame]
    exact ⟨v, s, o, h, rfl⟩

/-- A special register that may not be read traps, whatever else the instruction meets. -/
theorem run_useBad {s : State} {i : Instr} (hl : s.noLane = false) (he : s.encodingBad i = false) (hu : s.useBad i = true)
    (body : State → Out) : run i s body = .next (s.takeTrap (s.illegal i 0x03)) := by
  simp [run, hl, gate, he, hu]

/-- What a RDSR that issues comes to. -/
theorem State.issues.rdsr_eq {s : State} {i : BitVec 8} {d : BitVec 7} (h : s.issues (.rdsr i d)) : exec (.rdsr i d) s =
    if srTile i.toNat && !s.spmReady then waits s
    else .next ((s.modG fun g => (List.range (srWords i.toNat)).foldl (fun h k => h.writeWord d.toNat k s.act fun l =>
      BitVec.ofNat 32 ((s.readSr i.toNat l).getD 0 / 2 ^ (32 * k))) g).finish (.rdsr i d)) := by
  have hread : srReadable i.toNat s.g.sp.trap = true := by simpa [State.useBad] using h.named
  have hsome : (s.readSr i.toNat 0).isNone = false := by simp [State.readSr_isSome hread]
  dsimp only [exec, execRdsr]
  rw [h.run_eq, hsome]
  rfl

/-- Moving the split leaves what a register reads. -/
theorem Group.read_sp (g : Group) {sp : Split} (h : sp.trap = g.sp.trap) (sel : Nat) (l : Lane) :
    ({ g with sp := sp } : Group).read sel l = g.read sel l := by
  simp only [Group.read, h]

/-! ### WRSR (R182, R183) -/

/-- The value that a WRSR writes. -/
def State.srValue (s : State) (i a : BitVec 8) : Nat :=
  if srWords i.toNat = 2 then s.scalar64 (selOf a) else (s.scalar (selOf a)).toNat

theorem Group.readWord_zero (g : Group) (sel : Nat) (l : Lane) : g.readWord sel 0 l = g.read sel l := by
  unfold Group.readWord
  split
  · subst_vars
    rfl
  · rfl

theorem State.srValue_one {s : State} {l : Lane} (hl : lowest s.act = some l) {i : BitVec 8} (hi : srWords i.toNat = 1) (a : BitVec 8) :
    s.srValue i a = (s.g.readWord (selOf a) 0 l).toNat := by
  simp only [State.srValue, hi, State.scalar, hl, Group.readWord_zero]
  rfl

theorem State.srValue_two {s : State} {l : Lane} (hl : lowest s.act = some l) {i : BitVec 8} (hi : srWords i.toNat = 2) (a : BitVec 8) :
    s.srValue i a = (s.g.readWord (selOf a) 0 l).toNat + 2 ^ 32 * (s.g.readWord (selOf a) 1 l).toNat := by
  simp only [State.srValue, hi, if_true, State.scalar64, State.scalarWord, hl]

section
variable {s u : State} {i a : BitVec 8} {v : Nat}

/-- A value that the register may not take is an illegal use. -/
theorem State.issues.wrsr_refused (h : s.issues (.wrsr i a)) (hv : s.srValue i a = v) (hw : s.writeSr i.toNat v = none) :
    exec (.wrsr i a) s = .next (s.takeTrap (s.illegal (.wrsr i a) 0x03)) := by
  dsimp only [exec, execWrsr]
  subst hv
  simp only [State.srValue] at hw
  simp only [h.run_eq, hw, operandTrap]

/-- A value that it may take is written, once the register is ready. -/
theorem State.issues.wrsr_eq (h : s.issues (.wrsr i a)) (hv : s.srValue i a = v) (hw : s.writeSr i.toNat v = some u) :
    exec (.wrsr i a) s = if srTile i.toNat && !s.spmReady then waits s else .next (u.finish (.wrsr i a)) := by
  dsimp only [exec, execWrsr]
  subst hv
  simp only [State.srValue] at hw
  simp only [h.run_eq, hw]

/-- A tile register's write waits for the split's loads and scratchpad accesses. -/
theorem State.issues.wrsr_waits (h : s.issues (.wrsr i a)) (hv : s.srValue i a = v) (hw : s.writeSr i.toNat v = some u)
    (ht : srTile i.toNat = true) (hr : ¬ TileReady s) : exec (.wrsr i a) s = .next (s.waiting (.blocked true)) := by
  rw [h.wrsr_eq hv hw, if_pos (by simpa [ht, ← spmReady_iff] using hr)]
  rfl

/-- Every other write acts, and the split moves behind it. -/
theorem State.issues.wrsr_acts (h : s.issues (.wrsr i a)) (hv : s.srValue i a = v) (hw : s.writeSr i.toNat v = some u)
    (hr : srTile i.toNat = true → TileReady s) : exec (.wrsr i a) s = .next (u.movedTo (u.g.sp.pc + 4)) := by
  rw [h.wrsr_eq hv hw, if_neg (by simpa [← spmReady_iff] using hr), State.finish_eq]
  rfl

end

/-! ### The registers that a WRSR may write (R182) -/

section
variable (s : State) (v : Nat)

theorem State.writeSr_flags : s.writeSr 0x18 v =
    if v < 64 then some (s.modG fun g => { g with arithFlags := BitVec.ofNat 6 v ||| s.raisedFirst }) else none := rfl

theorem State.writeSr_cause (ht : s.g.sp.trap = true) : s.writeSr 0x20 v =
    if v < 2 ^ 17 then some (s.modG fun g => { g with trapCause := BitVec.ofNat 32 v }) else none := by
  simp [State.writeSr, srTrap, ht]

theorem State.writeSr_pc (ht : s.g.sp.trap = true) : s.writeSr 0x22 v =
    if v < 2 ^ 56 ∧ v % 2 = 0 then some (s.modG fun g => { g with trapPc := BitVec.ofNat 56 v }) else none := by
  simp [State.writeSr, srTrap, ht]

theorem State.writeSr_mask (ht : s.g.sp.trap = true) : s.writeSr 0x24 v =
    some (s.modG fun g => { g with trapMask := BitVec.ofNat 32 v }) := by
  simp [State.writeSr, srTrap, ht]

theorem State.writeSr_done (ht : s.g.sp.trap = true) : s.writeSr 0x25 v =
    some (s.modG fun g => { g with doneMask := BitVec.ofNat 32 v }) := by
  simp [State.writeSr, srTrap, ht]

theorem State.writeSr_row_none (ht : s.g.sp.trap = true) (hr : s.rowRequest s.g = none) : s.writeSr 0x38 v =
    if v = 0 then some s else none := by
  by_cases hv : v = 0
  · subst hv
    simp [State.writeSr, srTrap, ht, hr, fld]
  · simp [State.writeSr, srTrap, ht, hr, hv]

theorem State.writeSr_row_some (ht : s.g.sp.trap = true) {r : EngReq} (hr : s.rowRequest s.g = some r) : s.writeSr 0x38 v =
    if fld v 16 14 ≠ 0 ∨ r.kind.rows < fld v 0 16 then none
    else some { s with reqs := s.reqs.map fun x => if x.id = r.id then { x with pos := fld v 0 16 } else x } := by
  by_cases hf : fld v 16 14 = 0
  · simp [State.writeSr, srTrap, ht, hr, hf]
  · simp [State.writeSr, srTrap, hf]

theorem State.writeSr_tile {n : Nat} (h : srTile n = true) : s.writeSr n v =
    if tileOk n v = true then some (s.modBlock s.g.block fun b =>
      { b with tiles := vset b.tiles ((n - 0x40) / 2) (bset (vget b.tiles ((n - 0x40) / 2) 0) (32 * (n % 2)) 32 v) }) else none := by
  have ⟨hlo, hhi⟩ := (srTile_iff n).1 h
  simp (disch := omega) only [State.writeSr, if_neg, srTrap_of_srTile h, Bool.false_eq_true, if_false, h, if_true]

end

theorem tileOk_iff (n v : Nat) : tileOk n v = true ↔
    if n % 2 = 0 then v < 2 ^ 21 ∧ v % 128 = 0 else v ≤ 2097152 ∧ v % 128 = 0 := by
  unfold tileOk
  split <;> simp

/-- A block that is changed is found where it was, when it keeps its number. -/
theorem State.block_modBlock {s : State} {id : Nat} {b : Block} (hb : s.block id = some b) {f : Block → Block}
    (hf : ∀ b, (f b).id = b.id) : (s.modBlock id f).block id = some (f b) := by
  have hfirst : ∀ l : List Block, l.find? (fun b => b.id = id) = some b →
      (modFirst (fun b => b.id = id) f l).find? (fun b => b.id = id) = some (f b) := by
    intro l
    induction l with
    | nil => simp
    | cons x r ih =>
      intro h
      by_cases hx : x.id = id
      · simp_all [modFirst]
      · simp_all [modFirst]
  exact hfirst s.blocks hb

end Sys2Proof.Machine

namespace Sys2Proof
open Machine

/-- Settles O48: what a special register reads, and what each register that may be written takes. -/
theorem specialRegisters : Obligations.SpecialRegisters := by
  unfold Obligations.SpecialRegisters
  refine ⟨fun i d s h => ⟨fun hr => ?_, fun ht hr => ?_⟩, fun i a d s hl => ⟨fun he hn => ?_, fun he hn => ?_⟩,
    fun n trap => ⟨srReadable_iff n trap, srWritable_iff n trap⟩, fun s l => ?_, fun i a s l h hl => ?_⟩
  · rw [h.rdsr_eq, if_neg (by simpa [← spmReady_iff] using hr)]
    obtain ⟨v, sx, o, hx, he⟩ := s.g.writeWords_frame d.toNat s.act
      (fun k l => BitVec.ofNat 32 ((s.readSr i.toNat l).getD 0 / 2 ^ (32 * k))) (List.range (srWords i.toNat))
    have hrec := received_writeWords s.g d.toNat (srWords i.toNat) s.act fun k l =>
      BitVec.ofNat 32 ((s.readSr i.toNat l).getD 0 / 2 ^ (32 * k))
    rw [he] at hrec
    refine ⟨_, rfl, fun sel l hsel => ?_, ?_, ?_, ?_, ?_⟩
    · rw [← hrec sel l hsel]
      simp only [State.finish_g, State.modG_g, he]
      exact Group.read_sp { s.g with v := v, s := sx, o := o, h := hx } rfl sel l
    · simp only [State.finish_g, State.modG_g, he]
      rfl
    · simp only [State.finish_g, State.modG_g, he]
    · simp only [State.finish_g, State.modG_g, he]
    · exact ⟨fun _ => rfl, fun _ => rfl, fun _ _ => rfl, rfl⟩
  · rw [h.rdsr_eq, if_pos (by simpa [ht, ← spmReady_iff] using hr)]
    rfl
  · dsimp only [exec, execRdsr]
    exact run_useBad hl he (by simp [State.useBad, hn]) _
  · dsimp only [exec, execWrsr]
    exact run_useBad hl he (by simp [State.useBad, hn]) _
  · refine ⟨rfl, rfl, rfl, rfl, rfl, rfl, rfl, rfl, rfl, rfl, fun ht => by simp [State.readSr, srTrap, ht],
      fun ht => by simp [State.readSr, srTrap, ht], rfl, fun b y hb hy => ?_,
      fun y hy => ⟨fun p b q hs hp hb hc => State.readSr_beats_some hy hs hp hb hc l,
      fun hs => State.readSr_beats_none hy hs l⟩, fun hs => State.readSr_row_none (State.rowRequest_none hs) l,
      fun p r q b hs hp hr hpos hb hst => State.readSr_row_some (State.rowRequest_first hs hp hr) hpos hb hst l,
      fun b n hb hn => State.readSr_tileWord hb hn l⟩
    simp [State.readSr, State.blockIx, State.gridSize, hb, hy]
  · intro v hi past refused tile tileOk
    have h1 : srWords i.toNat = 1 → s.srValue i a = v.toNat := fun hi => State.srValue_one hl hi a
    have h2 : srWords i.toNat = 2 → s.srValue i a = v.toNat + 2 ^ 32 * hi.toNat := fun hi => State.srValue_two hl hi a
    have hid : BitVec.ofNat 32 v.toNat = v := by simp
    have htile : srTile i.toNat = true → srWords i.toNat = 1 := fun ht => by
      have := (srTile_iff _).1 ht
      rw [srWords, if_neg (by omega)]
    refine ⟨?_, ?_, ?_, ?_, ?_, ?_, ?_, ?_, ?_, ?_, ?_, ?_, ?_, ?_⟩
    · rintro rfl hv
      exact h.wrsr_acts (h1 rfl) ((s.writeSr_flags _).trans (if_pos hv)) nofun
    · rintro rfl hv
      exact h.wrsr_refused (h1 rfl) ((s.writeSr_flags _).trans (if_neg (by omega)))
    · rintro ht rfl hv
      have hw := (s.writeSr_cause v.toNat ht).trans (if_pos hv)
      rw [hid] at hw
      exact h.wrsr_acts (h1 rfl) hw nofun
    · rintro ht rfl hv
      exact h.wrsr_refused (h1 rfl) ((s.writeSr_cause _ ht).trans (if_neg (by omega)))
    · rintro ht rfl hhi hlo
      exact h.wrsr_acts (h2 rfl) ((s.writeSr_pc _ ht).trans (if_pos (by omega))) nofun
    · rintro ht rfl hv
      exact h.wrsr_refused (h2 rfl) ((s.writeSr_pc _ ht).trans (if_neg (by omega)))
    · rintro ht rfl
      have hw := s.writeSr_mask v.toNat ht
      rw [hid] at hw
      exact h.wrsr_acts (h1 rfl) hw nofun
    · rintro ht rfl
      have hw := s.writeSr_done v.toNat ht
      rw [hid] at hw
      exact h.wrsr_acts (h1 rfl) hw nofun
    · rintro ht rfl hr
      refine ⟨fun hv => ?_, fun hv => ?_⟩
      · exact h.wrsr_acts (h1 rfl) ((s.writeSr_row_none _ ht hr).trans (if_pos (by simp [hv]))) nofun
      · exact h.wrsr_refused (h1 rfl) ((s.writeSr_row_none _ ht hr).trans (if_neg fun e => hv (BitVec.eq_of_toNat_eq e)))
    · rintro r ht rfl hr hf hn
      exact h.wrsr_acts (h1 rfl) ((s.writeSr_row_some _ ht hr).trans (if_neg (by omega))) nofun
    · rintro r ht rfl hr hf
      exact h.wrsr_refused (h1 rfl) ((s.writeSr_row_some _ ht hr).trans (if_pos hf))
    · intro ht hv hr
      exact h.wrsr_waits (h1 (htile ht)) ((s.writeSr_tile _ ht).trans (if_pos ((tileOk_iff _ _).2 hv))) ht hr
    · intro b ht hv hr hb
      have hex := h.wrsr_acts (h1 (htile ht)) ((s.writeSr_tile _ ht).trans (if_pos ((tileOk_iff _ _).2 hv))) fun _ => hr
      refine ⟨_, _, hex, State.block_modBlock hb fun _ => rfl, fun k hk => ?_, rfl, fun _ => rfl, fun _ => rfl, fun _ _ => rfl, rfl⟩
      rw [vget_vset]
      by_cases hkt : k = tile
      · rw [if_pos ⟨hkt, hk⟩, if_pos hkt, hkt]
      · rw [if_neg fun e => hkt e.1, if_neg hkt]
    · intro ht hv
      exact h.wrsr_refused (h1 (htile ht)) ((s.writeSr_tile _ ht).trans (if_neg fun e => hv ((tileOk_iff _ _).1 e)))

end Sys2Proof
end

section
namespace Sys2Proof.Machine

/-! ### What a write, an event or a queue's mapping leaves as it is

The launches, the blocks, the next number, the buckets and the tick of their last refill are the scheduler's own: bytes written to
memory, events posted, nodes read and queues mapped to slots touch none of them. -/

/-- What the scheduler keeps beside the launches: the blocks, the next number, the buckets, and when they were refilled. -/
def State.books (s : State) : List Block × Nat × Vector (BitVec 128) 32 × Nat := (s.blocks, s.nextId, s.regs.vdsched, s.refilled)

/-- What the scheduler keeps. -/
def State.ledger (s : State) : List Launch × List Block × Nat × Vector (BitVec 128) 32 × Nat := (s.launches, s.books)

theorem State.withEvtring_ledger (s : State) (m : Memory) (r : BitVec 256) :
    ({ s with host := m, regs := { s.regs with evtring := r } } : State).ledger = s.ledger := rfl

@[simp] theorem State.postHost_ledger (s : State) (e : Event) : (s.postHost e).ledger = s.ledger := by
  unfold State.postHost
  split
  · exact State.withEvtring_ledger (s.toCellar _) _ _
  · rfl

@[simp] theorem State.setOwner_ledger (s : State) (w : Nat) (o : Option Nat) : (s.setOwner w o).ledger = s.ledger := by
  unfold State.setOwner
  dsimp only
  split
  · rfl
  · split <;> rfl

@[simp] theorem State.slicePut_ledger (s : State) (l o : Nat) (d : Bool) : (s.slicePut l o d).ledger = s.ledger := by
  unfold State.slicePut
  split
  · rfl
  · split
    · rfl
    · dsimp only
      split
      · rfl
      · split <;> rfl

@[simp] theorem State.tally_ledger (s : State) (src n : Nat) (c : Option Nat) (d : Nat) : (s.tally src n c d).ledger = s.ledger := by
  unfold State.tally
  cases c with
  | none => dsimp only; split <;> rfl
  | some c => dsimp only; split <;> split <;> rfl

@[simp] theorem State.lineWrite_ledger (s : State) (l : Nat) (b : List (Nat × Byte)) (o : Option Nat) :
    (s.lineWrite l b o).ledger = s.ledger := by
  have howners := foldl_keeps State.ledger (f := fun t w => t.setOwner (32 * l + w) o) fun t w => t.setOwner_ledger (32 * l + w) o
  unfold State.lineWrite
  rw [State.tally_ledger, State.slicePut_ledger]
  cases o <;> (split <;> [split; skip]) <;> exact howners _ _

@[simp] theorem State.homeWrite_ledger (s : State) (b : List (Nat × Byte)) (o : Option Nat) : (s.homeWrite b o).ledger = s.ledger :=
  foldl_keeps State.ledger (fun t l => t.lineWrite_ledger l _ o) _ s

theorem State.withPart_ledger (s : State) (v : Vector (BitVec 1024) 16) :
    ({ s with regs := { s.regs with part := v } } : State).ledger = s.ledger := rfl

@[simp] theorem State.post_ledger (s : State) (e : Event) : (s.post e).ledger = s.ledger := by
  unfold State.post
  dsimp only
  split
  · exact s.postHost_ledger e
  · split
    · split <;> simp only [State.postHost_ledger] <;> exact (State.withPart_ledger _ _).trans (s.postHost_ledger e)
    · exact (State.withPart_ledger _ _).trans ((State.homeWrite_ledger _ _ _).trans (s.postHost_ledger e))

@[simp] theorem State.revealAt_ledger (s : State) (t : Target) : (s.revealAt t).ledger = s.ledger := by
  unfold State.revealAt
  split
  · split
    · rw [State.post_ledger]
      rfl
    · rfl
  · rfl

@[simp] theorem State.revealWalk_ledger (s : State) (p va : Nat) : (s.revealWalk p va).ledger = s.ledger := by
  unfold State.revealWalk
  split
  · simp
  · rfl

@[simp] theorem State.walkNote_ledger (s : State) (p va : Nat) : (s.walkNote p va).ledger = s.ledger := by
  have hnoted : ((s.refusalEvent p va).elim s s.post).ledger = s.ledger := by
    cases s.refusalEvent p va <;> simp
  unfold State.walkNote
  dsimp only
  split
  · rw [State.revealWalk_ledger, hnoted]
  · split
    · rw [State.revealAt_ledger, hnoted]
    · exact hnoted
  · exact hnoted

@[simp] theorem State.modNode_ledger (s : State) (p va : Nat) (f : Node → Node) : (s.modNode p va f).ledger = s.ledger := by
  unfold State.modNode
  split <;> rfl

@[simp] theorem State.rcbEvent_ledger (s : State) (p va d : Nat) : (s.rcbEvent p va d).ledger = s.ledger := State.post_ledger s _

@[simp] theorem State.readNode_ledger (s : State) (p va : Nat) : (s.readNode p va).2.ledger = s.ledger := by
  unfold State.readNode
  split <;> simp

@[simp] theorem State.writeNode_ledger (s : State) (p va lo w v : Nat) : (s.writeNode p va lo w v).ledger = s.ledger := by
  unfold State.writeNode
  dsimp only
  split <;> simp

@[simp] theorem State.setPending_ledger (s : State) (q : Nat) : (s.setPending q).ledger = s.ledger := by
  unfold State.setPending
  split <;> rfl

@[simp] theorem State.mapAt_ledger (s : State) (n q : Nat) : (s.mapAt n q).ledger = s.ledger := rfl

@[simp] theorem State.mapQueue_ledger (s : State) (new : List Nat) (q : Nat) : (s.mapQueue new q).ledger = s.ledger := by
  unfold State.mapQueue
  split
  · rfl
  · split
    · rfl
    · split
      · rfl
      · dsimp only
        rw [State.mapAt_ledger]
        split
        · exact State.setPending_ledger _ _
        · rfl

@[simp] theorem State.mapFrom_ledger (n : Nat) (s : State) (seen : List Nat) : (s.mapFrom seen n).ledger = s.ledger := by
  induction n generalizing s seen with
  | zero => rfl
  | succ n ih =>
    rw [State.mapFrom]
    split
    · rfl
    · rw [ih, State.mapQueue_ledger]

@[simp] theorem State.mapPending_ledger (s : State) : s.mapPending.ledger = s.ledger := State.mapFrom_ledger _ _ _

@[simp] theorem State.unmapHeld_ledger (s : State) (q : Nat) : (s.unmapHeld q).ledger = s.ledger := by
  unfold State.unmapHeld
  split
  · dsimp only
    split
    · rw [State.mapPending_ledger, State.setPending_ledger]
      rfl
    · rw [State.mapPending_ledger]
      rfl
  · rfl

@[simp] theorem State.pathNow_ledger (s : State) (p : Nat) (path : List Nat) : (s.pathNow p path).2.ledger = s.ledger :=
  foldl_keeps (fun x : List (Nat × BitVec 2048) × State => x.2.ledger) (fun x va => x.2.readNode_ledger p va) path _

@[simp] theorem State.collEn_ledger (s : State) (p : Nat) : (s.collEn p).2.ledger = s.ledger := by
  unfold State.collEn
  split
  · rfl
  · exact s.readNode_ledger p _

@[simp] theorem State.readCfg_ledger (s : State) (p c : Nat) : (s.readCfg p c).2.ledger = s.ledger :=
  (State.pathNow_ledger _ p _).trans (s.collEn_ledger p)

@[simp] theorem State.ensureBeats_ledger (s : State) (p c : Nat) : (s.ensureBeats p c).ledger = s.ledger := by
  unfold State.ensureBeats
  split
  · rfl
  · exact s.readCfg_ledger p c

/-! ### What a change of launches leaves as it is -/

theorem State.books_of_ledger {s t : State} (h : t.ledger = s.ledger) : t.books = s.books := congrArg Prod.snd h

theorem State.launches_of_ledger {s t : State} (h : t.ledger = s.ledger) : t.launches = s.launches := congrArg Prod.fst h

@[simp] theorem State.setState_books (s : State) (rcb st : Nat) : (s.setState rcb st).books = s.books := by
  unfold State.setState
  split
  · rfl
  · dsimp only
    have hw := fun l : Launch => State.books_of_ledger
      (State.writeNode_ledger (s.modLaunch rcb fun x => { x with state := st }) l.part l.va 1984 3 st)
    split
    · exact (State.books_of_ledger (State.mapPending_ledger _)).trans (hw _)
    · exact hw _

@[simp] theorem State.setStates_books (s : State) (head st : Nat) : (s.setStates head st).books = s.books :=
  foldl_keeps State.books (fun t (l : Launch) => t.setState_books l.rcb st) _ s

@[simp] theorem State.resumeLaunch_books (s : State) (head : Nat) : (s.resumeLaunch head).books = s.books := by
  unfold State.resumeLaunch
  refine (State.setStates_books _ head 1).trans (foldl_keeps State.books (fun t (l : Launch) => ?_) _ s)
  have hpath : (t.pathNow l.part l.path).2.books = t.books := State.books_of_ledger (t.pathNow_ledger l.part l.path)
  exact hpath

@[simp] theorem State.selfResumes_books (s : State) : s.selfResumes.books = s.books :=
  foldl_keeps State.books (fun t (l : Launch) => t.resumeLaunch_books l.head) _ s

/-! ### Buckets and budgets (R41, R251, R297) -/

theorem toSigned_ofSigned {x : Int} (hlo : -2 ^ 31 ≤ x) (hhi : x < 2 ^ 31) : toSigned 32 (ofSigned 32 x) = x := by
  simp only [toSigned, ofSigned]
  omega

/-- A bucket's level behind a refill (R251). -/
def refilledLevel (r : BitVec 128) : Int := min (min (vsLevel r + (bget r 0 32 : Nat)) (bget r 32 32 : Nat)) (2 ^ 31 - 1)

/-- A bucket's record behind a refill. -/
def refillRecord (r : BitVec 128) : BitVec 128 := bset r 64 32 (ofSigned 32 (refilledLevel r))

theorem vsLevel_bounds (r : BitVec 128) : -2 ^ 31 ≤ vsLevel r ∧ vsLevel r < 2 ^ 31 := by
  have := bget_lt r 64 32
  simp only [vsLevel, toSigned]
  omega

/-- The level that a refill writes is the one that is read back. -/
theorem vsLevel_refillRecord (r : BitVec 128) (x : Nat) : vsLevel (bset (refillRecord r) 96 1 x) = refilledLevel r := by
  have hlevel := vsLevel_bounds r
  have hfit : toSigned 32 (ofSigned 32 (refilledLevel r)) = refilledLevel r :=
    toSigned_ofSigned (by unfold refilledLevel; omega) (by unfold refilledLevel; omega)
  rw [vsLevel, bget_bset_disjoint _ (by omega), refillRecord, bget_bset_same _ (by omega)]
  refine Eq.trans ?_ hfit
  simp only [toSigned, Nat.mod_mod]

theorem State.vdsched_setVdsched (s : State) (v w : Nat) (r : BitVec 128) : (s.setVdsched v r).vdsched w =
    if w = v ∧ w < 32 then bset r 96 1 (b2n (vsDry r)) else s.vdsched w := vget_vset _ _ _ _ _

/-- A refill of the buckets below n. -/
def State.refillTo (s : State) (n : Nat) : State := (List.range n).foldl (fun t v => t.setVdsched v (refillRecord (t.vdsched v))) s

theorem State.refillTo_succ (s : State) (n : Nat) :
    s.refillTo (n + 1) = (s.refillTo n).setVdsched n (refillRecord ((s.refillTo n).vdsched n)) := by
  simp only [State.refillTo, List.range_succ, List.foldl_append, List.foldl_cons, List.foldl_nil]

/-- Each bucket is refilled once. -/
theorem State.vsLevel_refillTo (s : State) (n v : Nat) (hv : v < 32) : vsLevel ((s.refillTo n).vdsched v) =
    if v < n then refilledLevel (s.vdsched v) else vsLevel (s.vdsched v) := by
  have hkept : ∀ m, m ≤ v → (s.refillTo m).vdsched v = s.vdsched v := fun m => by
    induction m with
    | zero => exact fun _ => rfl
    | succ m ih => exact fun hm => by rw [State.refillTo_succ, State.vdsched_setVdsched, if_neg (by omega), ih (by omega)]
  induction n with
  | zero => rfl
  | succ n ih =>
    rw [State.refillTo_succ, State.vdsched_setVdsched]
    by_cases hn : v = n
    · subst hn
      rw [if_pos ⟨rfl, hv⟩, if_pos (by omega), vsLevel_refillRecord, hkept v le_rfl]
    · have hlt : v < n + 1 ↔ v < n := by omega
      rw [if_neg fun h => hn h.1, ih]
      simp only [hlt]

theorem State.refillTo_refilled (s : State) (n : Nat) : (s.refillTo n).refilled = s.refilled :=
  foldl_keeps State.refilled (f := fun t v => t.setVdsched v (refillRecord (t.vdsched v))) (fun _ _ => rfl) _ s

theorem State.vdsched_of_books {s t : State} (h : t.books = s.books) (v : Nat) : t.vdsched v = s.vdsched v := by
  have hv : t.regs.vdsched = s.regs.vdsched := congrArg (fun b => b.2.2.1) h
  rw [State.vdsched, State.vdsched, hv]

theorem State.refilled_of_books {s t : State} (h : t.books = s.books) : t.refilled = s.refilled := congrArg (fun b => b.2.2.2) h

/-- The machine at a refill, which notes its tick. -/
def State.atRefill (s : State) : State := { s with refilled := s.timer }

/-- What a refill comes to: the buckets, and then the launches and queues that may go on. -/
theorem State.tokenRefill_eq {s : State} (ht : s.timer % 2 ^ 20 = 0) (hr : s.timer ≠ s.refilled) :
    exec .tokenRefill s = .next (s.atRefill.refillTo 32).selfResumes.mapPending := by
  change execTokenRefill s = _
  rw [execTokenRefill, if_neg (not_or_intro (not_not_intro ht) hr)]
  rfl

theorem State.bundle_one {s : State} {l : Launch} (hs : s.launches = [l]) : s.bundle l.head = [l] := by
  simp [State.bundle, hs]

theorem State.launchOf_one {s : State} {l : Launch} (hs : s.launches = [l]) : s.launchOf l.rcb = some l := by
  simp [State.launchOf, hs]

/-- The only launch enters state 3. -/
theorem State.setStates_one {s : State} {l : Launch} (hs : s.launches = [l]) :
    (s.setStates l.head 3).launches = [{ l with state := 3 }] := by
  have hmod : (s.modLaunch l.rcb fun x => { x with state := 3 }).launches = [{ l with state := 3 }] := by
    simp [hs, modFirst]
  rw [State.setStates, State.bundle_one hs, List.foldl_cons, List.foldl_nil, State.setState, State.launchOf_one hs]
  dsimp only
  rw [if_neg (by simp)]
  exact (State.launches_of_ledger (State.writeNode_ledger _ _ _ _ _ _)).trans hmod

/-- The only launch begins to drain: it stands in state 3. -/
theorem State.beginDrain_one {s : State} {l : Launch} (hs : s.launches = [l]) (hhead : l.rcb = l.head) (hst : l.state = 1 ∨ l.state = 2)
    (hf : l.freezing = false) (self : Bool) :
    (s.beginDrain l.head self).launches = [{ l with drain := some { since := s.timer, self := self }, state := 3 }] := by
  have hmod : (s.modBundle l.head fun x => { x with drain := some { since := s.timer, self := self } }).launches =
      [{ l with drain := some { since := s.timer, self := self } }] := by
    simp [State.modBundle, hs]
  have hset := State.setStates_one hmod
  have hl : s.launchOf l.head = some l := hhead ▸ State.launchOf_one hs
  rw [State.beginDrain, hl]
  dsimp only
  rw [if_pos ⟨hst, hf⟩]
  split
  · exact hset
  · exact hset

/-- What a dry device comes to that has one launch to drain. -/
theorem State.bucketDry_eq {s : State} {l : Launch} (hheld : s.vdHeld s.ev.vd = true)
    (hl : (s.launches.filter fun l => l.rcb = l.head && l.vd = some s.ev.vd && (l.state = 1 || l.state = 2)) = [l]) :
    exec .bucketDry s = .next (((s.beginDrain l.head true).slots.filter fun y =>
      (s.beginDrain l.head true).queueVd y.2.queue = some s.ev.vd).foldl (fun t y => t.unmapHeld y.2.queue) (s.beginDrain l.head true)) := by
  change execBucketDry s = _
  rw [execBucketDry, if_pos hheld, hl]
  rfl

theorem bucketsAndBudgetsPart : BucketsAndBudgetsPart := by
  refine ⟨fun s ht hr => ?_, fun s l hheld hs hhead hvd hst hf => ?_, fun s x hx h0 hle => ?_⟩
  · have hbooks : (s.atRefill.refillTo 32).selfResumes.mapPending.books = (s.atRefill.refillTo 32).books :=
      (State.books_of_ledger (State.mapPending_ledger _)).trans (State.selfResumes_books _)
    refine ⟨_, State.tokenRefill_eq ht hr, ?_, fun v hv => ?_⟩
    · rw [State.refilled_of_books hbooks, State.refillTo_refilled]
      rfl
    · rw [State.vdsched_of_books hbooks, State.vsLevel_refillTo _ _ _ hv, if_pos hv]
      rfl
  · have hmine : (s.launches.filter fun l => l.rcb = l.head && l.vd = some s.ev.vd && (l.state = 1 || l.state = 2)) = [l] := by
      simpa [hs, hhead, hvd] using hst
    refine ⟨_, { l with drain := some { since := s.timer, self := true }, state := 3 },
      State.bucketDry_eq hheld hmine, ?_, rfl, rfl⟩
    refine Eq.trans (foldl_keeps State.launches (fun t y => ?_) _ _) (State.beginDrain_one hs hhead hst hf true)
    exact State.launches_of_ledger (t.unmapHeld_ledger _)
  · have hleft : budgetLeft [(s.ev.va, x)] = false := by
      simp [budgetLeft]
      omega
    change execBudgetReached s = _
    simp only [execBudgetReached, hx, hleft, Bool.false_eq_true, if_false, List.contains_iff_mem]

/-! ### The order of a decision (R253) -/

/-- A launch does not stand behind another in key order. -/
def Launch.notBehind (a b : Launch) : Prop :=
  b.eff.priority < a.eff.priority ∨ a.eff.priority = b.eff.priority ∧
    (a.ctxCreated < b.ctxCreated ∨ a.ctxCreated = b.ctxCreated ∧ a.created ≤ b.created)

theorem Launch.notBehind_of_before {a b : Launch} (h : a.before b = true) : a.notBehind b := by
  simp only [Launch.before, Bool.or_eq_true, Bool.and_eq_true, decide_eq_true_eq] at h
  simp only [Launch.notBehind]
  omega

theorem Launch.notBehind_of_not_before {a b : Launch} (h : ¬ a.before b = true) : b.notBehind a := by
  simp only [Launch.before, Bool.or_eq_true, Bool.and_eq_true, decide_eq_true_eq] at h
  simp only [Launch.notBehind]
  omega

theorem Launch.notBehind.trans {a b c : Launch} (h : a.notBehind b) (k : b.notBehind c) : a.notBehind c := by
  simp only [Launch.notBehind] at *
  omega

theorem enterKey_perm (x : Launch) (l : List Launch) : (enterKey x l).Perm (x :: l) := by
  induction l with
  | nil => exact .rfl
  | cons y r ih =>
    rw [enterKey]
    split
    · exact .rfl
    · exact (ih.cons y).trans (.swap x y r)

theorem enterKey_pairwise {x : Launch} {l : List Launch} (h : l.Pairwise Launch.notBehind) : (enterKey x l).Pairwise Launch.notBehind := by
  induction l with
  | nil => exact List.pairwise_singleton _ _
  | cons y r ih =>
    obtain ⟨hy, hr⟩ := List.pairwise_cons.1 h
    rw [enterKey]
    split
    · rename_i hb
      have hxy := Launch.notBehind_of_before hb
      exact List.pairwise_cons.2 ⟨List.forall_mem_cons.2 ⟨hxy, fun z hz => hxy.trans (hy z hz)⟩, h⟩
    · rename_i hb
      refine List.pairwise_cons.2 ⟨fun z hz => ?_, ih hr⟩
      rcases List.mem_cons.1 ((enterKey_perm x r).mem_iff.1 hz) with rfl | hz
      · exact Launch.notBehind_of_not_before hb
      · exact hy z hz

/-- Launches entered one after another into an ordered list. -/
theorem enterKeys (ls : List Launch) {l : List Launch} (h : l.Pairwise Launch.notBehind) :
    (ls.foldl (fun l x => enterKey x l) l).Perm (ls ++ l) ∧ (ls.foldl (fun l x => enterKey x l) l).Pairwise Launch.notBehind := by
  induction ls generalizing l with
  | nil => exact ⟨.rfl, h⟩
  | cons x r ih =>
    obtain ⟨hperm, hpair⟩ := ih (enterKey_pairwise (x := x) h)
    exact ⟨hperm.trans (((enterKey_perm x l).append_left r).trans List.perm_middle), hpair⟩

theorem State.keyOrder_perm (s : State) : s.keyOrder.Perm (s.launches.filter Launch.wants) := by
  have h := (enterKeys (s.launches.filter Launch.wants) List.Pairwise.nil).1
  rwa [List.append_nil] at h

theorem State.keyOrder_pairwise (s : State) : s.keyOrder.Pairwise Launch.notBehind := (enterKeys _ List.Pairwise.nil).2

/-- With no block that waits for its engine, restoring leaves the machine as it is. -/
theorem State.restoreStep_of_none {s : State} (h : ∀ b ∈ s.blocks, b.restoring = none) (id : Nat) : s.restoreStep id = s := by
  rw [State.restoreStep, State.restoreSteps]
  split
  · rfl
  · rename_i b hb
    rw [h b (List.mem_of_find?_eq_some hb)]

theorem State.restoreSteps_of_none {s : State} (h : ∀ b ∈ s.blocks, b.restoring = none) (l : List Block) :
    l.foldl (fun t b => t.restoreStep b.id) s = s := by
  induction l with
  | nil => rfl
  | cons b r ih => rw [List.foldl_cons, State.restoreStep_of_none h, ih]

/-- What a decision comes to where no pass is due and no block is being restored. -/
theorem State.placementDecision_eq {s : State} (hp : s.passDue = []) (hb : ∀ b ∈ s.blocks, b.restoring = none) :
    exec .placementDecision s = .next (s.keyOrder.foldl (fun (acc : State × Reserved) x => acc.1.tryLaunch acc.2 x.head)
      ({ s with placing := false }, [])).1.retryAll := by
  have hpass : s.passes = s := by rw [State.passes, hp, List.foldl_nil]
  change Host.Outcome.next s.passes.placeAll.retryAll = _
  rw [hpass, State.placeAll, State.restoreSteps_of_none hb, List.foldl_map]

/-! ### Placing a fresh block (R40, R254) -/

@[simp] theorem State.clearShares_books (s : State) (b : Block) : (s.clearShares b).books = s.books := by
  refine foldl_keeps State.books (fun t x => ?_) _ s
  rfl

@[simp] theorem State.addGroup_books (s : State) (g : Group) : (s.addGroup g).books = s.books := by
  unfold State.addGroup
  split <;> rfl

@[simp] theorem State.spawn_books (s : State) (ls : List Launch) (b : Nat) (seats : List Seat) : (s.spawn ls b seats).books = s.books := by
  refine foldl_keeps State.books (fun t (x : Seat) => ?_) seats s
  split
  · rfl
  · exact State.addGroup_books _ _

@[simp] theorem State.settle_books (s : State) (l : Launch) (x : Spot) (geyser wait : Bool) : (s.settle l x geyser wait).books = s.books := by
  unfold State.settle
  extract_lets c s1 incs s2 s3 noted e s4 s5 s6
  have h1 : s1.books = s.books := by
    simp only [s1]
    split <;> rfl
  have h3 : s3.books = s2.books := State.books_of_ledger (s2.ensureBeats_ledger l.part l.ctx)
  have h4 : s4.books = s3.books := by
    simp only [s4]
    split
    · exact State.books_of_ledger (State.post_ledger _ _)
    · rfl
  have h6 : s6.books = s5.books := by
    simp only [s6]
    split
    · rfl
    · exact s5.setStates_books l.head 2
  exact h6.trans (h4.trans (h3.trans h1))

/-- The block that a fresh placement adds. -/
def State.freshBlock (s : State) (ls : List Launch) (l : Launch) (x : Spot) (i : Nat) : Block :=
  { id := s.nextId, head := l.head, part := l.part, ctx := l.ctx, index := i, groups := (blockGroups ls).length, cores := x.cores
    bases := x.bases, share := x.share, regs := recordRegs ls, tiles := Vector.replicate 8 0, charge := x.charge, ending := none
    waking := (s.clusterAt x.cl).gated || (s.clusterAt x.cl).gating, restoring := none }

/-- A fresh placement adds one block, behind those there are. -/
theorem State.place_fresh_blocks (s : State) (ls : List Launch) (l : Launch) (x : Spot) (z : Bool) (i : Nat) :
    (s.place ls l (.fresh i) x z).blocks = s.blocks ++ [s.freshBlock ls l x i] := by
  have hcleared : (if l.relaunch = [] then s else s.clearShares (s.freshBlock ls l x i)).books = s.books := by
    split
    · rfl
    · exact s.clearShares_books _
  have hblocks := fun {a b : State} (h : a.books = b.books) => congrArg Prod.fst h
  exact (hblocks ((State.settle_books _ l x z false).trans (State.spawn_books _ ls _ x.seats))).trans
    (congrArg (· ++ [s.freshBlock ls l x i]) (hblocks hcleared))

/-! ### Gated clusters (R399) -/

theorem State.clusterAt_modCluster (s : State) (c d : Nat) (f : Cluster → Cluster) :
    (s.modCluster c f).clusterAt d = if d = c ∧ d < 64 then f (s.clusterAt c) else s.clusterAt d := vget_vset _ _ _ _ _

theorem State.modCluster_sameMemory (s : State) (c : Nat) (f : Cluster → Cluster) : s.sameMemory (s.modCluster c f) :=
  ⟨fun _ => rfl, fun _ => rfl, fun _ _ => rfl, rfl⟩

theorem placementStepsPart : PlacementStepsPart := by
  refine ⟨fun s hp hb => ⟨s.keyOrder, s.keyOrder_perm, s.keyOrder_pairwise, State.placementDecision_eq hp hb⟩,
    fun s ls l x z i => ⟨_, s.place_fresh_blocks ls l x z i, rfl, rfl, rfl, rfl, rfl, rfl⟩, fun s l t0 hl ht h => ?_,
    fun s hcl hu hbk hg hgate => ?_, fun s hcl hw => ?_⟩
  · change execBlockReserving s = _
    simp only [execBlockReserving, hl, ht, h, if_true, State.modBundle]
  · have hidle : ((s.clusterAt s.ev.cl).unitOwner.isEmpty && (s.clusterAt s.ev.cl).bankOwner.isEmpty &&
        !(s.groups.any fun g => coreCluster g.core = s.ev.cl) && !(s.clusterAt s.ev.cl).gated) = true := by
      simpa [hu, hbk, hgate] using hg
    change ∃ t, execClusterGate s = .next t ∧ _
    rw [execClusterGate]
    simp only [hidle, if_true]
    have hiff : ((s.flights.any fun f => coreCluster f.core = s.ev.cl) ||
        s.reqs.any fun r => coreCluster r.core = s.ev.cl && !r.done) = true ↔
        (∃ f ∈ s.flights, coreCluster f.core = s.ev.cl) ∨ ∃ r ∈ s.reqs, coreCluster r.core = s.ev.cl ∧ r.done = false := by
      simp
    split
    · rename_i hbusy
      refine ⟨_, rfl, fun c hc => (s.clusterAt_modCluster _ _ _).trans (if_neg fun h => hc h.1), s.modCluster_sameMemory _ _,
        fun hf hr => ?_, fun _ => (s.clusterAt_modCluster _ _ _).trans (if_pos ⟨rfl, hcl⟩)⟩
      rcases hiff.1 hbusy with ⟨f, hmem, hc⟩ | ⟨r, hmem, hc, hd⟩
      · exact absurd hc (hf f hmem)
      · simp [hr r hmem hc] at hd
    · rename_i hbusy
      exact ⟨_, rfl, fun c hc => (s.clusterAt_modCluster _ _ _).trans (if_neg fun h => hc h.1), s.modCluster_sameMemory _ _,
        fun _ _ => (s.clusterAt_modCluster _ _ _).trans (if_pos ⟨rfl, hcl⟩), fun h => absurd (hiff.2 h) hbusy⟩
  · change ∃ t, execClusterWakeComplete s = .next t ∧ _
    rw [execClusterWakeComplete, if_pos hw]
    refine ⟨_, rfl, ?_, fun _ => rfl, fun _ => rfl, fun _ _ => rfl, rfl⟩
    exact (s.clusterAt_modCluster s.ev.cl s.ev.cl fun k => { k with gated := false, gating := false, waking := false }).trans
      (if_pos ⟨rfl, hcl⟩)

end Sys2Proof.Machine

namespace Sys2Proof
open Machine

/-- Settles O54: a refill reads back the level that it wrote, what a block or launch sets going leaves the scheduler's lists, and the
key order is that of an insertion sort. -/
theorem budgetsAndPlacement : Obligations.BudgetsAndPlacement := ⟨bucketsAndBudgetsPart, placementStepsPart⟩

end Sys2Proof
end

section
namespace Sys2Proof.Machine

/-! ### Registers, predicates and full bits behind a write (R49 to R54, R137) -/

/-- Registers outside the q file read the same behind a shift of it. -/
theorem Group.read_shiftQ_other (g : Group) {sel : Nat} (m : Mask) (f : Lane → Word) (l : Lane) (h : sel < 120 ∨ 124 ≤ sel) :
    (g.shiftQ m f).read sel l = g.read sel l := by
  simp only [Group.read, Group.shiftQ]
  grind

/-- The q file behind a shift: q0 takes the new values, each other register that of the one before it. -/
theorem Group.read_shiftQ_queue (g : Group) {sel : Nat} (m : Mask) (f : Lane → Word) (l : Lane) (hlo : 120 ≤ sel) (hhi : sel < 124) :
    (g.shiftQ m f).read sel l =
      if laneIn m l then (if sel = 120 then f l else g.read (sel - 1) l) else g.read sel l := by
  obtain rfl | rfl | rfl | rfl : sel = 120 ∨ sel = 121 ∨ sel = 122 ∨ sel = 123 := by omega
  all_goals simp [Group.read, Group.shiftQ, vget]; exact Row.update_get _ _ _ _

/-- A write to nul, LANE or the q file is discarded. -/
theorem Group.writeReg_discarded (g : Group) {d : Nat} (m : Mask) (f : Lane → Word) (h : 120 ≤ d) : g.writeReg d m f = g := by
  rw [Group.writeReg, if_neg (by omega), if_neg (by omega), if_neg (by omega)]

/-- A write leaves the q file, nul and LANE. -/
theorem Group.read_writeReg_special (g : Group) {d sel : Nat} (m : Mask) (f : Lane → Word) (l : Lane) (h : 120 ≤ sel) :
    (g.writeReg d m f).read sel l = g.read sel l := by
  by_cases hd : sel = d
  · rw [Group.writeReg_discarded _ _ _ (hd ▸ h)]
  · exact Group.read_writeReg_other g m f hd l

theorem registerWritePart : RegisterWritePart := by
  intro g d sel m f l hsel
  unfold Group.put
  by_cases hq : 120 ≤ sel ∧ sel < 124
  · have hprev : sel ≠ 120 → (g.writeReg d m f).read (sel - 1) l = g.read (sel - 1) l :=
      fun h => Group.read_writeReg_special g m f l (by omega)
    have h124 : sel ≠ 124 := by omega
    have h125 : sel ≠ 125 := by omega
    rw [Group.read_shiftQ_queue _ _ _ _ hq.1 hq.2, Group.read_writeReg_special g m f l hq.1]
    simp only [h124, h125, hq.1, if_true, if_false]
    by_cases h : sel = 120
    · simp [h]
    · rw [hprev h]
  · rw [Group.read_shiftQ_other _ _ _ _ (by omega)]
    by_cases hs : 120 ≤ sel
    · obtain rfl | rfl : sel = 124 ∨ sel = 125 := by omega
      all_goals simp [Group.read]
    · rw [if_neg (by omega), if_neg (by omega), if_neg hs]
      by_cases hd : sel = d
      · subst hd
        rw [if_neg (by simp), Group.read_writeReg_same _ _ _ (by omega)]
        cases lowest m <;> rfl
      · rw [if_pos hd, Group.read_writeReg_other _ _ _ hd]

/-- A lane of two masks joined by and. -/
theorem laneIn_and (a b : Mask) (l : Lane) : laneIn (a &&& b) l = (laneIn a l && laneIn b l) := BitVec.getLsbD_and

/-- A lane of a mask's complement. -/
theorem laneIn_not (a : Mask) (l : Lane) : laneIn (~~~a) l = !laneIn a l := by
  simp [laneIn, l.isLt]

theorem predicateWritePart : PredicateWritePart := by
  intro g n k m f l _ hk
  by_cases h7 : k = 7
  · simp [Group.pred, h7]
  · have hk7 : k < 7 := by omega
    simp only [Group.pred, Group.setPred, h7, if_false, vget_vset, hk7, and_true]
    by_cases hkn : k = n
    · subst hkn
      simp only [if_true, true_and, laneIn_or, laneIn_and, laneIn_not, laneIn_maskOf]
      cases laneIn m l <;> simp
    · simp [hkn]

/-- A bit of a vector behind the marking of one. -/
theorem getLsbD_mark {n : Nat} (b : BitVec n) {j : Nat} (k : Nat) (x : Bool) (hj : j < n) :
    (if x then b ||| (1#n <<< k) else b &&& ~~~(1#n <<< k)).getLsbD j = if j = k then x else b.getLsbD j := by
  by_cases hjk : j = k
  · subst hjk
    cases x <;> simp [hj]
  · cases x <;> simp [hjk, hj]
    all_goals omega

theorem Group.feV_setFull (g : Group) (d : Nat) (x : Bool) {j : Nat} (hj : j < 96) :
    (g.setFull d x).feV.getLsbD j = if j = d then x else g.feV.getLsbD j := by
  unfold Group.setFull
  split
  · exact getLsbD_mark _ _ _ hj
  · refine Eq.trans ?_ (if_neg (by omega)).symm
    repeat' split
    all_goals rfl

theorem Group.feO_setFull (g : Group) (d : Nat) (x : Bool) {j : Nat} (hj : j < 8) :
    (g.setFull d x).feO.getLsbD j = if 112 + j = d then x else g.feO.getLsbD j := by
  unfold Group.setFull
  split
  · exact (if_neg (by omega)).symm
  split
  · refine Eq.trans ?_ (if_neg (by omega)).symm
    split <;> rfl
  split
  · simp only [show 112 + j = d ↔ j = d - 112 by omega]
    exact getLsbD_mark _ _ _ hj
  · exact (if_neg (by omega)).symm

/-- In trap mode the last four selectors of the s file name h0 to h3, which have no full bits. -/
theorem Group.feS_setFull (g : Group) (d : Nat) (x : Bool) {j : Nat} (hj : j < 16) :
    (g.setFull d x).feS.getLsbD j = if 96 + j = d ∧ ¬ (108 ≤ d ∧ g.sp.trap = true) then x else g.feS.getLsbD j := by
  unfold Group.setFull
  split
  · exact (if_neg (by omega)).symm
  split
  · split
    · exact (if_neg (by tauto)).symm
    · rename_i htrap
      simp only [show 96 + j = d ↔ j = d - 96 by omega, htrap, not_false_eq_true, and_true]
      exact getLsbD_mark _ _ _ hj
  · refine Eq.trans ?_ (if_neg (by omega)).symm
    split <;> rfl

/-- A register's full bit behind the marking of one. -/
theorem Group.full_setFull (g : Group) {d sel : Nat} (x : Bool) (h : sel < 120) (ht : g.sp.trap = false) :
    (g.setFull d x).full sel = if sel = d then x else g.full sel := by
  simp only [Group.full, Group.setFull_sp, ht, Bool.false_eq_true, and_false, if_false]
  by_cases hv : sel < 96
  · simp only [hv, if_true, Group.feV_setFull]
  by_cases hs : sel < 112
  · simp only [hv, hs, if_true, if_false, Group.feS_setFull _ _ _ (show sel - 96 < 16 by omega), ht, Bool.false_eq_true, and_false,
      not_false_eq_true, and_true, show 96 + (sel - 96) = sel by omega]
  · simp only [hv, hs, h, if_true, if_false, Group.feO_setFull _ _ _ (show sel - 112 < 8 by omega),
      show 112 + (sel - 112) = sel by omega]

theorem fullBitsPart : FullBitsPart := by
  intro g d sel offs x hsel ht
  refine ⟨?_, rfl, rfl, rfl⟩
  unfold Group.setFulls
  by_cases hd : d = 124
  · simp [hd]
  · simp only [hd, if_false, not_false_eq_true, ne_eq, true_and]
    induction offs generalizing g with
    | nil => simp
    | cons k r ih =>
      rw [List.foldl_cons, ih _ (by simp [ht]), Group.full_setFull g x hsel ht]
      by_cases hk : sel = d + k <;> simp [hk]

end Sys2Proof.Machine

namespace Sys2Proof
open Machine

/-- Settles O31: a write reads back in the lanes that it reaches, a shift moves the q file by one, and full bits are marked one by one. -/
theorem registerFile : Obligations.RegisterFile := ⟨registerWritePart, predicateWritePart, fullBitsPart⟩

end Sys2Proof
end

section
namespace Sys2Proof.Machine

/-! ### Empty registers at issue (R55, R353, R357) -/

/-- The instruction passes the checks of causes 0x02 to 0x04 (R353). -/
structure State.legalUse (s : State) (i : Instr) : Prop where
  encoding : s.encodingBad i = false
  operands : ∀ u ∈ uses i, u.ok s.regLimit = true
  predicates : predOk i = true
  named : s.useBad i = false
  mode : s.privileged i = true

/-- A register or a record that makes an instruction wait holds it at its place. -/
theorem State.legalUse.run_blocks {s : State} {i : Instr} (h : s.legalUse i) (hl : s.noLane = false) (hb : s.blocksOn i = true)
    (body : State → Out) : run i s body = .next (s.park (s.registerWait i)) := by
  have ho : ((uses i).all fun u => u.ok s.regLimit) = true := List.all_eq_true.2 h.operands
  simp [run, gate, hl, h.encoding, ho, h.predicates, h.named, h.mode, hb]

/-- With nothing to wait for, an empty register whose field asks for it traps. -/
theorem State.legalUse.run_traps {s : State} {i : Instr} (h : s.legalUse i) (hl : s.noLane = false) (hb : s.blocksOn i = false)
    {sel field : Nat} (ht : s.trapsOn i = some (sel, field)) (body : State → Out) : run i s body =
      .next (s.takeTrap (if s.valueBad i then s.illegal i 0x03 else s.frame 0x05 field (BitVec.ofNat 32 sel) 0 0 0)) := by
  have ho : ((uses i).all fun u => u.ok s.regLimit) = true := List.all_eq_true.2 h.operands
  simp [run, gate, hl, h.encoding, ho, h.predicates, h.named, h.mode, hb, ht]

theorem State.blocksOn_of_use {s : State} {i : Instr} {u : Use} (hu : u ∈ uses i) (ht : u.trap = false)
    (he : s.useEmpty u = true) : s.blocksOn i = true := by
  simp only [State.blocksOn, Bool.or_eq_true, List.any_eq_true]
  exact .inl ⟨u, hu, by simp [ht, he]⟩

theorem State.blocksOn_of_record {s : State} {i : Instr} {n : Nat} (hn : recordOf i = some n)
    (hp : s.g.bPend.getLsbD n = true) : s.blocksOn i = true := by
  simp [State.blocksOn, hn, hp]

theorem State.blocksOn_none {s : State} {i : Instr} (hu : ∀ u ∈ uses i, u.trap = false → s.useEmpty u = false)
    (hp : ∀ n, recordOf i = some n → s.g.bPend.getLsbD n = false) : s.blocksOn i = false := by
  simp only [State.blocksOn, Bool.or_eq_false_iff, List.any_eq_false]
  refine ⟨fun u hm => ?_, ?_⟩
  · have := hu u hm
    cases ht : u.trap <;> simp_all
  · cases hr : recordOf i with
    | none => rfl
    | some n => exact hp n hr

theorem State.registerWait_empty {s : State} {i : Instr} (hp : ∀ n, recordOf i = some n → s.g.bPend.getLsbD n = false) :
    s.registerWait i = .empty true := by
  have hn : ((recordOf i).any fun n => s.g.bPend.getLsbD n) = false := by
    cases hr : recordOf i with
    | none => rfl
    | some n => exact hp n hr
  simp [State.registerWait, hn]

theorem State.registerWait_record {s : State} {i : Instr} {n : Nat} (hn : recordOf i = some n)
    (hp : s.g.bPend.getLsbD n = true) : s.registerWait i = .record true := by
  simp [State.registerWait, hn, hp]

/-- The register that the empty-read trap names is empty. -/
theorem State.trapsOn_empty {s : State} {i : Instr} {sel field : Nat} (h : s.trapsOn i = some (sel, field)) :
    s.g.full sel = false := by
  obtain ⟨u, _, hu⟩ := List.exists_of_findSome?_eq_some h
  split at hu
  · obtain ⟨k, hk, hsel⟩ := Option.map_eq_some_iff.1 hu
    have hempty := List.find?_some hk
    obtain ⟨rfl, -⟩ := Prod.mk.inj hsel
    simpa using hempty
  · cases hu

theorem emptyRegisterPart : EmptyRegisterPart := by
  intro i s henc hl hbad hops hpred hnamed hmode
  have hpass : s.legalUse i := ⟨hbad, hops, hpred, hnamed, hmode⟩
  by_cases hxm : ∃ d e x r b m a n, i = .xm d e x r b m a n
  · obtain ⟨d, e, x, r, b, m, a, n, rfl⟩ := hxm
    refine ⟨fun ⟨u, hu, _⟩ => ?_, fun ⟨n, hn, _⟩ => ?_, fun sel field _ _ ht => ?_⟩
    · cases hu
    · cases hn
    · cases ht
  · obtain ⟨body, hrun⟩ := exec_run i s henc fun d e x r b m a n h => hxm ⟨d, e, x, r, b, m, a, n, h⟩
    refine ⟨fun ⟨u, hu, ht, he⟩ hp => ?_, fun ⟨n, hn, hp⟩ => ?_, fun sel field hu hp ht => ⟨State.trapsOn_empty ht, fun hv => ?_, fun hv => ?_⟩⟩
    · rw [hrun, hpass.run_blocks hl (State.blocksOn_of_use hu ht he), State.registerWait_empty hp]
      rfl
    · rw [hrun, hpass.run_blocks hl (State.blocksOn_of_record hn hp), State.registerWait_record hn hp]
      rfl
    · rw [hrun, hpass.run_traps hl (State.blocksOn_none hu hp) ht, hv]
      rfl
    · rw [hrun, hpass.run_traps hl (State.blocksOn_none hu hp) ht, hv]
      rfl

theorem reissueForNoLanePart : ReissueForNoLanePart := by
  intro i s d henc hxm hre hmask
  obtain ⟨body, hrun⟩ := exec_run i s henc hxm
  have hno : s.noLane = true := by simp [State.noLane, hre, hmask]
  rw [hrun, run_noLane hno]
  rfl

end Sys2Proof.Machine

namespace Sys2Proof
open Machine

/-- Settles O8: every instruction but XM, which names no register, runs a body behind the checks at issue. -/
theorem emptyRegistersAndReissue : Obligations.EmptyRegistersAndReissue := ⟨emptyRegisterPart, reissueForNoLanePart⟩

end Sys2Proof
end

section
namespace Sys2Proof.Machine

/-! ### Atomics as they issue (R54, R123, R198) -/

theorem Group.readWords_one (g : Group) (d : Nat) (l : Lane) : g.readWords d l 1 = (g.readWord d 0 l).toNat := by
  simp [Group.readWords]

theorem Group.readWords_two (g : Group) (d : Nat) (l : Lane) :
    g.readWords d l 2 = (g.readWord d 0 l).toNat + (g.readWord d 1 l).toNat * 2 ^ 32 := by
  simp [Group.readWords]

theorem Group.readWords_four (g : Group) (d : Nat) (l : Lane) :
    g.readWords d l 4 = (g.readWord d 0 l).toNat + (g.readWord d 1 l).toNat * 2 ^ 32 + (g.readWord d 2 l).toNat * 2 ^ 64 +
      (g.readWord d 3 l).toNat * 2 ^ 96 := by
  simp [Group.readWords]

/-- How an atomic looks a lane up: in the scratchpad at .blk and .clu, through the record at .dev and .sys (R123, R198). -/
def State.atomicLook (s : State) (k : BitVec 2) (x : BitVec 8) (r : BitVec 5) (a : Access) (width : Nat) (l : Lane) :
    (LaneRes × Nat) × State :=
  if k.toNat < 2 then (s.laneSpm s.g (s.srcOf x l).toNat width (decide (k = 0)), s)
  else s.laneRecord s.g a (s.g.record r) (s.srcOf x l).toNat width

section
variable {s : State} {i : Instr} {k : BitVec 2} {x : BitVec 8} {r : BitVec 5} {d : BitVec 7} {major minor n : Nat} {ret : Bool}
  {tgt : Lane → Target × Nat}

/-- An atomic whose look-ups all find their places is issued with its operand. -/
theorem State.issues.atomicOp_eq (h : s.issues i) (hsz : i.size = 4) (hc : casMinor major minor = false)
    (hl : LooksUp s (s.atomicLook k x r (.atomic major minor (4 * n) k.toNat ret) (4 * n)) tgt) :
    atomicOp i s k x r d major minor (4 * n) ret = .next (issued s (.atomic major minor (4 * n) k.toNat ret)
      (if ret then d else 0x7C) (if ret then List.range n else []) (fun l => s.srcOf x l) (fun l => s.g.readWords d.toNat l n)
      (fun _ => 0) tgt) := by
  have hn : regsOf (4 * n) = n := by unfold regsOf; omega
  rw [atomicOp, h.laneMemory_eq, issueBody_issued _ tgt hsz hl rfl (by simp [Access.snaps])]
  simp only [hc, hn, Bool.false_eq_true, if_false]
  rfl

/-- CAS takes the compare value first and the new one from the registers behind it (R198). -/
theorem State.issues.atomicOp_cas (h : s.issues i) (hsz : i.size = 4) (hc : casMinor major minor = true)
    (hl : LooksUp s (s.atomicLook k x r (.atomic major minor (4 * n) k.toNat ret) (4 * n)) tgt) :
    atomicOp i s k x r d major minor (4 * n) ret = .next (issued s (.atomic major minor (4 * n) k.toNat ret)
      (if ret then d else 0x7C) (if ret then List.range n else []) (fun l => s.srcOf x l)
      (fun l => s.g.readWords d.toNat l (2 * n) / 2 ^ (32 * n)) (fun l => s.g.readWords d.toNat l n) tgt) := by
  have hn : regsOf (4 * n) = n := by unfold regsOf; omega
  rw [atomicOp, h.laneMemory_eq, issueBody_issued _ tgt hsz hl rfl (by simp [Access.snaps])]
  simp only [hc, hn, if_true, show 8 * (4 * n) = 32 * n by omega]
  rfl

end

end Sys2Proof.Machine

namespace Sys2Proof
open Machine

/-- Settles O33: all atomics run one operation, whose look-ups find their places. -/
theorem atomicsIssue : Obligations.AtomicsIssue := by
  intro k x r d s tgt idx low high z look atom red cas
  have hlow : ∀ n, n = 1 ∨ n = 2 → (fun l => s.g.readWords d.toNat l n) = low n := by
    rintro n (rfl | rfl)
    · exact funext fun l => Group.readWords_one _ _ _
    · exact funext fun l => Group.readWords_two _ _ _
  have hhigh : ∀ n, n = 1 ∨ n = 2 → (fun l => s.g.readWords d.toNat l (2 * n) / 2 ^ (32 * n)) = high n := by
    rintro n (rfl | rfl)
    all_goals funext l
    · rw [Group.readWords_two]
      have := (s.g.readWord d.toNat 0 l).isLt
      simp only [high]
      omega
    · rw [Group.readWords_four]
      have := (s.g.readWord d.toNat 0 l).isLt
      have := (s.g.readWord d.toNat 1 l).isLt
      simp only [high]
      omega
  have hatom : ∀ {i : Instr} {major minor n : Nat}, n = 1 ∨ n = 2 → i.size = 4 → casMinor major minor = false →
      exec i s = atomicOp i s k x r d major minor (4 * n) true → atom i major minor n := by
    intro i major minor n hn hsz hc he h hl
    rw [he, h.atomicOp_eq hsz hc hl, hlow n hn]
    rfl
  have hred : ∀ {i : Instr} {major minor n : Nat}, n = 1 ∨ n = 2 → i.size = 4 → casMinor major minor = false →
      exec i s = atomicOp i s k x r d major minor (4 * n) false → red i major minor n := by
    intro i major minor n hn hsz hc he h hl
    rw [he, h.atomicOp_eq hsz hc hl, hlow n hn]
    rfl
  have hcas : ∀ {i : Instr} {major minor n : Nat}, n = 1 ∨ n = 2 → i.size = 4 → casMinor major minor = true →
      exec i s = atomicOp i s k x r d major minor (4 * n) true → cas i major minor n := by
    intro i major minor n hn hsz hc he h hl
    rw [he, h.atomicOp_cas hsz hc hl, hlow n hn, hhigh n hn]
    rfl
  have word : (1 : Nat) = 1 ∨ 1 = 2 := .inl rfl
  have pair : (2 : Nat) = 1 ∨ 2 = 2 := .inr rfl
  exact ⟨hatom word rfl rfl rfl, hatom word rfl rfl rfl, hatom word rfl rfl rfl, hatom word rfl rfl rfl, hatom word rfl rfl rfl,
    hatom word rfl rfl rfl, hatom word rfl rfl rfl, hcas word rfl rfl rfl, hatom word rfl rfl rfl, hatom pair rfl rfl rfl,
    hcas pair rfl rfl rfl, hatom pair rfl rfl rfl, hatom word rfl rfl rfl, hatom word rfl rfl rfl, hatom word rfl rfl rfl,
    hatom pair rfl rfl rfl, hred word rfl rfl rfl, hred word rfl rfl rfl, hred word rfl rfl rfl, hred word rfl rfl rfl,
    hred word rfl rfl rfl, hred word rfl rfl rfl, hred word rfl rfl rfl, hred word rfl rfl rfl, hred pair rfl rfl rfl,
    hred pair rfl rfl rfl, hred word rfl rfl rfl, hred word rfl rfl rfl, hred word rfl rfl rfl, hred pair rfl rfl rfl⟩

end Sys2Proof
end

section
namespace Sys2Proof.Machine

/-! ### PREF of hint 1 (R196) -/

/-- A group whose b1 is a valid record of one byte at 0x10100, which its partition maps: the machine that the refutation names. -/
def prefetching : State :=
  (State.reset.seat 32 1).modG fun g => { g with b := vset g.b 1 (BitVec.ofNat 128 (0x10100 + 2 ^ 56)) }

theorem prefetching_issues : prefetching.issues (.pref 1 0 1) where
  legal := rfl
  modifier := rfl
  window := .inl rfl
  operands := by decide +kernel
  predicates := rfl
  named := rfl
  mode := rfl
  full := by decide +kernel
  records := by
    rintro n ⟨⟩
    decide +kernel
  lanes := rfl

/-- The lines that the home slices hold behind an instruction. -/
def slicesAfter : Out → List SliceLine
  | .next t => t.slices
  | _ => []

/-- PREF of hint 1 brings the line that holds 0x10100 into its home slice. -/
theorem prefetching_slices : slicesAfter (exec (.pref 1 0 1) prefetching) = [{ line := 0x202, way := 0, dirty := false }] := by
  decide +kernel

end Sys2Proof.Machine

namespace Sys2Proof
open Machine

/-- Refutes O32: PREF of hint 1 does more than go past itself, since it brings its lanes' lines into their home slices (R196). -/
theorem not_loadsAndStoresIssue : ¬ Obligations.LoadsAndStoresIssue := by
  rintro ⟨-, hstores, -⟩
  obtain ⟨-, -, -, -, -, -, -, -, -, -, hpref, -⟩ := hstores 1 0 1 0 prefetching fun _ => (.dev 0, 0)
  have hpast : exec (.pref 1 0 1) prefetching = .next (prefetching.movedTo (prefetching.g.sp.pc + 4)) :=
    hpref prefetching_issues (.inl rfl)
  have hnone : slicesAfter (exec (.pref 1 0 1) prefetching) = [] := by rw [hpast]; rfl
  rw [prefetching_slices] at hnone
  cases hnone

end Sys2Proof
end

section
namespace Sys2Proof
open Machine

/-! ### Accesses through a record (R57 to R59, R354) -/

/-- Settles O35: the checks of an access through a record stand in this order in its definition. -/
theorem recordChecks : Obligations.RecordChecks := by
  intro s g a r i width
  have hcov : recordCovers r i width = decide (i + max (width / recElem r) 1 ≤ recExtent r) := rfl
  refine ⟨fun hv => ?_, fun hv hx => ?_, fun hv hx ha => ?_, fun hv hx ha hh => ?_, fun hsw => ?_, Nat.mod_lt _ (by decide)⟩
  · simp [State.laneRecord, hv]
  · simp [State.laneRecord, hv, hcov, Nat.not_le.2 hx]
  · simp [State.laneRecord, hv, hcov, hx, ha]
  · simp [State.laneRecord, hv, hcov, hx, ha, hh]
  · simp [recordEa, hsw, recBase, recElem]

end Sys2Proof
end

section
namespace Sys2Proof.Machine

/-! ### Lists without repeats -/

/-- Erasing repeats leaves none. -/
theorem nodup_eraseDups {α : Type} [DecidableEq α] (l : List α) : l.eraseDups.Nodup := by
  induction hn : l.length using Nat.strongRecOn generalizing l with
  | _ n ih =>
    cases l with
    | nil => simp
    | cons a r =>
      have hlt : (r.filter fun b => !b == a).length < n := by
        rw [← hn, List.length_cons]
        exact Nat.lt_succ_of_le (List.length_filter_le _ _)
      rw [List.eraseDups_cons, List.nodup_cons]
      exact ⟨by simp [List.mem_eraseDups], ih _ hlt _ rfl⟩

/-! ### One core among the others -/

theorem State.coreAt_modCore (s : State) (c d : Nat) (f : Core → Core) :
    (s.modCore c f).coreAt d = if d = c ∧ d < 256 then f (s.coreAt c) else s.coreAt d := vget_vset _ _ _ _ _

theorem State.coreAt_modCore_same {s : State} {c : Nat} (f : Core → Core) (h : c < 256) :
    (s.modCore c f).coreAt c = f (s.coreAt c) := by rw [State.coreAt_modCore, if_pos ⟨rfl, h⟩]

theorem State.modCore_modCore (s : State) (c : Nat) (f g : Core → Core) :
    (s.modCore c f).modCore c g = s.modCore c fun k => g (f k) := by
  by_cases h : c < 256
  · simp only [State.modCore]
    rw [show ({ s with cores := vset s.cores c (f (s.coreAt c)) } : State).coreAt c = f (s.coreAt c) from State.coreAt_modCore_same f h]
    simp [vset, Vector.setIfInBounds_setIfInBounds]
  · have hout : ∀ (v : Vector Core 256) (x : Core), vset v c x = v := fun v x => by
      apply Vector.ext
      intro i hi
      simp only [vset]
      rw [Vector.getElem_setIfInBounds_ne]
      omega
    simp only [State.modCore, hout]

/-! ### What an access changes that only a core's L1 can tell -/

/-- A machine that differs from another in what L1s hold and in what is counted. -/
def State.cachesOnly (s t : State) : Prop :=
  (∃ cs ds, t = { s with cores := cs, dies := ds }) ∧ ∀ c, (t.coreAt c).scratch = (s.coreAt c).scratch

theorem State.cachesOnly.refl (s : State) : s.cachesOnly s := ⟨⟨_, _, rfl⟩, fun _ => rfl⟩

theorem State.cachesOnly.trans {s t u : State} (h : s.cachesOnly t) (k : t.cachesOnly u) : s.cachesOnly u := by
  obtain ⟨⟨cs, ds, rfl⟩, hscr⟩ := h
  obtain ⟨⟨cs', ds', rfl⟩, kscr⟩ := k
  exact ⟨⟨_, _, rfl⟩, fun c => (kscr c).trans (hscr c)⟩

theorem State.cachesOnly.sameMemory {s t : State} (h : s.cachesOnly t) : s.sameMemory t := by
  obtain ⟨⟨cs, ds, rfl⟩, hscr⟩ := h
  exact ⟨fun _ => rfl, fun _ => rfl, fun c a => by rw [hscr], rfl⟩

theorem State.modCore_cachesOnly (s : State) (c : Nat) {f : Core → Core} (hf : ∀ k, (f k).scratch = k.scratch) :
    s.cachesOnly (s.modCore c f) := by
  refine ⟨⟨_, _, rfl⟩, fun d => ?_⟩
  rw [State.coreAt_modCore]
  split
  · rename_i h
    rw [hf, h.1]
  · rfl

/-- A miss in a core's L1 is counted (R366). -/
theorem State.tally_miss_cachesOnly (s : State) (core die : Nat) : s.cachesOnly (s.tally 5 1 (some core) die) :=
  (s.modCore_cachesOnly core (f := fun k => { k with cnt := bump k.held k.sel k.cnt 5 1 }) fun _ => rfl).trans
    ⟨⟨_, _, rfl⟩, fun _ => rfl⟩

theorem State.tally_miss_l1 (s : State) (core die c : Nat) : ((s.tally 5 1 (some core) die).coreAt c).l1 = (s.coreAt c).l1 := by
  change ((s.modCore core fun k => { k with cnt := bump k.held k.sel k.cnt 5 1 }).coreAt c).l1 = _
  rw [State.coreAt_modCore]
  split
  · rename_i h
    rw [h.1]
  · rfl

theorem State.acquire_cachesOnly (s : State) (core : Nat) : s.cachesOnly (s.acquire core) := s.modCore_cachesOnly core fun _ => rfl

/-! ### A core whose L1 holds nothing dirty -/

/-- No line of a core's L1 is dirty. -/
def State.l1Clean (s : State) (core : Nat) : Prop := ∀ x ∈ (s.coreAt core).l1, x.dirty = 0

theorem Core.line_mem {c : Core} {ln : Nat} {x : L1Line} (h : c.line ln = some x) : x ∈ c.l1 := List.mem_of_find?_eq_some h

theorem Core.line_eq_none {c : Core} {ln : Nat} : c.line ln = none ↔ ∀ x ∈ c.l1, x.line ≠ ln := by
  simp [Core.line, List.find?_eq_none]

theorem State.l1Clean.ownDirty {s : State} {core : Nat} (h : s.l1Clean core) (ln : Nat) : s.ownDirty core ln = false := by
  unfold State.ownDirty
  cases hl : (s.coreAt core).line ln with
  | none => rfl
  | some x => simp [h x (Core.line_mem hl)]

theorem State.l1Clean.settleLine {s : State} {core : Nat} (h : s.l1Clean core) (ln : Nat) : s.settleLine core ln = s := by
  unfold State.settleLine
  cases hl : (s.coreAt core).line ln with
  | none => rfl
  | some x => simp [h x (Core.line_mem hl)]

theorem State.l1Clean.modCore {s : State} {core : Nat} (h : s.l1Clean core) {f : Core → Core}
    (hf : ∀ x ∈ (f (s.coreAt core)).l1, x.dirty = 0) : (s.modCore core f).l1Clean core := by
  unfold State.l1Clean
  rw [State.coreAt_modCore]
  split
  · exact hf
  · exact h

theorem Core.shareLine_clean {c : Core} {ln : Nat} (owned : Nat → Bool) (h : ∀ x ∈ c.l1, x.dirty = 0) :
    ∀ x ∈ (c.shareLine ln owned).l1, x.dirty = 0 := by
  intro x hx
  obtain ⟨y, hy, rfl⟩ := List.mem_map.1 hx
  split
  · rfl
  · exact h y hy

theorem Core.shareLine_filter (c : Core) (ln : Nat) (owned : Nat → Bool) :
    ((c.shareLine ln owned).l1.filter fun z => z.line ≠ ln) = c.l1.filter fun z => z.line ≠ ln := by
  unfold Core.shareLine
  induction c.l1 with
  | nil => rfl
  | cons y r ih =>
    by_cases hy : y.line = ln <;> simpa [hy] using ih

/-- A line that is not left dirty leaves the L1. -/
theorem State.evict_eq {s : State} {core : Nat} {y : L1Line} (h : (s.writeBack core y).ownDirty core y.line = false) :
    s.evict core y = (s.writeBack core y).modCore core fun c => { c with l1 := c.l1.filter fun z => z.line ≠ y.line } :=
  if_neg (by simp [h])

/-- A line without dirty words leaves the L1 without a write. -/
theorem State.l1Clean.evict {s : State} {core : Nat} {y : L1Line} (h : s.l1Clean core) (hy : y.dirty = 0) :
    s.evict core y = s.modCore core fun c => { c with l1 := c.l1.filter fun z => z.line ≠ y.line } := by
  cases ho : y.own with
  | none =>
    have hw : s.writeBack core y = s := by simp [State.writeBack, ho]
    rw [State.evict_eq (by rw [hw, h.ownDirty]), hw]
  | some o =>
    have hw : s.writeBack core y =
        s.modCore core fun c => c.shareLine y.line fun w => decide (s.ownerOf (32 * y.line + w) = some core) := by
      simp [State.writeBack, ho, hy]
    have hclean : (s.writeBack core y).l1Clean core := hw ▸ h.modCore (Core.shareLine_clean _ h)
    rw [State.evict_eq (hclean.ownDirty _), hw, State.modCore_modCore]
    simp only [Core.shareLine_filter]
    rfl

theorem victim_mem {l : List L1Line} {y : L1Line} (h : victim l = some y) : y ∈ l := by
  rw [← List.mem_reverse]
  unfold victim at h
  dsimp only at h
  split at h
  · rename_i x hx
    exact Option.some.inj h ▸ List.mem_of_find?_eq_some hx
  · split at h
    · rename_i x hx
      exact Option.some.inj h ▸ List.mem_of_find?_eq_some hx
    · exact List.mem_of_head? h

/-- The L1 of a core when a line enters: the line ahead of the others. -/
def Core.enter (c : Core) (x : L1Line) : List L1Line := x :: c.l1.filter fun y => y.line ≠ x.line

/-- With room in its set a line enters, and none leaves. -/
theorem State.l1Put_room {s : State} {core : Nat} (x : L1Line) (hc : core < 256)
    (h : (((s.coreAt core).enter x).filter fun y => y.line % 128 = x.line % 128).length ≤ 12) :
    s.l1Put core x = s.modCore core fun c => { c with l1 := c.enter x } := by
  have hset : (((s.modCore core fun c => { c with l1 := c.enter x }).coreAt core).l1.filter fun y => y.line % 128 = x.line % 128).length ≤ 12 := by
    rw [State.coreAt_modCore_same _ hc]
    exact h
  exact if_pos hset

/-- A clean line enters a clean L1: at most one other line leaves, without a write. -/
theorem State.l1Clean.l1Put {s : State} {core : Nat} {x : L1Line} (h : s.l1Clean core) (hx : x.dirty = 0) :
    ∃ p : L1Line → Bool, s.l1Put core x = s.modCore core fun c => { c with l1 := (c.enter x).filter p } := by
  have henter : ∀ y ∈ (s.coreAt core).enter x, y.dirty = 0 := by
    intro y hy
    rcases List.mem_cons.1 hy with rfl | hy
    · exact hx
    · exact h y (List.mem_of_mem_filter hy)
  have hclean : (s.modCore core fun c => { c with l1 := c.enter x }).l1Clean core := h.modCore henter
  have hall : ∃ p : L1Line → Bool, (s.modCore core fun c => { c with l1 := c.enter x }) =
      s.modCore core fun c => { c with l1 := (c.enter x).filter p } := ⟨fun _ => true, by simp⟩
  have hput := State.l1Put.eq_1 s core x
  dsimp only at hput
  rw [hput]
  split
  · exact hall
  cases hv : victim _ with
  | none => exact hall
  | some y =>
    have hy0 : y.dirty = 0 := hclean y (List.mem_of_mem_filter (List.mem_of_mem_filter (victim_mem hv)))
    have hout : (s.modCore core fun c => { c with l1 := c.enter x }).evict core y =
        s.modCore core fun c => { c with l1 := (c.enter x).filter fun z => z.line ≠ y.line } := by
      rw [hclean.evict hy0, State.modCore_modCore]
    have hout' : ((s.modCore core fun c => { c with l1 := c.enter x }).evict core y).l1Clean core :=
      hout ▸ h.modCore fun z hz => henter z (List.mem_filter.1 hz).1
    exact ⟨_, Eq.trans (if_neg (ne_true_of_eq_false (hout'.ownDirty _))) hout⟩

/-- Entering a clean line keeps a clean L1 clean. -/
theorem State.l1Clean.l1Put_clean {s : State} {core : Nat} {x : L1Line} (h : s.l1Clean core) (hx : x.dirty = 0) :
    (s.l1Put core x).l1Clean core := by
  obtain ⟨p, hp⟩ := h.l1Put hx
  rw [hp]
  refine h.modCore fun y hy => ?_
  rcases List.mem_cons.1 (List.mem_of_mem_filter hy) with rfl | hy
  · exact hx
  · exact h y (List.mem_of_mem_filter hy)

theorem State.l1Clean.l1Put_cachesOnly {s : State} {core : Nat} {x : L1Line} (h : s.l1Clean core) (hx : x.dirty = 0) :
    s.cachesOnly (s.l1Put core x) := by
  obtain ⟨p, hp⟩ := h.l1Put hx
  rw [hp]
  exact s.modCore_cachesOnly core fun _ => rfl

/-- No other line comes into the L1. -/
theorem State.l1Clean.l1Put_line {s : State} {core ln : Nat} {x : L1Line} (h : s.l1Clean core) (hx : x.dirty = 0)
    (hne : x.line ≠ ln) (hln : ((s.coreAt core).line ln) = none) : ((s.l1Put core x).coreAt core).line ln = none := by
  obtain ⟨p, hp⟩ := h.l1Put hx
  rw [hp, State.coreAt_modCore]
  split
  · rw [Core.line_eq_none] at hln ⊢
    intro y hy
    rcases List.mem_cons.1 (List.mem_of_mem_filter hy) with rfl | hy
    · exact hne
    · exact hln y (List.mem_of_mem_filter hy)
  · exact hln

/-- What a line holds follows the home slice: its number and whether it is dirty stay. -/
theorem State.refreshLine_cachesOnly (s : State) (core ln : Nat) : s.cachesOnly (s.refreshLine core ln) := by
  unfold State.refreshLine
  exact s.modCore_cachesOnly core fun _ => rfl

theorem State.l1Clean.refreshLine {s : State} {core : Nat} (h : s.l1Clean core) (ln : Nat) : (s.refreshLine core ln).l1Clean core := by
  refine h.modCore fun x hx => ?_
  obtain ⟨y, hy, rfl⟩ := List.mem_map.1 hx
  split <;> exact h y hy

theorem State.refreshLine_line {s : State} {core ln' : Nat} (ln : Nat) (h : (s.coreAt core).line ln' = none) :
    ((s.refreshLine core ln).coreAt core).line ln' = none := by
  unfold State.refreshLine
  rw [State.coreAt_modCore]
  split
  · rw [Core.line_eq_none] at h ⊢
    intro x hx
    obtain ⟨y, hy, rfl⟩ := List.mem_map.1 hx
    split <;> exact h y hy
  · exact h

/-! ### Loads of lines that the L1 does not hold (R59, R64, R72) -/

theorem State.homeRow_of_dev {s t : State} (h : t.dev = s.dev) (ln : Nat) : t.homeRow ln = s.homeRow ln := by
  unfold State.homeRow
  rw [h]

theorem State.cachesOnly.dev {s t : State} (h : s.cachesOnly t) : t.dev = s.dev := by
  obtain ⟨⟨_, _, rfl⟩, _⟩ := h
  rfl

/-- A miss: the line comes from the home slice. -/
theorem State.l1Clean.loadLine_miss {s : State} {core ln : Nat} (h : s.l1Clean core) (hln : (s.coreAt core).line ln = none)
    (need : BitVec 32) (hint : Nat) : ∃ t, s.loadLine core ln need hint = (s.homeRow ln, t) ∧ s.cachesOnly t ∧ t.l1Clean core ∧
      ∀ ln', ln ≠ ln' → (s.coreAt core).line ln' = none → (t.coreAt core).line ln' = none := by
  have hc := s.tally_miss_cachesOnly core (coreDie core)
  have hl1 := s.tally_miss_l1 core (coreDie core) core
  have hclean : (s.tally 5 1 (some core) (coreDie core)).l1Clean core := by
    unfold State.l1Clean
    rw [hl1]
    exact h
  have hline : ∀ n, (s.coreAt core).line n = none → ((s.tally 5 1 (some core) (coreDie core)).coreAt core).line n = none := by
    intro n hn
    rw [Core.line_eq_none] at hn ⊢
    rw [hl1]
    exact hn
  have hrow := State.homeRow_of_dev hc.dev ln
  unfold State.loadLine
  simp only [h.settleLine, hln, hrow]
  by_cases h2 : hint = 2
  · simp only [h2, if_true]
    exact ⟨_, rfl, hc.trans (State.refreshLine_cachesOnly _ _ _), hclean.refreshLine ln, fun n _ hn => State.refreshLine_line ln (hline n hn)⟩
  · simp only [h2, if_false]
    exact ⟨_, rfl, hc.trans (hclean.l1Put_cachesOnly rfl), hclean.l1Put_clean rfl, fun n hne hn => hclean.l1Put_line rfl hne (hline n hn)⟩

/-- The lines of a load that all miss, each as it stands at its home slice. -/
theorem State.l1Clean.loadRows_miss {core hint : Nat} {need : Nat → BitVec 32} {lines : List Nat} (hnd : lines.Nodup) {s : State}
    (h : s.l1Clean core) (hln : ∀ ln ∈ lines, (s.coreAt core).line ln = none) :
    ∃ t, loadRows core hint need lines s = (lines.map fun ln => (ln, s.homeRow ln), t) ∧ s.cachesOnly t := by
  induction lines generalizing s with
  | nil => exact ⟨s, rfl, .refl s⟩
  | cons ln r ih =>
    obtain ⟨hnotin, hnd⟩ := List.nodup_cons.1 hnd
    obtain ⟨t, ht, hst, hclean, hkeep⟩ := h.loadLine_miss (hln ln List.mem_cons_self) (need ln) hint
    obtain ⟨u, hu, htu⟩ := ih hnd hclean fun n hn =>
      hkeep n (fun he => hnotin (he ▸ hn)) (hln n (List.mem_cons_of_mem _ hn))
    refine ⟨u, ?_, hst.trans htu⟩
    simp only [loadRows, ht, hu, List.map_cons, State.homeRow_of_dev hst.dev]

end Sys2Proof.Machine
end

section
namespace Sys2Proof.Machine

/-! ### One step that performs every lane of a flight (R72) -/

theorem modFirst_find? {α : Type} {p : α → Bool} {g : α → α} {l : List α} {a : α} (h : l.find? p = some a) (hg : p (g a) = true) :
    (modFirst p g l).find? p = some (g a) := by
  induction l with
  | nil => exact absurd h (by simp)
  | cons x r ih =>
    by_cases hx : p x = true
    · rw [List.find?_cons_of_pos hx] at h
      obtain rfl := Option.some.inj h
      rw [modFirst, if_pos hx, List.find?_cons_of_pos hg]
    · rw [List.find?_cons_of_neg hx] at h
      rw [modFirst, if_neg hx, List.find?_cons_of_neg hx]
      exact ih h

theorem State.flight_id {s : State} {n : Nat} {f : Flight} (h : s.flight n = some f) : f.id = n := by
  simpa using List.find?_some h

/-- The machine that a flight's lanes meet: their lines stand in the home slices, what leaves on the rail has left, and what
collectives must hear is noted. -/
def State.met (s : State) (f : Flight) : State := (s.bring f f.lanes).noteLanes f f.lanes

theorem State.slicePut_frame (s : State) (ln owner : Nat) (dirty : Bool) :
    ∃ sl, s.slicePut ln owner dirty = { s with slices := sl } := by
  unfold State.slicePut
  split
  · exact ⟨_, rfl⟩
  split
  · exact ⟨_, rfl⟩
  dsimp only
  split
  · exact ⟨_, rfl⟩
  split
  · exact ⟨_, rfl⟩
  · exact ⟨_, rfl⟩

theorem State.slicePuts_frame (lines : List Nat) (owner : Nat) (s : State) :
    ∃ sl, lines.foldl (fun t ln => t.slicePut ln owner false) s = { s with slices := sl } := by
  induction lines generalizing s with
  | nil => exact ⟨_, rfl⟩
  | cons ln r ih =>
    obtain ⟨sl, hsl⟩ := s.slicePut_frame ln owner false
    obtain ⟨sl', hsl'⟩ := ih { s with slices := sl }
    exact ⟨sl', by rw [List.foldl_cons, hsl, hsl']⟩

theorem State.bringLines_frame (s : State) (core slot : Nat) (lines : List Nat) :
    ∃ sl, s.bringLines core slot lines = { s with slices := sl } := State.slicePuts_frame _ _ s

theorem State.railTurn_frame (s : State) (core : Nat) (l : List Target) : ∃ ds, s.railTurn core l = { s with dies := ds } := by
  unfold State.railTurn State.railDie
  split
  · exact ⟨_, rfl⟩
  · exact ⟨_, rfl⟩

theorem State.noteLanes_frame (s : State) (f : Flight) (l : List LaneAcc) : ∃ cs, s.noteLanes f l = { s with colls := cs } := by
  unfold State.noteLanes
  split
  · exact ⟨_, rfl⟩
  · exact ⟨_, rfl⟩

/-- Before its lanes act a flight changes what home slices and rails hold, and what collectives hear, alone. -/
theorem State.met_frame (s : State) (f : Flight) : ∃ sl ds cs, s.met f = { s with slices := sl, dies := ds, colls := cs } := by
  unfold State.met State.bring
  obtain ⟨sl, hsl⟩ := s.bringLines_frame f.core f.slot (((devLanes f.lanes).filter fun x => !s.l1Serves f.core f.acc x.1).map fun x => x.1 / 128)
  rw [hsl]
  obtain ⟨ds, hds⟩ := ({ s with slices := sl } : State).railTurn_frame f.core (f.lanes.map fun a => a.tgt)
  rw [hds]
  obtain ⟨cs, hcs⟩ := ({ s with slices := sl, dies := ds } : State).noteLanes_frame f f.lanes
  exact ⟨sl, ds, cs, hcs⟩

/-- An access that is filled or retired by a later step when all its lanes are performed: the others are over at once. -/
def Access.stays (a : Access) : Bool := a.isLoad || a.returns || match a with
  | .vchk _ => true
  | .ready => true
  | _ => false

/-- A flight's record when all its lanes are performed and have found res. -/
def Flight.whole (f : Flight) (res : List (Nat × Nat)) : Flight :=
  { f with lanes := [], results := f.results ++ res, performed := true
           done := f.done ||| maskOf fun y => f.lanes.any fun a => a.lane = y.val }

/-- What a machine becomes when all lanes of a flight have acted on it and found res. -/
def State.finishFlight (s : State) (f : Flight) (res : List (Nat × Nat)) : State :=
  let s2 := s.modFlight f.id fun x =>
    { x with lanes := [], results := x.results ++ res, performed := true
             done := x.done ||| maskOf fun y => f.lanes.any fun a => a.lane = y.val }
  let s3 := if f.acc.acquires then s2.acquire f.core else s2
  let s4 := if f.acc.stays then s3 else { s3 with flights := s3.flights.filter fun x => x.id ≠ f.id }
  s4.retryAll

theorem pickLanes_zero (f : Flight) (a : LaneAcc) : pickLanes f 0 a = true := by
  unfold pickLanes
  split <;> simp

/-- The step that performs a flight as a whole: nothing stands before it, no lane is refused, nothing of its lines has to be
written back first, and no page has to be logged. -/
theorem accessPerformed_whole {s : State} {f : Flight} (hf : s.flight s.ev.id = some f) (hmay : s.mayPerform f = true)
    (hbehind : s.flightBehind f = false) (hline : s.ev.line = 0) (hheld : f.held = []) (hspoilt : s.spoilt f f.lanes = [])
    (hsettle : s.settleFor f f.lanes = (s, false))
    (hlog : s.logTargets (s.vdOf (match s.groupAt f.core f.slot with
      | some g => g.launch
      | none => 0)) (f.logged f.lanes) = some s) :
    exec .accessPerformed s = .next (((s.met f).performLanes f f.lanes).2.finishFlight f ((s.met f).performLanes f f.lanes).1) := by
  have hall : f.lanes.filter (pickLanes f 0) = f.lanes := List.filter_eq_self.2 fun a _ => pickLanes_zero f a
  have hleft : f.lanes.filter (fun a => !pickLanes f 0 a) = [] := by simp [pickLanes_zero]
  have hperform : s.performFlight f (pickLanes f 0) =
      ((s.met f).performLanes f f.lanes).2.finishFlight f ((s.met f).performLanes f f.lanes).1 := by
    unfold State.performFlight
    dsimp only
    rw [hall, hleft, hsettle]
    generalize hx : s.logTargets _ _ = x
    obtain rfl : x = some s := hx.symm.trans hlog
    simp only [Bool.false_eq_true, if_false, hheld, List.isEmpty_nil, Bool.and_self, Bool.true_and]
    change State.retryAll (if (!f.acc.stays) = true then _ else _) = State.retryAll (if f.acc.stays = true then _ else _)
    cases f.acc.stays <;> rfl
  change execAccessPerformed s = _
  unfold execAccessPerformed
  simp only [hf, hmay, hbehind, hline, hall, hspoilt, Bool.not_false, Bool.and_self, if_true, List.head?_nil]
  rw [hperform]

/-- What a lane of a flight finds is kept with the flight until it is filled. -/
def State.foundBy (t : State) (f : Flight) (res : List (Nat × Nat)) : Prop :=
  ∃ y, t.flight f.id = some y ∧ y.performed = true ∧ y.lanes = [] ∧ y.results = f.results ++ res

theorem State.finishFlight_acquire (s : State) (f : Flight) (res : List (Nat × Nat)) :
    ∃ u, s.cachesOnly u ∧ (f.acc.acquires = false → u = s) ∧ s.finishFlight f res =
      { u with flights := (s.finishFlight f res).flights
               g := s.g.mapSplits Split.retry, others := s.others.map fun g => g.mapSplits Split.retry } := by
  unfold State.finishFlight
  cases f.acc.acquires
  · cases f.acc.stays <;> exact ⟨s, .refl s, fun _ => rfl, rfl⟩
  · cases f.acc.stays <;> exact ⟨s.acquire f.core, s.acquire_cachesOnly _, fun h => absurd h (by simp), rfl⟩

theorem State.sameMemory.trans {s t u : State} (h : s.sameMemory t) (k : t.sameMemory u) : s.sameMemory u := by
  obtain ⟨hd, hh, hs, hp⟩ := h
  obtain ⟨kd, kh, ks, kp⟩ := k
  exact ⟨fun a => (kd a).trans (hd a), fun a => (kh a).trans (hh a), fun c a => (ks c a).trans (hs c a), kp.trans hp⟩

theorem State.finishFlight_sameMemory (s : State) (f : Flight) (res : List (Nat × Nat)) : s.sameMemory (s.finishFlight f res) := by
  obtain ⟨u, hu, -, ht⟩ := s.finishFlight_acquire f res
  rw [ht]
  exact hu.sameMemory

theorem State.finishFlight_snaps (s : State) (f : Flight) (res : List (Nat × Nat)) : (s.finishFlight f res).g.snaps = s.g.snaps := by
  obtain ⟨u, -, -, ht⟩ := s.finishFlight_acquire f res
  rw [ht]
  rfl

theorem State.finishFlight_versions (s : State) (f : Flight) (res : List (Nat × Nat)) :
    (s.finishFlight f res).versions = s.versions := by
  obtain ⟨u, ⟨⟨cs, ds, rfl⟩, -⟩, -, ht⟩ := s.finishFlight_acquire f res
  rw [ht]

/-- An access that stays keeps what its lanes have found. -/
theorem State.finishFlight_found {s : State} {f : Flight} (h : s.flight f.id = some f) (hstay : f.acc.stays = true) (res : List (Nat × Nat)) :
    (s.finishFlight f res).foundBy f res := by
  refine ⟨f.whole res, ?_, rfl, rfl, rfl⟩
  unfold State.finishFlight
  simp only [hstay, if_true]
  cases f.acc.acquires <;> exact modFirst_find? h (by simp)

/-- Any other is gone. -/
theorem State.finishFlight_over {s : State} {f : Flight} (hstay : f.acc.stays = false) (res : List (Nat × Nat)) :
    ∀ y ∈ (s.finishFlight f res).flights, y.id ≠ f.id := by
  unfold State.finishFlight
  simp only [hstay, Bool.false_eq_true, if_false]
  intro y hy
  simpa using (List.mem_filter.1 hy).2

end Sys2Proof.Machine
end

section
namespace Sys2Proof.Machine

/-! ### The bytes of a line's words -/

theorem readLE_eq_ofBytes (m : Memory) (a n : Nat) : Memory.readLE m a n = ofBytes ((List.range n).map fun k => Memory.read m (a + k)) := by
  induction n generalizing a with
  | zero => rfl
  | succ n ih =>
    rw [Memory.readLE, ih, List.range_succ_eq_map, List.map_cons, ofBytes, List.map_map]
    simp only [Nat.add_zero, Function.comp_def, Nat.succ_eq_add_one, Nat.add_assoc, Nat.add_comm 1]

/-- A byte of a word that was read is the byte of the memory. -/
theorem byte_readLE (m : Memory) (a : Nat) {j : Nat} (h : j < 4) :
    BitVec.extractLsb' (8 * j) 8 (BitVec.ofNat 32 (Memory.readLE m a 4)) = Memory.read m (a + j) := by
  have h0 := (Memory.read m a).isLt
  have h1 := (Memory.read m (a + 1)).isLt
  have h2 := (Memory.read m (a + 1 + 1)).isLt
  have h3 := (Memory.read m (a + 1 + 1 + 1)).isLt
  apply BitVec.eq_of_toNat_eq
  simp only [BitVec.extractLsb'_toNat, BitVec.toNat_ofNat, Nat.shiftRight_eq_div_pow, Memory.readLE]
  have hj : j = 0 ∨ j = 1 ∨ j = 2 ∨ j = 3 := by omega
  rcases hj with rfl | rfl | rfl | rfl <;> simp only [Nat.add_assoc, Nat.reduceAdd, Nat.add_zero] at * <;> omega

/-- An access of a width that its address is a multiple of stays in one line. -/
theorem aligned_in_line {w pa : Nat} (hw : w ∈ [1, 2, 4, 8, 16]) (h : pa % w = 0) : pa % 128 + w ≤ 128 := by
  simp only [List.mem_cons, List.not_mem_nil, or_false] at hw
  rcases hw with rfl | rfl | rfl | rfl | rfl <;> omega

/-- Bytes of a line as it stands at its home slice are the memory's. -/
theorem rowRead_homeRow (s : State) (ln : Nat) {off n : Nat} (h : off + n ≤ 128) :
    rowRead (s.homeRow ln) off n = Memory.readLE s.dev (128 * ln + off) n := by
  rw [readLE_eq_ofBytes, rowRead]
  congr 1
  refine List.map_congr_left fun k hk => ?_
  have hk := List.mem_range.1 hk
  rw [dif_pos (by omega), State.homeRow, Vector.getElem_ofFn, byte_readLE _ _ (Nat.mod_lt _ (by omega))]
  congr 1
  dsimp only
  omega

theorem rowRead_words (r : Row) {pa w : Nat} (h : pa % 128 + w ≤ 128) :
    rowRead r (pa % 128) w = ofBytes ((List.range w).map fun j =>
      BitVec.extractLsb' (8 * ((pa + j) % 4)) 8 (vget r ((pa + j) % 128 / 4) 0)) := by
  rw [rowRead]
  congr 1
  refine List.map_congr_left fun j hj => ?_
  have hj := List.mem_range.1 hj
  have hword : (pa + j) % 128 / 4 = (pa % 128 + j) / 4 := by omega
  have hbyte : (pa % 128 + j) % 4 = (pa + j) % 4 := by omega
  rw [dif_pos (by omega), hword, hbyte]
  congr 1
  exact (dif_pos (by omega)).symm

/-! ### The lanes that reach device memory -/

theorem mem_devLanes {l : List LaneAcc} {x : Nat × LaneAcc} : x ∈ devLanes l ↔ x.2 ∈ l ∧ x.2.tgt = .dev x.1 := by
  simp only [devLanes, List.mem_filterMap]
  constructor
  · rintro ⟨a, ha, h⟩
    split at h
    · rename_i pa hpa
      obtain rfl := Option.some.inj h
      exact ⟨ha, hpa⟩
    · exact absurd h (by simp)
  · rintro ⟨h, ht⟩
    exact ⟨x.2, h, by rw [ht]⟩

/-- The lines that lanes reach, each once. -/
def devLines (l : List LaneAcc) : List Nat := ((devLanes l).map fun x => x.1 / 128).eraseDups

theorem mem_devLines {l : List LaneAcc} {ln : Nat} : ln ∈ devLines l ↔ ∃ a ∈ l, ∃ pa, a.tgt = .dev pa ∧ pa / 128 = ln := by
  simp only [devLines, List.mem_eraseDups, List.mem_map, mem_devLanes]
  constructor
  · rintro ⟨x, ⟨ha, hx⟩, rfl⟩
    exact ⟨x.2, ha, x.1, hx, rfl⟩
  · rintro ⟨a, ha, pa, hx, rfl⟩
    exact ⟨(pa, a), ⟨ha, hx⟩, rfl⟩

theorem devLines_nodup (l : List LaneAcc) : (devLines l).Nodup := nodup_eraseDups _

/-! ### A flight that nothing hinders -/

/-- A flight that may be performed at the event, whole: no line that it reaches is poisoned, and no word of its group's own waits
there in the pantry. -/
structure State.Unhindered (s : State) (f : Flight) : Prop where
  flight : s.flight s.ev.id = some f
  may : s.mayPerform f = true
  line : s.ev.line = 0
  held : f.held = []
  sound : ∀ a ∈ f.lanes, ∀ pa, a.tgt = .dev pa → s.poisoned (pa / 128) = false ∧ s.ownParked f.core f.slot (pa / 128) = false

theorem State.Unhindered.spoilt {s : State} {f : Flight} (h : s.Unhindered f) : s.spoilt f f.lanes = [] := by
  unfold State.spoilt
  split
  · refine List.filter_eq_nil_iff.2 fun a ha => ?_
    split
    · rename_i pa hpa
      simp [(h.sound a ha pa hpa).1]
    · simp
  · rfl

/-- It does not treat lines as lanes' own (R63). -/
def Access.shares (a : Access) : Bool := match a with
  | .loadOwn _ => false
  | .storeOwn _ => false
  | _ => true

theorem State.l1Clean.settleLines {s : State} {core : Nat} (h : s.l1Clean core) (lines : List Nat) :
    lines.foldl (fun t ln => t.settleLine core ln) s = s := by
  induction lines with
  | nil => rfl
  | cons ln r ih => rw [List.foldl_cons, h.settleLine, ih]

theorem State.Unhindered.settleFor {s : State} {f : Flight} (h : s.Unhindered f) (hclean : s.l1Clean f.core) (ha : f.acc.shares = true) :
    s.settleFor f f.lanes = (s, false) := by
  have hany : (devLines f.lanes).any (fun ln => s.ownDirty f.core ln || s.ownParked f.core f.slot ln) = false := by
    rw [List.any_eq_false]
    intro ln hln
    obtain ⟨a, ha, pa, hpa, rfl⟩ := mem_devLines.1 hln
    simp [hclean.ownDirty, (h.sound a ha pa hpa).2]
  have hfold := hclean.settleLines (devLines f.lanes)
  unfold devLines at hany hfold
  unfold State.settleFor
  cases hacc : f.acc with
  | loadOwn _ => simp [hacc, Access.shares] at ha
  | storeOwn _ => simp [hacc, Access.shares] at ha
  | _ =>
    simp only [Bool.false_eq_true, if_false]
    rw [hfold, hany]

/-- An access that writes nothing is performed with what its lanes find (R72). -/
theorem State.Unhindered.performs {s : State} {f : Flight} (h : s.Unhindered f) (hsettle : s.settleFor f f.lanes = (s, false))
    (hw : f.acc.isWrite = false) :
    exec .accessPerformed s = .next (((s.met f).performLanes f f.lanes).2.finishFlight f ((s.met f).performLanes f f.lanes).1) := by
  have hbehind : s.flightBehind f = false := by simp [State.flightBehind, hw]
  have hlog : f.logged f.lanes = [] := by
    unfold Flight.logged
    split <;> simp_all [Access.isWrite]
  exact accessPerformed_whole h.flight h.may hbehind h.line h.held h.spoilt hsettle (by rw [hlog]; rfl)

end Sys2Proof.Machine
end

section
namespace Sys2Proof.Machine

/-! ### Accesses that read and leave all but L1s as it was -/

theorem State.met_peek (s : State) (f : Flight) (t : Target) (n : Nat) : (s.met f).peek t n = s.peek t n := by
  obtain ⟨sl, ds, cs, h⟩ := s.met_frame f
  rw [h]
  rfl

theorem State.met_coreAt (s : State) (f : Flight) (c : Nat) : (s.met f).coreAt c = s.coreAt c := by
  obtain ⟨sl, ds, cs, h⟩ := s.met_frame f
  rw [h]
  rfl

theorem State.l1Clean.met {s : State} {core : Nat} (h : s.l1Clean core) (f : Flight) : (s.met f).l1Clean core := by
  unfold State.l1Clean
  rw [State.met_coreAt]
  exact h

theorem State.met_sameMemory (s : State) (f : Flight) : s.sameMemory (s.met f) := by
  obtain ⟨sl, ds, cs, h⟩ := s.met_frame f
  rw [h]
  exact ⟨fun _ => rfl, fun _ => rfl, fun _ _ => rfl, rfl⟩

theorem State.met_flights (s : State) (f : Flight) : (s.met f).flights = s.flights := by
  obtain ⟨sl, ds, cs, h⟩ := s.met_frame f
  rw [h]

theorem State.met_g (s : State) (f : Flight) : (s.met f).g = s.g := by
  obtain ⟨sl, ds, cs, h⟩ := s.met_frame f
  rw [h]

theorem State.cachesOnly.flights {s t : State} (h : s.cachesOnly t) : t.flights = s.flights := by
  obtain ⟨⟨_, _, rfl⟩, _⟩ := h
  rfl

theorem State.cachesOnly.g {s t : State} (h : s.cachesOnly t) : t.g = s.g := by
  obtain ⟨⟨_, _, rfl⟩, _⟩ := h
  rfl

/-- The machine with the issuing group's snapshots replaced. -/
def State.setSnaps (s : State) (l : List Snap) : State := { s with g := { s.g with snaps := l } }

/-- What a flight that writes nothing leaves, where performing its lanes changes L1s and the group's snapshots alone. -/
theorem State.Unhindered.readsEntering {s u : State} {f : Flight} {res : List (Nat × Nat)} {sn : List Snap} (h : s.Unhindered f)
    (hsettle : s.settleFor f f.lanes = (s, false)) (hw : f.acc.isWrite = false) (hstay : f.acc.stays = true)
    (hperform : (s.met f).performLanes f f.lanes = (res, u)) (hu : ((s.met f).setSnaps sn).cachesOnly u) :
    exec .accessPerformed s = .next (u.finishFlight f res) ∧ (u.finishFlight f res).foundBy f res ∧
      (u.finishFlight f res).g.snaps = sn ∧ s.sameMemory (u.finishFlight f res) := by
  have hmem : s.sameMemory (u.finishFlight f res) :=
    (State.sameMemory.trans (u := u) (s.met_sameMemory f) hu.sameMemory).trans (u.finishFlight_sameMemory f res)
  have hexec := h.performs hsettle hw
  rw [hperform] at hexec
  have hflight : u.flight f.id = some f := by
    unfold State.flight
    rw [hu.flights, State.flight_id h.flight]
    exact (congrArg (List.find? _) (s.met_flights f)).trans h.flight
  have hsnaps : (u.finishFlight f res).g.snaps = sn := by
    rw [State.finishFlight_snaps, hu.g]
    rfl
  exact ⟨hexec, State.finishFlight_found hflight hstay res, hsnaps, hmem⟩

/-- The same, where it changes L1s alone. -/
theorem State.Unhindered.reads {s u : State} {f : Flight} {res : List (Nat × Nat)} (h : s.Unhindered f)
    (hsettle : s.settleFor f f.lanes = (s, false)) (hw : f.acc.isWrite = false) (hstay : f.acc.stays = true)
    (hperform : (s.met f).performLanes f f.lanes = (res, u)) (hu : (s.met f).cachesOnly u) :
    exec .accessPerformed s = .next (u.finishFlight f res) ∧ (u.finishFlight f res).foundBy f res ∧
      (u.finishFlight f res).g.snaps = s.g.snaps ∧ s.sameMemory (u.finishFlight f res) := by
  refine h.readsEntering hsettle hw hstay hperform ?_
  rw [← s.met_g f]
  exact hu

/-! ### Loads (R59, R64, R193) -/

theorem lookup_map_mem {β : Type} {lines : List Nat} (g : Nat → β) {ln : Nat} (h : ln ∈ lines) :
    (lines.map fun n => (n, g n)).lookup ln = some (g ln) := by
  induction lines with
  | nil => exact absurd h (by simp)
  | cons n r ih =>
    rw [List.map_cons, List.lookup_cons]
    by_cases hn : ln = n
    · subst hn
      simp
    · rw [show (ln == n) = false from by simpa using hn]
      exact ih ((List.mem_cons.1 h).resolve_left hn)

theorem mem_servedFirst {p : Nat → Bool} {l : List Nat} {n : Nat} : n ∈ servedFirst p l ↔ n ∈ l :=
  (List.filter_append_perm p l).mem_iff

theorem servedFirst_nodup {p : Nat → Bool} {l : List Nat} (h : l.Nodup) : (servedFirst p l).Nodup :=
  (List.filter_append_perm p l).nodup_iff.2 h

/-- Lanes of a load that reach no line of the L1 find what is at their places. -/
theorem State.l1Clean.loadLanes_away {s : State} {core w hint : Nat} {l : List LaneAcc} (h : s.l1Clean core)
    (hl : ∀ a ∈ l, ∀ pa, a.tgt = .dev pa → pa % 128 + w ≤ 128 ∧ (s.coreAt core).line (pa / 128) = none) :
    ∃ t, s.loadLanes core w hint l = (l.map fun a => (a.lane, s.peek a.tgt w), t) ∧ s.cachesOnly t := by
  unfold State.loadLanes
  dsimp only
  generalize hp : (fun ln => ((s.coreAt core).line ln).any fun x => decide (needOf w (devLanes l) ln &&& ~~~((s.coreAt core).fresh x) = 0)) = p
  obtain ⟨t, ht, hst⟩ := h.loadRows_miss (hint := hint) (need := needOf w (devLanes l)) (lines := servedFirst p (devLines l))
    (servedFirst_nodup (devLines_nodup l)) fun ln hln => by
      obtain ⟨a, ha, pa, hpa, rfl⟩ := mem_devLines.1 (mem_servedFirst.1 hln)
      exact (hl a ha pa hpa).2
  unfold devLines at ht
  rw [ht]
  refine ⟨t, Prod.ext (List.map_congr_left fun a ha => Prod.ext rfl ?_) rfl, hst⟩
  dsimp only
  split
  · rename_i pa hpa
    obtain ⟨hin, -⟩ := hl a ha pa hpa
    have hlook := lookup_map_mem s.homeRow (mem_servedFirst (p := p).2 (mem_devLines.2 ⟨a, ha, pa, hpa, rfl⟩))
    unfold devLines at hlook
    rw [hlook, Option.getD_some, rowRead_homeRow s _ hin, Nat.div_add_mod, hpa]
    rfl
  · rfl

/-- A line that an L1 holds whole, and not in its own mode, is read there. -/
theorem State.l1Clean.loadLine_hit {s : State} {core ln : Nat} {y : L1Line} (h : s.l1Clean core)
    (hy : (s.coreAt core).line ln = some y) (hown : y.own = none) (hvalid : y.valid = BitVec.allOnes 32) (need : BitVec 32) (hint : Nat) :
    ∃ t, s.loadLine core ln need hint = (y.data, t) ∧ s.cachesOnly t := by
  have hy0 : y.dirty = 0 := h y (Core.line_mem hy)
  have hfresh : need &&& ~~~((s.coreAt core).fresh y) = 0 := by simp [Core.fresh, hown, hvalid]
  unfold State.loadLine
  simp only [h.settleLine, hy, h.ownDirty, hfresh, Bool.false_eq_true, if_false, if_true]
  exact ⟨_, rfl, h.l1Put_cachesOnly hy0⟩

theorem eq_singleton_of_mem {l : List Nat} {n : Nat} (hnd : l.Nodup) (h : ∀ x, x ∈ l ↔ x = n) : l = [n] :=
  List.perm_singleton.1 ((List.perm_ext_iff_of_nodup hnd (List.nodup_singleton n)).2 fun x => by rw [h, List.mem_singleton])

/-- Lanes of a load on one line that the L1 holds find its words. -/
theorem State.l1Clean.loadLanes_held {s : State} {core w hint ln : Nat} {l : List LaneAcc} {y : L1Line} (h : s.l1Clean core)
    (hne : l ≠ []) (hl : ∀ a ∈ l, ∃ pa, a.tgt = .dev pa ∧ pa / 128 = ln) (hy : (s.coreAt core).line ln = some y) (hown : y.own = none)
    (hvalid : y.valid = BitVec.allOnes 32) :
    ∃ t, s.loadLanes core w hint l = (l.map fun a => (a.lane, match a.tgt with
      | .dev pa => rowRead y.data (pa % 128) w
      | _ => 0), t) ∧ s.cachesOnly t := by
  have hlines : ((devLanes l).map fun x => x.1 / 128).eraseDups = [ln] := by
    refine eq_singleton_of_mem (devLines_nodup l) fun n => Iff.trans mem_devLines ⟨?_, ?_⟩
    · rintro ⟨a, ha, pa, hpa, rfl⟩
      obtain ⟨pa', hpa', rfl⟩ := hl a ha
      obtain rfl := Target.dev.inj (hpa.symm.trans hpa')
      rfl
    · rintro rfl
      obtain ⟨a, ha⟩ := List.exists_mem_of_ne_nil l hne
      obtain ⟨pa, hpa, hln⟩ := hl a ha
      exact ⟨a, ha, pa, hpa, hln⟩
  have hserved : ∀ p : Nat → Bool, servedFirst p [ln] = [ln] := fun p => by cases hp : p ln <;> simp [servedFirst, hp]
  obtain ⟨t, ht, hst⟩ := h.loadLine_hit hy hown hvalid (needOf w (devLanes l) ln) hint
  unfold State.loadLanes
  simp only [hlines, hserved, loadRows, ht]
  refine ⟨t, Prod.ext (List.map_congr_left fun a ha => Prod.ext rfl ?_) rfl, hst⟩
  obtain ⟨pa, hpa, hln⟩ := hl a ha
  simp [hpa, hln]

/-! ### CPOLL's object (R204) -/

theorem State.l1Clean.refreshLines {s : State} {core : Nat} (h : s.l1Clean core) (l : List (Nat × LaneAcc)) :
    s.cachesOnly (l.foldl (fun t x => (t.settleLine core (x.1 / 128)).refreshLine core (x.1 / 128)) s) := by
  induction l generalizing s with
  | nil => exact .refl s
  | cons x r ih =>
    rw [List.foldl_cons, h.settleLine]
    exact (s.refreshLine_cachesOnly core _).trans (ih (h.refreshLine _))

theorem State.cachesOnly.peek {s t : State} (h : s.cachesOnly t) (x : Target) (n : Nat) : t.peek x n = s.peek x n := by
  obtain ⟨⟨cs, ds, rfl⟩, hscr⟩ := h
  cases x with
  | spm c o =>
    change Memory.readLE _ o n = Memory.readLE _ o n
    rw [hscr]
  | _ => rfl

end Sys2Proof.Machine
end

section
namespace Sys2Proof.Machine

/-! ### Versioned reads and snapshots (R89, R201, R202) -/

/-- A snapshot set grows: no entry leaves or changes, and a new one has its line's version and the timer. -/
structure SnapsGrow (s : State) (old new : List Snap) : Prop where
  keeps : ∀ e ∈ old, e ∈ new
  fresh : ∀ e ∈ new, e ∈ old ∨ e.version = Smap.get 0 s.versions e.line ∧ e.stamp = s.timer

theorem SnapsGrow.refl (s : State) (l : List Snap) : SnapsGrow s l l := ⟨fun _ h => h, fun _ h => .inl h⟩

theorem SnapsGrow.of_eq {s t : State} {a b : List Snap} (h : SnapsGrow t a b) (hv : t.versions = s.versions) (ht : t.timer = s.timer) :
    SnapsGrow s a b := by
  refine ⟨h.keeps, fun e he => ?_⟩
  rw [← hv, ← ht]
  exact h.fresh e he

theorem SnapsGrow.trans {s : State} {a b c : List Snap} (h : SnapsGrow s a b) (k : SnapsGrow s b c) : SnapsGrow s a c := by
  refine ⟨fun e he => k.keeps e (h.keeps e he), fun e he => ?_⟩
  rcases k.fresh e he with hb | hnew
  · exact h.fresh e hb
  · exact .inr hnew

theorem Group.snap_mem {g : Group} {lane line : Nat} {e : Snap} (h : g.snap lane line = some e) :
    e ∈ g.snaps ∧ e.lane = lane ∧ e.line = line := by
  have hkey := List.find?_some h
  simp only [Bool.and_eq_true, decide_eq_true_eq] at hkey
  exact ⟨List.mem_of_find?_eq_some h, hkey⟩

theorem Group.snap_eq_none {g : Group} {lane line : Nat} :
    g.snap lane line = none ↔ ∀ e ∈ g.snaps, ¬ (e.lane = lane ∧ e.line = line) := by
  simp [Group.snap, List.find?_eq_none]

theorem State.versionOf_sound {s : State} {ln : Nat} (h : s.poisoned ln = false) : s.versionOf ln = Smap.get 0 s.versions ln := by
  simp [State.versionOf, h]

theorem State.modGroup_issuing {s : State} {core slot : Nat} (hg : s.g.live = true ∧ s.g.core = core ∧ s.g.slot = slot)
    (f : Group → Group) : s.modGroup core slot f = { s with g := f s.g } := if_pos hg

/-- Entering a snapshot leaves the set as it is, or adds the lane's entry for the line; with room the lane then has one. -/
theorem State.snapAdd_grows {s : State} {core slot : Nat} (lane : Nat) {ln : Nat} (hg : s.g.live = true ∧ s.g.core = core ∧ s.g.slot = slot)
    (hsound : s.poisoned ln = false) : ∃ sn, s.snapAdd core slot lane ln = s.setSnaps sn ∧ SnapsGrow s s.g.snaps sn ∧
      sn.length ≤ s.g.snaps.length + 1 ∧ (s.g.snaps.length < 64 → ∃ e ∈ sn, e.lane = lane ∧ e.line = ln) := by
  unfold State.snapAdd
  rw [State.modGroup_issuing hg]
  by_cases hsome : (s.g.snap lane ln).isSome = true
  · obtain ⟨e, he⟩ := Option.isSome_iff_exists.1 hsome
    simp only [hsome, Bool.true_or, if_true]
    exact ⟨s.g.snaps, rfl, .refl s _, Nat.le_succ _, fun _ => ⟨e, Group.snap_mem he⟩⟩
  by_cases hfull : 64 ≤ s.g.snaps.length
  · have hfull' : decide (Config.snapEntries ≤ s.g.snaps.length) = true := decide_eq_true hfull
    simp only [hfull', Bool.or_true, if_true]
    exact ⟨s.g.snaps, rfl, .refl s _, Nat.le_succ _, fun h => absurd h (by omega)⟩
  · have hroom : ((s.g.snap lane ln).isSome || decide (Config.snapEntries ≤ s.g.snaps.length)) = false :=
      Bool.or_eq_false_iff.2 ⟨Bool.eq_false_iff.2 hsome, decide_eq_false hfull⟩
    simp only [hroom, Bool.false_eq_true, if_false, s.versionOf_sound hsound]
    refine ⟨_, rfl, ⟨fun e he => List.mem_append_left _ he, fun e he => ?_⟩, by simp, fun _ => ⟨_, List.mem_append_right _ (List.mem_singleton.2 rfl), rfl, rfl⟩⟩
    rcases List.mem_append.1 he with he | he
    · exact .inl he
    · rw [List.mem_singleton.1 he]
      exact .inr ⟨rfl, rfl⟩

theorem State.cachesOnly.setSnaps {s t : State} (h : s.cachesOnly t) (sn : List Snap) : (s.setSnaps sn).cachesOnly (t.setSnaps sn) := by
  obtain ⟨⟨cs, ds, rfl⟩, hscr⟩ := h
  exact ⟨⟨cs, ds, rfl⟩, hscr⟩

theorem State.cachesOnly.poisoned {s t : State} (h : s.cachesOnly t) (ln : Nat) : t.poisoned ln = s.poisoned ln := by
  obtain ⟨⟨_, _, rfl⟩, _⟩ := h
  rfl

theorem State.cachesOnly.versions {s t : State} (h : s.cachesOnly t) : t.versions = s.versions := by
  obtain ⟨⟨_, _, rfl⟩, _⟩ := h
  rfl

theorem State.cachesOnly.timer {s t : State} (h : s.cachesOnly t) : t.timer = s.timer := by
  obtain ⟨⟨_, _, rfl⟩, _⟩ := h
  rfl

/-- The snapshot of one lane, where the access enters one. -/
theorem State.versionStep_grows {s : State} {core slot : Nat} (enter : Bool) (lane : Nat) {ln : Nat}
    (hg : s.g.live = true ∧ s.g.core = core ∧ s.g.slot = slot) (hsound : s.poisoned ln = false) :
    ∃ sn, (if enter = true then s.snapAdd core slot lane ln else s) = s.setSnaps sn ∧ SnapsGrow s s.g.snaps sn ∧
      (enter = false → sn = s.g.snaps) ∧
      (enter = true → sn.length ≤ s.g.snaps.length + 1 ∧ (s.g.snaps.length < 64 → ∃ e ∈ sn, e.lane = lane ∧ e.line = ln)) := by
  cases enter with
  | false => exact ⟨s.g.snaps, rfl, .refl s _, fun _ => rfl, by simp⟩
  | true =>
    obtain ⟨sn, hadd, hgrow, hlen, hthere⟩ := s.snapAdd_grows lane hg hsound
    exact ⟨sn, hadd, hgrow, by simp, fun _ => ⟨hlen, hthere⟩⟩

/-- What a versioned read of a lane finds: its bytes, and 2^64 times the version of its line. -/
def State.versionRead (s : State) (w : Nat) (a : LaneAcc) : Nat := s.peek a.tgt w + 2 ^ 64 * match a.tgt with
  | .dev pa => (Smap.get 0 s.versions (pa / 128)).toNat
  | _ => 0

theorem State.versionRead_dev {s : State} {w pa : Nat} {a : LaneAcc} (h : a.tgt = .dev pa) :
    s.versionRead w a = Memory.readLE s.dev pa w + 2 ^ 64 * (Smap.get 0 s.versions (pa / 128)).toNat := by
  rw [State.versionRead, h]
  rfl

theorem State.cachesOnly.versionRead {s t : State} (h : s.cachesOnly t) (w : Nat) (a : LaneAcc) : t.versionRead w a = s.versionRead w a := by
  unfold State.versionRead
  rw [h.peek, h.versions]

/-- The lanes of LDV, LDVS and VRD find their bytes with the line's version; with entering, each lane has a snapshot then. -/
theorem State.l1Clean.versionFold {s : State} {f : Flight} {w : Nat} {enter : Bool} {l : List LaneAcc} (h : s.l1Clean f.core)
    (hg : s.g.live = true ∧ s.g.core = f.core ∧ s.g.slot = f.slot)
    (hl : ∀ a ∈ l, ∃ pa, a.tgt = .dev pa ∧ s.poisoned (pa / 128) = false) :
    ∃ t sn, Machine.versionFold f w enter l s = (l.map fun a => (a.lane, s.versionRead w a), t) ∧ (s.setSnaps sn).cachesOnly t ∧ SnapsGrow s s.g.snaps sn ∧ (enter = false → sn = s.g.snaps) ∧
      (enter = true → s.g.snaps.length + l.length ≤ 64 → ∀ a ∈ l, ∀ pa, a.tgt = .dev pa → ∃ e ∈ sn, e.lane = a.lane ∧ e.line = pa / 128) := by
  induction l generalizing s with
  | nil => exact ⟨s, s.g.snaps, rfl, .refl s, .refl s _, fun _ => rfl, by simp⟩
  | cons a r ih =>
    obtain ⟨pa, hpa, hsound⟩ := hl a List.mem_cons_self
    obtain ⟨u, hu⟩ : ∃ u, s.refreshLine f.core (pa / 128) = u := ⟨_, rfl⟩
    have hcaches : s.cachesOnly u := hu ▸ s.refreshLine_cachesOnly f.core (pa / 128)
    have hclean : u.l1Clean f.core := hu ▸ h.refreshLine (pa / 128)
    have hug : u.g.live = true ∧ u.g.core = f.core ∧ u.g.slot = f.slot := by rw [hcaches.g]; exact hg
    have hus : u.poisoned (pa / 128) = false := by rw [hcaches.poisoned]; exact hsound
    obtain ⟨sn1, hadd, hgrow, hsame, hthere⟩ := u.versionStep_grows enter a.lane hug hus
    obtain ⟨t, sn, ht, hst, hgrow', hkeep, hin⟩ := ih (s := u.setSnaps sn1) hclean hug fun b hb => by
      obtain ⟨pb, hpb, hsb⟩ := hl b (List.mem_cons_of_mem _ hb)
      exact ⟨pb, hpb, (hcaches.poisoned _).trans hsb⟩
    have hall : SnapsGrow s s.g.snaps sn := by
      rw [← hcaches.g]
      exact (hgrow.of_eq hcaches.versions hcaches.timer).trans (hgrow'.of_eq hcaches.versions hcaches.timer)
    refine ⟨t, sn, ?_, (hcaches.setSnaps sn).trans hst, hall, fun he => ?_, fun he hroom b hb pb hpb => ?_⟩
    · have hrest : ∀ b, (u.setSnaps sn1).versionRead w b = s.versionRead w b := hcaches.versionRead w
      rw [Machine.versionFold]
      simp only [hpa, h.settleLine, hu, hadd, ht, List.map_cons, u.versionOf_sound hus, hcaches.versions, hcaches.dev,
        State.versionRead_dev hpa, hrest]
    · rw [hkeep he]
      exact (hsame he).trans (congrArg Group.snaps hcaches.g)
    · obtain ⟨hlen, hone⟩ := hthere he
      rw [hcaches.g] at hlen hone
      rw [List.length_cons] at hroom
      rcases List.mem_cons.1 hb with rfl | hb
      · obtain ⟨e, hmem, hkey⟩ := hone (by omega)
        obtain rfl := Target.dev.inj (hpa.symm.trans hpb)
        exact ⟨e, hgrow'.keeps e hmem, hkey⟩
      · exact hin he (Nat.le_trans (Nat.add_le_add_right hlen _) (by omega)) b hb pb hpb

end Sys2Proof.Machine
end

section
namespace Sys2Proof.Machine

/-! ### Lanes' own words, into an empty L1 (R62, R63, R195) -/

/-- Taken by lines, the lanes are the lanes, in some order. -/
theorem flatMap_lines_perm {β : Type} {lines : List Nat} (g : Nat × LaneAcc → β) {dv : List (Nat × LaneAcc)} (hnd : lines.Nodup)
    (hdv : ∀ x ∈ dv, x.1 / 128 ∈ lines) :
    (lines.flatMap fun ln => (dv.filter fun x => x.1 / 128 = ln).map g).Perm (dv.map g) := by
  induction lines generalizing dv with
  | nil => rw [List.eq_nil_iff_forall_not_mem.2 fun x hx => absurd (hdv x hx) List.not_mem_nil]; exact .refl _
  | cons ln r ih =>
    obtain ⟨hnotin, hnd⟩ := List.nodup_cons.1 hnd
    have hsplit := List.filter_append_perm (fun x : Nat × LaneAcc => decide (x.1 / 128 = ln)) dv
    have hrest : ∀ x ∈ dv.filter fun x => !decide (x.1 / 128 = ln), x.1 / 128 ∈ r := by
      intro x hx
      obtain ⟨hx, hne⟩ := List.mem_filter.1 hx
      exact (List.mem_cons.1 (hdv x hx)).resolve_left (by simpa using hne)
    have hsame : (r.flatMap fun m => (dv.filter fun x => x.1 / 128 = m).map g) =
        r.flatMap fun m => ((dv.filter fun x => !decide (x.1 / 128 = ln)).filter fun x => x.1 / 128 = m).map g := by
      refine List.flatMap_congr fun m hm => ?_
      rw [List.filter_filter]
      congr 1
      refine List.filter_congr fun x _ => ?_
      by_cases hx : x.1 / 128 = m
      · have : m ≠ ln := fun h => hnotin (h ▸ hm)
        simp [hx, this]
      · simp [hx]
    rw [List.flatMap_cons, hsame]
    refine ((ih hnd hrest).append_left _).trans ?_
    rw [← List.map_append]
    exact hsplit.map g

theorem devLanes_map_snd {l : List LaneAcc} (h : ∀ a ∈ l, ∃ pa, a.tgt = .dev pa) : (devLanes l).map Prod.snd = l := by
  induction l with
  | nil => rfl
  | cons a r ih =>
    obtain ⟨pa, hpa⟩ := h a List.mem_cons_self
    have hr := ih fun b hb => h b (List.mem_cons_of_mem _ hb)
    unfold devLanes at hr ⊢
    simp only [List.filterMap_cons, hpa, List.map_cons, hr]

/-- An L1 that holds lines of its core's own mode alone. -/
def State.l1Own (s : State) (core : Nat) : Prop := ∀ x ∈ (s.coreAt core).l1, x.own.isSome = true

theorem Core.line_of_mem {c : Core} {ln : Nat} (h : ∃ x ∈ c.l1, x.line = ln) : ∃ y, c.line ln = some y := by
  cases hl : c.line ln with
  | some y => exact ⟨y, rfl⟩
  | none =>
    obtain ⟨x, hx, hln⟩ := h
    exact absurd hln (Core.line_eq_none.1 hl x hx)

/-- A line that the L1 does not hold is fetched for its own mode, and enters where there is room. -/
theorem State.ownLine_miss {s : State} {core ln : Nat} (hint : Nat) (o : OwnLine) (hc : core < 256) (hln : (s.coreAt core).line ln = none)
    (hroom : (s.coreAt core).l1.length < 12) :
    ∃ y t, s.ownLine core ln hint o = (y, t) ∧ y.data = s.homeRow ln ∧ y.line = ln ∧ y.own.isSome = true ∧ s.cachesOnly (t.l1Put core y) ∧
      ((t.l1Put core y).coreAt core).l1 = y :: (s.coreAt core).l1 := by
  unfold State.ownLine
  dsimp only
  rw [hln]
  refine ⟨_, _, rfl, rfl, rfl, rfl, ?_⟩
  generalize hy : ({ line := ln, valid := _, data := _, own := some o, dirty := 0, hint := hint, since := _ } : L1Line) = y
  have hyln : y.line = ln := by rw [← hy]
  have hl1 := s.tally_miss_l1 core (coreDie core) core
  have henter : ((s.tally 5 1 (some core) (coreDie core)).coreAt core).enter y = y :: (s.coreAt core).l1 := by
    unfold Core.enter
    rw [hl1, hyln, List.filter_eq_self.2 fun x hx => by simpa using Core.line_eq_none.1 hln x hx]
  have hput := State.l1Put_room (s := s.tally 5 1 (some core) (coreDie core)) y hc (by
    rw [henter]
    exact Nat.le_trans (List.length_filter_le _ _) (by simpa using hroom))
  rw [hput]
  refine ⟨(s.tally_miss_cachesOnly core _).trans (State.modCore_cachesOnly _ core fun _ => rfl), ?_⟩
  rw [State.coreAt_modCore_same _ hc]
  exact henter

/-- Lanes of LDP on lines that the L1 has room for, and does not hold: what they find, and the lines then held. -/
theorem ownFold_miss {f : Flight} {hint : Nat} {dv : List (Nat × LaneAcc)} {lines : List Nat} (hc : f.core < 256) (hnd : lines.Nodup)
    {s : State} (hln : ∀ ln ∈ lines, (s.coreAt f.core).line ln = none) (hroom : (s.coreAt f.core).l1.length + lines.length ≤ 12)
    (hown : s.l1Own f.core) :
    ∃ t, ownFold f false hint dv lines s = (lines.flatMap fun ln =>
        (dv.filter fun x => x.1 / 128 = ln).map fun x => (x.2.lane, rowRead (s.homeRow ln) (x.1 % 128) 4), t) ∧
      s.cachesOnly t ∧ t.l1Own f.core ∧ (∀ x ∈ (s.coreAt f.core).l1, x ∈ (t.coreAt f.core).l1) ∧
      ∀ ln ∈ lines, ∃ x ∈ (t.coreAt f.core).l1, x.line = ln := by
  induction lines generalizing s with
  | nil => exact ⟨s, rfl, .refl s, hown, fun _ h => h, by simp⟩
  | cons ln r ih =>
    obtain ⟨hnotin, hnd⟩ := List.nodup_cons.1 hnd
    rw [List.length_cons] at hroom
    obtain ⟨y, t, hline, hdata, hyln, hyown, hcaches, hl1⟩ := s.ownLine_miss hint
      (s.ownOf f (((dv.filter fun x => x.1 / 128 = ln).head?.map fun x => x.2.c).getD 0)) hc (hln ln List.mem_cons_self) (by omega)
    obtain ⟨u, hu, htu, huown, hkeep, hheld⟩ := ih hnd (s := t.l1Put f.core y)
      (fun n hn => by
        have hn' := Core.line_eq_none.1 (hln n (List.mem_cons_of_mem _ hn))
        rw [Core.line_eq_none, hl1, List.forall_mem_cons]
        exact ⟨fun h => hnotin ((hyln.symm.trans h) ▸ hn), hn'⟩)
      (by rw [hl1, List.length_cons]; omega)
      (by unfold State.l1Own; rw [hl1, List.forall_mem_cons]; exact ⟨hyown, hown⟩)
    rw [hl1] at hkeep
    refine ⟨u, ?_, hcaches.trans htu, huown, fun x hx => hkeep x (List.mem_cons_of_mem _ hx), ?_⟩
    · rw [ownFold]
      simp only [hline, Bool.false_eq_true, if_false, hu, List.flatMap_cons, hdata, State.homeRow_of_dev hcaches.dev]
    · rw [List.forall_mem_cons]
      exact ⟨⟨y, hkeep y List.mem_cons_self, hyln⟩, hheld⟩

/-- Lanes of LDP into an empty L1 whose sets have room for all their lines. -/
theorem State.ownLanes_empty {s : State} {f : Flight} {hint : Nat} {l : List LaneAcc} (hc : f.core < 256) (hempty : (s.coreAt f.core).l1 = [])
    (hl : ∀ a ∈ l, ∃ pa, a.tgt = .dev pa ∧ pa % 4 = 0) (hroom : (devLines l).length ≤ 12) :
    ∃ res t, s.ownLanes f false hint l = (res, t) ∧ res.Perm (l.map fun a => (a.lane, s.peek a.tgt 4)) ∧ s.cachesOnly t ∧
      ∀ ln ∈ devLines l, ∃ y, (t.coreAt f.core).line ln = some y ∧ y.own.isSome = true := by
  have hnone : ∀ ln, (s.coreAt f.core).line ln = none := fun ln => by simp [Core.line, hempty]
  have hout : l.filter (fun a => match a.tgt with
      | .dev _ => false
      | _ => true) = [] := by
    refine List.filter_eq_nil_iff.2 fun a ha => ?_
    obtain ⟨pa, hpa, -⟩ := hl a ha
    simp [hpa]
  have hserved : servedFirst (fun _ => false) (devLines l) = devLines l := by simp [servedFirst]
  obtain ⟨t, ht, hcaches, hown, -, hheld⟩ := ownFold_miss (hint := hint) (dv := devLanes l) hc (devLines_nodup l) (s := s)
    (fun ln _ => hnone ln) (by rw [hempty]; simpa using hroom) (by simp [State.l1Own, hempty])
  have hperm := flatMap_lines_perm (fun x => (x.2.lane, s.peek x.2.tgt 4)) (devLines_nodup l) (dv := devLanes l)
    fun x hx => mem_devLines.2 ⟨x.2, (mem_devLanes.1 hx).1, x.1, (mem_devLanes.1 hx).2, rfl⟩
  have hfound : ((devLines l).flatMap fun ln => ((devLanes l).filter fun x => x.1 / 128 = ln).map fun x =>
        (x.2.lane, rowRead (s.homeRow ln) (x.1 % 128) 4)) =
      (devLines l).flatMap fun ln => ((devLanes l).filter fun x => x.1 / 128 = ln).map fun x => (x.2.lane, s.peek x.2.tgt 4) := by
    refine List.flatMap_congr fun ln _ => List.map_congr_left fun x hx => ?_
    obtain ⟨hx, hln⟩ := List.mem_filter.1 hx
    obtain ⟨ha, htgt⟩ := mem_devLanes.1 hx
    obtain ⟨pa, hpa, hal⟩ := hl x.2 ha
    obtain rfl := Target.dev.inj (htgt.symm.trans hpa)
    rw [← of_decide_eq_true hln, rowRead_homeRow s _ (aligned_in_line (w := 4) (by decide) hal), Nat.div_add_mod, htgt]
    rfl
  have hmap : (devLanes l).map (fun x => (x.2.lane, s.peek x.2.tgt 4)) = l.map fun a => (a.lane, s.peek a.tgt 4) := by
    have hsnd := congrArg (List.map fun a : LaneAcc => (a.lane, s.peek a.tgt 4)) (devLanes_map_snd fun a ha => (hl a ha).imp fun pa h => h.1)
    rw [List.map_map] at hsnd
    exact hsnd
  rw [← hfound, hmap] at hperm
  refine ⟨_, t, ?_, hperm, hcaches, fun ln hln => ?_⟩
  · unfold devLines at hserved ht
    unfold State.ownLanes
    dsimp only
    generalize hout' : l.filter _ = out
    obtain rfl : out = [] := hout'.symm.trans hout
    simp only [hnone, Option.any_none, hserved, ht, Bool.false_eq_true, if_false, List.map_nil, List.append_nil]
    rfl
  · obtain ⟨y, hy⟩ := Core.line_of_mem (hheld ln hln)
    exact ⟨y, hy, hown y (Core.line_mem hy)⟩

/-- Where an empty L1 has room for the lines of LDP, nothing has to leave. -/
theorem State.Unhindered.settleFor_loadOwn {s : State} {f : Flight} {hint : Nat} (h : s.Unhindered f) (ha : f.acc = .loadOwn hint)
    (hempty : (s.coreAt f.core).l1 = []) (hroom : (devLines f.lanes).length ≤ 12) : s.settleFor f f.lanes = (s, false) := by
  have hl1Room : ∀ ln, s.l1Room f.core (devLines f.lanes) ln = true := fun ln => by
    simp only [State.l1Room, hempty, List.filter_nil, List.length_nil, Nat.add_zero, decide_eq_true_eq]
    exact Nat.le_trans (List.length_filter_le _ _) hroom
  have hmake : ∀ lines : List Nat, lines.foldl (fun t ln => t.makeRoom f.core (devLines f.lanes) ln) s = s := by
    intro lines
    induction lines with
    | nil => rfl
    | cons ln r ih => rw [List.foldl_cons, State.makeRoom, if_pos (hl1Room ln), ih]
  have hany : (devLines f.lanes).any (fun ln => !s.l1Room f.core (devLines f.lanes) ln || s.ownParked f.core f.slot ln) = false := by
    rw [List.any_eq_false]
    intro ln hln
    obtain ⟨a, ha, pa, hpa, rfl⟩ := mem_devLines.1 hln
    simp [hl1Room, (h.sound a ha pa hpa).2]
  have hfold := hmake (devLines f.lanes)
  unfold devLines at hany hfold
  unfold State.settleFor
  simp only [ha, if_true]
  rw [hfold, hany]

theorem State.finishFlight_coreAt {f : Flight} (h : f.acc.acquires = false) (s : State) (res : List (Nat × Nat)) (c : Nat) :
    (s.finishFlight f res).coreAt c = s.coreAt c := by
  obtain ⟨u, -, hu, ht⟩ := s.finishFlight_acquire f res
  rw [ht, hu h]
  rfl

/-- The step of LDP.W into an empty L1: its lanes find their words, and their lines are then held in their own mode. -/
theorem State.Unhindered.loadOwn {s : State} {f : Flight} {hint : Nat} (h : s.Unhindered f) (hc : f.core < 256) (ha : f.acc = .loadOwn hint)
    (hempty : (s.coreAt f.core).l1 = []) (hl : ∀ a ∈ f.lanes, ∃ pa, a.tgt = .dev pa ∧ pa % 4 = 0) (hroom : (devLines f.lanes).length ≤ 12) :
    ∃ t res, exec .accessPerformed s = .next t ∧ t.foundBy f res ∧ res.Perm (f.lanes.map fun a => (a.lane, s.peek a.tgt 4)) ∧ s.sameMemory t ∧
      ∀ ln ∈ devLines f.lanes, ∃ y, (t.coreAt f.core).line ln = some y ∧ y.own.isSome = true := by
  obtain ⟨res, u, hu, hperm, hcaches, hheld⟩ := (s.met f).ownLanes_empty (hint := hint) hc (by rw [s.met_coreAt]; exact hempty) hl hroom
  simp only [s.met_peek] at hperm
  have hperform : (s.met f).performLanes f f.lanes = (res, u) := by
    unfold State.performLanes
    rw [ha]
    exact hu
  obtain ⟨hexec, hfound, -, hmem⟩ := h.reads (h.settleFor_loadOwn ha hempty hroom) (by rw [ha]; rfl) (by rw [ha]; rfl) hperform hcaches
  refine ⟨_, res, hexec, hfound, hperm, hmem, fun ln hln => ?_⟩
  rw [State.finishFlight_coreAt (by rw [ha]; rfl)]
  exact hheld ln hln

/-! ### The steps of the other reads -/

/-- The step of a load, or of BREC, on lines that the L1 does not hold. -/
theorem State.Unhindered.load_away {s : State} {f : Flight} {w hint : Nat} (h : s.Unhindered f) (hclean : s.l1Clean f.core)
    (ha : (∃ sg, f.acc = .load w sg hint) ∨ (w = 16 ∧ hint = 0 ∧ ∃ n, f.acc = .brec n))
    (hl : ∀ a ∈ f.lanes, ∀ pa, a.tgt = .dev pa → pa % 128 + w ≤ 128 ∧ (s.coreAt f.core).line (pa / 128) = none) :
    ∃ t, exec .accessPerformed s = .next t ∧ t.foundBy f (f.lanes.map fun a => (a.lane, s.peek a.tgt w)) ∧ t.g.snaps = s.g.snaps ∧
      s.sameMemory t := by
  obtain ⟨u, hu, hcaches⟩ := (hclean.met f).loadLanes_away (hint := hint) (w := w) (l := f.lanes) (by rw [s.met_coreAt]; exact hl)
  simp only [s.met_peek] at hu
  rcases ha with ⟨sg, ha⟩ | ⟨rfl, rfl, n, ha⟩
  · exact ⟨_, h.reads (h.settleFor hclean (by rw [ha]; rfl)) (by rw [ha]; rfl) (by rw [ha]; rfl) (by rw [State.performLanes, ha]; exact hu) hcaches⟩
  · exact ⟨_, h.reads (h.settleFor hclean (by rw [ha]; rfl)) (by rw [ha]; rfl) (by rw [ha]; rfl) (by rw [State.performLanes, ha]; exact hu) hcaches⟩

/-- The step of a load on one line that the L1 holds whole. -/
theorem State.Unhindered.load_held {s : State} {f : Flight} {w hint ln : Nat} {sg : Bool} {y : L1Line} (h : s.Unhindered f) (hclean : s.l1Clean f.core)
    (ha : f.acc = .load w sg hint) (hne : f.lanes ≠ []) (hl : ∀ a ∈ f.lanes, ∃ pa, a.tgt = .dev pa ∧ pa / 128 = ln)
    (hy : (s.coreAt f.core).line ln = some y) (hown : y.own = none) (hvalid : y.valid = BitVec.allOnes 32) :
    ∃ t, exec .accessPerformed s = .next t ∧ t.foundBy f (f.lanes.map fun a => (a.lane, match a.tgt with
      | .dev pa => rowRead y.data (pa % 128) w
      | _ => 0)) ∧ s.sameMemory t := by
  obtain ⟨u, hu, hcaches⟩ := (hclean.met f).loadLanes_held (w := w) (hint := hint) hne hl (by rw [s.met_coreAt]; exact hy) hown hvalid
  obtain ⟨hexec, hfound, -, hmem⟩ := h.reads (h.settleFor hclean (by rw [ha]; rfl)) (by rw [ha]; rfl) (by rw [ha]; rfl)
    (by rw [State.performLanes, ha]; exact hu) hcaches
  exact ⟨_, hexec, hfound, hmem⟩

/-- The step of CPOLL. -/
theorem State.Unhindered.cpoll {s : State} {f : Flight} (h : s.Unhindered f) (hclean : s.l1Clean f.core) (ha : f.acc = .cpoll) :
    ∃ t, exec .accessPerformed s = .next t ∧ t.foundBy f (f.lanes.map fun a => (a.lane, s.peek a.tgt 8)) ∧ s.sameMemory t := by
  have hcaches := (hclean.met f).refreshLines (devLanes f.lanes)
  have hpeek := fun x => (hcaches.peek x 8).trans (s.met_peek f x 8)
  obtain ⟨hexec, hfound, -, hmem⟩ := h.reads (h.settleFor hclean (by rw [ha]; rfl)) (by rw [ha]; rfl) (by rw [ha]; rfl)
    (by rw [State.performLanes, ha]) hcaches
  simp only [hpeek] at hexec hfound hmem
  exact ⟨_, hexec, hfound, hmem⟩

theorem State.groupAt_issuing {s : State} {core slot : Nat} (hg : s.g.live = true ∧ s.g.core = core ∧ s.g.slot = slot) :
    s.groupAt core slot = some s.g := by
  obtain ⟨hlive, hcore, hslot⟩ := hg
  simp [State.groupAt, State.groups, hlive, hcore, hslot]

/-- The step of LDV, LDVS or VRD. -/
theorem State.Unhindered.versions {s : State} {f : Flight} {w : Nat} {enter : Bool} (h : s.Unhindered f) (hclean : s.l1Clean f.core)
    (hg : s.g.live = true ∧ s.g.core = f.core ∧ s.g.slot = f.slot)
    (ha : (w = 4 ∧ enter = true ∧ f.acc = .ldv) ∨ (enter = true ∧ f.acc = .ldvs w) ∨ (w = 4 ∧ enter = false ∧ f.acc = .vrd))
    (hl : ∀ a ∈ f.lanes, ∃ pa, a.tgt = .dev pa) :
    ∃ t, exec .accessPerformed s = .next t ∧ t.foundBy f (f.lanes.map fun a => (a.lane, s.versionRead w a)) ∧ s.sameMemory t ∧
      SnapsGrow s s.g.snaps t.g.snaps ∧ (enter = false → t.g.snaps = s.g.snaps) ∧
      (enter = true → s.g.snaps.length + f.lanes.length ≤ 64 → ∀ a ∈ f.lanes, ∀ pa, a.tgt = .dev pa →
        ∃ e ∈ t.g.snaps, e.lane = a.lane ∧ e.line = pa / 128) := by
  obtain ⟨sl, ds, cs, hmet⟩ := s.met_frame f
  obtain ⟨u, sn, hu, hcaches, hgrow, hsame, hin⟩ := (hclean.met f).versionFold (w := w) (enter := enter) (l := f.lanes)
    (by rw [hmet]; exact hg) fun a ha => by
      obtain ⟨pa, hpa⟩ := hl a ha
      refine ⟨pa, hpa, ?_⟩
      rw [hmet]
      exact (h.sound a ha pa hpa).1
  have hread : ∀ a, (s.met f).versionRead w a = s.versionRead w a := fun a => by
    unfold State.versionRead
    rw [s.met_peek, hmet]
  simp only [hread] at hu
  rw [s.met_g] at hgrow hsame hin
  have hgrow' : SnapsGrow s s.g.snaps sn := hgrow.of_eq (by rw [hmet]) (by rw [hmet])
  have hstep : f.acc.shares = true ∧ f.acc.isWrite = false ∧ f.acc.stays = true ∧
      (s.met f).performLanes f f.lanes = versionFold f w enter f.lanes (s.met f) := by
    unfold State.performLanes
    rcases ha with ⟨rfl, rfl, ha⟩ | ⟨rfl, ha⟩ | ⟨rfl, rfl, ha⟩ <;> rw [ha] <;> exact ⟨rfl, rfl, rfl, rfl⟩
  obtain ⟨hshares, hw, hstay, hperform⟩ := hstep
  obtain ⟨hexec, hfound, hsn, hmem⟩ := h.readsEntering (h.settleFor hclean hshares) hw hstay (hperform.trans hu) hcaches
  refine ⟨_, hexec, hfound, hmem, ?_⟩
  rw [hsn]
  exact ⟨hgrow', hsame, hin⟩

/-! ### VCHK (R203) -/

theorem State.snapHolds_iff (s : State) (part : Nat) (e : Snap) : s.snapHolds part e = true ↔ s.poisoned e.line = false ∧
    Smap.get 0 s.versions e.line = e.version ∧ s.timer < e.stamp + 2 ^ 32 ∧ s.clearOf e.line ≤ e.stamp ∧
    s.windowLo part ≤ e.line * 128 ∧ e.line * 128 < s.windowHi part := by
  unfold State.snapHolds State.inWindow
  cases hp : s.poisoned e.line with
  | true => simp
  | false => simp [s.versionOf_sound hp, and_assoc]

theorem b2n_eq (b : Bool) : (b2n b = 0 ∨ b2n b = 1) ∧ (b2n b = 1 ↔ b = true) := by cases b <;> simp [b2n]

theorem State.settleFor_none {s : State} {f : Flight} (hnone : f.lanes = []) : s.settleFor f f.lanes = (s, false) := by
  rw [hnone]
  rfl

/-- The step of VCHK: each lane learns whether all its entries hold. -/
theorem State.Unhindered.vchk {s : State} {f : Flight} {n : Nat} (h : s.Unhindered f) (ha : f.acc = .vchk n) (hnone : f.lanes = [])
    (hg : s.g.live = true ∧ s.g.core = f.core ∧ s.g.slot = f.slot) :
    ∃ t, exec .accessPerformed s = .next t ∧ t.foundBy f ((lanesOf f.mask).map fun x =>
      (x.val, b2n ((s.g.snaps.filter fun e => e.lane = x.val).all fun e => s.snapHolds f.part e))) ∧ s.sameMemory t := by
  obtain ⟨sl, ds, cs, hmet⟩ := s.met_frame f
  have hperform : (s.met f).performLanes f f.lanes = ((lanesOf f.mask).map fun x =>
      (x.val, b2n ((s.g.snaps.filter fun e => e.lane = x.val).all fun e => s.snapHolds f.part e)), s.met f) := by
    unfold State.performLanes
    rw [ha]
    dsimp only
    rw [(s.met f).groupAt_issuing (by rw [s.met_g]; exact hg), s.met_g]
    dsimp only
    rw [hmet]
    rfl
  obtain ⟨hexec, hfound, -, hmem⟩ := h.reads (State.settleFor_none hnone) (by rw [ha]; rfl) (by rw [ha]; rfl) hperform (.refl _)
  exact ⟨_, hexec, hfound, hmem⟩

end Sys2Proof.Machine
end

section
namespace Sys2Proof.Machine

/-! ### Writes at the home slice (R59, R72, R88) -/

/-- A machine that differs from another in what writes at home slices change: device memory, versions, owners, slices, L1s and
what is counted. -/
def State.homeOnly (s t : State) : Prop :=
  (∃ m vs cs ds ow sl cnt, t = { s with dev := m, versions := vs, cores := cs, dies := ds, owners := ow, slices := sl
                                        regs := { s.regs with devCnt := cnt } }) ∧
    ∀ c, (t.coreAt c).scratch = (s.coreAt c).scratch

theorem State.homeOnly.refl (s : State) : s.homeOnly s := ⟨⟨_, _, _, _, _, _, _, rfl⟩, fun _ => rfl⟩

theorem State.homeOnly.trans {s t u : State} (h : s.homeOnly t) (k : t.homeOnly u) : s.homeOnly u := by
  obtain ⟨⟨_, _, _, _, _, _, _, rfl⟩, hscr⟩ := h
  obtain ⟨⟨_, _, _, _, _, _, _, rfl⟩, kscr⟩ := k
  exact ⟨⟨_, _, _, _, _, _, _, rfl⟩, fun c => (kscr c).trans (hscr c)⟩

theorem State.cachesOnly.homeOnly {s t : State} (h : s.cachesOnly t) : s.homeOnly t := by
  obtain ⟨⟨cs, ds, rfl⟩, hscr⟩ := h
  exact ⟨⟨_, _, _, _, _, _, _, rfl⟩, hscr⟩

theorem State.modCore_scratch (s : State) (c : Nat) {f : Core → Core} (hf : ∀ k, (f k).scratch = k.scratch) (d : Nat) :
    ((s.modCore c f).coreAt d).scratch = (s.coreAt d).scratch := (s.modCore_cachesOnly c hf).2 d

/-- Entering an owner changes owners and the L1 of the one before. -/
theorem State.setOwner_frame (s : State) (word : Nat) (owner : Option Nat) :
    ∃ cs ow, s.setOwner word owner = { s with cores := cs, owners := ow } ∧
      ∀ c, ((s.setOwner word owner).coreAt c).scratch = (s.coreAt c).scratch := by
  unfold State.setOwner
  cases s.ownerOf word with
  | none => exact ⟨_, _, rfl, fun _ => rfl⟩
  | some d =>
    dsimp only
    by_cases h : owner = some d
    · simp only [h, if_true]
      exact ⟨_, _, rfl, fun _ => rfl⟩
    · simp only [h, if_false]
      exact ⟨_, _, rfl, fun c => s.modCore_scratch d (f := fun k => k.dropWord word) (fun _ => rfl) c⟩

theorem State.setOwners_frame (f : Nat → Nat) (owner : Option Nat) (ws : List Nat) (s : State) :
    ∃ cs ow, ws.foldl (fun t w => t.setOwner (f w) owner) s = { s with cores := cs, owners := ow } ∧
      ∀ c, ((ws.foldl (fun t w => t.setOwner (f w) owner) s).coreAt c).scratch = (s.coreAt c).scratch := by
  induction ws generalizing s with
  | nil => exact ⟨_, _, rfl, fun _ => rfl⟩
  | cons w r ih =>
    obtain ⟨cs, ow, hset, hscr⟩ := s.setOwner_frame (f w) owner
    obtain ⟨cs', ow', hfold, hscr'⟩ := ih (s.setOwner (f w) owner)
    refine ⟨cs', ow', ?_, fun c => (hscr' c).trans (hscr c)⟩
    rw [List.foldl_cons, hfold, hset]

/-- Bytes written one after another. -/
def writeAll (m : Memory) (l : List (Nat × Byte)) : Memory := l.foldl (fun m b => Memory.write m b.1 b.2) m

/-- A registering write of a sound line enters its bytes and raises the line's version by one. -/
theorem State.lineWrite_sound {s : State} {ln : Nat} (h : s.poisoned ln = false) (bytes : List (Nat × Byte)) (c : Nat) :
    s.homeOnly (s.lineWrite ln bytes (some c)) ∧
      (s.lineWrite ln bytes (some c)).dev = writeAll s.dev (bytes.map fun b => (ln * 128 + b.1, b.2)) ∧
      (s.lineWrite ln bytes (some c)).versions = Smap.set 0 s.versions ln (Smap.get 0 s.versions ln + 1) := by
  have hdev : bytes.foldl (fun m (b : Nat × Byte) => Memory.write m (ln * Config.lineBytes + b.1) b.2) s.dev =
      writeAll s.dev (bytes.map fun b => (ln * 128 + b.1, b.2)) := by
    rw [writeAll, List.foldl_map]
    rfl
  unfold State.lineWrite
  simp only [h, Bool.false_eq_true, if_false, hdev]
  generalize hm : writeAll s.dev (bytes.map fun b => (ln * 128 + b.1, b.2)) = m
  obtain ⟨cs, ow, hown, hscr⟩ := State.setOwners_frame (fun w => 32 * ln + w) (some c) (wordsTouched (bytes.map Prod.fst)) { s with dev := m }
  rw [hown] at hscr ⊢
  generalize hk : ({ s with dev := m, cores := cs, owners := ow } : State).modCore c _ = s3
  obtain ⟨cs3, hs3⟩ : ∃ cs3, s3 = { s with dev := m, cores := cs3, owners := ow } := ⟨_, hk.symm⟩
  have hscr3 : ∀ d, (s3.coreAt d).scratch = (s.coreAt d).scratch := fun d => by
    rw [← hk]
    exact (State.modCore_scratch _ c (f := fun k => k.mergeL1 _ _ _ _) (fun _ => rfl) d).trans (hscr d)
  obtain ⟨sl, hsl⟩ := ({ s3 with versions := Smap.set 0 s3.versions ln (Smap.get 0 s3.versions ln + 1) } : State).slicePut_frame ln 0 true
  rw [hsl]
  subst hs3
  exact ⟨⟨⟨_, _, _, _, _, _, _, rfl⟩, hscr3⟩, rfl, rfl⟩

theorem writeAll_wf {m : Memory} {l : List (Nat × Byte)} (h : m.wf = true) : (writeAll m l).wf = true := by
  induction l generalizing m with
  | nil => exact h
  | cons b r ih => exact ih (Memory.write_wf h)

/-- Where the bytes written at one address agree, an address written reads as they say, and any other as before. -/
theorem read_writeAll {m : Memory} {l : List (Nat × Byte)} {val : Nat → Byte} (h : m.wf = true) (hval : ∀ b ∈ l, b.2 = val b.1) (a : Nat) :
    Memory.read (writeAll m l) a = if ∃ b ∈ l, b.1 = a then val a else Memory.read m a := by
  induction l generalizing m with
  | nil => simp [writeAll]
  | cons b r ih =>
    have hr := ih (m := Memory.write m b.1 b.2) (Memory.write_wf h) fun x hx => hval x (List.mem_cons_of_mem _ hx)
    change Memory.read (writeAll (Memory.write m b.1 b.2) r) a = _
    rw [hr, Memory.read_write h, hval b List.mem_cons_self]
    by_cases hin : ∃ x ∈ r, x.1 = a
    · rw [if_pos hin, if_pos (hin.imp fun x hx => ⟨List.mem_cons_of_mem _ hx.1, hx.2⟩)]
    · by_cases hb : a = b.1
      · rw [if_neg hin, if_pos hb, if_pos ⟨b, List.mem_cons_self, hb.symm⟩, hb]
      · have hout : ¬ ∃ x ∈ b :: r, x.1 = a := by
          rintro ⟨x, hx, hxa⟩
          rcases List.mem_cons.1 hx with rfl | hx
          · exact hb hxa.symm
          · exact hin ⟨x, hx, hxa⟩
        rw [if_neg hin, if_neg hb, if_neg hout]

/-- What registering writes of some lines of a list of bytes do: the bytes on those lines are entered, and each of the lines
rises by one version. -/
structure State.Registers (s t : State) (bytes : List (Nat × Byte)) (val : Nat → Byte) (lines : List Nat) : Prop where
  home : s.homeOnly t
  devWf : t.dev.wf = true
  versionsWf : Smap.wf 0 t.versions = true
  read : ∀ a, Memory.read t.dev a = if (∃ b ∈ bytes, b.1 = a) ∧ a / 128 ∈ lines then val a else Memory.read s.dev a
  version : ∀ ln, Smap.get 0 t.versions ln = Smap.get 0 s.versions ln + if ln ∈ lines then 1 else 0

theorem State.homeOnly.poisoned {s t : State} (h : s.homeOnly t) (ln : Nat) : t.poisoned ln = s.poisoned ln := by
  obtain ⟨⟨_, _, _, _, _, _, _, rfl⟩, _⟩ := h
  rfl

/-- One line of a write at home slices. -/
theorem State.registers_line {s : State} {bytes : List (Nat × Byte)} {val : Nat → Byte} (hwf : s.dev.wf = true)
    (hvwf : Smap.wf 0 s.versions = true) (hval : ∀ b ∈ bytes, b.2 = val b.1) (c : Nat) {ln : Nat} (hsound : s.poisoned ln = false) :
    s.Registers (s.lineWrite ln ((bytes.filter fun b => b.1 / 128 = ln).map fun b => (b.1 % 128, b.2)) (some c)) bytes val [ln] := by
  obtain ⟨hhome, hdev, hver⟩ := State.lineWrite_sound hsound ((bytes.filter fun b => b.1 / 128 = ln).map fun b => (b.1 % 128, b.2)) c
  have hback : ((bytes.filter fun b => b.1 / 128 = ln).map fun b => (b.1 % 128, b.2)).map (fun b => (ln * 128 + b.1, b.2)) =
      bytes.filter fun b => b.1 / 128 = ln := by
    rw [List.map_map]
    refine (List.map_congr_left fun b hb => ?_).trans (List.map_id _)
    have hln := of_decide_eq_true (List.mem_filter.1 hb).2
    exact Prod.ext (by simp only [Function.comp_apply, id_eq]; omega) rfl
  rw [hback] at hdev
  refine ⟨hhome, hdev ▸ writeAll_wf hwf, hver ▸ Smap.set_wf hvwf, fun a => ?_, fun n => ?_⟩
  · rw [hdev, read_writeAll hwf fun b hb => hval b (List.mem_of_mem_filter hb)]
    have hiff : (∃ b ∈ bytes.filter fun b => b.1 / 128 = ln, b.1 = a) ↔ (∃ b ∈ bytes, b.1 = a) ∧ a / 128 ∈ [ln] := by
      simp only [List.mem_filter, decide_eq_true_eq, List.mem_singleton]
      constructor
      · rintro ⟨b, ⟨hb, hln⟩, rfl⟩
        exact ⟨⟨b, hb, rfl⟩, hln⟩
      · rintro ⟨⟨b, hb, rfl⟩, hln⟩
        exact ⟨b, ⟨hb, hln⟩, rfl⟩
    simp only [hiff]
  · rw [hver, Smap.get_set hvwf]
    by_cases hn : n = ln
    · simp [hn]
    · simp [hn]

theorem State.registers_lines {bytes : List (Nat × Byte)} {val : Nat → Byte} (hval : ∀ b ∈ bytes, b.2 = val b.1) (c : Nat)
    {lines : List Nat} (hnd : lines.Nodup) {s : State} (hwf : s.dev.wf = true) (hvwf : Smap.wf 0 s.versions = true)
    (hsound : ∀ ln ∈ lines, s.poisoned ln = false) :
    s.Registers (lines.foldl (fun t l => t.lineWrite l ((bytes.filter fun b => b.1 / 128 = l).map fun b => (b.1 % 128, b.2)) (some c)) s)
      bytes val lines := by
  induction lines generalizing s with
  | nil => exact ⟨.refl s, hwf, hvwf, by simp, by simp⟩
  | cons ln r ih =>
    obtain ⟨hnotin, hnd⟩ := List.nodup_cons.1 hnd
    obtain ⟨hhome, hwf1, hvwf1, hread, hver⟩ := s.registers_line hwf hvwf hval c (hsound ln List.mem_cons_self)
    obtain ⟨hhome', hwf', hvwf', hread', hver'⟩ := ih hnd hwf1 hvwf1 fun n hn =>
      (hhome.poisoned n).trans (hsound n (List.mem_cons_of_mem _ hn))
    refine ⟨hhome.trans hhome', hwf', hvwf', fun a => ?_, fun n => ?_⟩
    · rw [List.foldl_cons, hread', hread]
      by_cases ha : ∃ b ∈ bytes, b.1 = a <;> by_cases hr : a / 128 ∈ r <;> by_cases hl : a / 128 = ln <;> simp [ha, hr, hl]
    · rw [List.foldl_cons, hver', hver]
      by_cases hn : n = ln
      · subst hn
        simp [hnotin]
      · simp [hn]

/-- Bytes written at their home slices: each address that is named reads as said, and each line reached rises by one version. -/
theorem State.homeWrite_registers {s : State} {bytes : List (Nat × Byte)} {val : Nat → Byte} (hwf : s.dev.wf = true)
    (hvwf : Smap.wf 0 s.versions = true) (hval : ∀ b ∈ bytes, b.2 = val b.1) (c : Nat) (hsound : ∀ b ∈ bytes, s.poisoned (b.1 / 128) = false) :
    s.Registers (s.homeWrite bytes (some c)) bytes val (bytes.map fun b => b.1 / 128).eraseDups := by
  refine State.registers_lines hval c (nodup_eraseDups _) hwf hvwf fun ln hln => ?_
  obtain ⟨b, hb, rfl⟩ := List.mem_map.1 (List.mem_eraseDups.1 hln)
  exact hsound b hb

end Sys2Proof.Machine
end

section
namespace Sys2Proof.Machine

/-! ### The lanes of a store (R59, R88, R194) -/

theorem mem_bytesAt {a n v : Nat} {b : Nat × Byte} : b ∈ bytesAt a n v ↔ ∃ k < n, b = (a + k, BitVec.ofNat 8 (v / 256 ^ k)) := by
  simp only [bytesAt, List.mem_map, List.mem_range]
  exact exists_congr fun k => and_congr_right fun _ => eq_comm

theorem mem_laneBytes {w : Nat} {dv : List (Nat × LaneAcc)} {b : Nat × Byte} :
    b ∈ laneBytes w dv ↔ ∃ x ∈ dv, ∃ k < w, b = (x.1 + k, BitVec.ofNat 8 (x.2.v / 256 ^ k)) := by
  simp only [laneBytes, List.mem_flatMap, mem_bytesAt]

/-- Some lane's access covers an address. -/
theorem laneBytes_covers {w a : Nat} {dv : List (Nat × LaneAcc)} :
    (∃ b ∈ laneBytes w dv, b.1 = a) ↔ ∃ x ∈ dv, x.1 ≤ a ∧ a < x.1 + w := by
  constructor
  · rintro ⟨b, hb, rfl⟩
    obtain ⟨x, hx, k, hk, rfl⟩ := mem_laneBytes.1 hb
    exact ⟨x, hx, Nat.le_add_right _ _, Nat.add_lt_add_left hk _⟩
  · rintro ⟨x, hx, hle, hlt⟩
    exact ⟨_, mem_laneBytes.2 ⟨x, hx, a - x.1, by omega, rfl⟩, by simp only; omega⟩

/-- An entry that agrees with all others of its key is what looking the key up gives. -/
theorem lookup_of_mem {l : List (Nat × Byte)} {a : Nat} {v : Byte} (h : (a, v) ∈ l) (hall : ∀ b ∈ l, b.1 = a → b.2 = v) : l.lookup a = some v := by
  induction l with
  | nil => exact absurd h List.not_mem_nil
  | cons b r ih =>
    rw [List.lookup_cons]
    by_cases hb : b.1 = a
    · simp [hb, hall b List.mem_cons_self hb]
    · have hne : (a == b.1) = false := by simpa using fun h => hb h.symm
      rw [hne]
      exact ih ((List.mem_cons.1 h).resolve_left fun he => hb (by rw [← he])) fun x hx => hall x (List.mem_cons_of_mem _ hx)

theorem lookup_isSome_of_mem {l : List (Nat × Byte)} {b : Nat × Byte} (h : b ∈ l) : ∃ v, l.lookup b.1 = some v := by
  cases hl : l.lookup b.1 with
  | some v => exact ⟨v, rfl⟩
  | none => exact absurd (List.lookup_eq_none_iff.1 hl b h) (by simp)

/-- The byte that a store's lanes leave at an address: the highest lane's. -/
def lastByte (w : Nat) (dv : List (Nat × LaneAcc)) (a : Nat) : Byte := ((laneBytes w dv).reverse.lookup a).getD 0

/-- Of the lanes that reach an address the last one's byte is left. -/
theorem lastByte_eq {w k : Nat} {p q : List (Nat × LaneAcc)} {x : Nat × LaneAcc} (hk : k < w)
    (hq : ∀ y ∈ q, x.1 + k < y.1 ∨ y.1 + w ≤ x.1 + k) : lastByte w (p ++ x :: q) (x.1 + k) = BitVec.ofNat 8 (x.2.v / 256 ^ k) := by
  have hnone : (laneBytes w q).reverse.lookup (x.1 + k) = none := by
    rw [List.lookup_eq_none_iff]
    intro b hb
    obtain ⟨y, hy, j, hj, rfl⟩ := mem_laneBytes.1 (List.mem_reverse.1 hb)
    have := hq y hy
    simp only [ne_eq, bne_iff_ne]
    omega
  have hmine : (bytesAt x.1 w x.2.v).reverse.lookup (x.1 + k) = some (BitVec.ofNat 8 (x.2.v / 256 ^ k)) := by
    refine lookup_of_mem (List.mem_reverse.2 (mem_bytesAt.2 ⟨k, hk, rfl⟩)) fun b hb hbk => ?_
    obtain ⟨j, hj, rfl⟩ := mem_bytesAt.1 (List.mem_reverse.1 hb)
    obtain rfl : j = k := Nat.add_left_cancel hbk
    rfl
  have hsplit : laneBytes w (p ++ x :: q) = laneBytes w p ++ (bytesAt x.1 w x.2.v ++ laneBytes w q) := by
    simp [laneBytes]
  rw [lastByte, hsplit, List.reverse_append, List.reverse_append, List.lookup_append, List.lookup_append, hnone, hmine]
  rfl

/-- The bytes of a store's lanes that name one line of virtual addresses, each with the value of the highest lane of all. -/
def vlineBytes (w : Nat) (dv : List (Nat × LaneAcc)) (vl : Nat) : List (Nat × Byte) :=
  (laneBytes w (dv.filter fun x => x.2.va / 128 = vl)).map fun b => (b.1, ((laneBytes w dv).reverse.lookup b.1).getD b.2)

theorem vlineBytes_val {w vl : Nat} {dv : List (Nat × LaneAcc)} : ∀ b ∈ vlineBytes w dv vl, b.2 = lastByte w dv b.1 := by
  intro b hb
  obtain ⟨c, hc, rfl⟩ := List.mem_map.1 hb
  obtain ⟨x, hx, hck⟩ := mem_laneBytes.1 hc
  obtain ⟨v, hv⟩ := lookup_isSome_of_mem (List.mem_reverse.2 (mem_laneBytes.2 ⟨x, List.mem_of_mem_filter hx, hck⟩))
  simp only [lastByte, hv, Option.getD_some]

theorem vlineBytes_covers {w vl a : Nat} {dv : List (Nat × LaneAcc)} :
    (∃ b ∈ vlineBytes w dv vl, b.1 = a) ↔ ∃ x ∈ dv, x.2.va / 128 = vl ∧ x.1 ≤ a ∧ a < x.1 + w := by
  have hmap : (∃ b ∈ vlineBytes w dv vl, b.1 = a) ↔ ∃ b ∈ laneBytes w (dv.filter fun x => x.2.va / 128 = vl), b.1 = a := by
    simp [vlineBytes]
  rw [hmap, laneBytes_covers]
  simp only [List.mem_filter, decide_eq_true_eq, and_assoc]

/-- Lanes of a store, each of which stays in one line. -/
def InLines (w : Nat) (dv : List (Nat × LaneAcc)) : Prop := 0 < w ∧ ∀ x ∈ dv, x.1 % 128 + w ≤ 128

theorem mem_vlineBytes_lines {w vl ln : Nat} {dv : List (Nat × LaneAcc)} (h : InLines w dv) :
    ln ∈ ((vlineBytes w dv vl).map fun b => b.1 / 128).eraseDups ↔ ∃ x ∈ dv, x.2.va / 128 = vl ∧ x.1 / 128 = ln := by
  obtain ⟨hpos, hin⟩ := h
  rw [List.mem_eraseDups, List.mem_map]
  constructor
  · rintro ⟨b, hb, rfl⟩
    obtain ⟨x, hx, hvl, hle, hlt⟩ := vlineBytes_covers.1 ⟨b, hb, rfl⟩
    have := hin x hx
    exact ⟨x, hx, hvl, by omega⟩
  · rintro ⟨x, hx, hvl, rfl⟩
    obtain ⟨b, hb, hbx⟩ := vlineBytes_covers.2 ⟨x, hx, hvl, Nat.le_refl x.1, Nat.lt_add_of_pos_right hpos⟩
    exact ⟨b, hb, by rw [hbx]⟩

/-- Some lane names a line of virtual addresses and reaches a line. -/
def names (dv : List (Nat × LaneAcc)) (ln vl : Nat) : Bool := dv.any fun x => x.2.va / 128 = vl && x.1 / 128 = ln

theorem names_iff {dv : List (Nat × LaneAcc)} {ln vl : Nat} : names dv ln vl = true ↔ ∃ x ∈ dv, x.2.va / 128 = vl ∧ x.1 / 128 = ln := by
  simp [names]

/-- What the registering writes of some lines of virtual addresses leave. -/
theorem State.storeVlines {w : Nat} {dv : List (Nat × LaneAcc)} (hin : InLines w dv) (c : Nat) (vls : List Nat) {s : State}
    (hwf : s.dev.wf = true) (hvwf : Smap.wf 0 s.versions = true) (hsound : ∀ x ∈ dv, s.poisoned (x.1 / 128) = false) :
    ∃ t, vls.foldl (fun t vl => t.homeWrite (vlineBytes w dv vl) (some c)) s = t ∧ s.homeOnly t ∧
      (∀ a, Memory.read t.dev a = if ∃ x ∈ dv, x.2.va / 128 ∈ vls ∧ x.1 ≤ a ∧ a < x.1 + w then lastByte w dv a else Memory.read s.dev a) ∧
      ∀ ln, Smap.get 0 t.versions ln = Smap.get 0 s.versions ln + BitVec.ofNat 32 (vls.filter (names dv ln)).length := by
  induction vls generalizing s with
  | nil => exact ⟨s, rfl, .refl s, by simp, by simp⟩
  | cons vl r ih =>
    obtain ⟨hhome, hwf1, hvwf1, hread, hver⟩ := State.homeWrite_registers hwf hvwf (vlineBytes_val (w := w) (vl := vl)) c fun b hb => by
      obtain ⟨x, hx, -, hln⟩ := (mem_vlineBytes_lines hin).1 (List.mem_eraseDups.2 (List.mem_map_of_mem hb))
      rw [← hln]
      exact hsound x hx
    obtain ⟨t, ht, hhome', hread', hver'⟩ := ih hwf1 hvwf1 fun x hx => (hhome.poisoned _).trans (hsound x hx)
    refine ⟨t, ht, hhome.trans hhome', fun a => ?_, fun ln => ?_⟩
    · have hone : ((∃ b ∈ vlineBytes w dv vl, b.1 = a) ∧ a / 128 ∈ ((vlineBytes w dv vl).map fun b => b.1 / 128).eraseDups) ↔
          ∃ x ∈ dv, x.2.va / 128 = vl ∧ x.1 ≤ a ∧ a < x.1 + w := by
        rw [← vlineBytes_covers, and_iff_left_iff_imp]
        rintro ⟨b, hb, rfl⟩
        exact List.mem_eraseDups.2 (List.mem_map_of_mem hb)
      have hsplit : (∃ x ∈ dv, x.2.va / 128 ∈ vl :: r ∧ x.1 ≤ a ∧ a < x.1 + w) ↔
          (∃ x ∈ dv, x.2.va / 128 ∈ r ∧ x.1 ≤ a ∧ a < x.1 + w) ∨ ∃ x ∈ dv, x.2.va / 128 = vl ∧ x.1 ≤ a ∧ a < x.1 + w := by
        simp only [List.mem_cons, or_and_right, and_or_left, exists_or]
        exact or_comm
      rw [hread', hread]
      simp only [hone, hsplit, ite_or]
    · rw [hver', hver, List.filter_cons]
      have hln : ln ∈ ((vlineBytes w dv vl).map fun b => b.1 / 128).eraseDups ↔ names dv ln vl = true :=
        (mem_vlineBytes_lines hin).trans names_iff.symm
      simp only [hln]
      cases names dv ln vl with
      | false => simp
      | true => simp [BitVec.ofNat_add, BitVec.add_assoc, BitVec.add_comm (1#32)]

/-- As many versions as lines of virtual addresses by which lanes reach the line. -/
theorem names_count (dv : List (Nat × LaneAcc)) (ln : Nat) :
    ((vlines dv).filter (names dv ln)).length = (((dv.filter fun x => x.1 / 128 = ln).map fun x => x.2.va / 128).eraseDups).length := by
  refine List.Perm.length_eq ((List.perm_ext_iff_of_nodup ((nodup_eraseDups _).filter _) (nodup_eraseDups _)).2 fun vl => ?_)
  rw [List.mem_filter, names_iff]
  simp only [List.mem_eraseDups, List.mem_map, List.mem_filter, decide_eq_true_eq]
  constructor
  · rintro ⟨-, x, hx, hvl, hln⟩
    exact ⟨x, ⟨hx, hln⟩, hvl⟩
  · rintro ⟨x, ⟨hx, hln⟩, hvl⟩
    exact ⟨⟨x, hx, hvl⟩, x, hx, hvl, hln⟩

theorem foldl_fixed {α β : Type} {f : β → α → β} {b : β} {l : List α} (h : ∀ a ∈ l, f b a = b) : l.foldl f b = b := by
  induction l with
  | nil => rfl
  | cons a r ih => rw [List.foldl_cons, h a List.mem_cons_self, ih fun x hx => h x (List.mem_cons_of_mem _ hx)]

/-- The lanes of a store to device memory, with a clean L1 (R59, R72, R88). -/
theorem State.l1Clean.storeLanes {s : State} {core w : Nat} {l : List LaneAcc} (h : s.l1Clean core) (hdev : ∀ a ∈ l, ∃ pa, a.tgt = .dev pa)
    (hin : InLines w (devLanes l)) (hwf : s.dev.wf = true) (hvwf : Smap.wf 0 s.versions = true)
    (hsound : ∀ x ∈ devLanes l, s.poisoned (x.1 / 128) = false) :
    s.homeOnly (s.storeLanes core w l) ∧
      (∀ a, Memory.read (s.storeLanes core w l).dev a =
        if ∃ x ∈ devLanes l, x.1 ≤ a ∧ a < x.1 + w then lastByte w (devLanes l) a else Memory.read s.dev a) ∧
      ∀ ln, Smap.get 0 (s.storeLanes core w l).versions ln = Smap.get 0 s.versions ln +
        BitVec.ofNat 32 ((((devLanes l).filter fun x => x.1 / 128 = ln).map fun x => x.2.va / 128).eraseDups).length := by
  obtain ⟨t, ht, hhome, hread, hver⟩ := State.storeVlines hin core (vlines (devLanes l)) hwf hvwf hsound
  have hrest : ∀ u : State, l.foldl (fun t a => match a.tgt with
      | .dev _ => t
      | .host p ha => { t with host := Memory.writeLE t.host (hostAt p ha) w a.v }
      | .peer d pa => t.modPeer d fun m => Memory.writeLE m pa w a.v
      | .spm c o => t.scratchStore c o w a.v) u = u := by
    refine fun u => foldl_fixed fun a ha => ?_
    obtain ⟨pa, hpa⟩ := hdev a ha
    rw [hpa]
  have hstore : s.storeLanes core w l = t := by
    unfold State.storeLanes
    dsimp only
    rw [h.settleLines]
    exact (hrest _).trans ht
  have hnamed : ∀ a, (∃ x ∈ devLanes l, x.2.va / 128 ∈ vlines (devLanes l) ∧ x.1 ≤ a ∧ a < x.1 + w) ↔
      ∃ x ∈ devLanes l, x.1 ≤ a ∧ a < x.1 + w := fun a => exists_congr fun x => and_congr_right fun hx =>
    and_iff_right (List.mem_eraseDups.2 (List.mem_map_of_mem hx))
  simp only [hnamed] at hread
  simp only [names_count] at hver
  rw [hstore]
  exact ⟨hhome, hread, hver⟩

end Sys2Proof.Machine
end

section
namespace Sys2Proof.Machine

/-- A lane of a store to device memory: its number, its place and its operand. -/
def storeLane (va : Nat × Nat × Nat → Nat) (x : Nat × Nat × Nat) : LaneAcc := { lane := x.1, tgt := .dev x.2.1, v := x.2.2, c := 0, va := va x }

theorem devLanes_storeLane (va : Nat × Nat × Nat → Nat) (l : List (Nat × Nat × Nat)) :
    devLanes (l.map (storeLane va)) = l.map fun x => (x.2.1, storeLane va x) := by
  rw [devLanes, List.filterMap_map]
  exact List.filterMap_eq_map_iff_forall_eq_some.2 fun x _ => rfl

theorem State.finishFlight_frame (s : State) (f : Flight) (res : List (Nat × Nat)) :
    (s.finishFlight f res).dev = s.dev ∧ (s.finishFlight f res).host = s.host ∧ (s.finishFlight f res).peers = s.peers := by
  obtain ⟨u, ⟨⟨cs, ds, rfl⟩, -⟩, -, ht⟩ := s.finishFlight_acquire f res
  rw [ht]
  exact ⟨rfl, rfl, rfl⟩

theorem State.finishFlight_scratch (s : State) (f : Flight) (res : List (Nat × Nat)) (c : Nat) :
    ((s.finishFlight f res).coreAt c).scratch = (s.coreAt c).scratch := by
  obtain ⟨u, ⟨-, hscr⟩, -, ht⟩ := s.finishFlight_acquire f res
  rw [ht]
  exact hscr c

theorem State.homeOnly.host {s t : State} (h : s.homeOnly t) : t.host = s.host ∧ t.peers = s.peers ∧ t.g = s.g ∧ t.flights = s.flights ∧
    t.timer = s.timer := by
  obtain ⟨⟨_, _, _, _, _, _, _, rfl⟩, _⟩ := h
  exact ⟨rfl, rfl, rfl, rfl, rfl⟩

/-- The step that performs a write as a whole. -/
theorem State.Unhindered.writes {s : State} {f : Flight} (h : s.Unhindered f) (hclean : s.l1Clean f.core) (hshares : f.acc.shares = true)
    (hbehind : s.flightBehind f = false)
    (hlog : s.logTargets (s.vdOf (match s.groupAt f.core f.slot with
      | some g => g.launch
      | none => 0)) (f.logged f.lanes) = some s) :
    exec .accessPerformed s = .next (((s.met f).performLanes f f.lanes).2.finishFlight f ((s.met f).performLanes f f.lanes).1) :=
  accessPerformed_whole h.flight h.may hbehind h.line h.held h.spoilt (h.settleFor hclean hshares) hlog

end Sys2Proof.Machine

namespace Sys2Proof
open Machine

/-- Settles O37: nothing hinders the flight, so the step is the lanes' writes at their home slices, line of virtual addresses by line
of virtual addresses, each with the bytes of the highest lanes. -/
theorem storePerformed : Obligations.StorePerformed := by
  unfold Obligations.StorePerformed
  intro s f w hint l va hmem hvwf hflight hmay hline hacc hw hheld hbehind hlanes hne hplaces hclean hparked hlog
  obtain ⟨sl, ds, cs, hmet⟩ := s.met_frame f
  have hlanes' : f.lanes = l.map (storeLane va) := hlanes
  have hun : s.Unhindered f := ⟨hflight, hmay, hline, hheld, fun a ha pa hpa => by
    rw [hlanes'] at ha
    obtain ⟨x, hx, rfl⟩ := List.mem_map.1 ha
    obtain rfl := Target.dev.inj hpa
    exact ⟨(hplaces x hx).2, hparked x hx⟩⟩
  have hlogged : f.logged f.lanes = l.map fun x => .dev x.2.1 := by
    rw [Flight.logged, hacc, hlanes', List.map_map]
    rfl
  have hlog' : s.logTargets (s.vdOf (match s.groupAt f.core f.slot with
      | some g => g.launch
      | none => 0)) (f.logged f.lanes) = some s := by
    rw [hlogged]
    cases hg : s.groupAt f.core f.slot <;> rw [hg] at hlog <;> exact hlog
  have hexec := hun.writes hclean (by rw [hacc]; rfl) hbehind hlog'
  have hdv : devLanes f.lanes = l.map fun x => (x.2.1, storeLane va x) := by rw [hlanes', devLanes_storeLane]
  have hin : InLines w (devLanes f.lanes) := by
    refine ⟨by revert hw; simp; omega, fun y hy => ?_⟩
    rw [hdv] at hy
    obtain ⟨x, hx, rfl⟩ := List.mem_map.1 hy
    exact aligned_in_line hw (hplaces x hx).1
  have hperform : (s.met f).performLanes f f.lanes = ([], (s.met f).storeLanes f.core w f.lanes) := by
    unfold State.performLanes
    rw [hacc]
  obtain ⟨hhome, hread, hver⟩ := (State.l1Clean.met hclean f).storeLanes (w := w) (l := f.lanes)
    (fun a ha => by
      rw [hlanes'] at ha
      obtain ⟨x, hx, rfl⟩ := List.mem_map.1 ha
      exact ⟨_, rfl⟩)
    hin (by rw [hmet]; exact hmem.1) (by rw [hmet]; exact hvwf)
    (fun y hy => by
      rw [hdv] at hy
      obtain ⟨x, hx, rfl⟩ := List.mem_map.1 hy
      rw [hmet]
      exact (hplaces x hx).2)
  rw [hperform] at hexec
  obtain ⟨tdev, thost, tpeers⟩ := ((s.met f).storeLanes f.core w f.lanes).finishFlight_frame f []
  obtain ⟨hhost, hpeers, -⟩ := hhome.host
  refine ⟨_, hexec, fun a ha => ?_, fun p x q k hl hk hq => ?_, fun ln => ?_, ?_, ?_, ?_, fun c a => ?_⟩
  · have hout : ¬ ∃ y ∈ devLanes f.lanes, y.1 ≤ a ∧ a < y.1 + w := by
      rw [hdv]
      rintro ⟨y, hy, hle, hlt⟩
      obtain ⟨x, hx, rfl⟩ := List.mem_map.1 hy
      have := ha x hx
      dsimp only at hle hlt
      omega
    rw [tdev, hread, if_neg hout, hmet]
  · have hsplit : devLanes f.lanes = (p.map fun x => (x.2.1, storeLane va x)) ++ (x.2.1, storeLane va x) :: q.map fun x => (x.2.1, storeLane va x) := by
      rw [hdv, hl, List.map_append, List.map_cons]
    rw [tdev, hread, hsplit, if_pos ⟨(x.2.1, storeLane va x), by simp, Nat.le_add_right _ _, Nat.add_lt_add_left hk _⟩]
    exact lastByte_eq (x := (x.2.1, storeLane va x)) hk fun y hy => by
      obtain ⟨z, hz, rfl⟩ := List.mem_map.1 hy
      exact hq z hz
  · rw [State.finishFlight_versions, hver, hdv, hmet, List.filter_map, List.map_map]
    rfl
  · exact State.finishFlight_over (by rw [hacc]; rfl) _
  · rw [thost, hhost, hmet]
  · rw [tpeers, hpeers, hmet]
  · rw [State.finishFlight_scratch, hhome.2 c, s.met_coreAt]

end Sys2Proof
end

section
namespace Sys2Proof.Machine

/-! ### CASV of one lane (R203) -/

theorem State.l1Clean.dropWords_cachesOnly {s : State} {core : Nat} (h : s.l1Clean core) (pa n : Nat) : s.cachesOnly (s.dropWords core pa n) := by
  unfold State.dropWords
  simp only [h.settleLine]
  exact s.modCore_cachesOnly core fun _ => rfl

theorem State.cachesOnly.clearOf {s t : State} (h : s.cachesOnly t) (ln : Nat) : t.clearOf ln = s.clearOf ln := by
  obtain ⟨⟨_, _, rfl⟩, _⟩ := h
  rfl

/-- A lane of CASV may write: its entry for the line is young enough and not cleared, and the line's version is the one expected. -/
def State.casvHolds (s : State) (a : LaneAcc) (ln : Nat) : Bool := match s.g.snap a.lane ln with
  | none => false
  | some e => decide (s.timer < e.stamp + 2 ^ 32) && decide (s.clearOf ln ≤ e.stamp) && (Smap.get 0 s.versions ln).toNat = a.c

/-- What a lane of CASV that may write does: its bytes and the version at the home slice, and its entry. -/
def State.casvWrite (s : State) (core slot w pa : Nat) (a : LaneAcc) : Nat × State :=
  let t := s.homeWrite (bytesAt pa w a.v) (some core)
  (1 + 2 ^ 64 * (t.versionOf (pa / 128)).toNat, t.modGroup core slot fun g =>
    { g with snaps := modFirst (fun e => e.lane = a.lane && e.line = pa / 128)
               (fun e => { e with version := t.versionOf (pa / 128), stamp := t.timer }) g.snaps })

/-- One lane of CASV, by whether it may write. -/
theorem State.l1Clean.casvLane {s : State} {core slot w pa : Nat} {a : LaneAcc} (h : s.l1Clean core)
    (hg : s.g.live = true ∧ s.g.core = core ∧ s.g.slot = slot) (ha : a.tgt = .dev pa) (hsound : s.poisoned (pa / 128) = false) :
    ∃ s1, s.cachesOnly s1 ∧ s.casvLane core slot w a =
      if s.casvHolds a (pa / 128) then
        s1.casvWrite core slot w pa a
      else (2 ^ 64 * (Smap.get 0 s.versions (pa / 128)).toNat, s1) := by
  have hcaches := h.dropWords_cachesOnly pa w
  refine ⟨s.dropWords core pa w, hcaches, ?_⟩
  have hgroup : (s.dropWords core pa w).groupAt core slot = some s.g := by
    rw [State.groupAt_issuing (by rw [hcaches.g]; exact hg), hcaches.g]
  have hversion : (s.dropWords core pa w).versionOf (pa / 128) = Smap.get 0 s.versions (pa / 128) := by
    rw [State.versionOf_sound ((hcaches.poisoned _).trans hsound), hcaches.versions]
  unfold State.casvLane State.casvHolds
  rw [ha]
  simp only [hgroup, hversion, hcaches.timer, hcaches.clearOf, Option.bind_some]
  rfl

theorem ofBytes_digits (n v : Nat) : ofBytes ((List.range n).map fun k => BitVec.ofNat 8 (v / 256 ^ k)) = v % 256 ^ n := by
  induction n generalizing v with
  | zero => simp [ofBytes, Nat.mod_one]
  | succ n ih =>
    have hshift : ((List.range n).map fun k => BitVec.ofNat 8 (v / 256 ^ (k + 1))) =
        (List.range n).map fun k => BitVec.ofNat 8 (v / 256 / 256 ^ k) :=
      List.map_congr_left fun k _ => by rw [Nat.pow_succ', Nat.div_div_eq_div_mul]
    rw [List.range_succ_eq_map, List.map_cons, List.map_map, ofBytes]
    simp only [Function.comp_def, Nat.succ_eq_add_one]
    rw [hshift, ih, Nat.pow_succ', Nat.mod_mul]
    simp

/-- The bytes of one value at its place, which lies in one line. -/
theorem State.homeWrite_value {s : State} {pa w v : Nat} (hpos : 0 < w) (hin : pa % 128 + w ≤ 128) (hwf : s.dev.wf = true)
    (hvwf : Smap.wf 0 s.versions = true) (c : Nat) (hsound : s.poisoned (pa / 128) = false) :
    s.homeOnly (s.homeWrite (bytesAt pa w v) (some c)) ∧
      Memory.readLE (s.homeWrite (bytesAt pa w v) (some c)).dev pa w = v % 256 ^ w ∧
      (∀ a, a < pa ∨ pa + w ≤ a → Memory.read (s.homeWrite (bytesAt pa w v) (some c)).dev a = Memory.read s.dev a) ∧
      ∀ n, Smap.get 0 (s.homeWrite (bytesAt pa w v) (some c)).versions n =
        if n = pa / 128 then Smap.get 0 s.versions (pa / 128) + 1 else Smap.get 0 s.versions n := by
  have hval : ∀ b ∈ bytesAt pa w v, b.2 = BitVec.ofNat 8 (v / 256 ^ (b.1 - pa)) := by
    intro b hb
    obtain ⟨k, -, rfl⟩ := mem_bytesAt.1 hb
    simp
  have hline : ∀ b ∈ bytesAt pa w v, b.1 / 128 = pa / 128 := by
    intro b hb
    obtain ⟨k, hk, rfl⟩ := mem_bytesAt.1 hb
    dsimp only
    omega
  have hfirst : (pa, BitVec.ofNat 8 (v / 256 ^ 0)) ∈ bytesAt pa w v := mem_bytesAt.2 ⟨0, hpos, rfl⟩
  have hlines : ((bytesAt pa w v).map fun b => b.1 / 128).eraseDups = [pa / 128] := by
    refine eq_singleton_of_mem (nodup_eraseDups _) fun n => ?_
    rw [List.mem_eraseDups, List.mem_map]
    constructor
    · rintro ⟨b, hb, rfl⟩
      exact hline b hb
    · rintro rfl
      exact ⟨_, hfirst, rfl⟩
  obtain ⟨hhome, -, -, hread, hver⟩ := State.homeWrite_registers (val := fun a => BitVec.ofNat 8 (v / 256 ^ (a - pa))) hwf hvwf hval c fun b hb => by rw [hline b hb]; exact hsound
  rw [hlines] at hread hver
  refine ⟨hhome, ?_, fun a ha => ?_, fun n => ?_⟩
  · rw [readLE_eq_ofBytes, ← ofBytes_digits]
    congr 1
    refine List.map_congr_left fun k hk => ?_
    have hk := List.mem_range.1 hk
    have hin' : (pa + k) / 128 ∈ [pa / 128] := by
      rw [List.mem_singleton]
      omega
    rw [hread, if_pos ⟨⟨_, mem_bytesAt.2 ⟨k, hk, rfl⟩, rfl⟩, hin'⟩, Nat.add_sub_cancel_left]
  · rw [hread, if_neg]
    rintro ⟨⟨b, hb, rfl⟩, -⟩
    obtain ⟨k, hk, rfl⟩ := mem_bytesAt.1 hb
    dsimp only at ha
    omega
  · rw [hver]
    by_cases hn : n = pa / 128
    · simp [hn]
    · simp [hn]

/-- The premises of CASV of one lane. -/
structure State.CasvAlone (s : State) (f : Flight) (w pa : Nat) (x : LaneAcc) : Prop where
  free : s.Unhindered f
  clean : s.l1Clean f.core
  group : s.g.live = true ∧ s.g.core = f.core ∧ s.g.slot = f.slot
  acc : f.acc = .casv w
  lanes : f.lanes = [x]
  place : x.tgt = .dev pa
  inLine : pa % 128 + w ≤ 128
  wide : 0 < w
  devWf : s.dev.wf = true
  versionsWf : Smap.wf 0 s.versions = true
  first : s.flightBehind f = false
  logged : s.logTargets (s.vdOf s.g.launch) [.dev pa] = some s

theorem State.CasvAlone.sound {s : State} {f : Flight} {w pa : Nat} {x : LaneAcc} (h : s.CasvAlone f w pa x) : s.poisoned (pa / 128) = false :=
  (h.free.sound x (by rw [h.lanes]; exact List.mem_singleton.2 rfl) pa h.place).1

/-- The step of CASV of one lane is what the lane does. -/
theorem State.CasvAlone.performs {s u : State} {f : Flight} {w pa r : Nat} {x : LaneAcc} (h : s.CasvAlone f w pa x)
    (hlane : (s.met f).casvLane f.core f.slot w x = (r, u)) : exec .accessPerformed s = .next (u.finishFlight f [(x.lane, r)]) := by
  have hlogged : f.logged f.lanes = [.dev pa] := by rw [Flight.logged, h.acc, h.lanes, List.map_singleton, h.place]
  have hexec := h.free.writes h.clean (by rw [h.acc]; rfl) h.first (by
    rw [hlogged, s.groupAt_issuing h.group]
    exact h.logged)
  have hperform : (s.met f).performLanes f f.lanes = ([(x.lane, r)], u) := by
    unfold State.performLanes
    rw [h.acc, h.lanes]
    simp only [casvFold, hlane]
  rw [hperform] at hexec
  exact hexec

/-- What the lane meets is what the machine was, but for slices, rails and collectives. -/
theorem State.CasvAlone.casvLane {s : State} {f : Flight} {w pa : Nat} {x : LaneAcc} (h : s.CasvAlone f w pa x) :
    ∃ s1, (s.met f).cachesOnly s1 ∧ (s.met f).casvLane f.core f.slot w x =
      if s.casvHolds x (pa / 128) then
        s1.casvWrite f.core f.slot w pa x
      else (2 ^ 64 * (Smap.get 0 s.versions (pa / 128)).toNat, s1) := by
  obtain ⟨sl, ds, cs, hmet⟩ := s.met_frame f
  obtain ⟨s1, hcaches, hlane⟩ := (h.clean.met f).casvLane (slot := f.slot) (w := w) (by rw [s.met_g]; exact h.group) h.place
    (by rw [hmet]; exact h.sound)
  have hholds : (s.met f).casvHolds x (pa / 128) = s.casvHolds x (pa / 128) := by
    rw [hmet]
    rfl
  have hversions : (s.met f).versions = s.versions := by rw [hmet]
  rw [hholds, hversions] at hlane
  exact ⟨s1, hcaches, hlane⟩

theorem State.CasvAlone.found {s u : State} {f : Flight} {w pa : Nat} {x : LaneAcc} (h : s.CasvAlone f w pa x)
    (hu : u.flights = s.flights) (res : List (Nat × Nat)) : (u.finishFlight f res).foundBy f res := by
  refine State.finishFlight_found ?_ (by rw [h.acc]; rfl) res
  unfold State.flight
  rw [hu, State.flight_id h.free.flight]
  exact h.free.flight

/-- CASV of a lane that may not write. -/
theorem State.CasvAlone.fails {s : State} {f : Flight} {w pa : Nat} {x : LaneAcc} (h : s.CasvAlone f w pa x)
    (hno : s.casvHolds x (pa / 128) = false) :
    ∃ t, exec .accessPerformed s = .next t ∧ t.foundBy f [(x.lane, 2 ^ 64 * (Smap.get 0 s.versions (pa / 128)).toNat)] ∧
      t.versions = s.versions ∧ t.g.snaps = s.g.snaps ∧ s.sameMemory t := by
  obtain ⟨s1, hcaches, hlane⟩ := h.casvLane
  simp only [hno, Bool.false_eq_true, if_false] at hlane
  obtain ⟨sl, ds, cs, hmet⟩ := s.met_frame f
  refine ⟨_, h.performs hlane, h.found (hcaches.flights.trans (s.met_flights f)) _, ?_, ?_, ?_⟩
  · rw [State.finishFlight_versions, hcaches.versions, hmet]
  · rw [State.finishFlight_snaps, hcaches.g, s.met_g]
  · exact (State.sameMemory.trans (u := s1) (s.met_sameMemory f) hcaches.sameMemory).trans (s1.finishFlight_sameMemory f _)

/-- CASV of a lane that writes. -/
theorem State.CasvAlone.succeeds {s : State} {f : Flight} {w pa : Nat} {x : LaneAcc} {e : Snap} (h : s.CasvAlone f w pa x)
    (hyes : s.casvHolds x (pa / 128) = true) (he : s.g.snap x.lane (pa / 128) = some e) :
    ∃ t e', exec .accessPerformed s = .next t ∧ t.foundBy f [(x.lane, 1 + 2 ^ 64 * (Smap.get 0 s.versions (pa / 128) + 1).toNat)] ∧
      Memory.readLE t.dev pa w = x.v % 256 ^ w ∧ (∀ a, a < pa ∨ pa + w ≤ a → Memory.read t.dev a = Memory.read s.dev a) ∧
      (∀ n, Smap.get 0 t.versions n = if n = pa / 128 then Smap.get 0 s.versions (pa / 128) + 1 else Smap.get 0 s.versions n) ∧
      t.g.snap x.lane (pa / 128) = some e' ∧ e'.version = Smap.get 0 s.versions (pa / 128) + 1 ∧ e'.stamp = s.timer ∧ t.host = s.host := by
  obtain ⟨s1, hcaches, hlane⟩ := h.casvLane
  simp only [hyes, if_true, State.casvWrite] at hlane
  obtain ⟨sl, ds, cs, hmet⟩ := s.met_frame f
  have hdev : s1.dev = s.dev := by rw [hcaches.dev, hmet]
  have hversions : s1.versions = s.versions := by rw [hcaches.versions, hmet]
  have hsound : s1.poisoned (pa / 128) = false := by
    rw [hcaches.poisoned, hmet]
    exact h.sound
  obtain ⟨hhome, hvalue, hother, hver⟩ := s1.homeWrite_value (v := x.v) h.wide h.inLine (by rw [hdev]; exact h.devWf)
    (by rw [hversions]; exact h.versionsWf) f.core hsound
  generalize s1.homeWrite (bytesAt pa w x.v) (some f.core) = s2 at *
  obtain ⟨hhost, -, hg, hflights, htimer⟩ := hhome.host
  have hgroup : s2.g = s.g := by rw [hg, hcaches.g, s.met_g]
  have htime : s2.timer = s.timer := by rw [htimer, hcaches.timer, hmet]
  have hnew : s2.versionOf (pa / 128) = Smap.get 0 s.versions (pa / 128) + 1 := by
    rw [State.versionOf_sound ((hhome.poisoned _).trans hsound), hver, if_pos rfl, hversions]
  rw [State.modGroup_issuing (by rw [hgroup]; exact h.group), hnew, hgroup, htime] at hlane
  refine ⟨_, { e with version := Smap.get 0 s.versions (pa / 128) + 1, stamp := s.timer }, h.performs hlane, h.found ?_ _, ?_,
    fun a ha => ?_, fun n => ?_, ?_, rfl, rfl, ?_⟩
  · exact hflights.trans (hcaches.flights.trans (s.met_flights f))
  · rw [(State.finishFlight_frame _ f _).1]
    exact hvalue
  · rw [(State.finishFlight_frame _ f _).1, ← hdev]
    exact hother a ha
  · rw [State.finishFlight_versions, ← hversions]
    exact hver n
  · obtain ⟨-, hlane', hline⟩ := Group.snap_mem he
    unfold Group.snap
    rw [State.finishFlight_snaps]
    exact modFirst_find? he (by simp [hlane', hline])
  · rw [(State.finishFlight_frame _ f _).2.1]
    exact hhost.trans (by obtain ⟨⟨_, _, rfl⟩, -⟩ := hcaches; rw [hmet])

end Sys2Proof.Machine
end

section
namespace Sys2Proof.Machine

/-! ### A destination that is received (R49, R51, R54, R294) -/

/-- What a fold leaves at one place, where each step of it either puts a value there or leaves it. -/
theorem foldl_slot {α β γ : Type} (φ : β → γ) (inv : β → Prop) (key : α → Prop) [DecidablePred key] (c : γ) {step : β → α → β} {ks : List α}
    (h : ∀ k ∈ ks, ∀ g, inv g → inv (step g k) ∧ φ (step g k) = if key k then c else φ g) {g : β} (hg : inv g) :
    φ (ks.foldl step g) = if ∃ k ∈ ks, key k then c else φ g := by
  induction ks generalizing g with
  | nil => simp
  | cons k r ih =>
    obtain ⟨hinv, hstep⟩ := h k List.mem_cons_self g hg
    rw [List.foldl_cons, ih (fun j hj => h j (List.mem_cons_of_mem _ hj)) hinv, hstep]
    by_cases hr : ∃ j ∈ r, key j
    · rw [if_pos hr, if_pos (hr.imp fun j hj => ⟨List.mem_cons_of_mem _ hj.1, hj.2⟩)]
    · by_cases hk : key k <;> simp [hk, hr]

/-- The registers at some offsets take values in the lanes of a mask, under the names of a mode, and are full. -/
def Group.take (g : Group) (trap : Bool) (d : Nat) (ks : List Nat) (m : Mask) (w : Nat → Lane → Word) : Group :=
  g.underTrap trap fun x => (ks.foldl (fun y k => y.writeWord d k m (w k)) x).setFulls d ks true

/-- The group before its destination is full: its values are written. -/
def Group.taken (g : Group) (trap : Bool) (d : Nat) (ks : List Nat) (m : Mask) (w : Nat → Lane → Word) : Group :=
  ks.foldl (fun y k => y.writeWord d k m (w k)) { g with sp := { g.sp with trap := trap } }

theorem Group.take_frame (g : Group) (trap : Bool) (d : Nat) (ks : List Nat) (m : Mask) (w : Nat → Lane → Word) :
    ∃ feV feO feS, g.take trap d ks m w = { g with v := (g.taken trap d ks m w).v, s := (g.taken trap d ks m w).s
                                                   o := (g.taken trap d ks m w).o, h := (g.taken trap d ks m w).h
                                                   feV := feV, feO := feO, feS := feS } := by
  obtain ⟨v, s, o, h, htaken⟩ := Group.writeWords_frame { g with sp := { g.sp with trap := trap } } d m w ks
  unfold Group.take Group.taken Group.underTrap
  dsimp only
  rw [Group.setFulls_frame, htaken]
  exact ⟨_, _, _, rfl⟩

section
variable {g : Group} {trap : Bool} {d : Nat} {ks : List Nat} {m : Mask} {w : Nat → Lane → Word}

/-- Outside the s file a selector means the same in every mode. -/
theorem Group.writeReg_vector_sp {g : Group} {d : Nat} (f : Lane → Word) (h : d < 96 ∨ 112 ≤ d) (x : Split) :
    ({ g.writeReg d m f with sp := x } : Group) = ({ g with sp := x } : Group).writeReg d m f := by
  by_cases hv : d < 96
  · simp only [Group.writeReg, hv, if_true]
  · have hs : ¬ d < 112 := by omega
    by_cases ho : d < 120 <;> simp only [Group.writeReg, hv, hs, ho, if_true, if_false]

/-- Words written to the s file, under names that mean it, leave all other files. -/
theorem Group.writeReg_scalar {g : Group} {d : Nat} (f : Lane → Word) (hlo : 96 ≤ d) (hhi : d < 112) (ht : ¬ (108 ≤ d ∧ g.sp.trap = true)) :
    (g.writeReg d m f).v = g.v ∧ (g.writeReg d m f).o = g.o ∧ (g.writeReg d m f).h = g.h ∧
      ∀ j, vget (g.writeReg d m f).s j 0 = if d = 96 + j then (lowest m).elim (vget g.s j 0) f else vget g.s j 0 := by
  unfold Group.writeReg
  rw [if_neg (by omega), if_pos hhi]
  cases lowest m with
  | none => exact ⟨rfl, rfl, rfl, fun j => by simp⟩
  | some l =>
    dsimp only
    rw [if_neg ht]
    refine ⟨rfl, rfl, rfl, fun j => ?_⟩
    rw [vget_vset]
    by_cases hj : d = 96 + j
    · rw [if_pos hj, if_pos (by omega)]
      rfl
    · rw [if_neg hj, if_neg (by omega)]

/-- Words written to h0 to h3 leave all other files. -/
theorem Group.writeReg_trapWord {g : Group} {d : Nat} (f : Lane → Word) (hlo : 108 ≤ d) (hhi : d < 112) (ht : g.sp.trap = true) :
    (g.writeReg d m f).v = g.v ∧ (g.writeReg d m f).o = g.o ∧ (g.writeReg d m f).s = g.s ∧
      ∀ j, vget (g.writeReg d m f).h j 0 = if d = 108 + j then (lowest m).elim (vget g.h j 0) f else vget g.h j 0 := by
  unfold Group.writeReg
  rw [if_neg (by omega), if_pos hhi]
  cases lowest m with
  | none => exact ⟨rfl, rfl, rfl, fun j => by simp⟩
  | some l =>
    dsimp only
    rw [if_pos (And.intro hlo ht)]
    refine ⟨rfl, rfl, rfl, fun j => ?_⟩
    rw [vget_vset]
    by_cases hj : d = 108 + j
    · rw [if_pos hj, if_pos (by omega)]
      rfl
    · rw [if_neg hj, if_neg (by omega)]

/-- Received into v or o registers: the lanes of the mask have the values, all else is as it was. -/
theorem Group.take_read (hvec : ∀ k ∈ ks, d + k < 96 ∨ 112 ≤ d + k ∧ d + k < 120) (hd : ks ≠ [] → d ≠ 124) (sel : Nat) (l : Lane) :
    (g.take trap d ks m w).read sel l = if ∃ k ∈ ks, sel = d + k ∧ laneIn m l = true then w (sel - d) l else g.read sel l := by
  have hfold := foldl_slot (φ := fun y : Group => ({ y with sp := g.sp } : Group).read sel l) (inv := fun _ => True)
    (key := fun k => sel = d + k ∧ laneIn m l = true) (c := w (sel - d) l) (step := fun y k => y.writeWord d k m (w k)) (ks := ks)
    (g := { g with sp := { g.sp with trap := trap } })
    (fun k hk y _ => by
      have hvec := hvec k hk
      have hd := hd (List.ne_nil_of_mem hk)
      refine ⟨trivial, ?_⟩
      rw [Group.writeWord, if_neg hd, Group.writeReg_vector_sp _ (by omega)]
      by_cases hsel : sel = d + k
      · subst hsel
        rw [Group.read_writeReg_same _ _ _ (by omega), if_neg (by omega), Nat.add_sub_cancel_left]
        simp only [true_and]
      · rw [Group.read_writeReg_other _ _ _ hsel, if_neg fun h => hsel h.1])
    trivial
  obtain ⟨feV, feO, feS, htake⟩ := g.take_frame trap d ks m w
  obtain ⟨v, s, o, h, htaken⟩ := Group.writeWords_frame { g with sp := { g.sp with trap := trap } } d m w ks
  rw [htake]
  refine Eq.trans ?_ hfold
  unfold Group.taken
  rw [htaken]
  rfl

/-- Full bits behind the marking of some registers, under the names of a mode. -/
theorem Group.setFulls_slot {β : Type} (φ : Group → β) (c : β) (key : Nat → Prop) [DecidablePred key] {y : Group}
    (hd : d ≠ 124) (h : ∀ k ∈ ks, ∀ z : Group, z.sp.trap = y.sp.trap → φ (z.setFull (d + k) true) = if key k then c else φ z) :
    φ (y.setFulls d ks true) = if ∃ k ∈ ks, key k then c else φ y := by
  rw [Group.setFulls, if_neg hd]
  exact foldl_slot φ (fun z => z.sp.trap = y.sp.trap) key c
    (fun k hk z hz => ⟨by rw [Group.setFull_sp]; exact hz, h k hk z hz⟩) rfl

theorem Group.take_fe (φ : Group → Bool) (hφ : ∀ y z : Group, y.feV = z.feV → y.feO = z.feO → y.feS = z.feS → φ y = φ z) :
    φ (g.take trap d ks m w) = φ ((g.taken trap d ks m w).setFulls d ks true) := hφ _ _ rfl rfl rfl

theorem Group.taken_trap : (g.taken trap d ks m w).sp.trap = trap := by
  obtain ⟨v, s, o, h, htaken⟩ := Group.writeWords_frame { g with sp := { g.sp with trap := trap } } d m w ks
  unfold Group.taken
  rw [htaken]

theorem Group.take_full_v {k : Nat} (hk : k ∈ ks) (h : d + k < 96) : (g.take trap d ks m w).full (d + k) = true := by
  rw [Group.full, if_pos h, Group.take_fe (fun y => y.feV.getLsbD (d + k)) fun y z hv _ _ => by rw [hv]]
  rw [Group.setFulls_slot (fun y => y.feV.getLsbD (d + k)) true (fun j => d + k = d + j) (by omega) fun j _ z _ => Group.feV_setFull z _ true h,
    if_pos ⟨k, hk, rfl⟩]

theorem Group.take_full_o {k : Nat} (hk : k ∈ ks) (hlo : 112 ≤ d + k) (hhi : d + k < 120) : (g.take trap d ks m w).full (d + k) = true := by
  rw [Group.full, if_neg (by omega), if_neg (by omega), if_pos hhi,
    Group.take_fe (fun y => y.feO.getLsbD (d + k - 112)) fun y z _ ho _ => by rw [ho]]
  rw [Group.setFulls_slot (fun y => y.feO.getLsbD (d + k - 112)) true (fun j => 112 + (d + k - 112) = d + j) (by omega) fun j _ z _ =>
      Group.feO_setFull z _ true (by omega),
    if_pos ⟨k, hk, by omega⟩]

theorem Group.take_full_s {k : Nat} (hk : k ∈ ks) (hlo : 96 ≤ d) (hhi : ∀ j ∈ ks, d + j < if trap then 108 else 112) :
    (g.take trap d ks m w).feS.getLsbD (d - 96 + k) = true := by
  have hname : ∀ j ∈ ks, d + j < 112 ∧ ¬ (108 ≤ d + j ∧ trap = true) := fun j hj => by
    have := hhi j hj
    cases trap <;> simp at this ⊢ <;> omega
  have hin := hname k hk
  rw [Group.take_fe (fun y => y.feS.getLsbD (d - 96 + k)) fun y z _ _ hs => by rw [hs]]
  rw [Group.setFulls_slot (fun y => y.feS.getLsbD (d - 96 + k)) true (fun j => 96 + (d - 96 + k) = d + j) (by omega) fun j hj z hz => ?_,
    if_pos ⟨k, hk, by omega⟩]
  rw [Group.feS_setFull z _ true (by omega)]
  have hnot : ¬ (108 ≤ d + j ∧ z.sp.trap = true) := by
    rw [hz, Group.taken_trap]
    exact (hname j hj).2
  simp only [hnot, not_false_eq_true, and_true]

/-- What no word of a destination reaches is as it was. -/
theorem Group.taken_keeps {β : Type} (φ : Group → β)
    (h : ∀ k ∈ ks, ∀ y : Group, y.sp.trap = trap → φ (y.writeReg (d + k) m (w k)) = φ y) :
    φ (g.taken trap d ks m w) = φ { g with sp := { g.sp with trap := trap } } := by
  have hfold := foldl_slot φ (fun y => y.sp.trap = trap) (fun _ => False) (φ g) (step := fun y k => y.writeWord d k m (w k)) (ks := ks)
    (g := { g with sp := { g.sp with trap := trap } })
    (fun k hk y hy => ⟨by rw [Group.writeWord_sp]; exact hy, by
      rw [if_neg not_false, Group.writeWord]
      split
      · rfl
      · exact h k hk y hy⟩) rfl
  exact hfold.trans (if_neg (by simp))

/-- Received into s registers: they have the lowest lane's values, and all else is as it was. -/
theorem Group.take_scalar (hlo : 96 ≤ d) (hhi : ∀ k ∈ ks, d + k < if trap then 108 else 112) :
    (∀ k ∈ ks, ∀ l, lowest m = some l → vget (g.take trap d ks m w).s (d - 96 + k) 0 = w k l) ∧
      (∀ j, (∀ k ∈ ks, j ≠ d - 96 + k) → vget (g.take trap d ks m w).s j 0 = vget g.s j 0) ∧
      (g.take trap d ks m w).v = g.v ∧ (g.take trap d ks m w).o = g.o ∧ (g.take trap d ks m w).h = g.h := by
  have hname : ∀ k ∈ ks, d + k < 112 ∧ ¬ (108 ≤ d + k ∧ trap = true) := fun k hk => by
    have := hhi k hk
    cases trap <;> simp at this ⊢ <;> omega
  obtain ⟨feV, feO, feS, htake⟩ := g.take_frame trap d ks m w
  have hwrite : ∀ k ∈ ks, ∀ y : Group, y.sp.trap = trap → _ := fun k hk y hy =>
    Group.writeReg_scalar (g := y) (m := m) (d := d + k) (w k) (by omega) (hname k hk).1 (by rw [hy]; exact (hname k hk).2)
  rw [htake]
  refine ⟨fun k hk l hl => ?_, fun j hj => ?_, ?_, ?_, ?_⟩
  · have hin := hname k hk
    refine (foldl_slot (fun y : Group => vget y.s (d - 96 + k) 0) (fun y => y.sp.trap = trap) (fun i => d + i = 96 + (d - 96 + k)) (w k l)
      (step := fun y i => y.writeWord d i m (w i)) (fun i hi y hy => ⟨by rw [Group.writeWord_sp]; exact hy, ?_⟩) rfl).trans
      (if_pos ⟨k, hk, by omega⟩)
    obtain ⟨-, -, -, hs⟩ := hwrite i hi y hy
    rw [Group.writeWord, if_neg (by have := hname i hi; omega), hs, hl]
    by_cases hik : d + i = 96 + (d - 96 + k)
    · obtain rfl : i = k := by omega
      rw [if_pos hik, if_pos hik]
      rfl
    · rw [if_neg hik, if_neg hik]
  · refine Group.taken_keeps (fun y => vget y.s j 0) fun k hk y hy => ?_
    obtain ⟨-, -, -, hs⟩ := hwrite k hk y hy
    have := hj k hk
    exact (hs j).trans (if_neg (by omega))
  · exact Group.taken_keeps (fun y => y.v) fun k hk y hy => let ⟨hv, _⟩ := hwrite k hk y hy; hv
  · exact Group.taken_keeps (fun y => y.o) fun k hk y hy => let ⟨_, ho, _⟩ := hwrite k hk y hy; ho
  · exact Group.taken_keeps (fun y => y.h) fun k hk y hy => let ⟨_, _, hh, _⟩ := hwrite k hk y hy; hh

/-- Received into h0 to h3: they have the lowest lane's values, and all else is as it was. -/
theorem Group.take_trapWords (ht : trap = true) (hlo : 108 ≤ d) (hhi : ∀ k ∈ ks, d + k < 112) :
    (∀ k ∈ ks, ∀ l, lowest m = some l → vget (g.take trap d ks m w).h (d - 108 + k) 0 = w k l) ∧
      (∀ j, (∀ k ∈ ks, j ≠ d - 108 + k) → vget (g.take trap d ks m w).h j 0 = vget g.h j 0) ∧
      (g.take trap d ks m w).v = g.v ∧ (g.take trap d ks m w).o = g.o ∧ (g.take trap d ks m w).s = g.s := by
  obtain ⟨feV, feO, feS, htake⟩ := g.take_frame trap d ks m w
  have hwrite : ∀ k ∈ ks, ∀ y : Group, y.sp.trap = trap → _ := fun k hk y hy =>
    Group.writeReg_trapWord (g := y) (m := m) (d := d + k) (w k) (by omega) (hhi k hk) (by rw [hy]; exact ht)
  rw [htake]
  refine ⟨fun k hk l hl => ?_, fun j hj => ?_, ?_, ?_, ?_⟩
  · have hin := hhi k hk
    refine (foldl_slot (fun y : Group => vget y.h (d - 108 + k) 0) (fun y => y.sp.trap = trap) (fun i => d + i = 108 + (d - 108 + k)) (w k l)
      (step := fun y i => y.writeWord d i m (w i)) (fun i hi y hy => ⟨by rw [Group.writeWord_sp]; exact hy, ?_⟩) rfl).trans
      (if_pos ⟨k, hk, by omega⟩)
    obtain ⟨-, -, -, hh⟩ := hwrite i hi y hy
    rw [Group.writeWord, if_neg (by have := hhi i hi; omega), hh, hl]
    by_cases hik : d + i = 108 + (d - 108 + k)
    · obtain rfl : i = k := by omega
      rw [if_pos hik, if_pos hik]
      rfl
    · rw [if_neg hik, if_neg hik]
  · refine Group.taken_keeps (fun y => vget y.h j 0) fun k hk y hy => ?_
    obtain ⟨-, -, -, hh⟩ := hwrite k hk y hy
    have := hj k hk
    exact (hh j).trans (if_neg (by omega))
  · exact Group.taken_keeps (fun y => y.v) fun k hk y hy => let ⟨hv, _⟩ := hwrite k hk y hy; hv
  · exact Group.taken_keeps (fun y => y.o) fun k hk y hy => let ⟨_, ho, _⟩ := hwrite k hk y hy; ho
  · exact Group.taken_keeps (fun y => y.s) fun k hk y hy => let ⟨_, _, hs, _⟩ := hwrite k hk y hy; hs

/-- Received into nul: every register is as it was. -/
theorem Group.take_nul (hd : d = 124) : (g.take trap d ks m w).v = g.v ∧ (g.take trap d ks m w).s = g.s ∧
    (g.take trap d ks m w).o = g.o ∧ (g.take trap d ks m w).h = g.h := by
  obtain ⟨feV, feO, feS, htake⟩ := g.take_frame trap d ks m w
  have htaken : g.taken trap d ks m w = { g with sp := { g.sp with trap := trap } } :=
    foldl_fixed fun k _ => by rw [Group.writeWord, if_pos hd]
  rw [htake, htaken]
  exact ⟨rfl, rfl, rfl, rfl⟩

end

/-! ### The lanes of a flight that have a value -/

/-- The lowest lane of a mask. -/
theorem lowest_eq_some {m : Mask} {l : Lane} (hl : laneIn m l = true) (hlow : ∀ j : Lane, j.val < l.val → laneIn m j = false) :
    lowest m = some l := by
  unfold lowest lanes
  rw [List.find?_eq_some_iff_getElem]
  exact ⟨hl, l.val, by simp, by simp, fun j hj => by simpa using hlow ⟨j, by omega⟩ hj⟩

theorem Flight.laneIn_have {f : Flight} (h : f.acc ≠ .cpoll) (l : Lane) : laneIn f.have_ l = (f.results.lookup l.val).isSome := by
  have hsingle : f.single = false := by simp [Flight.single, h]
  rw [Flight.have_, hsingle, if_neg Bool.false_ne_true, laneIn_maskOf]
  induction f.results with
  | nil => rfl
  | cons r rs ih =>
    rw [List.any_cons, List.lookup_cons, ih]
    by_cases hr : r.1 = l.val
    · simp [hr]
    · have hne : (l.val == r.1) = false := by simpa using fun h => hr h.symm
      rw [hne]
      simp [hr]

theorem Flight.value_eq {f : Flight} (h : f.acc ≠ .cpoll) {l : Lane} {v : Nat} (hv : f.results.lookup l.val = some v) : f.value l = v := by
  simp [Flight.value, Flight.single, h, hv]

/-- Bytes and halves are extended by their sign. -/
theorem ofInt_toSigned (n v : Nat) : BitVec.ofInt 32 (toSigned n v) = (BitVec.ofNat n v).signExtend 32 := by
  have hmod : toSigned n v = (BitVec.ofNat n v).toInt := by
    rw [← toSigned_toNat]
    simp [toSigned]
  rw [hmod]
  rfl

end Sys2Proof.Machine
end

section
namespace Sys2Proof.Machine

/-! ### The step that fills a destination (R54) -/

/-- The machine when a flight of the issuing group is filled and no split waits for it. -/
def State.filled (s : State) (f : Flight) : State :=
  { s with flights := s.flights.filter (fun x => x.id ≠ f.id), g := (s.g.fill f).mapSplits Split.retry
           others := s.others.map fun g => g.mapSplits Split.retry }

theorem longLatencyFill_eq {s : State} {f : Flight} (hf : s.flight s.ev.id = some f) (hp : f.performed = true)
    (hg : s.g.live = true ∧ s.g.core = f.core ∧ s.g.slot = f.slot) (hw : s.g.waiter f.id = none) :
    exec .longLatencyFill s = .next (s.filled f) := by
  have hgroup : ({ s with flights := s.flights.filter fun x => x.id ≠ f.id } : State).groupAt f.core f.slot = some s.g := State.groupAt_issuing hg
  have hmod := ({ s with flights := s.flights.filter fun x => x.id ≠ f.id } : State).modGroup_issuing hg fun x => x.fill f
  change execLongLatencyFill s = _
  unfold execLongLatencyFill State.fillFlight
  simp only [hf, hp, if_true, hgroup, hw, hmod]
  rfl

theorem State.filled_sameMemory (s : State) (f : Flight) : s.sameMemory (s.filled f) := ⟨fun _ => rfl, fun _ => rfl, fun _ _ => rfl, rfl⟩

/-- The accesses that fill registers. -/
def Access.fillsRegisters (a : Access) : Prop := (∀ n, a ≠ .brec n) ∧ ∀ n, a ≠ .vchk n

theorem Group.fill_take (g : Group) {f : Flight} (h : f.acc.fillsRegisters) :
    g.fill f = g.take f.trap f.dst.toNat f.words f.have_ fun k l => f.acc.word k (f.value l) := by
  obtain ⟨hb, hv⟩ := h
  unfold Group.fill
  split
  · exact absurd ‹_› (hb _)
  · exact absurd ‹_› (hv _)
  · rfl

/-- The words of a value, by the access that found it (R193, R202, R203). -/
def FillWord (f : Flight) (word : Nat → Nat → Word) : Prop :=
  ((f.acc = .ready ∨ (∃ h, f.acc = .loadOwn h) ∨ (∃ w h, f.acc = .load w false h) ∨
      (∃ w, f.acc = .ldvs w) ∨ ∃ major minor w k, f.acc = .atomic major minor w k true) ∧ word = fun k v => BitVec.ofNat 32 (v / 2 ^ (32 * k))) ∨
    (∃ w h, (w = 1 ∨ w = 2) ∧ f.acc = .load w true h ∧ word = fun _ v => (BitVec.ofNat (8 * w) v).signExtend 32) ∨
    ((f.acc = .ldv ∨ ∃ w, f.acc = .casv w) ∧ word = fun k v => BitVec.ofNat 32 (if k = 0 then v else v / 2 ^ 64)) ∨
    (f.acc = .vrd ∧ word = fun _ v => BitVec.ofNat 32 (v / 2 ^ 64))

theorem FillWord.word_eq {f : Flight} {word : Nat → Nat → Word} (h : FillWord f word) :
    f.acc.word = word ∧ f.acc.fillsRegisters ∧ f.acc ≠ .cpoll := by
  unfold Access.fillsRegisters
  rcases h with ⟨ha | ⟨_, ha⟩ | ⟨_, _, ha⟩ | ⟨_, ha⟩ | ⟨_, _, _, _, ha⟩, rfl⟩ | ⟨w, h, -, ha, rfl⟩ | ⟨ha | ⟨_, ha⟩, rfl⟩ | ⟨ha, rfl⟩ <;> rw [ha]
  case inr.inl => exact ⟨funext fun k => funext fun v => ofInt_toSigned _ v, by simp, by simp⟩
  all_goals exact ⟨rfl, by simp, by simp⟩

section
variable {s : State} {f : Flight} {word : Nat → Nat → Word}

/-- What each lane of the issuing group receives of a flight. -/
def Group.received (g : Group) (f : Flight) : Group :=
  g.take f.trap f.dst.toNat f.words f.have_ fun k l => f.acc.word k (f.value l)

theorem State.filled_g (h : f.acc.fillsRegisters) : (s.filled f).g = (s.g.received f).mapSplits Split.retry := by
  rw [Group.received, ← s.g.fill_take h]
  rfl

theorem Group.received_frame (g : Group) (f : Flight) : (g.received f).p = g.p ∧ (g.received f).q = g.q ∧ (g.received f).b = g.b ∧
    (g.received f).d = g.d ∧ (g.received f).arithFlags = g.arithFlags := by
  obtain ⟨feV, feO, feS, h⟩ := g.take_frame f.trap f.dst.toNat f.words f.have_ fun k l => f.acc.word k (f.value l)
  rw [Group.received, h]
  exact ⟨rfl, rfl, rfl, rfl, rfl⟩

/-- The lowest lane with a value, and the value. -/
def Flight.Has (f : Flight) (l : Lane) (v : Nat) : Prop :=
  f.results.lookup l.val = some v ∧ ∀ j : Lane, j.val < l.val → f.results.lookup j.val = none

theorem Flight.Has.lowest {l : Lane} {v : Nat} (h : f.Has l v) (hc : f.acc ≠ .cpoll) : lowest f.have_ = some l ∧ f.value l = v := by
  obtain ⟨hv, hbelow⟩ := h
  exact ⟨lowest_eq_some (by rw [Flight.laneIn_have hc, hv]; rfl) fun j hj => by rw [Flight.laneIn_have hc, hbelow j hj]; rfl,
    Flight.value_eq hc hv⟩

/-- Received into v or o registers. -/
theorem FillWord.vector (h : FillWord f word) (g : Group) (hvec : ∀ k ∈ f.words, f.dst.toNat + k < 96 ∨ 112 ≤ f.dst.toNat + k ∧ f.dst.toNat + k < 120) :
    (∀ k ∈ f.words, (g.received f).full (f.dst.toNat + k) = true ∧
      ∀ l : Lane, (g.received f).read (f.dst.toNat + k) l = match f.results.lookup l.val with
        | some v => word k v
        | none => g.read (f.dst.toNat + k) l) ∧
    ∀ sel (l : Lane), (∀ k ∈ f.words, sel ≠ f.dst.toNat + k) → (g.received f).read sel l = g.read sel l := by
  obtain ⟨hw, -, hcp⟩ := h.word_eq
  have hnul : f.words ≠ [] → f.dst.toNat ≠ 124 := fun hne => by
    obtain ⟨k, hk⟩ := List.exists_mem_of_ne_nil _ hne
    have := hvec k hk
    omega
  have hread := Group.take_read (g := g) (trap := f.trap) (m := f.have_) (w := fun k l => f.acc.word k (f.value l)) hvec hnul
  refine ⟨fun k hk => ⟨?_, fun l => ?_⟩, fun sel l hsel => ?_⟩
  · rcases hvec k hk with hv | ⟨hlo, hhi⟩
    · exact Group.take_full_v hk hv
    · exact Group.take_full_o hk hlo hhi
  · rw [Group.received, hread, Nat.add_sub_cancel_left, Flight.laneIn_have hcp]
    cases hv : f.results.lookup l.val with
    | none => exact if_neg (by simp)
    | some v =>
      rw [if_pos ⟨k, hk, rfl, rfl⟩, Flight.value_eq hcp hv, hw]
  · rw [Group.received, hread, if_neg]
    rintro ⟨k, hk, rfl, -⟩
    exact hsel k hk rfl

/-- Received into s registers. -/
theorem FillWord.scalar (h : FillWord f word) (g : Group) (hlo : 96 ≤ f.dst.toNat) (hhi : ∀ k ∈ f.words, f.dst.toNat + k < if f.trap then 108 else 112) :
    (∀ k ∈ f.words, (g.received f).feS.getLsbD (f.dst.toNat - 96 + k) = true ∧
      ∀ l v, f.Has l v → vget (g.received f).s (f.dst.toNat - 96 + k) 0 = word k v) ∧
    (∀ j, (∀ k ∈ f.words, j ≠ f.dst.toNat - 96 + k) → vget (g.received f).s j 0 = vget g.s j 0) ∧
    (g.received f).v = g.v ∧ (g.received f).o = g.o ∧ (g.received f).h = g.h := by
  obtain ⟨hw, -, hcp⟩ := h.word_eq
  obtain ⟨hs, hrest⟩ := Group.take_scalar (g := g) (m := f.have_) (w := fun k l => f.acc.word k (f.value l)) hlo hhi
  refine ⟨fun k hk => ⟨Group.take_full_s hk hlo hhi, fun l v hv => ?_⟩, hrest⟩
  obtain ⟨hlow, hval⟩ := hv.lowest hcp
  rw [Group.received, hs k hk l hlow, hval, hw]

/-- Received into h0 to h3. -/
theorem FillWord.trapWords (h : FillWord f word) (g : Group) (ht : f.trap = true) (hlo : 108 ≤ f.dst.toNat)
    (hhi : ∀ k ∈ f.words, f.dst.toNat + k < 112) :
    (∀ k ∈ f.words, ∀ l v, f.Has l v → vget (g.received f).h (f.dst.toNat - 108 + k) 0 = word k v) ∧
    (∀ j, (∀ k ∈ f.words, j ≠ f.dst.toNat - 108 + k) → vget (g.received f).h j 0 = vget g.h j 0) ∧
    (g.received f).v = g.v ∧ (g.received f).o = g.o ∧ (g.received f).s = g.s := by
  obtain ⟨hw, -, hcp⟩ := h.word_eq
  obtain ⟨hh, hrest⟩ := Group.take_trapWords (g := g) (m := f.have_) (w := fun k l => f.acc.word k (f.value l)) ht hlo hhi
  refine ⟨fun k hk l v hv => ?_, hrest⟩
  obtain ⟨hlow, hval⟩ := hv.lowest hcp
  rw [Group.received, hh k hk l hlow, hval, hw]

end

/-- CPOLL's object goes to every active lane (R208). -/
theorem Group.received_cpoll (g : Group) {f : Flight} {n v : Nat} (ha : f.acc = .cpoll) (hw : f.words = [0, 1]) (hr : f.results = [(n, v)])
    (hd : f.dst.toNat + 1 < 96) {k : Nat} (hk : k < 2) : (g.received f).full (f.dst.toNat + k) = true ∧
      ∀ l : Lane, (g.received f).read (f.dst.toNat + k) l =
        if laneIn f.mask l = true then BitVec.ofNat 32 (v / 2 ^ (32 * k)) else g.read (f.dst.toNat + k) l := by
  have hmem : k ∈ f.words := by
    rw [hw]
    simp only [List.mem_cons, List.not_mem_nil, or_false]
    omega
  have hvec : ∀ j ∈ f.words, f.dst.toNat + j < 96 := by
    rw [hw]
    intro j hj
    simp only [List.mem_cons, List.not_mem_nil, or_false] at hj
    omega
  have hvalue : ∀ l, f.value l = v := fun l => by simp [Flight.value, Flight.single, ha, hr]
  have hhave : f.have_ = f.mask := by simp [Flight.have_, Flight.single, ha]
  refine ⟨Group.take_full_v hmem (hvec k hmem), fun l => ?_⟩
  rw [Group.received, Group.take_read (fun j hj => .inl (hvec j hj)) (fun _ => by omega), Nat.add_sub_cancel_left, hvalue, hhave, ha]
  by_cases hl : laneIn f.mask l = true
  · rw [if_pos ⟨k, hmem, rfl, hl⟩, if_pos hl]
    rfl
  · rw [if_neg hl, if_neg]
    rintro ⟨j, -, -, h⟩
    exact hl h

theorem loadFillsPart : LoadFillsPart := by
  refine ⟨fun s f word hf hp hword hlive hcore hslot hwait => ?_, fun s f n l v hf hp ha hn hr hlive hcore hslot hwait => ?_,
    fun s f n v hf hp ha hw hr hlive hcore hslot hwait hd => ?_, fun s f hf hp => ?_⟩
  · have hfill : FillWord f word := hword
    obtain ⟨-, hregs, -⟩ := hfill.word_eq
    have hg := State.filled_g (s := s) hregs
    obtain ⟨h1, h2, h3, h4, h5⟩ := s.g.received_frame f
    refine ⟨_, longLatencyFill_eq hf hp ⟨hlive, hcore, hslot⟩ hwait, rfl, ?_⟩
    rw [hg]
    refine ⟨h1, h2, h3, h4, h5, s.filled_sameMemory f, fun hvec => ?_, fun hlo hhi => hfill.scalar s.g hlo hhi,
      fun ht hlo hhi => hfill.trapWords s.g ht hlo hhi, fun hd => Group.take_nul hd⟩
    refine hfill.vector s.g fun k hk => ?_
    rcases hvec with hv | ⟨hlo, hhi⟩
    · exact .inl (hv k hk)
    · exact .inr ⟨Nat.le_trans hlo (Nat.le_add_right _ _), hhi k hk⟩
  · refine ⟨_, longLatencyFill_eq hf hp ⟨hlive, hcore, hslot⟩ hwait, ?_⟩
    have hg : (s.filled f).g = ({ s.g with b := vset s.g.b n (BitVec.ofNat 128 v), bPend := s.g.bPend &&& ~~~(1#32 <<< n) } : Group).mapSplits
        Split.retry := by
      change (s.g.fill f).mapSplits Split.retry = _
      rw [Group.fill, ha, hr]
      rfl
    rw [hg]
    refine ⟨?_, fun j hj => ⟨?_, ?_⟩, ?_, rfl, rfl, rfl, s.filled_sameMemory f⟩
    · exact (vget_vset _ _ _ _ _).trans (if_pos ⟨rfl, hn⟩)
    · exact (vget_vset _ _ _ _ _).trans (if_neg fun h => hj h.1)
    · by_cases h32 : j < 32
      · exact (getLsbD_mark s.g.bPend n false h32).trans (if_neg hj)
      · exact (BitVec.getLsbD_of_ge _ _ (Nat.le_of_not_lt h32)).trans (BitVec.getLsbD_of_ge _ _ (Nat.le_of_not_lt h32)).symm
    · exact (getLsbD_mark s.g.bPend n false hn).trans (if_pos rfl)
  · have hregs : f.acc.fillsRegisters := by rw [ha]; exact ⟨by simp, by simp⟩
    refine ⟨_, longLatencyFill_eq hf hp ⟨hlive, hcore, hslot⟩ hwait, s.filled_sameMemory f, fun k hk => ?_⟩
    rw [State.filled_g hregs]
    exact s.g.received_cpoll ha hw hr hd hk
  · change execLongLatencyFill s = _
    unfold execLongLatencyFill
    simp only [hf, hp, Bool.false_eq_true, if_false]

/-! ### VCHK's predicate (R203) -/

/-- The predicate that VCHK leaves: the lanes that it told take what they learned. -/
theorem Group.fill_vchk (g : Group) {f : Flight} {n : Nat} (ha : f.acc = .vchk n) (hn : n < 7) (l : Lane) :
    (g.fill f).pred n l = match f.results.lookup l.val with
      | some v => v != 0
      | none => g.pred n l := by
  have hcp : f.acc ≠ .cpoll := by rw [ha]; simp
  have hfill : g.fill f = g.setPred n f.have_ fun l => f.value l != 0 := by rw [Group.fill, ha]
  rw [hfill, predicateWritePart g n n f.have_ _ l (by omega) (by omega), if_neg (by omega), Flight.laneIn_have hcp]
  cases hv : f.results.lookup l.val with
  | none => exact if_neg (by simp)
  | some v =>
    rw [if_pos ⟨rfl, rfl⟩, Flight.value_eq hcp hv]

theorem Group.fill_vchk_files (g : Group) {f : Flight} {n : Nat} (ha : f.acc = .vchk n) :
    (g.fill f).v = g.v ∧ (g.fill f).s = g.s ∧ (g.fill f).sp = g.sp ∧ (g.fill f).rest = g.rest ∧ (g.fill f).core = g.core ∧
      (g.fill f).slot = g.slot ∧ (g.fill f).live = g.live := by
  rw [Group.fill, ha]
  exact ⟨rfl, rfl, rfl, rfl, rfl, rfl, rfl⟩

/-- A split that waits for a flight's check is found by it. -/
theorem Group.waiter_ne_none {g : Group} {n : Nat} (h : g.sp.wait = .check n) : g.waiter n ≠ none := by
  intro hnone
  have := List.find?_eq_none.1 hnone g.sp List.mem_cons_self
  rw [h] at this
  simp at this

/-- The step that gives VCHK's outcome to its predicate, and lets go on the split that waited for it. -/
theorem longLatencyFill_vchk {s : State} {f : Flight} {n : Nat} (hf : s.flight s.ev.id = some f) (ha : f.acc = .vchk n) (hn : n < 7)
    (hp : f.performed = true) (hg : s.g.live = true ∧ s.g.core = f.core ∧ s.g.slot = f.slot)
    (hw : s.g.waiter f.id = none ∨ s.g.waiter f.id = some s.g.sp ∧ s.g.sp.wait = .check f.id) :
    ∃ t, exec .longLatencyFill s = .next t ∧ (s.g.sp.wait = .check f.id → t.g.sp.wait = .none) ∧
      (∀ l : Lane, t.g.pred n l = match f.results.lookup l.val with
        | some v => v != 0
        | none => s.g.pred n l) ∧
      t.g.v = s.g.v ∧ t.g.s = s.g.s ∧ t.flights = s.flights.filter (fun x => x.id ≠ f.id) ∧ s.sameMemory t := by
  obtain ⟨hfv, hfs, hsp, hrest, hcore, hslot, hlive⟩ := s.g.fill_vchk_files ha
  rcases hw with hw | ⟨hw, hwait⟩
  · exact ⟨_, longLatencyFill_eq hf hp hg hw, fun h => absurd hw (Group.waiter_ne_none h), s.g.fill_vchk ha hn, hfv, hfs, rfl,
      s.filled_sameMemory f⟩
  · have hgroup : ({ s with flights := s.flights.filter fun x => x.id ≠ f.id } : State).groupAt f.core f.slot = some s.g := State.groupAt_issuing hg
    have hmod := ({ s with flights := s.flights.filter fun x => x.id ≠ f.id } : State).modGroup_issuing hg fun x => x.fill f
    have hmod' := ({ s with flights := s.flights.filter (fun x => x.id ≠ f.id), g := s.g.fill f } : State).modGroup_issuing
      (core := f.core) (slot := f.slot) (by rw [hlive, hcore, hslot]; exact hg)
      fun y => y.modSplit s.g.sp.age fun z => { z with wait := .none }
    have hexec : exec .longLatencyFill s = .next ({ s with flights := s.flights.filter (fun x => x.id ≠ f.id)
                                                           g := (s.g.fill f).modSplit s.g.sp.age fun z => { z with wait := .none } } : State).retryAll := by
      change execLongLatencyFill s = _
      unfold execLongLatencyFill State.fillFlight
      simp only [hf, hp, if_true, hgroup, hw, hmod, hwait, hmod']
    refine ⟨_, hexec, fun _ => ?_, s.g.fill_vchk ha hn, hfv, hfs, rfl, ⟨fun _ => rfl, fun _ => rfl, fun _ _ => rfl, rfl⟩⟩
    change (Split.retry (if (s.g.fill f).sp.age = s.g.sp.age then { (s.g.fill f).sp with wait := .none } else (s.g.fill f).sp)).wait = .none
    rw [hsp, if_pos rfl]
    rfl

end Sys2Proof.Machine
end

section
namespace Sys2Proof.Machine

/-- The line that a lane reaches in device memory. -/
theorem lineOf_dev {x : LaneAcc} {pa : Nat} (h : x.tgt = .dev pa) : (match x.tgt with
    | .dev pa => some (pa / 128)
    | _ => none) = some (pa / 128) := by rw [h]

/-- The version found by a lane, by the line that it reaches. -/
theorem State.versionRead_eq (s : State) (w : Nat) (x : LaneAcc) : s.versionRead w x = s.peek x.tgt w + 2 ^ 64 * (match (match x.tgt with
    | .dev pa => some (pa / 128)
    | _ => none) with
  | some ln => (Smap.get 0 s.versions ln).toNat
  | none => 0) := by
  unfold State.versionRead
  cases x.tgt <;> rfl

/-- A snapshot set that has grown to hold the lanes' entries. -/
theorem SnapsGrow.entered {s : State} {l : List LaneAcc} {sn : List Snap} (h : SnapsGrow s s.g.snaps sn)
    (hin : ∀ a ∈ l, ∀ pa, a.tgt = .dev pa → ∃ e ∈ sn, e.lane = a.lane ∧ e.line = pa / 128) :
    (∀ e ∈ s.g.snaps, e ∈ sn) ∧ ∀ x ∈ l, ∀ ln, (match x.tgt with
      | .dev pa => some (pa / 128)
      | _ => none) = some ln → ∃ e ∈ sn, e.lane = x.lane ∧ e.line = ln ∧
        (s.g.snap x.lane ln = none → e.version = Smap.get 0 s.versions ln ∧ e.stamp = s.timer) := by
  refine ⟨h.keeps, fun x hx ln hln => ?_⟩
  cases htgt : x.tgt with
  | dev pa =>
    rw [htgt] at hln
    obtain rfl := Option.some.inj hln
    obtain ⟨e, he, hlane, hline⟩ := hin x hx pa htgt
    refine ⟨e, he, hlane, hline, fun hnone => ?_⟩
    rcases h.fresh e he with hold | ⟨hver, hstamp⟩
    · exact absurd ⟨hlane, hline⟩ (Group.snap_eq_none.1 hnone e hold)
    · exact ⟨hline ▸ hver, hstamp⟩
  | host _ _ => rw [htgt] at hln; exact absurd hln (by simp)
  | peer _ _ => rw [htgt] at hln; exact absurd hln (by simp)
  | spm _ _ => rw [htgt] at hln; exact absurd hln (by simp)

/-- The lines that lanes reach, as a list of their own. -/
theorem devLines_eq (l : List LaneAcc) : devLines l = (l.filterMap fun x => match x.tgt with
    | .dev pa => some (pa / 128)
    | _ => none).eraseDups := by
  unfold devLines devLanes
  rw [List.map_filterMap]
  congr 2
  funext x
  cases x.tgt <;> rfl

theorem loadsPerformedPart : LoadsPerformedPart := by
  refine ⟨fun s f l hflight hmay hline hheld hl hne hlive hcore hslot hcore256 hclean => ?_,
    fun s f n hflight ha hlive hcore hslot hn => ⟨fun hmay hline hheld hlanes => ?_, fun hp hw => ?_⟩⟩
  · intro lineOf hsound finds dev away bytes version entered
    subst hl
    have hg : s.g.live = true ∧ s.g.core = f.core ∧ s.g.slot = f.slot := ⟨hlive, hcore.symm, hslot.symm⟩
    have hun : s.Unhindered f := ⟨hflight, hmay, hline, hheld, fun a ha pa hpa => hsound a ha (pa / 128) (lineOf_dev hpa)⟩
    have hdev : ∀ w, dev w → ∀ a ∈ f.lanes, ∃ pa, a.tgt = .dev pa := fun w hd a ha => let ⟨pa, hpa, _⟩ := hd a ha; ⟨pa, hpa⟩
    have haway : ∀ w, w ∈ [1, 2, 4, 8, 16] → dev w → away → ∀ a ∈ f.lanes, ∀ pa, a.tgt = .dev pa →
        pa % 128 + w ≤ 128 ∧ (s.coreAt f.core).line (pa / 128) = none := fun w hw hd hn a ha pa hpa => by
      obtain ⟨pa', hpa', hal⟩ := hd a ha
      obtain rfl := Target.dev.inj (hpa.symm.trans hpa')
      exact ⟨aligned_in_line hw hal, hn a ha _ (lineOf_dev hpa)⟩
    have hversions : ∀ w, (f.lanes.map fun a => (a.lane, s.versionRead w a)) = f.lanes.map fun x => (x.lane, bytes w x + 2 ^ 64 * version x) :=
      fun w => List.map_congr_left fun x _ => Prod.ext rfl (s.versionRead_eq w x)
    refine ⟨fun w sg hint hw ha hd hn => ?_, fun w sg hint ln y hw ha hd hln hy hown hvalid => ?_, fun n ha hd hn => ?_,
      fun w sg hint ha hn => ?_, fun hint ha hd hempty hroom => ?_, fun hroom ha hd => ?_, fun w hw hroom ha hd => ?_, fun ha hd => ?_,
      fun ha hd => ?_, fun w pa ln x hw ha hx htgt hal hln hmem hvwf hfirst hlog => ?_⟩
    · exact hun.load_away hclean (.inl ⟨sg, ha⟩) (haway w hw hd hn)
    · have hon : ∀ a ∈ f.lanes, ∃ pa, a.tgt = .dev pa ∧ pa / 128 = ln := fun a ha => by
        obtain ⟨pa, hpa, -⟩ := hd a ha
        exact ⟨pa, hpa, Option.some.inj ((lineOf_dev hpa).symm.trans (hln a ha))⟩
      obtain ⟨t, ht, hfound, hmem⟩ := hun.load_held hclean ha hne hon hy hown hvalid
      obtain ⟨z, hz, hp, hz0, hres⟩ := hfound
      refine ⟨t, ht, hmem, z, hz, hp, hz0, hres.trans (congrArg _ (List.map_congr_left fun a ha => ?_))⟩
      obtain ⟨pa, hpa, hal⟩ := hd a ha
      dsimp only
      rw [hpa]
      exact Prod.ext rfl (rowRead_words y.data (aligned_in_line hw hal))
    · obtain ⟨t, ht, hfound, -, hmem⟩ := hun.load_away hclean (.inr ⟨rfl, rfl, n, ha⟩) (haway 16 (by decide) hd hn)
      exact ⟨t, ht, hfound, hmem⟩
    · obtain ⟨t, ht, hfound, -, hmem⟩ := hun.load_away hclean (.inl ⟨sg, ha⟩) fun a ha pa hpa => by
        have := (lineOf_dev hpa).symm.trans (hn a ha)
        exact absurd this (by simp)
      exact ⟨t, ht, hfound, hmem⟩
    · obtain ⟨t, res, ht, ⟨z, hz, hp, hz0, hres⟩, hperm, hmem, hheld⟩ := hun.loadOwn (hcore ▸ hcore256) ha hempty hd
        (by rw [devLines_eq]; exact hroom)
      refine ⟨t, z, ht, hz, hp, hz0, hres ▸ hperm.append_left _, hmem, fun x hx ln hln => hheld ln ?_⟩
      rw [devLines_eq, List.mem_eraseDups, List.mem_filterMap]
      exact ⟨x, hx, hln⟩
    · obtain ⟨t, ht, hfound, hmem, hgrow, -, hin⟩ := hun.versions hclean hg (.inl ⟨rfl, rfl, ha⟩) (hdev 4 hd)
      rw [hversions] at hfound
      exact ⟨t, ht, hfound, hgrow.entered (hin rfl hroom), hmem⟩
    · obtain ⟨t, ht, hfound, hmem, hgrow, -, hin⟩ := hun.versions hclean hg (.inr (.inl ⟨rfl, ha⟩)) (hdev w hd)
      rw [hversions] at hfound
      exact ⟨t, ht, hfound, hgrow.entered (hin rfl hroom), hmem⟩
    · obtain ⟨t, ht, hfound, hmem, -, hsame, -⟩ := hun.versions hclean hg (.inr (.inr ⟨rfl, rfl, ha⟩)) (hdev 4 hd)
      rw [hversions] at hfound
      exact ⟨t, ht, hfound, hsame rfl, hmem⟩
    · exact hun.cpoll hclean ha
    · subst hln
      have hwpos : 0 < w := by omega
      have hcasv : s.CasvAlone f w pa x := ⟨hun, hclean, hg, ha, hx, htgt,
        aligned_in_line (by rcases hw with rfl | rfl <;> decide) hal, hwpos, hmem.dev, hvwf, hfirst, hlog⟩
      have hsingle : ∀ {t : State} {r : Nat}, t.foundBy f [(x.lane, r)] → finds t fun _ => r := fun {t r} h => by
        unfold State.foundBy at h
        simpa only [finds, hx, List.map_singleton] using h
      refine ⟨fun e he hyoung hclear hver => ?_, fun hno => ?_⟩
      · have hyes : s.casvHolds x (pa / 128) = true := by
          rw [State.casvHolds, he]
          simp only [hyoung, hclear, hver, decide_true, Bool.and_self]
        obtain ⟨t, e', ht, hfound, hrest⟩ := hcasv.succeeds hyes he
        exact ⟨t, e', ht, hsingle hfound, hrest⟩
      · have hfails : s.casvHolds x (pa / 128) = false := by
          rw [State.casvHolds]
          cases he : s.g.snap x.lane (pa / 128) with
          | none => rfl
          | some e =>
            have := hno e he
            simp only [Bool.and_eq_false_iff, decide_eq_false_iff_not]
            omega
        obtain ⟨t, ht, hfound, hrest⟩ := hcasv.fails hfails
        exact ⟨t, ht, hsingle hfound, hrest⟩
  · have hg : s.g.live = true ∧ s.g.core = f.core ∧ s.g.slot = f.slot := ⟨hlive, hcore.symm, hslot.symm⟩
    have hun : s.Unhindered f := ⟨hflight, hmay, hline, hheld, by simp [hlanes]⟩
    obtain ⟨t, ht, ⟨y, hy, hp, -, hres⟩, hmem⟩ := hun.vchk ha hlanes hg
    refine ⟨t, y, ht, hy, hp, hmem, fun x => b2n ((s.g.snaps.filter fun e => e.lane = x.val).all fun e => s.snapHolds f.part e), hres,
      fun l _ => ?_⟩
    obtain ⟨hbit, hone⟩ := b2n_eq ((s.g.snaps.filter fun e => e.lane = l.val).all fun e => s.snapHolds f.part e)
    refine ⟨hbit, hone.trans ?_⟩
    simp only [List.all_eq_true, List.mem_filter, decide_eq_true_eq, State.snapHolds_iff, and_imp]
  · exact longLatencyFill_vchk hflight ha hn hp ⟨hlive, hcore.symm, hslot.symm⟩ hw

end Sys2Proof.Machine

namespace Sys2Proof
open Machine

/-- Settles O39: what a lane finds is what the home slice, the L1 or its own write has there, and filling writes it where the
destination's selectors name registers. -/
theorem loadFills : Obligations.LoadFills := ⟨loadFillsPart, loadsPerformedPart⟩

end Sys2Proof
end

section
/-! ### The encodings of the finite numbers, in their order (R93, R95, R99) -/

namespace Sys2Proof.Machine

/-- A format with a fraction and an exponent field. -/
structure Format.Usable (F : Format) : Prop where
  m_pos : 1 ≤ F.m
  e_pos : 1 ≤ F.e

/-- The exponent of the last place of the subnormal numbers. -/
def Format.low (F : Format) : Int := 1 - (F.bias : Int) - F.m

/-- The least code, sign aside, that is no finite number's. -/
def Format.limit (F : Format) : Nat := if F.finite then 2 ^ (F.m + F.e) - 1 else (2 ^ F.e - 1) * 2 ^ F.m

/-- The significand of a code. -/
def Format.sig (F : Format) (c : Nat) : Nat := if c < 2 ^ F.m then c else 2 ^ F.m + c % 2 ^ F.m

/-- The exponent of a code. -/
def Format.exp (F : Format) (c : Nat) : Int := if c < 2 ^ F.m then F.low else ((c / 2 ^ F.m : Nat) : Int) - F.bias - F.m

/-- The magnitude of a code; codes from the limit on go on as if the exponent field had no end. -/
noncomputable def Format.mag (F : Format) (c : Nat) : ℝ := F.sig c * (2 : ℝ) ^ F.exp c

/-- The code of k units of the last place q. -/
def Format.code (F : Format) (q : Int) (k : Nat) : Nat := (q - F.low).toNat * 2 ^ F.m + k

variable {F : Format}

theorem Format.code_succ (q : Int) (k : Nat) : F.code q (k + 1) = F.code q k + 1 := rfl

theorem Format.mag_code {q : Int} {k : Nat} (hq : F.low ≤ q) (hk : k ≤ 2 ^ (F.m + 1)) (h : 2 ^ F.m ≤ k ∨ q = F.low) :
    F.mag (F.code q k) = k * (2 : ℝ) ^ q := by
  obtain ⟨j, rfl⟩ : ∃ j : Nat, q = F.low + j := ⟨(q - F.low).toNat, by omega⟩
  have hcode : F.code (F.low + j) k = j * 2 ^ F.m + k := by simp [code]
  rw [hcode, mag, sig, exp]
  have hP : 0 < 2 ^ F.m := by positivity
  rw [pow_succ] at hk
  rcases lt_or_ge k (2 ^ F.m) with hlt | hge
  · obtain rfl : j = 0 := by omega
    simp [hlt]
  · obtain ⟨f, rfl⟩ := Nat.exists_eq_add_of_le hge
    have hdiv : j * 2 ^ F.m + (2 ^ F.m + f) = f + 2 ^ F.m * (j + 1) := by ring
    rw [if_neg (by rw [hdiv]; nlinarith), if_neg (by rw [hdiv]; nlinarith), hdiv, Nat.add_mul_mod_self_left,
      Nat.add_mul_div_left _ _ hP]
    rcases lt_or_ge f (2 ^ F.m) with hf | hf
    · rw [Nat.mod_eq_of_lt hf, Nat.div_eq_of_lt hf, low]
      congr 2
      push_cast
      ring
    · obtain rfl : f = 2 ^ F.m := by omega
      rw [Nat.mod_self, Nat.div_self hP, low, show ((1 + (j + 1) : Nat) : Int) - F.bias - F.m = (1 - F.bias - F.m + j) + 1 by push_cast; ring,
        zpow_add_one₀ two_ne_zero]
      push_cast
      ring

/-- Every code is so many units of a last place, and the code behind it one unit more. -/
theorem Format.exists_code_eq (c : Nat) :
    ∃ q k, F.low ≤ q ∧ k < 2 ^ (F.m + 1) ∧ (2 ^ F.m ≤ k ∨ q = F.low) ∧ c = F.code q k := by
  have hP : 0 < 2 ^ F.m := by positivity
  rcases lt_or_ge c (2 ^ F.m) with h | h
  · exact ⟨F.low, c, le_rfl, by rw [pow_succ]; omega, .inr rfl, by simp [code]⟩
  · have hdiv := Nat.div_add_mod c (2 ^ F.m)
    have hmod := Nat.mod_lt c hP
    obtain ⟨j, hj⟩ := Nat.exists_eq_add_of_le (Nat.div_pos h hP)
    refine ⟨F.low + j, 2 ^ F.m + c % 2 ^ F.m, by omega, by rw [pow_succ]; omega, .inl (by omega), ?_⟩
    rw [hj] at hdiv
    simp only [code, add_sub_cancel_left, Int.toNat_natCast]
    linarith [mul_comm (2 ^ F.m) (0 + 1 + j), add_mul (0 + 1) j (2 ^ F.m)]

theorem Format.mag_strictMono : StrictMono F.mag := by
  refine strictMono_nat_of_lt_succ fun c => ?_
  obtain ⟨q, k, hq, hk, h, rfl⟩ := F.exists_code_eq c
  rw [← F.code_succ, F.mag_code hq hk.le h, F.mag_code hq hk (h.imp_left fun h => h.trans k.le_succ)]
  have : (0 : ℝ) < 2 ^ q := by positivity
  push_cast
  nlinarith

theorem Format.mag_zero : F.mag 0 = 0 := by simp [mag, sig]

theorem Format.mag_nonneg (c : Nat) : 0 ≤ F.mag c := by
  rw [mag]
  positivity

/-- A number of fewer bits than a significand, with an exponent in reach, has a code. -/
theorem Format.exists_mag_eq {k : Nat} (hk : k < 2 ^ (F.m + 1)) {q : Int} (hq : F.low ≤ q) : ∃ c, F.mag c = k * (2 : ℝ) ^ q := by
  obtain ⟨j, rfl⟩ : ∃ j : Nat, q = F.low + j := ⟨(q - F.low).toNat, by omega⟩
  induction j generalizing k with
  | zero => exact ⟨_, F.mag_code hq hk.le (.inr (by simp))⟩
  | succ j ih =>
    rcases le_or_gt (2 ^ F.m) k with h | h
    · exact ⟨_, F.mag_code hq hk.le (.inl h)⟩
    · obtain ⟨c, hc⟩ := ih (k := 2 * k) (by rw [pow_succ]; omega) (by omega)
      refine ⟨c, hc.trans ?_⟩
      rw [show F.low + ((j + 1 : Nat) : Int) = F.low + j + 1 by push_cast; ring, zpow_add_one₀ two_ne_zero]
      push_cast
      ring

/-! ### Decoding (R93 to R95) -/

theorem signBit_eq (F : Format) (n : Bool) : signBit F n = n.toNat * 2 ^ (F.m + F.e) := by cases n <;> simp [signBit]

/-- What an encoding of a sign and a code decodes to. -/
theorem decodeF_signBit_add (n : Bool) {c : Nat} (hc : c < 2 ^ (F.m + F.e)) :
    decodeF F (signBit F n + c) =
      if c / 2 ^ F.m = 2 ^ F.e - 1 ∧ F.finite = false then (if c % 2 ^ F.m = 0 then .inf n else .nan (fld (c % 2 ^ F.m) (F.m - 1) 1 = 0))
      else if c / 2 ^ F.m = 2 ^ F.e - 1 ∧ c % 2 ^ F.m = 2 ^ F.m - 1 ∧ F.finite = true then .nan false
      else .fin n (F.sig c) (F.exp c) := by
  have hP : 0 < 2 ^ F.m := by positivity
  have hQ : c / 2 ^ F.m < 2 ^ F.e := by rwa [Nat.div_lt_iff_lt_mul hP, mul_comm, ← pow_add]
  have hx : signBit F n + c = c + 2 ^ F.m * (n.toNat * 2 ^ F.e) := by rw [signBit_eq, pow_add]; ring
  have hf : fld (signBit F n + c) 0 F.m = c % 2 ^ F.m := by rw [fld, hx, pow_zero, Nat.div_one, Nat.add_mul_mod_self_left]
  have he : fld (signBit F n + c) F.m F.e = c / 2 ^ F.m := by
    rw [fld, hx, Nat.add_mul_div_left _ _ hP, Nat.add_mul_mod_self_right, Nat.mod_eq_of_lt hQ]
  have hs : fld (signBit F n + c) (F.m + F.e) 1 = n.toNat := by
    rw [fld, signBit_eq, add_comm, Nat.add_mul_div_right _ _ (by positivity), Nat.div_eq_of_lt hc]
    cases n <;> rfl
  have hn : decide (n.toNat = 1) = n := by cases n <;> rfl
  have hfin : (if c / 2 ^ F.m = 0 then FVal.fin n (c % 2 ^ F.m) (1 - (F.bias : Int) - F.m)
      else .fin n (2 ^ F.m + c % 2 ^ F.m) (((c / 2 ^ F.m : Nat) : Int) - F.bias - F.m)) = .fin n (F.sig c) (F.exp c) := by
    rw [Format.sig, Format.exp, Format.low]
    rcases lt_or_ge c (2 ^ F.m) with h | h
    · simp [h, Nat.div_eq_of_lt h, Nat.mod_eq_of_lt h]
    · have := Nat.div_pos h hP
      simp [h.not_gt, this.ne']
  rw [decodeF, hf, he, hs, hn, hfin]
  cases hF : F.finite <;> simp

theorem Format.Usable.limit_pos (h : F.Usable) : 2 ^ F.m ≤ F.limit := by
  have hP : 0 < 2 ^ F.m := by positivity
  have hQ : 2 ^ 1 ≤ 2 ^ F.e := Nat.pow_le_pow_right (by norm_num) h.e_pos
  rw [limit, pow_add]
  split
  · nlinarith [Nat.sub_add_cancel (show 1 ≤ 2 ^ F.m * 2 ^ F.e by nlinarith)]
  · exact Nat.le_mul_of_pos_left _ (by omega)

theorem Format.limit_lt : F.limit < 2 ^ (F.m + F.e) := by
  have hP : 0 < 2 ^ F.m := by positivity
  have hQ : 0 < 2 ^ F.e := by positivity
  rw [limit, pow_add]
  split
  · have := Nat.mul_pos hP hQ
    omega
  · rw [mul_comm]
    exact Nat.mul_lt_mul_of_pos_left (by omega) hP

/-- A code below the limit is a finite number's. -/
theorem decodeF_of_lt (n : Bool) {c : Nat} (h : c < F.limit) : decodeF F (signBit F n + c) = .fin n (F.sig c) (F.exp c) := by
  have hP : 0 < 2 ^ F.m := by positivity
  have hdm := Nat.div_add_mod c (2 ^ F.m)
  rw [decodeF_signBit_add n (h.trans F.limit_lt)]
  rw [Format.limit, pow_add] at h
  rw [if_neg, if_neg]
  · rintro ⟨hq, hr, hF⟩
    rw [if_pos hF] at h
    rw [hq, hr] at hdm
    have h1 : 2 ^ F.m * (2 ^ F.e - 1) + 2 ^ F.m = 2 ^ F.m * 2 ^ F.e := by
      rw [← Nat.mul_succ, Nat.succ_eq_add_one, Nat.sub_add_cancel Nat.one_le_two_pow]
    omega
  · rintro ⟨hq, hF⟩
    rw [hF, if_neg (by simp)] at h
    rw [hq, mul_comm] at hdm
    omega

/-- A code from the limit on is none. -/
theorem decodeF_ne_fin (n : Bool) {c : Nat} (h : F.limit ≤ c) (hc : c < 2 ^ (F.m + F.e)) (n' : Bool) (m : Nat) (e : Int) :
    decodeF F (signBit F n + c) ≠ .fin n' m e := by
  have hP : 0 < 2 ^ F.m := by positivity
  have hQ : c / 2 ^ F.m < 2 ^ F.e := by rwa [Nat.div_lt_iff_lt_mul hP, mul_comm, ← pow_add]
  have hdm := Nat.div_add_mod c (2 ^ F.m)
  have hmod := Nat.mod_lt c hP
  rw [decodeF_signBit_add n hc]
  rw [Format.limit] at h
  rw [pow_add] at h hc
  have h1 : 2 ^ F.m * (2 ^ F.e - 1) + 2 ^ F.m = 2 ^ F.m * 2 ^ F.e := by
    rw [← Nat.mul_succ, Nat.succ_eq_add_one, Nat.sub_add_cancel Nat.one_le_two_pow]
  cases hF : F.finite
  · rw [hF, if_neg (by simp)] at h
    have : c / 2 ^ F.m = 2 ^ F.e - 1 := le_antisymm (by omega) ((Nat.le_div_iff_mul_le hP).2 h)
    rw [if_pos ⟨this, rfl⟩]
    split <;> simp
  · rw [hF, if_pos rfl] at h
    obtain rfl : c = 2 ^ F.m * 2 ^ F.e - 1 := by omega
    have hq : (2 ^ F.m * 2 ^ F.e - 1) / 2 ^ F.m = 2 ^ F.e - 1 := le_antisymm (by omega) ((Nat.le_div_iff_mul_le hP).2 (by rw [mul_comm]; omega))
    rw [hq] at hdm ⊢
    simp only [Bool.true_eq_false, and_false, if_false, true_and, and_true]
    rw [if_pos (by omega)]
    simp

/-- Every encoding is a sign and a code. -/
theorem exists_signBit_add {a : Nat} (h : a < 2 ^ (1 + F.e + F.m)) : ∃ n c, c < 2 ^ (F.m + F.e) ∧ a = signBit F n + c := by
  have hP : 0 < 2 ^ (F.m + F.e) := by positivity
  refine ⟨decide (a / 2 ^ (F.m + F.e) = 1), a % 2 ^ (F.m + F.e), Nat.mod_lt _ hP, ?_⟩
  have hdm := Nat.div_add_mod a (2 ^ (F.m + F.e))
  have h2 : a / 2 ^ (F.m + F.e) < 2 := by
    rw [Nat.div_lt_iff_lt_mul hP]
    rwa [show 1 + F.e + F.m = F.m + F.e + 1 by ring, pow_succ, mul_comm] at h
  rw [signBit]
  split <;> rename_i h1
  · rw [of_decide_eq_true h1, mul_one] at hdm
    omega
  · have : a / 2 ^ (F.m + F.e) = 0 := Nat.lt_one_iff.1 (lt_of_le_of_ne (Nat.lt_succ_iff.1 h2) (by simpa using h1))
    rw [this, mul_zero] at hdm
    omega

/-- An encoding of a finite number is a sign and a code below the limit. -/
theorem exists_of_decodeF_fin {a m : Nat} {n : Bool} {e : Int} (ha : a < 2 ^ (1 + F.e + F.m)) (h : decodeF F a = .fin n m e) :
    ∃ c < F.limit, a = signBit F n + c ∧ m = F.sig c ∧ e = F.exp c := by
  obtain ⟨n', c, hc, rfl⟩ := exists_signBit_add ha
  rcases lt_or_ge c F.limit with hl | hl
  · rw [decodeF_of_lt n' hl] at h
    injection h with hn hm he
    exact ⟨c, hl, by rw [hn], hm.symm, he.symm⟩
  · exact absurd h (decodeF_ne_fin n' hl hc n m e)

/-! ### The numbers as reals -/

/-- A sign as a factor. -/
def sgn (n : Bool) : ℝ := if n then -1 else 1

theorem exactOf_cast (n : Bool) (m : Nat) (e : Int) : ((exactOf n m e : ℚ) : ℝ) = sgn n * (m * (2 : ℝ) ^ e) := by
  cases n <;> simp [exactOf, sgn]

theorem exactOf_code (n : Bool) (c : Nat) : ((exactOf n (F.sig c) (F.exp c) : ℚ) : ℝ) = sgn n * F.mag c := exactOf_cast n _ _

theorem exactOf_not (n : Bool) (m : Nat) (e : Int) : exactOf (!n) m e = -exactOf n m e := by
  cases n <;> simp [exactOf]

theorem exactOf_eq_zero {n : Bool} {m : Nat} {e : Int} : exactOf n m e = 0 ↔ m = 0 := by
  cases n <;> simp [exactOf, zpow_ne_zero]

end Sys2Proof.Machine
end

section
/-! ### Where a rounded magnitude lands (R100 to R102, R105) -/

namespace Sys2Proof.Machine

variable {F : Format}

/-- A code and its flags; from the limit on, what R102 gives instead. -/
def Format.place (F : Format) (mode : Mode) (sat neg : Bool) (c : Nat) (inexact : Bool) : Rounded :=
  if F.limit ≤ c then overflowOf F mode sat neg
  else (signBit F neg + c, flagIf inexact flInexact ||| flagIf (inexact && decide (c < 2 ^ F.m) && c != 0) flUnderflow)

/-- The code of a real magnitude rounded down. -/
structure Format.Floor (F : Format) (V : ℝ) (c : Nat) : Prop where
  lo : F.mag c ≤ V
  hi : V < F.mag (c + 1)

/-- The point halfway to the next code. -/
noncomputable def Format.mid (F : Format) (c : Nat) : ℝ := (F.mag c + F.mag (c + 1)) / 2

open Classical in
/-- Whether a magnitude that rounds down to a code is rounded up. -/
noncomputable def Format.up (F : Format) (mode : Mode) (neg : Bool) (V : ℝ) (c : Nat) : Bool :=
  roundsUp mode neg (c % 2 = 1) (V = F.mid c) (F.mid c < V) (V ≠ F.mag c)

theorem Format.limit_le_field {j frac : Nat} (hlo : 2 ^ F.m ≤ frac) (hhi : frac < 2 ^ (F.m + 1)) :
    (if F.finite then decide (((2 ^ F.e - 1 : Nat) : Int) < ((j + 1 : Nat) : Int)) ||
        (((j + 1 : Nat) : Int) = ((2 ^ F.e - 1 : Nat) : Int) && frac = 2 ^ (F.m + 1) - 1)
      else decide (((2 ^ F.e - 1 : Nat) : Int) ≤ ((j + 1 : Nat) : Int))) = decide (F.limit ≤ j * 2 ^ F.m + frac) := by
  obtain ⟨f, rfl⟩ := Nat.exists_eq_add_of_le hlo
  obtain ⟨Q, hQ⟩ := Nat.exists_eq_add_of_lt (Nat.two_pow_pos F.e)
  have hP : 0 < 2 ^ F.m := Nat.two_pow_pos _
  simp only [Format.limit, pow_add, hQ, pow_one] at hhi ⊢
  generalize 2 ^ F.m = P at *
  have hsum : j * P + (P + f) = (j + 1) * P + f := by ring
  have hPQ : P * (Q + 1) = Q * P + P := by ring
  simp only [Nat.cast_inj, Nat.cast_lt, Nat.cast_le, hsum, zero_add, hPQ, Nat.add_sub_cancel]
  have hmono : ∀ {x y : Nat}, x ≤ y → x * P ≤ y * P := fun h => Nat.mul_le_mul_right P h
  cases F.finite
  · simp only [Bool.false_eq_true, if_false, decide_eq_decide]
    refine ⟨fun h => (hmono h).trans (Nat.le_add_right _ _), fun h => ?_⟩
    by_contra hlt
    have := hmono (show j + 1 + 1 ≤ Q by omega)
    rw [Nat.add_mul (j + 1), one_mul] at this
    omega
  · simp only [if_true, ← Bool.decide_and, ← Bool.decide_or, decide_eq_decide]
    constructor
    · rintro (h | ⟨h, h'⟩)
      · have := hmono (show Q + 1 ≤ j + 1 by omega)
        rw [Nat.add_mul, one_mul] at this
        omega
      · rw [h]
        omega
    · intro h
      rcases lt_trichotomy Q (j + 1) with hlt | heq | hgt
      · exact .inl hlt
      · exact .inr ⟨heq.symm, by rw [← heq] at h; omega⟩
      · have := hmono (show j + 1 + 1 ≤ Q by omega)
        rw [Nat.add_mul (j + 1), one_mul] at this
        omega


/-- What roundMag makes of a rounded significand of a last place. -/
def Format.pack (F : Format) (mode : Mode) (sat neg : Bool) (q : Int) (r : Nat) (inexact : Bool) : Rounded :=
  let carry := r = 2 ^ (F.m + 1)
  let frac := if carry then 2 ^ F.m else r
  let qe : Int := if carry then q + 1 else q
  let field : Int := qe + F.m + F.bias
  let top : Int := (2 ^ F.e - 1 : Nat)
  let tooBig := if F.finite then decide (top < field) || (field = top && frac = 2 ^ (F.m + 1) - 1)
    else decide (top ≤ field)
  if frac < 2 ^ F.m then
    (signBit F neg + frac, flagIf inexact flInexact ||| flagIf (inexact && frac != 0) flUnderflow)
  else if tooBig then overflowOf F mode sat neg
  else (signBit F neg + (field.toNat * 2 ^ F.m + (frac - 2 ^ F.m)), flagIf inexact flInexact)

theorem Format.pack_eq_place (hF : F.Usable) (mode : Mode) (sat neg inexact : Bool) {q : Int} {r : Nat} (hq : F.low ≤ q)
    (hr : r ≤ 2 ^ (F.m + 1)) (h : 2 ^ F.m ≤ r ∨ q = F.low) :
    F.pack mode sat neg q r inexact = F.place mode sat neg (F.code q r) inexact := by
  obtain ⟨j, rfl⟩ : ∃ j : Nat, q = F.low + j := ⟨(q - F.low).toNat, by omega⟩
  have hP : 0 < 2 ^ F.m := Nat.two_pow_pos _
  have hpow : 2 ^ (F.m + 1) = 2 * 2 ^ F.m := pow_succ' ..
  -- a normal significand of a field j + 1
  have hnormal : ∀ (j frac : Nat) (field : Int), field = (j + 1 : Nat) → 2 ^ F.m ≤ frac → frac < 2 ^ (F.m + 1) →
      (if (if F.finite then decide (((2 ^ F.e - 1 : Nat) : Int) < field) || (field = ((2 ^ F.e - 1 : Nat) : Int) && frac = 2 ^ (F.m + 1) - 1)
        else decide (((2 ^ F.e - 1 : Nat) : Int) ≤ field)) = true then overflowOf F mode sat neg
      else (signBit F neg + (field.toNat * 2 ^ F.m + (frac - 2 ^ F.m)), flagIf inexact flInexact)) =
        F.place mode sat neg (j * 2 ^ F.m + frac) inexact := by
    rintro j frac _ rfl hlo hhi
    rw [F.limit_le_field hlo hhi, place]
    have hcode : (((j + 1 : Nat) : Int).toNat * 2 ^ F.m + (frac - 2 ^ F.m)) = j * 2 ^ F.m + frac := by
      rw [Int.toNat_natCast, Nat.add_mul]
      omega
    rw [hcode]
    simp [show ¬ j * 2 ^ F.m + frac < 2 ^ F.m from fun h => by omega, flagIf]
  have hcode : F.code (F.low + j) r = j * 2 ^ F.m + r := by simp [code]
  rw [hcode, pack]
  by_cases hc : r = 2 ^ (F.m + 1)
  · simp only [hc, if_true, lt_irrefl, if_false]
    rw [hnormal (j + 1) (2 ^ F.m) _ (by rw [low]; push_cast; ring) le_rfl (by omega), hpow]
    congr 1
    ring
  · simp only [hc, if_false]
    rcases lt_or_ge r (2 ^ F.m) with hlt | hge
    · obtain rfl : j = 0 := by omega
      have := hF.limit_pos
      rw [if_pos hlt, place, if_neg (by omega)]
      simp [hlt]
    · rw [if_neg hge.not_gt, hnormal j r _ (by rw [low]; push_cast; ring) hge (by omega)]

end Sys2Proof.Machine
end

section
/-! ### roundMag rounds (R100) -/

namespace Sys2Proof.Machine

variable {F : Format}

/-- So many units of the last place q, rounded by where the magnitude stands in the next unit: the code of the magnitude rounded
down, or the next, in its place. -/
theorem Format.pack_round (hF : F.Usable) (mode : Mode) (sat neg : Bool) {half above inexact : Bool} {q : Int} {k : Nat} {V : ℝ}
    (hq : F.low ≤ q) (hk : k < 2 ^ (F.m + 1)) (h : 2 ^ F.m ≤ k ∨ q = F.low) (hlo : (k : ℝ) * 2 ^ q ≤ V)
    (hhi : V < (k + 1) * (2 : ℝ) ^ q) (hhalf : half = true ↔ V = (k + 1 / 2) * (2 : ℝ) ^ q)
    (habove : above = true ↔ (k + 1 / 2) * (2 : ℝ) ^ q < V) (hinexact : inexact = true ↔ V ≠ k * (2 : ℝ) ^ q) :
    ∃ c b, F.Floor V c ∧ (b = true ↔ V ≠ F.mag c) ∧
      F.pack mode sat neg q (k + if roundsUp mode neg (k % 2 = 1) half above inexact then 1 else 0) inexact =
        F.place mode sat neg (c + (F.up mode neg V c).toNat) b := by
  have hmag := F.mag_code hq hk.le h
  have hmag' := F.mag_code hq hk (h.imp_left fun h => h.trans k.le_succ)
  rw [F.code_succ] at hmag'
  have hmid : F.mid (F.code q k) = (k + 1 / 2) * (2 : ℝ) ^ q := by
    rw [mid, hmag, hmag']
    push_cast
    ring
  have hpar : F.code q k % 2 = k % 2 := by
    obtain ⟨m, hm⟩ := Nat.exists_eq_add_of_le' hF.m_pos
    rw [code, hm, pow_succ, ← mul_assoc, mul_comm, Nat.mul_add_mod]
  have hup : roundsUp mode neg (k % 2 = 1) half above inexact = F.up mode neg V (F.code q k) := by
    classical
    rw [up, hmid, hmag, hpar, Bool.eq_iff_iff.2 (hhalf.trans decide_eq_true_iff.symm),
      Bool.eq_iff_iff.2 (habove.trans decide_eq_true_iff.symm), Bool.eq_iff_iff.2 (hinexact.trans decide_eq_true_iff.symm)]
  refine ⟨_, inexact, ⟨hmag ▸ hlo, by rw [hmag']; push_cast; exact hhi⟩, by rw [hmag]; exact hinexact, ?_⟩
  rw [← hup, F.pack_eq_place hF mode sat neg inexact hq (by split <;> omega) (by split <;> omega)]
  cases roundsUp mode neg (k % 2 = 1) half above inexact <;> rfl

/-- The exponent of the last place that roundMag keeps. -/
def Format.lastPlace (F : Format) (m : Nat) (e : Int) : Int := max (e + Nat.log2 m - F.m) F.low

theorem Format.lastPlace_cases (m : Nat) (e : Int) : F.lastPlace m e = e + Nat.log2 m - F.m ∨ F.lastPlace m e = F.low := by
  rcases max_choice (e + (Nat.log2 m : Int) - F.m) F.low with h | h <;> simp [lastPlace, h]

theorem roundMag_of_ge {mode : Mode} {sat neg sticky : Bool} {m d : Nat} {e : Int} (h : F.lastPlace m e ≤ e) (hd : (e - F.lastPlace m e).toNat = d) :
    roundMag F mode sat neg m e sticky = F.pack mode sat neg (F.lastPlace m e)
      (m * 2 ^ d + if roundsUp mode neg (m * 2 ^ d % 2 = 1) false false (sticky || false) then 1 else 0) (sticky || false) := by
  have hsh : F.lastPlace m e - e ≤ 0 := by omega
  rw [show e - F.lastPlace m e = -(F.lastPlace m e - e) by ring] at hd
  unfold roundMag
  simp only [show max (e + (Nat.log2 m : Int) - F.m) (1 - F.bias - F.m) = F.lastPlace m e from rfl, hsh, if_true, hd]
  rfl

theorem roundMag_of_lt {mode : Mode} {sat neg sticky : Bool} {m d : Nat} {e : Int} (hd : F.lastPlace m e = e + (d + 1 : Nat)) :
    let k := m / 2 ^ (d + 1)
    let r := m % 2 ^ (d + 1)
    roundMag F mode sat neg m e sticky = F.pack mode sat neg (F.lastPlace m e)
      (k + if roundsUp mode neg (k % 2 = 1) (r = 2 ^ d && !sticky) (decide (2 ^ d < r) || (r = 2 ^ d && sticky)) (sticky || r != 0) then 1 else 0)
      (sticky || r != 0) := by
  have hsh : ¬ F.lastPlace m e - e ≤ 0 := by omega
  have hd' : (F.lastPlace m e - e).toNat = d + 1 := by omega
  intro k r
  unfold roundMag
  simp only [show max (e + (Nat.log2 m : Int) - F.m) (1 - F.bias - F.m) = F.lastPlace m e from rfl, hsh, if_false, hd', Nat.succ_ne_zero,
    Nat.add_sub_cancel]
  rfl

/-- What a significand with a sticky bit says of a magnitude: it is m units, or lies between m and m + 1 units. -/
structure Sticky (m : Nat) (u : ℝ) (sticky : Bool) (V : ℝ) : Prop where
  lo : m * u ≤ V
  hi : V < (m + 1) * u
  iff : sticky = true ↔ V ≠ m * u

theorem Sticky.pos {m : Nat} {u V : ℝ} {sticky : Bool} (h : Sticky m u sticky V) : 0 < u := by
  have := h.lo.trans_lt h.hi
  linarith

theorem Sticky.eq_false {m : Nat} {u V : ℝ} {sticky : Bool} (h : Sticky m u sticky V) : sticky = false ↔ V = m * u := by
  rw [← Bool.not_eq_true, h.iff, not_ne_iff]

theorem Sticky.exact (m : Nat) {u : ℝ} (hu : 0 < u) : Sticky m u false (m * u) := ⟨le_rfl, by nlinarith, by simp⟩

/-- A magnitude exceeds p units by its significand, or by its sticky bit. -/
theorem Sticky.lt_iff {m p : Nat} {u V : ℝ} {sticky : Bool} (h : Sticky m u sticky V) : p * u < V ↔ p < m ∨ p = m ∧ sticky = true := by
  have hu := h.pos
  rcases lt_trichotomy p m with hlt | rfl | hgt
  · have : (p : ℝ) < m := by exact_mod_cast hlt
    simp only [hlt, true_or, iff_true]
    nlinarith [h.lo]
  · simp [h.iff, lt_iff_le_and_ne, h.lo, eq_comm]
  · have : (m : ℝ) + 1 ≤ p := by exact_mod_cast hgt
    simp only [hgt.not_gt, hgt.ne', false_and, or_self, iff_false, not_lt]
    nlinarith [h.hi]

theorem Sticky.eq_iff {m p : Nat} {u V : ℝ} {sticky : Bool} (h : Sticky m u sticky V) : V = p * u ↔ p = m ∧ sticky = false := by
  have hu := h.pos
  refine ⟨fun hp => ?_, fun ⟨hp, hs⟩ => by rw [hp, h.eq_false.1 hs]⟩
  have h1 := h.lo
  have h2 := h.hi
  rw [hp] at h1 h2
  have h1 : m ≤ p := by exact_mod_cast le_of_mul_le_mul_right h1 hu
  have h2 : p < m + 1 := by exact_mod_cast lt_of_mul_lt_mul_right h2 hu.le
  obtain rfl : p = m := by omega
  exact ⟨rfl, h.eq_false.2 hp⟩

/-- roundMag takes the code of the magnitude rounded down, or the next, and places it. -/
theorem roundMag_place (hF : F.Usable) (mode : Mode) (sat neg : Bool) {m : Nat} {e : Int} {sticky : Bool} {V : ℝ} (hm : m ≠ 0)
    (hV : Sticky m ((2 : ℝ) ^ e) sticky V) (hbits : sticky = true → 2 ^ (F.m + 1) ≤ m) :
    ∃ c inexact, F.Floor V c ∧ (inexact = true ↔ V ≠ F.mag c) ∧
      roundMag F mode sat neg m e sticky = F.place mode sat neg (c + (F.up mode neg V c).toNat) inexact := by
  have hlog := Nat.log2_self_le hm
  have hlog' := @Nat.lt_log2_self m
  have hlow : F.low ≤ F.lastPlace m e := le_max_right _ _
  have hmsb : e + Nat.log2 m - F.m ≤ F.lastPlace m e := le_max_left _ _
  have hcases := F.lastPlace_cases m e
  rcases le_or_gt (F.lastPlace m e) e with hsh | hsh
  · -- the magnitude is a multiple of the last place
    obtain ⟨d, hd⟩ : ∃ d : Nat, e = F.lastPlace m e + d := ⟨(e - F.lastPlace m e).toNat, by omega⟩
    have hst : sticky = false := Bool.eq_false_iff.2 fun h => by
      have := (Nat.le_log2 hm).2 (hbits h)
      omega
    have hk : V = (m * 2 ^ d : Nat) * (2 : ℝ) ^ F.lastPlace m e := by
      rw [hV.eq_false.1 hst]
      conv_lhs => rw [hd, zpow_add₀ two_ne_zero, zpow_natCast]
      push_cast
      ring
    have hu : (0 : ℝ) < 2 ^ F.lastPlace m e := by positivity
    rw [roundMag_of_ge hsh (by omega : _ = d), hst]
    refine F.pack_round hF mode sat neg hlow ?_ (hcases.imp_left fun h => ?_) hk.ge ?_ ?_ ?_ ?_
    · calc m * 2 ^ d < 2 ^ (Nat.log2 m + 1) * 2 ^ d := Nat.mul_lt_mul_of_pos_right hlog' (by positivity)
        _ = 2 ^ (Nat.log2 m + 1 + d) := (pow_add ..).symm
        _ ≤ 2 ^ (F.m + 1) := Nat.pow_le_pow_right (by norm_num) (by omega)
    · calc 2 ^ F.m = 2 ^ Nat.log2 m * 2 ^ d := by rw [← pow_add]; congr 1; omega
        _ ≤ m * 2 ^ d := Nat.mul_le_mul_right _ hlog
    all_goals rw [hk]
    · nlinarith
    · simp [hu.ne']
    · simp [hu]
    · simp
  · -- d + 1 bits are lost
    obtain ⟨d, hd⟩ : ∃ d : Nat, F.lastPlace m e = e + (d + 1 : Nat) := ⟨(F.lastPlace m e - e - 1).toNat, by omega⟩
    rw [roundMag_of_lt hd]
    have hdm := Nat.div_add_mod m (2 ^ (d + 1))
    have hK := Nat.two_pow_pos (d + 1)
    have hmod := Nat.mod_lt m hK
    have hunit : ∀ x : ℝ, x * 2 ^ F.lastPlace m e = (x * 2 ^ (d + 1)) * 2 ^ e := fun x => by
      rw [hd, zpow_add₀ two_ne_zero, zpow_natCast]
      ring
    have hfull : ∀ k : Nat, (k : ℝ) * 2 ^ F.lastPlace m e = (k * 2 ^ (d + 1) : Nat) * 2 ^ e := fun k => by
      rw [hunit]
      push_cast
      rfl
    have hhalf : ∀ k : Nat, ((k : ℝ) + 1 / 2) * 2 ^ F.lastPlace m e = (k * 2 ^ (d + 1) + 2 ^ d : Nat) * 2 ^ e := fun k => by
      rw [hunit]
      push_cast
      ring
    have hpow : 2 ^ (d + 1) = 2 * 2 ^ d := pow_succ' ..
    have hcomm := Nat.mul_comm (m / 2 ^ (d + 1)) (2 ^ (d + 1))
    have hnext : (m / 2 ^ (d + 1) + 1) * 2 ^ (d + 1) = m / 2 ^ (d + 1) * 2 ^ (d + 1) + 2 ^ (d + 1) := by ring
    have heq : m / 2 ^ (d + 1) * 2 ^ (d + 1) + 2 ^ d = m ↔ m % 2 ^ (d + 1) = 2 ^ d := by omega
    refine F.pack_round hF mode sat neg hlow ?_ (hcases.imp_left fun h => ?_) ?_ ?_ ?_ ?_ ?_
    · rw [Nat.div_lt_iff_lt_mul hK, ← pow_add]
      exact hlog'.trans_le (Nat.pow_le_pow_right (by norm_num) (by omega))
    · rw [Nat.le_div_iff_mul_le hK, ← pow_add]
      exact (Nat.pow_le_pow_right (by norm_num) (by omega)).trans hlog
    · rw [hfull]
      exact (mul_le_mul_of_nonneg_right (by exact_mod_cast (show m / 2 ^ (d + 1) * 2 ^ (d + 1) ≤ m by omega)) hV.pos.le).trans hV.lo
    · have := hfull (m / 2 ^ (d + 1) + 1)
      rw [Nat.cast_add_one] at this
      rw [this]
      exact hV.hi.trans_le (mul_le_mul_of_nonneg_right (by exact_mod_cast (show m + 1 ≤ (m / 2 ^ (d + 1) + 1) * 2 ^ (d + 1) by omega)) hV.pos.le)
    · rw [hhalf, hV.eq_iff, heq]
      simp
    · rw [hhalf, hV.lt_iff, heq, show m / 2 ^ (d + 1) * 2 ^ (d + 1) + 2 ^ d < m ↔ 2 ^ d < m % 2 ^ (d + 1) by omega]
      simp
    · rw [hfull, Ne, hV.eq_iff, show m / 2 ^ (d + 1) * 2 ^ (d + 1) = m ↔ m % 2 ^ (d + 1) = 0 by omega]
      cases sticky <;> simp

end Sys2Proof.Machine
end

section
/-! ### Correct rounding (R99 to R102, R105) -/

namespace Sys2Proof.Machine

variable {F : Format}

/-- The modes that round a number of a sign toward zero. -/
def Mode.toZero : Mode → Bool → Bool
  | .rne, _ => false
  | .rtz, _ => true
  | .rup, neg => neg
  | .rdn, neg => !neg

theorem maxOf_eq (F : Format) (neg : Bool) : maxOf F neg = signBit F neg + (F.limit - 1) := by
  rw [maxOf, Format.limit]
  split <;> rfl

/-- A magnitude beyond the largest gives the largest finite number where it is held or rounded toward zero, and else no finite number. -/
theorem overflowOf_cases (mode : Mode) (sat neg : Bool) :
    (overflowOf F mode sat neg).2 = flOverflow ||| flInexact ∧
      ((sat = true ∨ mode.toZero neg = true) ∧ (overflowOf F mode sat neg).1 = signBit F neg + (F.limit - 1) ∨
        ∀ n m e, decodeF F (overflowOf F mode sat neg).1 ≠ .fin n m e) := by
  have hout : ∀ n m e, decodeF F (if F.finite then nanOf F else infOf F neg) ≠ .fin n m e := by
    have := fun n => decodeF_ne_fin n le_rfl F.limit_lt
    cases hf : F.finite
    · simpa [Format.limit, hf, infOf] using this neg
    · simpa [Format.limit, hf, nanOf, signBit] using this false
  have heq : overflowOf F mode sat neg = (if sat || mode.toZero neg then maxOf F neg else if F.finite then nanOf F else infOf F neg,
      flOverflow ||| flInexact) := by
    cases sat <;> cases mode <;> cases neg <;> rfl
  rw [heq, ← maxOf_eq]
  refine ⟨rfl, ?_⟩
  cases hz : sat || mode.toZero neg
  · exact .inr hout
  · exact .inl ⟨Bool.or_eq_true_iff.1 hz, rfl⟩

theorem Format.mag_lt_mid (c : Nat) : F.mag c < F.mid c ∧ F.mid c < F.mag (c + 1) := by
  have := F.mag_strictMono c.lt_succ_self
  rw [mid]
  constructor <;> linarith

/-- A magnitude that a code holds is not rounded up. -/
theorem Format.up_mag (mode : Mode) (neg : Bool) (c : Nat) : F.up mode neg (F.mag c) c = false := by
  have := F.mag_lt_mid c
  cases mode <;> simp [up, roundsUp, this.1.ne, this.1.le]

theorem roundsUp_toZero {mode : Mode} {neg : Bool} (h : mode.toZero neg = true) (odd half above inexact : Bool) :
    roundsUp mode neg odd half above inexact = false := by
  cases mode <;> cases neg <;> simp_all [Mode.toZero, roundsUp]

theorem roundsUp_away {mode : Mode} {neg : Bool} (h : mode.toZero neg = false) (hm : mode ≠ .rne) (odd half above inexact : Bool) :
    roundsUp mode neg odd half above inexact = inexact := by
  cases mode <;> cases neg <;> simp_all [Mode.toZero, roundsUp]

theorem Format.up_toZero {mode : Mode} {neg : Bool} (h : mode.toZero neg = true) (V : ℝ) (c : Nat) : F.up mode neg V c = false :=
  roundsUp_toZero h ..

theorem Format.up_away {mode : Mode} {neg : Bool} (h : mode.toZero neg = false) (hm : mode ≠ .rne) (V : ℝ) (c : Nat) :
    F.up mode neg V c = true ↔ V ≠ F.mag c := by
  rw [up, roundsUp_away h hm, decide_eq_true_iff]

theorem Format.up_rne (neg : Bool) (V : ℝ) (c : Nat) : F.up .rne neg V c = true ↔ F.mid c < V ∨ V = F.mid c ∧ c % 2 = 1 := by
  simp [up, roundsUp]

/-- A finite encoding that a place holds: the code itself, or the largest in place of a greater one. -/
theorem Format.place_cases (hF : F.Usable) {mode : Mode} {sat neg inexact : Bool} {c m : Nat} {n : Bool} {e : Int}
    (h : decodeF F (F.place mode sat neg c inexact).1 = .fin n m e) :
    ∃ c' < F.limit, (F.place mode sat neg c inexact).1 = signBit F neg + c' ∧ ((exactOf n m e : ℚ) : ℝ) = sgn neg * F.mag c' ∧
      (c' = c ∧ ((F.place mode sat neg c inexact).2 = 0 ∧ inexact = false ∨
          (F.place mode sat neg c inexact).2 &&& flInexact = flInexact ∧ inexact = true) ∨
        c' = F.limit - 1 ∧ F.limit ≤ c ∧ (sat = true ∨ mode.toZero neg = true) ∧
          (F.place mode sat neg c inexact).2 &&& flInexact = flInexact) := by
  have hpos := hF.limit_pos.trans' Nat.one_le_two_pow
  -- the number is the code's
  have hval : ∀ c' < F.limit, decodeF F (signBit F neg + c') = .fin n m e → ((exactOf n m e : ℚ) : ℝ) = sgn neg * F.mag c' := by
    intro c' hc' hd
    rw [decodeF_of_lt neg hc'] at hd
    injection hd with hn hm he
    rw [← hn, ← hm, ← he, exactOf_code]
  rcases lt_or_ge c F.limit with hlt | hge
  · rw [place, if_neg hlt.not_ge] at h ⊢
    refine ⟨c, hlt, rfl, hval c hlt h, .inl ⟨rfl, ?_⟩⟩
    cases inexact
    · exact .inl ⟨by simp [flagIf], rfl⟩
    · refine .inr ⟨?_, rfl⟩
      dsimp only
      cases (true && decide (c < 2 ^ F.m) && c != 0) <;> decide
  · rw [place, if_pos hge] at h ⊢
    obtain ⟨hfl, ⟨hz, hmax⟩ | hout⟩ := overflowOf_cases mode sat neg
    · rw [hmax] at h ⊢
      exact ⟨F.limit - 1, by omega, rfl, hval _ (by omega) h, .inr ⟨rfl, hge, hz, by rw [hfl]; rfl⟩⟩
    · exact absurd h (hout n m e)

theorem Format.Floor.le_of_le {V : ℝ} {c k : Nat} (h : F.Floor V c) (hk : V ≤ F.mag k) : c < k ∨ c = k ∧ V = F.mag k := by
  rcases lt_or_eq_of_le (F.mag_strictMono.le_iff_le.1 (h.lo.trans hk)) with hlt | rfl
  · exact .inl hlt
  · exact .inr ⟨rfl, hk.antisymm h.lo⟩

theorem Format.Floor.eq_of_mag {c k : Nat} (h : F.Floor (F.mag k) c) : c = k := by
  have h1 := F.mag_strictMono.le_iff_le.1 h.lo
  have h2 := F.mag_strictMono.lt_iff_lt.1 h.hi
  omega

/-- Codes up to a largest that holds the magnitude are not passed by rounding. -/
theorem Format.Floor.add_up_le {mode : Mode} {neg : Bool} {V : ℝ} {c k : Nat} (h : F.Floor V c) (hk : V ≤ F.mag k) :
    c + (F.up mode neg V c).toNat ≤ k := by
  rcases h.le_of_le hk with hlt | ⟨rfl, hV⟩
  · have := Bool.toNat_le (F.up mode neg V c)
    omega
  · rw [hV, F.up_mag]
    exact le_rfl

/-- No signed number of the format lies between two neighbours. -/
theorem Format.sgn_mul_mag_cases (n : Bool) (cw c : Nat) : sgn n * F.mag cw ≤ F.mag c ∨ F.mag (c + 1) ≤ sgn n * F.mag cw := by
  have h0 := F.mag_nonneg c
  have h1 := F.mag_nonneg cw
  cases n
  · simpa [sgn, F.mag_strictMono.le_iff_le] using le_or_gt cw c
  · left
    simp only [sgn, if_true]
    linarith

/-- What a rounded magnitude x′, of a code, is to a magnitude V and to every number w′ of the format. -/
structure Format.Near (F : Format) (mode : Mode) (neg : Bool) (V x w : ℝ) (even : Prop) : Prop where
  rne : mode = .rne → |x - V| ≤ |w - V| ∧ (|x - V| = |w - V| → x ≠ w → even)
  toZero : mode.toZero neg = true → x ≤ V ∧ (w ≤ V → w ≤ x)
  away : mode.toZero neg = false → mode ≠ .rne → V ≤ x ∧ (V ≤ w → x ≤ w)

theorem Format.near_of_floor {mode : Mode} {neg : Bool} {V w : ℝ} {c : Nat} (h : F.Floor V c)
    (hw : w ≤ F.mag c ∨ F.mag (c + 1) ≤ w) :
    F.Near mode neg V (F.mag (c + (F.up mode neg V c).toNat)) w ((c + (F.up mode neg V c).toNat) % 2 = 0) := by
  have hmid := F.mag_lt_mid c
  have hlo := h.lo
  have hhi := h.hi
  have hm : F.mid c = (F.mag c + F.mag (c + 1)) / 2 := rfl
  refine ⟨?_, fun hz => ?_, fun hz hne => ?_⟩
  · rintro rfl
    rcases lt_trichotomy V (F.mid c) with hlt | heq | hgt
    · have hup : F.up .rne neg V c = false := Bool.eq_false_iff.2 fun hu => by
        rcases (F.up_rne neg V c).1 hu with h | ⟨h, -⟩ <;> linarith
      rw [hup, Bool.toNat_false, add_zero, abs_of_nonpos (by linarith)]
      rcases hw with hw | hw
      · rw [abs_of_nonpos (by linarith)]
        exact ⟨by linarith, fun he hx => absurd (by linarith) hx⟩
      · rw [abs_of_nonneg (by linarith)]
        exact ⟨by linarith, fun he => by linarith⟩
    · have hup : (F.up .rne neg V c).toNat = c % 2 := by
        rcases Nat.mod_two_eq_zero_or_one c with h0 | h1
        · rw [show F.up .rne neg V c = false from Bool.eq_false_iff.2 fun hu => by
            rcases (F.up_rne neg V c).1 hu with h | ⟨-, h⟩
            · exact h.ne' heq
            · omega, h0]
          rfl
        · rw [(F.up_rne neg V c).2 (.inr ⟨heq, h1⟩), h1]
          rfl
      refine ⟨?_, fun _ _ => by rw [hup]; omega⟩
      have hx : |F.mag (c + (F.up .rne neg V c).toNat) - V| = F.mag (c + 1) - V := by
        rcases Nat.mod_two_eq_zero_or_one c with h0 | h1
        · rw [hup, h0, add_zero, abs_of_nonpos (by linarith)]
          linarith
        · rw [hup, h1, abs_of_nonneg (by linarith)]
      rw [hx]
      rcases hw with hw | hw
      · rw [abs_of_nonpos (by linarith)]
        linarith
      · rw [abs_of_nonneg (by linarith)]
        linarith
    · rw [(F.up_rne neg V c).2 (.inl hgt), Bool.toNat_true, abs_of_nonneg (by linarith)]
      rcases hw with hw | hw
      · rw [abs_of_nonpos (by linarith)]
        exact ⟨by linarith, fun he => by linarith⟩
      · rw [abs_of_nonneg (by linarith)]
        exact ⟨by linarith, fun he hx => absurd (by linarith) hx⟩
  · rw [F.up_toZero hz, Bool.toNat_false, add_zero]
    exact ⟨hlo, fun hwV => hw.resolve_right fun h => by linarith⟩
  · by_cases hV : V = F.mag c
    · rw [hV, F.up_mag, Bool.toNat_false, add_zero]
      exact ⟨le_rfl, id⟩
    · rw [(F.up_away hz hne V c).2 hV, Bool.toNat_true]
      exact ⟨hhi.le, fun hVw => hw.resolve_left fun h => hV (by linarith)⟩


/-- A larger magnitude than the largest, where it is rounded toward zero. -/
theorem Format.near_of_limit {mode : Mode} {neg : Bool} {V w : ℝ} {even : Prop} (hz : mode.toZero neg = true) (hV : F.mag (F.limit - 1) ≤ V)
    (hw : w ≤ F.mag (F.limit - 1)) : F.Near mode neg V (F.mag (F.limit - 1)) w even :=
  ⟨fun h => by simp [h, Mode.toZero] at hz, fun _ => ⟨hV, fun _ => hw⟩, fun h => by simp [hz] at h⟩

/-- roundMag's finite results: near, the exact number without a flag, and any other with the flag. -/
theorem roundMag_near (hF : F.Usable) {mode : Mode} {sat neg : Bool} {m : Nat} {e : Int} {sticky : Bool} {V : ℝ} (hm : m ≠ 0)
    (hV : Sticky m ((2 : ℝ) ^ e) sticky V) (hbits : sticky = true → 2 ^ (F.m + 1) ≤ m) (hsat : sat = false ∨ V ≤ F.mag (F.limit - 1))
    {n' : Bool} {m' : Nat} {e' : Int} (h : decodeF F (roundMag F mode sat neg m e sticky).1 = .fin n' m' e') :
    ∃ c < F.limit, (roundMag F mode sat neg m e sticky).1 = signBit F neg + c ∧ ((exactOf n' m' e' : ℚ) : ℝ) = sgn neg * F.mag c ∧
      (F.mag c ≠ V → (roundMag F mode sat neg m e sticky).2 &&& flInexact = flInexact) ∧
      ∀ n cw, cw < F.limit → F.Near mode neg V (F.mag c) (sgn n * F.mag cw) (c % 2 = 0) ∧
        (V = sgn n * F.mag cw → F.mag c = V ∧ (roundMag F mode sat neg m e sticky).2 = 0) := by
  have hpos := hF.limit_pos.trans' Nat.one_le_two_pow
  have hVpos : 0 < V := lt_of_lt_of_le (mul_pos (by exact_mod_cast hm.bot_lt) hV.pos) hV.lo
  obtain ⟨c₀, b, hfl, hb, hplace⟩ := roundMag_place hF mode sat neg hm hV hbits
  rw [hplace] at h ⊢
  -- a number of the format that the magnitude is, is the code's
  have hexact : ∀ n cw, V = sgn n * F.mag cw → V = F.mag c₀ ∧ cw = c₀ := fun n cw hw => by
    have hn : n = false := by
      cases n
      · rfl
      · simp only [sgn, if_true] at hw
        linarith [F.mag_nonneg cw]
    rw [hn, sgn, if_neg (by simp), one_mul] at hw
    rw [hw] at hfl
    rw [hfl.eq_of_mag]
    exact ⟨hw, rfl⟩
  obtain ⟨c, hc, h1, hx, ⟨rfl, hflag⟩ | ⟨rfl, hge, hz, hflag⟩⟩ := F.place_cases hF h
  · refine ⟨_, hc, h1, hx, fun hne => ?_, fun n cw hcw => ⟨F.near_of_floor hfl (F.sgn_mul_mag_cases n cw c₀), fun hw => ?_⟩⟩
    · obtain ⟨-, hbf⟩ | ⟨hf, -⟩ := hflag
      · have hVc : V = F.mag c₀ := by
          by_contra hne'
          rw [hb.2 hne'] at hbf
          exact Bool.noConfusion hbf
        rw [hVc, F.up_mag] at hne
        exact absurd rfl hne
      · exact hf
    · obtain ⟨hVc, -⟩ := hexact n cw hw
      refine ⟨by rw [hVc, F.up_mag]; rfl, ?_⟩
      obtain ⟨hf, -⟩ | ⟨-, hbt⟩ := hflag
      · exact hf
      · exact absurd hVc (hb.1 hbt)
  · have hgt : ¬ V ≤ F.mag (F.limit - 1) := fun hle => by
      have := hfl.add_up_le (mode := mode) (neg := neg) hle
      omega
    have hz' : mode.toZero neg = true := hz.resolve_left fun h => by simp [h, hgt] at hsat
    rw [F.up_toZero hz', Bool.toNat_false, add_zero] at hge
    refine ⟨_, hc, h1, hx, fun _ => hflag, fun n cw hcw => ⟨F.near_of_limit hz' (not_le.1 hgt).le ?_, fun hw => ?_⟩⟩
    · refine (F.sgn_mul_mag_cases n cw _).resolve_right fun hle => ?_
      rw [Nat.sub_add_cancel hpos] at hle
      have h1 := F.mag_strictMono hcw
      have h2 := F.mag_nonneg cw
      cases n <;> simp only [sgn, if_true, if_false, Bool.false_eq_true] at hle <;> linarith
    · obtain ⟨-, rfl⟩ := hexact n cw hw
      omega

theorem signBit_mod_two (hF : F.Usable) (neg : Bool) (c : Nat) : (signBit F neg + c) % 2 = c % 2 := by
  obtain ⟨m, hm⟩ := Nat.exists_eq_add_of_le' hF.m_pos
  rw [signBit_eq, hm, show m + 1 + F.e = m + F.e + 1 by ring, pow_succ, ← mul_assoc, mul_comm, Nat.mul_add_mod]

/-- roundMag rounds the signed magnitude (R99 to R102). -/
theorem roundMag_rounds (hF : F.Usable) (mode : Mode) {sat : Bool} (neg : Bool) {m : Nat} {e : Int} {sticky : Bool} {V : ℝ} (hm : m ≠ 0)
    (hV : Sticky m ((2 : ℝ) ^ e) sticky V) (hbits : sticky = true → 2 ^ (F.m + 1) ≤ m) (hsat : sat = false ∨ V ≤ F.mag (F.limit - 1)) :
    Rounds F mode (roundMag F mode sat neg m e sticky) (sgn neg * V) := by
  intro n' m' e' h x
  have hVpos : 0 < V := lt_of_lt_of_le (mul_pos (by exact_mod_cast hm.bot_lt) hV.pos) hV.lo
  obtain ⟨c, hc, h1, hx, hne, hall⟩ := roundMag_near hF hm hV hbits hsat h
  have hxe : x = sgn neg * F.mag c := hx
  have hs : sgn neg * sgn neg = 1 := by cases neg <;> norm_num [sgn]
  have hinj : ∀ y z : ℝ, sgn neg * y = sgn neg * z ↔ y = z := fun y z => by cases neg <;> simp [sgn]
  have habs : ∀ y z : ℝ, |sgn neg * y - sgn neg * z| = |y - z| := fun y z => by
    cases neg
    · simp [sgn]
    · rw [sgn, if_pos rfl, ← abs_neg]
      ring_nf
  refine ⟨fun hxv => hne fun h => hxv (by rw [hxe, h]), ?_⟩
  intro a nw mw ew ha hd w
  obtain ⟨cw, hcw, -, hmw, hew⟩ := exists_of_decodeF_fin ha hd
  -- the other number, seen with the sign of the magnitude
  obtain ⟨hnear, hexact⟩ := hall (nw != neg) cw hcw
  have hwe : w = sgn neg * (sgn (nw != neg) * F.mag cw) := by
    have : sgn nw = sgn neg * sgn (nw != neg) := by cases nw <;> cases neg <;> norm_num [sgn]
    rw [show w = sgn nw * F.mag cw by rw [← exactOf_code, ← hmw, ← hew], this, mul_assoc]
  generalize sgn (nw != neg) * F.mag cw = y at hnear hexact hwe
  rw [hxe, hwe, h1, signBit_mod_two hF, habs, habs, hinj, hinj, Ne, hinj]
  refine ⟨hnear.rne, ?_, ?_, ?_, hexact⟩
  · rintro rfl
    cases neg
    · simpa [sgn] using hnear.away rfl (by simp)
    · have := hnear.toZero rfl
      simpa [sgn] using this
  · rintro rfl
    cases neg
    · simpa [sgn] using hnear.toZero rfl
    · simpa [sgn] using hnear.away rfl (by simp)
  · rintro rfl
    have hz := hnear.toZero rfl
    have := F.mag_nonneg c
    cases neg
    · simp only [sgn, Bool.false_eq_true, if_false, one_mul]
      exact ⟨fun _ => ⟨this, hz⟩, fun h => by linarith⟩
    · simp only [sgn, if_true, neg_mul, one_mul, neg_le_neg_iff]
      exact ⟨fun h => by linarith, fun _ => ⟨by linarith, hz⟩⟩

end Sys2Proof.Machine
end

section
/-! ### Exact values: sums, products, and what a format holds (R99) -/

namespace Sys2Proof.Machine

variable {F : Format}

theorem usable_of_mem (h : F ∈ [fp64, fp32, fp16, bf16, e4m3, e5m2]) : F.Usable := by
  simp only [List.mem_cons, List.not_mem_nil, or_false] at h
  rcases h with rfl | rfl | rfl | rfl | rfl | rfl <;> constructor <;> decide

theorem usable_fp32 : fp32.Usable := usable_of_mem (by simp)
theorem usable_fp64 : fp64.Usable := usable_of_mem (by simp)

/-- A finite value in units of a power of two that divides it. -/
theorem exactOf_scaled (n : Bool) (m : Nat) {e lo : Int} (h : lo ≤ e) :
    (((if n then -1 else 1) * (m * 2 ^ (e - lo).toNat : Nat) : Int) : ℚ) * 2 ^ lo = exactOf n m e := by
  obtain ⟨d, rfl⟩ : ∃ d : Nat, e = lo + d := ⟨(e - lo).toNat, by omega⟩
  rw [exactOf, zpow_add₀ two_ne_zero, zpow_natCast]
  cases n <;> simp <;> ring

theorem exactOf_natAbs (z : Int) (e : Int) : exactOf (decide (z < 0)) z.natAbs e = z * 2 ^ e := by
  rw [exactOf]
  rcases lt_or_ge z 0 with h | h
  · rw [decide_eq_true h, if_pos rfl, Nat.cast_natAbs, abs_of_neg h]
    push_cast
    ring
  · rw [decide_eq_false h.not_gt, if_neg (by simp), Nat.cast_natAbs, abs_of_nonneg h]
    ring

/-- The sum of finite values is finite and exact, and raises nothing. -/
theorem FVal.add_fin (mode : Mode) (n n' : Bool) (m m' : Nat) (e e' : Int) :
    ∃ n₁ m₁ e₁, (FVal.fin n m e).add mode (.fin n' m' e') = (.fin n₁ m₁ e₁, 0) ∧ exactOf n₁ m₁ e₁ = exactOf n m e + exactOf n' m' e' := by
  rw [← exactOf_scaled n m (min_le_left e e'), ← exactOf_scaled n' m' (min_le_right e e'), ← add_mul, ← Int.cast_add]
  simp only [FVal.add]
  generalize ((if n then -1 else 1) * (m * 2 ^ (e - min e e').toNat : Nat) : Int) + (if n' then -1 else 1) * (m' * 2 ^ (e' - min e e').toNat : Nat) = z
  split
  · next hz => split <;> exact ⟨_, _, _, rfl, by simp [exactOf, hz]⟩
  · exact ⟨_, _, _, rfl, exactOf_natAbs z _⟩

/-- The product of finite values is finite and exact, and raises nothing. -/
theorem FVal.mul_fin (n n' : Bool) (m m' : Nat) (e e' : Int) :
    ∃ n₁ m₁ e₁, (FVal.fin n m e).mul (.fin n' m' e') = (.fin n₁ m₁ e₁, 0) ∧ exactOf n₁ m₁ e₁ = exactOf n m e * exactOf n' m' e' := by
  refine ⟨_, _, _, rfl, ?_⟩
  simp only [exactOf, zpow_add₀ (two_ne_zero (α := ℚ))]
  cases n <;> cases n' <;> simp <;> ring

/-- Two finite values compare equal where they are the same number. -/
theorem FVal.cmp_fin_eq {n n' : Bool} {m m' : Nat} {e e' : Int} :
    (FVal.fin n m e).cmp (.fin n' m' e') = some .eq ↔ exactOf n m e = exactOf n' m' e' := by
  rw [← exactOf_scaled n m (min_le_left e e'), ← exactOf_scaled n' m' (min_le_right e e')]
  simp only [FVal.cmp, Option.some.injEq, compare_eq_iff_eq]
  rw [mul_left_inj' (zpow_ne_zero _ two_ne_zero), Int.cast_inj]

theorem FVal.sig_fin (n : Bool) (m : Nat) (e : Int) : (FVal.fin n m e).sig = 0 := rfl

/-- Rounding a value that the format holds gives its encoding, with no flag. -/
theorem roundMag_mag (hF : F.Usable) (mode : Mode) (sat neg : Bool) {m c : Nat} {e : Int} (hm : m ≠ 0) (hc : c < F.limit)
    (hV : F.mag c = m * (2 : ℝ) ^ e) : roundMag F mode sat neg m e false = (signBit F neg + c, 0) := by
  obtain ⟨c₀, b, hfl, hb, hplace⟩ := roundMag_place hF mode sat neg (sticky := false) hm (Sticky.exact m (by positivity)) (by simp)
  rw [← hV] at hfl hb hplace
  obtain rfl := hfl.eq_of_mag
  have hb' : b = false := Bool.eq_false_iff.2 fun h => hb.1 h rfl
  rw [hplace, F.up_mag, Bool.toNat_false, add_zero, Format.place, if_neg hc.not_ge, hb']
  simp [flagIf]

theorem roundF_fin (F : Format) (mode : Mode) (sat n : Bool) {m : Nat} (e : Int) (hm : m ≠ 0) :
    roundF F mode sat (.fin n m e) = roundMag F mode sat n m e false := by
  obtain ⟨k, rfl⟩ := Nat.exists_eq_succ_of_ne_zero hm
  rfl

theorem roundF_zero (F : Format) (mode : Mode) (sat n : Bool) (e : Int) : roundF F mode sat (.fin n 0 e) = (signBit F n, 0) := rfl

theorem abs_exactOf_cast (n : Bool) (m : Nat) (e : Int) : |((exactOf n m e : ℚ) : ℝ)| = m * 2 ^ e := by
  rw [exactOf_cast, abs_mul, abs_of_nonneg (show (0 : ℝ) ≤ m * 2 ^ e by positivity)]
  cases n <;> simp [sgn]

/-- round gives the nearest, the next above, the next below or the next toward zero. -/
theorem roundF_rounds (hF : F.Usable) (mode : Mode) {sat : Bool} (n : Bool) {m : Nat} (e : Int) (hm : m ≠ 0)
    (hsat : sat = false ∨ |((exactOf n m e : ℚ) : ℝ)| ≤ F.mag (F.limit - 1)) :
    Rounds F mode (roundF F mode sat (.fin n m e)) ((exactOf n m e : ℚ) : ℝ) := by
  rw [abs_exactOf_cast] at hsat
  rw [roundF_fin F mode sat n e hm, exactOf_cast]
  exact roundMag_rounds hF mode n hm (Sticky.exact m (by positivity)) (by simp) hsat

/-- The sum, the product and the fused form of finite operands are one rounding of the exact value. -/
theorem addF_fin {mode : Mode} {a b ma mb : Nat} {na nb : Bool} {ea eb : Int} (ha : decodeF F a = .fin na ma ea) (hb : decodeF F b = .fin nb mb eb) :
    ∃ n m e, exactOf n m e = exactOf na ma ea + exactOf nb mb eb ∧ addF F mode a b = roundF F mode false (.fin n m e) := by
  obtain ⟨n, m, e, h, hv⟩ := FVal.add_fin mode na nb ma mb ea eb
  exact ⟨n, m, e, hv, by simp [addF, ha, hb, h, FVal.sig_fin]⟩

theorem mulF_fin {mode : Mode} {a b ma mb : Nat} {na nb : Bool} {ea eb : Int} (ha : decodeF F a = .fin na ma ea) (hb : decodeF F b = .fin nb mb eb) :
    ∃ n m e, exactOf n m e = exactOf na ma ea * exactOf nb mb eb ∧ mulF F mode a b = roundF F mode false (.fin n m e) := by
  obtain ⟨n, m, e, h, hv⟩ := FVal.mul_fin na nb ma mb ea eb
  exact ⟨n, m, e, hv, by simp [mulF, ha, hb, h, FVal.sig_fin]⟩

/-- Negating a finite value where it is asked for. -/
theorem FVal.neg_fin (p n : Bool) (m : Nat) (e : Int) : ∃ n₁, (if p then (FVal.fin n m e).neg else .fin n m e) = .fin n₁ m e ∧
    exactOf n₁ m e = if p then -exactOf n m e else exactOf n m e := by
  cases p
  · exact ⟨n, rfl, rfl⟩
  · exact ⟨!n, rfl, exactOf_not n m e⟩

theorem fmaF_fin {mode : Mode} {a b d ma mb md : Nat} {na nb nd : Bool} {ea eb ed : Int} (p q : Bool) (ha : decodeF F a = .fin na ma ea)
    (hb : decodeF F b = .fin nb mb eb) (hd : decodeF F d = .fin nd md ed) :
    ∃ n m e, exactOf n m e = (if p then -(exactOf na ma ea * exactOf nb mb eb) else exactOf na ma ea * exactOf nb mb eb) +
        (if q then -exactOf nd md ed else exactOf nd md ed) ∧ fmaF F mode p q a b d = roundF F mode false (.fin n m e) := by
  obtain ⟨n₁, m₁, e₁, h₁, hv₁⟩ := FVal.mul_fin na nb ma mb ea eb
  obtain ⟨n₂, h₂, hv₂⟩ := FVal.neg_fin p n₁ m₁ e₁
  obtain ⟨n₃, h₃, hv₃⟩ := FVal.neg_fin q nd md ed
  obtain ⟨n, m, e, h, hv⟩ := FVal.add_fin mode n₂ n₃ m₁ md e₁ ed
  refine ⟨n, m, e, by rw [hv, hv₂, hv₃, hv₁], ?_⟩
  simp only [fmaF, ha, hb, hd, h₁, h₂, h₃, h, FVal.sig_fin]
  simp

/-- Rounding, as R99 to R102 say it of rational numbers. -/
theorem roundingRulePart : RoundingRulePart := by
  intro F hF mode
  have hU : F.Usable := usable_of_mem (List.mem_append_left [e4m3, e5m2] hF)
  refine ⟨?_, fun a b d na nb nd ma mb md ea eb ed p q ha hb hd => ⟨addF_fin ha hb, mulF_fin ha hb, fmaF_fin p q ha hb hd⟩⟩
  intro n m e a n' nw m' mw e' ew hm ha hw
  dsimp only
  intro hr
  obtain ⟨-, h⟩ := roundF_rounds hU mode n e hm (.inl rfl) n' m' e' hr
  have := h a nw mw ew ha hw
  dsimp only at this
  exact_mod_cast this

/-! ### Minimum and maximum (R104) -/

theorem FVal.exists_cmp {x y : FVal} (hx : x.isNan = false) (hy : y.isNan = false) : ∃ o, x.cmp y = some o := by
  cases x with
  | nan => exact absurd hx Bool.noConfusion
  | inf n =>
    cases y with
    | nan => exact absurd hy Bool.noConfusion
    | inf n' => exact ⟨_, rfl⟩
    | fin n' m' e' => exact ⟨_, rfl⟩
  | fin n m e =>
    cases y with
    | nan => exact absurd hy Bool.noConfusion
    | inf n' => exact ⟨_, rfl⟩
    | fin n' m' e' => exact ⟨_, rfl⟩

theorem isNeg_signBit_add (n : Bool) {c : Nat} (hc : c < 2 ^ (F.m + F.e)) : isNeg F (signBit F n + c) = n := by
  rw [isNeg, fld, signBit_eq, add_comm, Nat.add_mul_div_right _ _ (by positivity), Nat.div_eq_of_lt hc]
  cases n <;> rfl

/-- The encoding of an infinity. -/
theorem eq_infOf_of_decodeF {a : Nat} {n : Bool} (ha : a < 2 ^ (1 + F.e + F.m)) (h : decodeF F a = .inf n) : a = infOf F n := by
  obtain ⟨n', c, hc, rfl⟩ := exists_signBit_add ha
  rw [decodeF_signBit_add n' hc] at h
  split at h
  · next hq =>
    split at h
    · next hr =>
      injection h with hn
      have := Nat.div_add_mod c (2 ^ F.m)
      rw [hn, infOf, ← hq.1, Nat.mul_comm]
      omega
    · exact FVal.noConfusion h
  · split at h <;> exact FVal.noConfusion h

/-- Encodings of the same value are the same, but for the two zeros. -/
theorem encoding_unique {a b : Nat} (ha : a < 2 ^ (1 + F.e + F.m)) (hb : b < 2 ^ (1 + F.e + F.m))
    (h : (decodeF F a).cmp (decodeF F b) = some .eq) : a = b ∨ (∃ n, a = signBit F n) ∧ ∃ n, b = signBit F n := by
  cases hx : decodeF F a with
  | nan => simp [hx, FVal.cmp] at h
  | inf n =>
    cases hy : decodeF F b with
    | nan => simp [hx, hy, FVal.cmp] at h
    | inf n' =>
      rw [eq_infOf_of_decodeF ha hx, eq_infOf_of_decodeF hb hy]
      cases n <;> cases n' <;> simp_all [FVal.cmp]
    | fin => cases n <;> simp [hx, hy, FVal.cmp] at h
  | fin n m e =>
    cases hy : decodeF F b with
    | nan => simp [hx, hy, FVal.cmp] at h
    | inf n' => cases n' <;> simp [hx, hy, FVal.cmp] at h
    | fin n' m' e' =>
      rw [hx, hy, FVal.cmp_fin_eq] at h
      obtain ⟨c, hc, rfl, rfl, rfl⟩ := exists_of_decodeF_fin ha hx
      obtain ⟨c', hc', rfl, rfl, rfl⟩ := exists_of_decodeF_fin hb hy
      have hreal : sgn n * F.mag c = sgn n' * F.mag c' := by
        rw [← exactOf_code, ← exactOf_code, h]
      have h1 := F.mag_nonneg c
      have h2 := F.mag_nonneg c'
      have hzero : ∀ k, F.mag k = 0 → k = 0 := fun k hk => F.mag_strictMono.injective (hk.trans F.mag_zero.symm)
      rcases eq_or_ne n n' with rfl | hne
      · left
        have : F.mag c = F.mag c' := by cases n <;> simpa [sgn] using hreal
        rw [F.mag_strictMono.injective this]
      · right
        have : F.mag c = 0 ∧ F.mag c' = 0 := by
          cases n <;> cases n' <;> simp only [sgn, ne_eq, not_true_eq_false, Bool.false_eq_true, if_true, if_false] at hne hreal <;>
            constructor <;> linarith
        rw [hzero c this.1, hzero c' this.2]
        exact ⟨⟨n, rfl⟩, ⟨n', rfl⟩⟩

/-- Of two encodings of one value, the one that stands first or last with −0 below +0. -/
theorem pick_of_eq {a b : Nat} (greater : Bool) (h : a = b ∨ (∃ n, a = signBit F n) ∧ ∃ n, b = signBit F n) :
    let r := if greater then (if isNeg F a then b else a) else (if isNeg F a then a else b)
    (r = a ∨ r = b) ∧ r = if greater then a &&& b else a ||| b := by
  obtain rfl | ⟨⟨n, rfl⟩, n', rfl⟩ := h
  · simp
  · have := isNeg_signBit_add (F := F) n (c := 0) (by positivity)
    rw [add_zero] at this
    rw [this]
    cases n <;> cases n' <;> cases greater <;> simp [signBit]

/-- FMIN and FMAX (R104). -/
theorem minMaxRulePart : MinMaxRulePart := by
  intro F greater a b _ ha hb x y r
  have hr : r = minmaxF F greater a b := rfl
  simp only [minmaxF, show decodeF F a = x from rfl, show decodeF F b = y from rfl] at hr
  cases hx : x.isNan <;> cases hy : y.isNan <;> rw [hx, hy] at hr <;> dsimp only at hr
  · obtain ⟨o, ho⟩ := FVal.exists_cmp hx hy
    rw [ho] at hr ⊢
    cases o <;> dsimp only at hr <;> rw [hr]
    · cases greater <;> simp
    · have := pick_of_eq greater (encoding_unique ha hb ho)
      simpa using this
    · cases greater <;> simp
  all_goals simp [hr]

end Sys2Proof.Machine
end

section
/-! ### The integer square root (R107) -/

namespace Sys2Proof.Machine

variable {F : Format}

theorem isqrtFrom_spec {n : Nat} : ∀ {k r : Nat}, r * r ≤ n → n < (r + 2 ^ k) * (r + 2 ^ k) →
    isqrtFrom n k r * isqrtFrom n k r ≤ n ∧ n < (isqrtFrom n k r + 1) * (isqrtFrom n k r + 1)
  | 0, _, h, h' => ⟨h, h'⟩
  | k + 1, r, h, h' => by
    rw [isqrtFrom]
    split
    · next ht => exact isqrtFrom_spec ht (by rwa [add_assoc, ← two_mul, ← pow_succ'])
    · next ht => exact isqrtFrom_spec h (not_le.1 ht)

theorem isqrt_spec (n : Nat) : isqrt n * isqrt n ≤ n ∧ n < (isqrt n + 1) * (isqrt n + 1) := by
  refine isqrtFrom_spec (Nat.zero_le n) ?_
  rw [zero_add, ← pow_add]
  exact Nat.lt_log2_self.trans_le (Nat.pow_le_pow_right (by norm_num) (by omega))

theorem isqrt_eq_sqrt (n : Nat) : isqrt n = Nat.sqrt n :=
  Nat.eq_sqrt.2 ⟨(isqrt_spec n).1, (isqrt_spec n).2⟩

/-! ### The correctly rounded functions (R107) -/

/-- Splitting an exponent into an even one and what is left. -/
theorem zpow_even_split (m : Nat) (e : Int) :
    ((if e % 2 = 1 then 2 * m else m : Nat) : ℝ) * ((2 : ℝ) ^ ((if e % 2 = 1 then e - 1 else e) / 2)) ^ 2 = m * 2 ^ e := by
  rw [← zpow_natCast, ← zpow_mul]
  split <;> rename_i h
  · rw [show (e - 1) / 2 * ((2 : Nat) : Int) = e - 1 by omega, zpow_sub_one₀ two_ne_zero]
    push_cast
    ring
  · rw [show e / 2 * ((2 : Nat) : Int) = e by omega]

/-- A significand between the square root and the next integer below it. -/
theorem Sticky.of_sq {r : Nat} {y u : ℝ} {sticky : Bool} (hu : 0 < u) (hy : 0 ≤ y) (hlo : (r : ℝ) * r ≤ y) (hhi : y < (r + 1) * (r + 1))
    (hs : sticky = true ↔ y ≠ r * r) : Sticky r u sticky (Real.sqrt y * u) := by
  have hr : (0 : ℝ) ≤ r := Nat.cast_nonneg r
  refine ⟨mul_le_mul_of_nonneg_right (Real.le_sqrt_of_sq_le (by rwa [sq])) hu.le, mul_lt_mul_of_pos_right ?_ hu, ?_⟩
  · rw [Real.sqrt_lt' (by positivity), sq]
    exact hhi
  · rw [hs, not_iff_not, mul_left_inj' hu.ne', Real.sqrt_eq_iff_mul_self_eq hy hr, eq_comm]

theorem rcpMag_rounds (hF : F.Usable) (h62 : F.m ≤ 62) (mode : Mode) (neg : Bool) {m : Nat} (e : Int) (hm : m ≠ 0) :
    Rounds F mode (rcpMag F mode neg m e) (sgn neg * (1 / (m * 2 ^ e))) := by
  have hm' : (0 : ℝ) < m := by exact_mod_cast hm.bot_lt
  rw [rcpMag]
  generalize hk : Nat.log2 m + 64 = k
  have hdm := Nat.div_add_mod (2 ^ k) m
  have hmod := Nat.mod_lt (2 ^ k) hm.bot_lt
  have hbig : 2 ^ 63 ≤ 2 ^ k / m := by
    rw [Nat.le_div_iff_mul_le hm.bot_lt]
    calc 2 ^ 63 * m ≤ 2 ^ 63 * 2 ^ (Nat.log2 m + 1) := Nat.mul_le_mul_left _ Nat.lt_log2_self.le
      _ = 2 ^ k := by rw [← pow_add, show 63 + (Nat.log2 m + 1) = k by omega]
  have hV : (1 / (m * 2 ^ e) : ℝ) = (2 ^ k / m) * (2 : ℝ) ^ (-e - k) := by
    rw [zpow_sub₀ two_ne_zero, zpow_neg, zpow_natCast]
    field_simp
  have hu : (0 : ℝ) < 2 ^ (-e - (k : Int)) := by positivity
  have hkr : (2 : ℝ) ^ k = m * (2 ^ k / m : Nat) + (2 ^ k % m : Nat) := by exact_mod_cast hdm.symm
  rw [hV]
  refine roundMag_rounds hF mode neg (by omega) ⟨?_, ?_, ?_⟩ (fun _ => ?_) (.inl rfl)
  · refine mul_le_mul_of_nonneg_right ?_ hu.le
    rw [le_div_iff₀ hm', hkr, mul_comm]
    exact le_add_of_nonneg_right (Nat.cast_nonneg _)
  · refine mul_lt_mul_of_pos_right ?_ hu
    have : ((2 ^ k % m : Nat) : ℝ) < m := by exact_mod_cast hmod
    rw [div_lt_iff₀ hm', hkr, add_mul, one_mul, mul_comm]
    exact add_lt_add_right this _
  · rw [Ne, mul_left_inj' hu.ne', div_eq_iff hm'.ne', hkr, mul_comm, add_eq_left]
    simp
  · exact (Nat.pow_le_pow_right (by norm_num) (by omega : F.m + 1 ≤ 63)).trans hbig

theorem sqrtMag_rounds (hF : F.Usable) (h127 : F.m ≤ 127) (mode : Mode) {m : Nat} (e : Int) (hm : m ≠ 0) :
    Rounds F mode (sqrtMag F mode m e) (Real.sqrt (m * 2 ^ e)) := by
  rw [sqrtMag]
  set M := (if e % 2 = 1 then 2 * m else m) with hM
  set E := (if e % 2 = 1 then e - 1 else e) with hE
  have hMpos : 0 < M := by
    rw [hM]
    split <;> omega
  have hEe : E % 2 = 0 := by
    rw [hE]
    split <;> omega
  obtain ⟨hlo, hhi⟩ := isqrt_spec (M * 2 ^ 256)
  have hbig : 2 ^ 128 ≤ isqrt (M * 2 ^ 256) := by
    rw [isqrt_eq_sqrt, Nat.le_sqrt, ← pow_add]
    exact Nat.le_mul_of_pos_left _ hMpos
  have hV : Real.sqrt (m * 2 ^ e) = Real.sqrt ((M * 2 ^ 256 : Nat) : ℝ) * 2 ^ ((E - 256) / 2) := by
    rw [← zpow_even_split m e, ← hM, ← hE]
    rw [show (E - 256) / 2 = E / 2 - 128 by omega, zpow_sub₀ two_ne_zero, Nat.cast_mul, Real.sqrt_mul (Nat.cast_nonneg _),
      Real.sqrt_mul (Nat.cast_nonneg _), Real.sqrt_sq (by positivity), Nat.cast_pow, show (256 : Nat) = 128 * 2 by rfl, pow_mul,
      Real.sqrt_sq (by positivity)]
    push_cast
    field_simp
  rw [hV, ← one_mul (Real.sqrt _ * _)]
  refine roundMag_rounds hF mode false (by omega) (Sticky.of_sq (by positivity) (Nat.cast_nonneg _) (by exact_mod_cast hlo) (by exact_mod_cast hhi) ?_)
    (fun _ => ?_) (.inl rfl)
  · rw [bne_iff_ne, ne_comm]
    norm_cast
  · exact (Nat.pow_le_pow_right (by norm_num) (by omega : F.m + 1 ≤ 128)).trans hbig

theorem rsqMag_rounds (hF : F.Usable) (h100 : F.m ≤ 100) (mode : Mode) {m : Nat} (e : Int) (hm : m ≠ 0) (hm50 : m < 2 ^ 50) :
    Rounds F mode (rsqMag F mode m e) (1 / Real.sqrt (m * 2 ^ e)) := by
  rw [rsqMag]
  set M := (if e % 2 = 1 then 2 * m else m) with hM
  set E := (if e % 2 = 1 then e - 1 else e) with hE
  have hMpos : 0 < M := by
    rw [hM]
    split <;> omega
  have hM51 : M < 2 ^ 51 := by
    rw [hM]
    split <;> omega
  have hEe : E % 2 = 0 := by
    rw [hE]
    split <;> omega
  have hMr : (0 : ℝ) < M := by exact_mod_cast hMpos
  obtain ⟨hlo, hhi⟩ := isqrt_spec (2 ^ 256 / M)
  have hlo' : isqrt (2 ^ 256 / M) * isqrt (2 ^ 256 / M) * M ≤ 2 ^ 256 := (Nat.le_div_iff_mul_le hMpos).1 hlo
  have hhi' : 2 ^ 256 < (isqrt (2 ^ 256 / M) + 1) * (isqrt (2 ^ 256 / M) + 1) * M := (Nat.div_lt_iff_lt_mul hMpos).1 hhi
  have hbig : 2 ^ 101 ≤ isqrt (2 ^ 256 / M) := by
    rw [isqrt_eq_sqrt, Nat.le_sqrt, ← pow_add, Nat.le_div_iff_mul_le hMpos]
    calc 2 ^ (101 + 101) * M ≤ 2 ^ (101 + 101) * 2 ^ 51 := Nat.mul_le_mul_left _ hM51.le
      _ ≤ 2 ^ 256 := by norm_num
  have hV : 1 / Real.sqrt (m * 2 ^ e) = Real.sqrt (2 ^ 256 / M) * 2 ^ (-(E / 2) - 128) := by
    rw [← zpow_even_split m e, ← hM, ← hE, Real.sqrt_mul (Nat.cast_nonneg _), Real.sqrt_sq (by positivity), Real.sqrt_div (by positivity),
      zpow_sub₀ two_ne_zero, zpow_neg, show (256 : Nat) = 128 * 2 by rfl, pow_mul, Real.sqrt_sq (by positivity)]
    field_simp
  rw [hV, ← one_mul (Real.sqrt _ * _)]
  refine roundMag_rounds hF mode false (by omega) (Sticky.of_sq (by positivity) (by positivity) ?_ ?_ ?_) (fun _ => ?_) (.inl rfl)
  · rw [le_div_iff₀ hMr]
    exact_mod_cast hlo'
  · rw [div_lt_iff₀ hMr]
    exact_mod_cast hhi'
  · rw [bne_iff_ne, ne_comm, Ne, Ne, div_eq_iff hMr.ne']
    norm_cast
  · exact (Nat.pow_le_pow_right (by norm_num) (by omega : F.m + 1 ≤ 101)).trans hbig

end Sys2Proof.Machine
end

section
/-! ### The special functions (R107, R108, R154) -/

namespace Sys2Proof.Machine

variable {F : Format}

theorem Format.sig_lt (c : Nat) : F.sig c < 2 ^ (F.m + 1) := by
  have := Nat.mod_lt c (Nat.two_pow_pos F.m)
  rw [sig, pow_succ]
  split <;> omega

theorem Format.sig_eq_zero {c : Nat} : F.sig c = 0 ↔ c = 0 := by
  have := Nat.two_pow_pos F.m
  rw [sig]
  split <;> omega

theorem Format.low_le_exp (c : Nat) : F.low ≤ F.exp c := by
  rw [exp, low]
  split
  · exact le_rfl
  · next h =>
    have := Nat.div_pos (not_lt.1 h) (Nat.two_pow_pos F.m)
    omega

/-- The limit of a format with infinities is the power of two behind its largest number. -/
theorem Format.mag_limit (hF : F.Usable) (hinf : F.finite = false) : F.mag F.limit = (2 : ℝ) ^ (((2 ^ F.e - 1 : Nat) : Int) - F.bias) := by
  have h2 : 2 ≤ 2 ^ F.e := (pow_one 2).symm.le.trans (Nat.pow_le_pow_right (by norm_num) hF.e_pos)
  obtain ⟨j, hj⟩ := Nat.exists_eq_add_of_le' h2
  have hcode : F.limit = F.code (F.low + j) (2 ^ F.m) := by
    simp [limit, hinf, code, hj]
    ring
  rw [hcode, F.mag_code (by omega) (Nat.pow_le_pow_right (by norm_num) (by omega)) (.inl le_rfl), hj, low, Nat.cast_pow, Nat.cast_two,
    ← zpow_natCast, ← zpow_add₀ two_ne_zero]
  congr 1
  push_cast [Nat.add_sub_cancel]
  omega

/-- A number of few bits within a format's exponents has a code of the format. -/
theorem Format.exists_code_of_bits (hF : F.Usable) (hinf : F.finite = false) {k : Nat} (hk : k < 2 ^ (F.m + 1)) {q : Int} (hq : F.low ≤ q)
    (hlt : (k : ℝ) * 2 ^ q < (2 : ℝ) ^ (((2 ^ F.e - 1 : Nat) : Int) - F.bias)) : ∃ c < F.limit, F.mag c = k * (2 : ℝ) ^ q := by
  obtain ⟨c, hc⟩ := F.exists_mag_eq hk hq
  exact ⟨c, F.mag_strictMono.lt_iff_lt.1 (by rwa [hc, F.mag_limit hF hinf]), hc⟩

theorem isExactly_code {c : Nat} (n : Bool) (hc : c < F.limit) {v : ℚ} (hv : (v : ℝ) = sgn n * F.mag c) : IsExactly F (signBit F n + c, 0) v :=
  ⟨⟨_, _, _, decodeF_of_lt n hc, by exact_mod_cast (exactOf_code n c).trans hv.symm⟩, rfl⟩

/-- A finite number that is an integer: its magnitude in whole units. -/
theorem natAbs_of_exactOf {n : Bool} {m : Nat} {e k : Int} (h : exactOf n m e = k) :
    (0 ≤ e → m * 2 ^ e.toNat = k.natAbs) ∧ (e < 0 → m = k.natAbs * 2 ^ (-e).toNat) ∧ (m ≠ 0 → n = decide (k < 0)) := by
  have habs : (m : ℚ) * 2 ^ e = k.natAbs := by
    rw [Nat.cast_natAbs, Int.cast_abs, ← h, exactOf, mul_assoc, abs_mul, abs_of_nonneg (show (0 : ℚ) ≤ m * 2 ^ e by positivity)]
    cases n <;> simp
  refine ⟨fun he => ?_, fun he => ?_, fun hm => ?_⟩
  · obtain ⟨d, rfl⟩ := Int.eq_ofNat_of_zero_le he
    rw [zpow_natCast] at habs
    exact_mod_cast habs
  · obtain ⟨d, rfl⟩ : ∃ d : Nat, e = -d := ⟨(-e).toNat, by omega⟩
    rw [zpow_neg, zpow_natCast, ← div_eq_mul_inv, div_eq_iff (by positivity)] at habs
    rw [neg_neg, Int.toNat_natCast]
    exact_mod_cast habs
  · have hpos : (0 : ℚ) < m * 2 ^ e := mul_pos (by exact_mod_cast hm.bot_lt) (by positivity)
    rw [exactOf, mul_assoc] at h
    cases n <;> simp only [if_true, if_false, Bool.false_eq_true] at h
    · refine (decide_eq_false (not_lt.2 ?_)).symm
      exact_mod_cast (show (0 : ℚ) ≤ k by linarith)
    · refine (decide_eq_true ?_).symm
      exact_mod_cast (show (k : ℚ) < 0 by linarith)

theorem exp2Mag_int (F : Format) (mode : Mode) {n : Bool} {m : Nat} {e k : Int} (hm : m ≠ 0) (h : exactOf n m e = k) (hk : k.natAbs < 2 ^ 12) :
    exp2Mag F mode n m e = roundMag F mode false false 1 k false := by
  obtain ⟨hpos, hneg, hsign⟩ := natAbs_of_exactOf h
  have hk' : (if n then -(k.natAbs : Int) else k.natAbs) = k := by
    rw [hsign hm]
    split <;> rename_i hd
    · have := of_decide_eq_true hd
      omega
    · have := of_decide_eq_false (Bool.eq_false_iff.2 hd)
      omega
  have hlog := Nat.log2_self_le hm
  rcases le_or_gt 0 e with he | he
  · have hbig : ¬ (4096 : Int) < e + Nat.log2 m := fun hb => by
      have : 2 ^ (Nat.log2 m + e.toNat) ≤ k.natAbs := by
        rw [← hpos he, pow_add]
        exact Nat.mul_le_mul_right _ hlog
      have := (Nat.pow_lt_pow_iff_right (by norm_num)).1 (this.trans_lt hk)
      omega
    rw [exp2Mag, if_pos (.inl he)]
    simp only [hbig, if_false, hpos he]
    rw [min_eq_right (by omega), hk']
  · have hm' := hneg he
    have hbig : ¬ (4096 : Int) < e + Nat.log2 m := fun hb => by
      have : 2 ^ Nat.log2 m < 2 ^ (12 + (-e).toNat) := by
        rw [pow_add]
        exact hlog.trans_lt (hm' ▸ Nat.mul_lt_mul_of_pos_right hk (by positivity))
      have := (Nat.pow_lt_pow_iff_right (by norm_num)).1 this
      omega
    have hdiv : m / 2 ^ (-e).toNat = k.natAbs := by
      conv_lhs => rw [hm']
      exact Nat.mul_div_cancel _ (by positivity)
    have hmod : m % 2 ^ (-e).toNat = 0 := by
      conv_lhs => rw [hm']
      exact Nat.mul_mod_left _ _
    rw [exp2Mag, if_neg (by omega)]
    simp only [hdiv, hmod, if_true, hk']

theorem log2Mag_pow (F : Format) (mode : Mode) (j : Nat) (e : Int) : log2Mag F mode (2 ^ j) e =
    if e + j = 0 then (0, 0) else roundMag F mode false (e + j < 0) (e + j).natAbs 0 false := by
  simp [log2Mag, Nat.log2_two_pow]

theorem exists_pow_of_exactOf {m : Nat} {n : Bool} {e k : Int} (h : exactOf n m e = 2 ^ k) : n = false ∧ ∃ j : Nat, m = 2 ^ j ∧ k = e + j := by
  have hk : (0 : ℚ) < 2 ^ k := by positivity
  have hn : n = false := by
    cases n
    · rfl
    · rw [← h, exactOf, mul_assoc] at hk
      have : (0 : ℚ) ≤ m * 2 ^ e := by positivity
      simp only [if_true] at hk
      linarith
  rw [hn, exactOf, if_neg (by simp), one_mul] at h
  refine ⟨hn, ?_⟩
  rcases le_or_gt e k with hle | hlt
  · obtain ⟨j, rfl⟩ : ∃ j : Nat, k = e + j := ⟨(k - e).toNat, by omega⟩
    refine ⟨j, ?_, rfl⟩
    rw [zpow_add₀ two_ne_zero, mul_comm, mul_right_inj' (by positivity), zpow_natCast] at h
    exact_mod_cast h
  · obtain ⟨d, rfl⟩ : ∃ d : Nat, e = k + (d + 1 : Nat) := ⟨(e - k - 1).toNat, by omega⟩
    rw [zpow_add₀ two_ne_zero, mul_left_comm, mul_eq_left₀ hk.ne', zpow_natCast] at h
    have h1 : m * 2 ^ (d + 1) = 1 := by exact_mod_cast h
    have := Nat.eq_one_of_mul_eq_one_left h1
    simp at this

end Sys2Proof.Machine
end

section
/-! ### Quarters of a turn, and the special functions together (R107, R108, R154) -/

namespace Sys2Proof.Machine

/-- One, of either sign. -/
theorem roundMag_one (mode : Mode) (n : Bool) : roundMag fp32 mode false n 1 0 false = (signBit fp32 n + 0x3F800000, 0) :=
  roundMag_mag usable_fp32 mode false n one_ne_zero (by decide) (by norm_num [Format.mag, Format.sig, Format.exp, fp32])

/-- a quarters of a turn, where K units are a quarter times two. -/
theorem sinTurn_quarter (F : Format) (mode : Mode) (neg : Bool) {num d : Nat} (h : 2 * num = 2 ^ d ∨ 2 * num = 3 * 2 ^ d) :
    sinTurn F mode neg num (d + 1) = roundMag F mode false (neg != decide (2 * num = 3 * 2 ^ d)) 1 0 false := by
  have hK := Nat.two_pow_pos d
  rw [sinTurn, Nat.add_sub_cancel]
  rcases h with h | h
  · have hlt : ¬ 2 ^ d ≤ num := by omega
    have hne : ¬ 2 * num = 3 * 2 ^ d := by omega
    simp [hlt, h]
  · have hle : 2 ^ d ≤ num := by omega
    have h2 : 2 * (num - 2 ^ d) = 2 ^ d := by omega
    simp [hle, h, h2]

theorem sinrMag_quarter (mode : Mode) (n : Bool) {m a : Nat} {e : Int} (hpos : 0 ≤ e → 4 * m * 2 ^ e.toNat = a) (hneg : e < 0 → 4 * m = a * 2 ^ (-e).toNat) :
    sinrMag fp32 mode n m e = if a % 4 = 1 then (signBit fp32 n + 0x3F800000, 0) else if a % 4 = 3 then (signBit fp32 (!n) + 0x3F800000, 0)
      else (signBit fp32 n, 0) := by
  rw [sinrMag]
  rcases le_or_gt 0 e with he | he
  · have ha := hpos he
    rw [Nat.mul_assoc] at ha
    rw [if_pos he, if_neg (by omega), if_neg (by omega)]
  · have hm := hneg he
    rw [if_neg (by omega)]
    dsimp only
    generalize (-e).toNat = d at hm ⊢
    have hK := Nat.two_pow_pos d
    -- the fraction of a turn in halves of K
    have hnum : 2 * (2 * m % 2 ^ (d + 1)) = a % 4 * 2 ^ d := by
      rw [← Nat.mul_mod_mul_left, ← Nat.mul_mod_mul_right, pow_succ', ← mul_assoc, ← mul_assoc, ← hm]
      rfl
    have h4 := Nat.mod_lt a (by norm_num : 0 < 4)
    generalize 2 * m % 2 ^ (d + 1) = num at hnum ⊢
    rw [pow_succ']
    obtain h | h | h | h : a % 4 = 0 ∨ a % 4 = 1 ∨ a % 4 = 2 ∨ a % 4 = 3 := by omega
    all_goals rw [h] at hnum
    · rw [if_pos (by omega)]
      simp [h]
    · rw [if_neg (by omega), sinTurn_quarter fp32 mode n (.inl (by omega)), roundMag_one, decide_eq_false (by omega)]
      simp [h]
    · rw [if_pos (by omega)]
      simp [h]
    · rw [if_neg (by omega), sinTurn_quarter fp32 mode n (.inr hnum), roundMag_one, decide_eq_true hnum]
      simp [h]

theorem cosrMag_quarter (mode : Mode) {m a : Nat} {e : Int} (hpos : 0 ≤ e → 4 * m * 2 ^ e.toNat = a) (hneg : e < 0 → 4 * m = a * 2 ^ (-e).toNat) :
    cosrMag fp32 mode m e = if a % 4 = 0 then (0x3F800000, 0) else if a % 4 = 2 then (0xBF800000, 0) else (0, 0) := by
  rw [cosrMag]
  rcases le_or_gt 0 e with he | he
  · have ha := hpos he
    rw [Nat.mul_assoc] at ha
    rw [if_pos he, if_pos (by omega), roundMag_one]
    rfl
  · have hm := hneg he
    rw [if_neg (by omega)]
    dsimp only
    generalize (-e).toNat = d at hm ⊢
    have hK := Nat.two_pow_pos d
    have hnum : (4 * m + 2 ^ (d + 2 - 2)) % 2 ^ (d + 2) = (a + 1) % 4 * 2 ^ d := by
      rw [Nat.add_sub_cancel, hm, ← Nat.mul_mod_mul_right, add_mul, one_mul, pow_add, mul_comm (2 ^ d) (2 ^ 2)]
      rfl
    generalize (4 * m + 2 ^ (d + 2 - 2)) % 2 ^ (d + 2) = num at hnum ⊢
    have h4 := Nat.mod_lt a (by norm_num : 0 < 4)
    have hpow : 2 ^ (d + 2) = 4 * 2 ^ d := by rw [pow_add]; ring
    have hpow' : 2 ^ (d + 1) = 2 * 2 ^ d := pow_succ' ..
    obtain h | h | h | h : a % 4 = 0 ∨ a % 4 = 1 ∨ a % 4 = 2 ∨ a % 4 = 3 := by omega
    all_goals rw [Nat.add_mod, h] at hnum
    all_goals norm_num at hnum
    · rw [if_neg (by omega), sinTurn_quarter fp32 mode false (.inl (by omega)), roundMag_one, decide_eq_false (by omega), h]
      rfl
    · rw [if_pos (by omega)]
      simp [h]
    · rw [if_neg (by omega), sinTurn_quarter fp32 mode false (.inr (by omega)), roundMag_one, decide_eq_true (by omega), h]
      rfl
    · rw [if_pos (by omega)]
      simp [h]

section
variable {mode : Mode} {x m : Nat} {n : Bool} {e : Int}

theorem sfu_nan {minor : Nat} {z : Bool} (h : decodeF (if minor = 7 then fp64 else fp32) x = .nan z) :
    sfu minor mode x = (nanOf (if minor = 7 then fp64 else fp32), if z = true then flInvalid else 0) := by
  simp only [sfu, h]

/-- The reciprocal and the two roots of FP32 (R107). -/
theorem sfu_rounds (hm : m ≠ 0) (hx : x < 2 ^ 32) (h : decodeF fp32 x = .fin n m e) :
    Rounds fp32 mode (sfu 0 mode x) ((1 / exactOf n m e : ℚ) : ℝ) ∧
    (0 < exactOf n m e → Rounds fp32 mode (sfu 1 mode x) (1 / Real.sqrt ((exactOf n m e : ℚ) : ℝ)) ∧
      Rounds fp32 mode (sfu 2 mode x) (Real.sqrt ((exactOf n m e : ℚ) : ℝ))) := by
  refine ⟨?_, fun hpos => ?_⟩
  · have hv : ((1 / exactOf n m e : ℚ) : ℝ) = sgn n * (1 / (m * 2 ^ e)) := by
      rw [Rat.cast_div, exactOf_cast, Rat.cast_one]
      cases n <;> simp [sgn]
    have hs : sfu 0 mode x = rcpMag fp32 mode n m e := by simp [sfu, h, hm]
    rw [hv, hs]
    exact rcpMag_rounds usable_fp32 (by decide) mode n e hm
  · have hn : n = false := by
      cases n
      · rfl
      · rw [← Rat.cast_pos (K := ℝ), exactOf_cast, sgn, if_pos rfl] at hpos
        have : (0 : ℝ) ≤ m * 2 ^ e := by positivity
        linarith
    subst hn
    obtain ⟨c, -, -, hmc, -⟩ := exists_of_decodeF_fin (F := fp32) hx h
    have hm24 : m < 2 ^ 24 := hmc ▸ fp32.sig_lt c
    have h1 : sfu 1 mode x = rsqMag fp32 mode m e := by simp [sfu, h, hm]
    have h2 : sfu 2 mode x = sqrtMag fp32 mode m e := by simp [sfu, h, hm]
    rw [exactOf_cast, sgn, if_neg (by simp), one_mul, h1, h2]
    exact ⟨rsqMag_rounds usable_fp32 (by decide) mode e hm (hm24.trans (by norm_num)), sqrtMag_rounds usable_fp32 (by decide) mode e hm⟩

theorem sfu_dsqrt_rounds (hm : m ≠ 0) (h : decodeF fp64 x = .fin false m e) :
    Rounds fp64 mode (sfu 7 mode x) (Real.sqrt ((exactOf false m e : ℚ) : ℝ)) := by
  have hs : sfu 7 mode x = sqrtMag fp64 mode m e := by simp [sfu, h, hm]
  rw [exactOf_cast, sgn, if_neg (by simp), one_mul, hs]
  exact sqrtMag_rounds usable_fp64 (by decide) mode e hm

theorem sfu_exp2_int {k : Int} (h : decodeF fp32 x = .fin n m e) (hv : exactOf n m e = k) (hlo : -149 ≤ k) (hhi : k ≤ 127) :
    IsExactly fp32 (sfu 3 mode x) ((2 : ℚ) ^ k) := by
  have hs : sfu 3 mode x = roundMag fp32 mode false false 1 k false := by
    by_cases hm : m = 0
    · have hk : k = 0 := by exact_mod_cast hv.symm.trans (exactOf_eq_zero.2 hm)
      simp [sfu, h, hm, hk]
    · rw [← exp2Mag_int fp32 mode hm hv (by omega)]
      simp [sfu, h, hm]
  obtain ⟨c, hc, hmag⟩ := fp32.exists_code_of_bits usable_fp32 rfl (k := 1) (q := k) (by decide) hlo
    (by rw [Nat.cast_one, one_mul]; exact zpow_lt_zpow_right₀ (by norm_num) (by simp [fp32]; omega))
  rw [hs, roundMag_mag usable_fp32 mode false false one_ne_zero hc hmag]
  refine isExactly_code false hc ?_
  rw [hmag, sgn, if_neg (by simp)]
  push_cast
  ring

theorem sfu_log2_pow {k : Int} (hx : x < 2 ^ 32) (h : decodeF fp32 x = .fin n m e) (hv : exactOf n m e = 2 ^ k) :
    IsExactly fp32 (sfu 4 mode x) k := by
  obtain ⟨rfl, j, hm, hk⟩ := exists_pow_of_exactOf hv
  obtain ⟨c, hc, -, hmc, he⟩ := exists_of_decodeF_fin (F := fp32) hx h
  have hm0 : m ≠ 0 := by rw [hm]; positivity
  have hlow : -149 ≤ e := he ▸ fp32.low_le_exp c
  have hk128 : k < 128 := by
    have h1 := fp32.mag_strictMono hc
    have hmag : fp32.mag c = 2 ^ k := by
      have := exactOf_code (F := fp32) false c
      rw [← hmc, ← he, hv, sgn, if_neg (by simp), one_mul, Rat.cast_zpow, Rat.cast_ofNat] at this
      exact this.symm
    rw [fp32.mag_limit usable_fp32 rfl, hmag] at h1
    exact (zpow_lt_zpow_iff_right₀ (by norm_num)).1 h1
  have hs : sfu 4 mode x = if k = 0 then (0, 0) else roundMag fp32 mode false (decide (k < 0)) k.natAbs 0 false := by
    rw [hk, ← log2Mag_pow, ← hm]
    simp [sfu, h, hm0]
  rw [hs]
  split
  · next h0 =>
    rw [h0]
    exact ⟨⟨false, 0, -149, by decide, by simp [exactOf]⟩, rfl⟩
  · next h0 =>
    obtain ⟨c, hc, hmag⟩ := fp32.exists_code_of_bits usable_fp32 rfl (k := k.natAbs) (q := 0) (by simp [fp32]; omega) (by decide) (by
      rw [zpow_zero, mul_one]
      calc (k.natAbs : ℝ) < 2 ^ (8 : Int) := by exact_mod_cast (by omega : k.natAbs < 2 ^ 8)
        _ ≤ _ := zpow_le_zpow_right₀ (by norm_num) (by decide))
    rw [roundMag_mag usable_fp32 mode false _ (by omega) hc hmag]
    refine isExactly_code _ hc ?_
    have := exactOf_natAbs k 0
    rw [hmag, ← exactOf_cast, this]
    simp

/-- FSINR and FCOSR of a quarter of an integer (R108). -/
theorem sfu_quarter {k : Int} (h : decodeF fp32 x = .fin n m e) (hv : 4 * exactOf n m e = k) :
    sfu 5 mode x = (if k % 4 = 1 then 0x3F800000 else if k % 4 = 3 then 0xBF800000 else if n = true then 0x80000000 else 0, 0) ∧
    sfu 6 mode x = (if k % 4 = 0 then 0x3F800000 else if k % 4 = 2 then 0xBF800000 else 0, 0) := by
  have hv' : exactOf n (4 * m) e = k := by
    rw [← hv, exactOf, exactOf]
    push_cast
    ring
  by_cases hm : m = 0
  · have hk : k = 0 := by exact_mod_cast hv'.symm.trans (exactOf_eq_zero.2 (by omega))
    have h5 : sfu 5 mode x = (signBit fp32 n, 0) := by simp [sfu, h, hm]
    have h6 : sfu 6 mode x = roundMag fp32 mode false false 1 0 false := by simp [sfu, h, hm]
    rw [h5, h6, hk, roundMag_one]
    cases n <;> exact ⟨rfl, rfl⟩
  · obtain ⟨hpos, hneg, hsign⟩ := natAbs_of_exactOf hv'
    have h5 : sfu 5 mode x = sinrMag fp32 mode n m e := by simp [sfu, h, hm]
    have h6 : sfu 6 mode x = cosrMag fp32 mode m e := by simp [sfu, h, hm]
    rw [h5, h6, sinrMag_quarter mode n hpos hneg, cosrMag_quarter mode hpos hneg, hsign (by omega)]
    -- the quarter that the magnitude ends in, and that the signed number ends in
    have hlt := Int.emod_lt_of_pos k (by norm_num : (0 : Int) < 4)
    rcases lt_or_ge k 0 with hk | hk
    · rw [decide_eq_true hk]
      obtain h4 | h4 | h4 | h4 : k % 4 = 0 ∨ k % 4 = 1 ∨ k % 4 = 2 ∨ k % 4 = 3 := by omega
      · simp [h4, show k.natAbs % 4 = 0 by omega, signBit, fp32]
      · simp [h4, show k.natAbs % 4 = 3 by omega, signBit]
      · simp [h4, show k.natAbs % 4 = 2 by omega, signBit, fp32]
      · simp [h4, show k.natAbs % 4 = 1 by omega, signBit, fp32]
    · rw [decide_eq_false hk.not_gt]
      obtain h4 | h4 | h4 | h4 : k % 4 = 0 ∨ k % 4 = 1 ∨ k % 4 = 2 ∨ k % 4 = 3 := by omega
      · simp [h4, show k.natAbs % 4 = 0 by omega, signBit]
      · simp [h4, show k.natAbs % 4 = 1 by omega, signBit]
      · simp [h4, show k.natAbs % 4 = 2 by omega, signBit]
      · simp [h4, show k.natAbs % 4 = 3 by omega, signBit, fp32]

/-- A root or a logarithm of an operand below zero (R108). -/
theorem sfu_below_zero {F : Format} {minor c : Nat} (hF : (if minor = 7 then fp64 else fp32) = F) (hminor : minor = 1 ∨ minor = 2 ∨ minor = 4 ∨ minor = 7)
    (hinf : F.finite = false) (hc0 : 0 < c) (hc : c ≤ F.limit) : sfu minor mode (signBit F true + c) = (nanOf F, flInvalid) := by
  rcases lt_or_eq_of_le hc with hlt | rfl
  · have hd := decodeF_of_lt true hlt
    have hm : F.sig c ≠ 0 := fun h => by rw [Format.sig_eq_zero] at h; omega
    rw [sfu, hF]
    simp only [hd]
    rcases hminor with rfl | rfl | rfl | rfl <;> simp [hm]
  · have hd : decodeF F (signBit F true + F.limit) = .inf true := by
      rw [decodeF_signBit_add true F.limit_lt]
      have : F.limit = (2 ^ F.e - 1) * 2 ^ F.m := by simp [Format.limit, hinf]
      rw [this, Nat.mul_div_cancel _ (by positivity), Nat.mul_mod_left]
      simp [hinf]
    rw [sfu, hF]
    simp only [hd]
    rcases hminor with rfl | rfl | rfl | rfl <;> simp

end

/-- The special functions (R107, R108, R154). -/
theorem specialFunctionsPart : SpecialFunctionsPart := by
  intro mode
  refine ⟨fun minor x _ => fun z hz => sfu_nan hz, fun x n m e hm hx h => sfu_rounds hm hx h, fun x m e hm _ h => sfu_dsqrt_rounds hm h,
    fun x n m e k hx h => ⟨sfu_exp2_int h, sfu_log2_pow hx h, sfu_quarter h⟩, ?_, ?_, ?_, ?_, ?_, ?_, ?_, ?_, ?_⟩
  · cases mode <;> decide
  · cases mode <;> decide
  · cases mode <;> decide
  · cases mode <;> decide
  · cases mode <;> decide
  · rintro minor (rfl | rfl) <;> cases mode <;> decide
  · intro minor x hminor hlo hhi
    obtain ⟨c, rfl⟩ := Nat.exists_eq_add_of_lt hlo
    refine sfu_below_zero (F := fp32) (c := c + 1) (if_neg (by omega)) (by omega) rfl c.succ_pos ?_
    rw [show fp32.limit = 0x7F800000 from rfl]
    omega
  · cases mode <;> decide
  · intro x hlo hhi
    obtain ⟨c, rfl⟩ := Nat.exists_eq_add_of_lt hlo
    refine sfu_below_zero (F := fp64) (c := c + 1) rfl (by omega) rfl c.succ_pos ?_
    rw [show fp64.limit = 0x7FF0000000000000 from rfl]
    omega

end Sys2Proof.Machine
end

section
/-! ### Rounding to an integer (R100, R103) -/

namespace Sys2Proof.Machine

variable {F : Format}

theorem roundsToInt_self (mode : Mode) (k : Int) : RoundsToInt mode k k := by
  refine ⟨fun _ => ?_, fun _ => ?_, fun _ => ?_, fun _ => ?_⟩
  · simp
  · simp
  · simp
  · exact ⟨le_rfl, lt_add_one _, mul_self_nonneg _⟩

/-- A whole number and a fraction, rounded by where the fraction stands. -/
theorem roundsToInt_of_frac (mode : Mode) (n : Bool) (q : Nat) {θ : ℚ} (h0 : 0 ≤ θ) (h1 : θ < 1) {half above inexact : Bool}
    (hhalf : half = true ↔ θ = 1 / 2) (habove : above = true ↔ 1 / 2 < θ) (hinexact : inexact = true ↔ θ ≠ 0) {r : Nat}
    (hr : r = q + if roundsUp mode n (q % 2 = 1) half above inexact then 1 else 0) :
    RoundsToInt mode ((if n then -1 else 1) * (q + θ)) (if n then -(r : Int) else r) := by
  have hq : (0 : ℚ) ≤ q := Nat.cast_nonneg q
  -- the distances, seen from the magnitude
  have habs : ∀ x y : ℚ, |(if n then -1 else 1) * x - (if n then -1 else 1) * y| = |x - y| := fun x y => by
    cases n
    · simp
    · rw [if_pos rfl, ← abs_neg]
      ring_nf
  have hk : (((if n then -(r : Int) else r) : Int) : ℚ) = (if n then -1 else 1) * r := by cases n <;> simp
  have hmod : (if n then -(r : Int) else r) % 2 = ((r % 2 : Nat) : Int) := by
    cases n <;> simp only [if_true, if_false, Bool.false_eq_true] <;> omega
  have hz : mode.toZero n = true → (r : ℚ) ≤ q + θ ∧ q + θ < r + 1 := fun h => by
    rw [roundsUp_toZero h, if_neg (by simp), add_zero] at hr
    rw [hr]
    constructor <;> linarith
  have ha : mode.toZero n = false → mode ≠ .rne → q + θ ≤ r ∧ (r : ℚ) < q + θ + 1 := fun h hm => by
    rw [roundsUp_away h hm] at hr
    by_cases hθ : θ = 0
    · rw [Bool.eq_false_iff.2 fun h => hinexact.1 h hθ, if_neg (by simp), add_zero] at hr
      rw [hr, hθ]
      constructor <;> linarith
    · have := lt_of_le_of_ne h0 (Ne.symm hθ)
      rw [hinexact.2 hθ, if_pos rfl] at hr
      rw [hr, Nat.cast_add_one]
      constructor <;> linarith
  rw [RoundsToInt, hk, hmod, habs]
  refine ⟨?_, ?_, ?_, ?_⟩
  · rintro rfl
    rcases lt_trichotomy θ (1 / 2) with hlt | heq | hgt
    · have : half = false ∧ above = false := by
        constructor <;> rw [← Bool.not_eq_true]
        · rw [hhalf]; exact hlt.ne
        · rw [habove]; exact hlt.not_gt
      rw [roundsUp, this.1, this.2, if_neg (by simp), add_zero] at hr
      rw [hr, sub_add_cancel_left, abs_neg, abs_of_nonneg h0]
      exact ⟨hlt.le, fun h => absurd h hlt.ne⟩
    · have : half = true ∧ above = false := ⟨hhalf.2 heq, Bool.eq_false_iff.2 fun h => (habove.1 h).ne' heq⟩
      rw [roundsUp, this.1, this.2] at hr
      have hr2 : r = q + q % 2 := by
        rw [hr]
        rcases Nat.mod_two_eq_zero_or_one q with h | h <;> simp [h]
      refine ⟨?_, fun _ => by omega⟩
      rw [hr2, heq]
      rcases Nat.mod_two_eq_zero_or_one q with h | h <;> rw [h] <;> norm_num [abs_of_nonneg, abs_of_neg]
    · rw [roundsUp, habove.2 hgt, Bool.true_or, if_pos rfl] at hr
      rw [hr, Nat.cast_add_one, add_sub_add_left_eq_sub, abs_of_pos (by linarith)]
      exact ⟨by linarith, fun h => by linarith⟩
  · rintro rfl
    cases n
    · simpa using ha rfl (by simp)
    · have := hz rfl
      simp only [if_true]
      constructor <;> linarith
  · rintro rfl
    cases n
    · simpa using hz rfl
    · have := ha rfl (by simp)
      simp only [if_true]
      constructor <;> linarith
  · rintro rfl
    have hr0 : (0 : ℚ) ≤ r := Nat.cast_nonneg r
    have hv0 : 0 ≤ q + θ := by linarith
    have := hz rfl
    cases n
    · simp only [Bool.false_eq_true, if_false, one_mul, abs_of_nonneg hr0, abs_of_nonneg hv0]
      exact ⟨this.1, this.2, by positivity⟩
    · simp only [if_true, neg_mul, one_mul, abs_neg, abs_of_nonneg hr0, abs_of_nonneg hv0, mul_neg, neg_neg]
      exact ⟨this.1, this.2, by positivity⟩

/-- The signed integer of a magnitude. -/
theorem exactOf_neg_or (n : Bool) (m : Nat) (e : Int) : exactOf n m e = (if n then -1 else 1) * (m * 2 ^ e) := by
  rw [exactOf, mul_assoc]

theorem roundInt_of_nonneg (mode : Mode) (n : Bool) (m d : Nat) : roundInt mode n m d = (m * 2 ^ d, false) := by
  rw [roundInt, if_pos (Int.natCast_nonneg d), Int.toNat_natCast]

theorem roundInt_of_neg (mode : Mode) (n : Bool) (m d : Nat) :
    roundInt mode n m (-(d + 1 : Nat)) = (m / 2 ^ (d + 1) + (if roundsUp mode n (m / 2 ^ (d + 1) % 2 = 1) (m % 2 ^ (d + 1) = 2 ^ d)
      (2 ^ d < m % 2 ^ (d + 1)) (m % 2 ^ (d + 1) != 0) then 1 else 0), m % 2 ^ (d + 1) != 0) := by
  rw [roundInt, if_neg (by omega)]
  simp only [neg_neg, Int.toNat_natCast, Nat.add_sub_cancel]

theorem roundsUp_exact (mode : Mode) (n odd : Bool) : roundsUp mode n odd false false false = false := by cases mode <;> rfl

/-- roundInt gives the integer of the mode, and says whether it is another number (R103). -/
theorem roundInt_spec (mode : Mode) (n : Bool) (m : Nat) (e : Int) :
    RoundsToInt mode (exactOf n m e) (if n then -((roundInt mode n m e).1 : Int) else (roundInt mode n m e).1) ∧
      ((roundInt mode n m e).2 = true ↔ exactOf n m e ≠ (if n then -1 else 1) * (roundInt mode n m e).1) := by
  have hk : ∀ r : Nat, (((if n then -(r : Int) else r) : Int) : ℚ) = (if n then -1 else 1) * r := fun r => by cases n <;> simp
  have hs : (if n then -1 else 1 : ℚ) ≠ 0 := by cases n <;> simp
  rcases le_or_gt 0 e with he | he
  · obtain ⟨d, rfl⟩ := Int.eq_ofNat_of_zero_le he
    have hv : exactOf n m d = (if n then -1 else 1) * ((m * 2 ^ d : Nat) : ℚ) := by
      rw [exactOf_neg_or, zpow_natCast]
      push_cast
      rfl
    rw [roundInt_of_nonneg, hv]
    refine ⟨?_, by simp⟩
    rw [← hk]
    exact roundsToInt_self mode _
  · obtain ⟨d, rfl⟩ : ∃ d : Nat, e = -(d + 1 : Nat) := ⟨(-e - 1).toNat, by omega⟩
    have hpow : 2 ^ (d + 1) = 2 * 2 ^ d := pow_succ' ..
    have hdm := Nat.div_add_mod m (2 ^ (d + 1))
    have hmod := Nat.mod_lt m (Nat.two_pow_pos (d + 1))
    -- the fraction in halves of the unit
    have hK : (0 : ℚ) < (2 ^ (d + 1) : Nat) := by positivity
    have hK2 : ((2 ^ (d + 1) : Nat) : ℚ) = 2 * (2 ^ d : Nat) := by exact_mod_cast hpow
    have hv : exactOf n m (-(d + 1 : Nat)) = (if n then -1 else 1) * ((m / 2 ^ (d + 1) : Nat) + (m % 2 ^ (d + 1) : Nat) / (2 ^ (d + 1) : Nat)) := by
      have : (m : ℚ) = (2 ^ (d + 1) : Nat) * (m / 2 ^ (d + 1) : Nat) + (m % 2 ^ (d + 1) : Nat) := by exact_mod_cast hdm.symm
      rw [exactOf_neg_or, zpow_neg, zpow_natCast]
      conv_lhs => rw [this]
      push_cast at hK ⊢
      field_simp
    rw [roundInt_of_neg, hv]
    generalize m / 2 ^ (d + 1) = q
    generalize m % 2 ^ (d + 1) = r at hmod ⊢
    have h0 : (0 : ℚ) ≤ r / (2 ^ (d + 1) : Nat) := by positivity
    have h1 : (r : ℚ) / (2 ^ (d + 1) : Nat) < 1 := by
      rw [div_lt_one hK]
      exact_mod_cast hmod
    have hne : (r != 0) = true ↔ (r : ℚ) / (2 ^ (d + 1) : Nat) ≠ 0 := by
      rw [bne_iff_ne, Ne, Ne, div_eq_zero_iff, Nat.cast_eq_zero, or_iff_left hK.ne']
    refine ⟨roundsToInt_of_frac mode n q h0 h1 ?_ ?_ hne rfl, ?_⟩
    · rw [decide_eq_true_iff, div_eq_div_iff hK.ne' two_ne_zero, hK2, mul_comm, one_mul, mul_right_inj' two_ne_zero, Nat.cast_inj]
    · rw [decide_eq_true_iff, div_lt_div_iff₀ two_pos hK, hK2, one_mul, mul_comm, mul_lt_mul_iff_left₀ two_pos, Nat.cast_lt]
    · rw [Ne, mul_right_inj' hs]
      by_cases hr : r = 0
      · have := Nat.two_pow_pos d
        simp only [hr, bne_self_eq_false, decide_eq_false this.ne, decide_eq_false (Nat.not_lt_zero _), roundsUp_exact]
        simp
      · have hpos := lt_of_le_of_ne h0 (hne.1 (bne_iff_ne.2 hr)).symm
        simp only [bne_iff_ne.2 hr, true_iff]
        intro h
        have hlt : (q : ℚ) < q + r / (2 ^ (d + 1) : Nat) := by linarith
        have hlt' : q + (r : ℚ) / (2 ^ (d + 1) : Nat) < (q + 1 : Nat) := by
          push_cast at h1 ⊢
          linarith
        rw [h] at hlt hlt'
        have := Nat.cast_lt.1 hlt
        have := Nat.cast_lt.1 hlt'
        omega

/-! ### Conversions (R94, R102, R103, R160, R161) -/

theorem ofSigned_eq (n : Nat) (x : Int) : ofSigned n x = (x % 2 ^ n).toNat := by
  rw [ofSigned]
  push_cast
  rfl

/-- Floating point to an integer (R103). -/
theorem toIntF_fin (mode : Mode) (w : Nat) (signed n : Bool) (m : Nat) (e : Int) :
    let lo := if signed = true then -(2 : Int) ^ (w - 1) else 0
    let hi := if signed = true then (2 : Int) ^ (w - 1) - 1 else 2 ^ w - 1
    let r := toIntF mode w signed (.fin n m e)
    ∃ k : Int, RoundsToInt mode (exactOf n m e) k ∧
      (k < lo → r = ((lo % 2 ^ w).toNat, flInvalid)) ∧ (hi < k → r = ((hi % 2 ^ w).toNat, flInvalid)) ∧
      (lo ≤ k → k ≤ hi → r.1 = (k % 2 ^ w).toNat ∧ (exactOf n m e ≠ k → r.2 = flInexact) ∧ (¬ exactOf n m e ≠ k → r.2 = 0)) := by
  intro lo hi r
  obtain ⟨hround, hne⟩ := roundInt_spec mode n m e
  set k : Int := if n then -((roundInt mode n m e).1 : Int) else (roundInt mode n m e).1 with hkdef
  have hk : (k : ℚ) = (if n then -1 else 1) * (roundInt mode n m e).1 := by rw [hkdef]; cases n <;> simp
  rw [← hk] at hne
  have hlohi : lo ≤ hi := by
    have h1 : (0 : Int) < 2 ^ (w - 1) := by positivity
    have h2 : (0 : Int) < 2 ^ w := by positivity
    cases signed <;> simp only [lo, hi, if_true, if_false, Bool.false_eq_true] <;> omega
  have hr : r = if k < lo then (ofSigned w lo, flInvalid) else if hi < k then (ofSigned w hi, flInvalid)
      else (ofSigned w k, flagIf (roundInt mode n m e).2 flInexact) := by
    simp only [r, toIntF, lo, hi, hkdef]
    push_cast
    rfl
  refine ⟨k, hround, fun h => ?_, fun h => ?_, fun h1 h2 => ?_⟩
  · rw [hr, if_pos h, ofSigned_eq]
  · rw [hr, if_neg (by omega), if_pos h, ofSigned_eq]
  · rw [hr, if_neg h1.not_gt, if_neg h2.not_gt, ofSigned_eq]
    refine ⟨rfl, fun h => ?_, fun h => ?_⟩
    · rw [hne.2 h]
      rfl
    · rw [Bool.eq_false_iff.2 fun hb => h (hne.1 hb)]
      rfl

/-- A finite number of a format, rounded to an integer, is a number of the format (R161). -/
theorem exists_code_roundInt (hF : F.Usable) (hinf : F.finite = false) (hbig : (F.m : Int) + F.bias < (2 ^ F.e - 1 : Nat)) (hbias : 1 ≤ F.bias)
    (mode : Mode) (n : Bool) {c : Nat} (hc : c < F.limit) : ∃ c' < F.limit, F.mag c' = (roundInt mode n (F.sig c) (F.exp c)).1 := by
  rcases le_or_gt 0 (F.exp c) with he | he
  · obtain ⟨d, hd⟩ := Int.eq_ofNat_of_zero_le he
    refine ⟨c, hc, ?_⟩
    rw [Format.mag, hd, roundInt_of_nonneg, zpow_natCast]
    push_cast
    rfl
  · obtain ⟨d, hd⟩ : ∃ d : Nat, F.exp c = -(d + 1 : Nat) := ⟨(-F.exp c - 1).toNat, by omega⟩
    have hle : (roundInt mode n (F.sig c) (F.exp c)).1 ≤ 2 ^ F.m := by
      have : F.sig c / 2 ^ (d + 1) < 2 ^ F.m := by
        rw [Nat.div_lt_iff_lt_mul (Nat.two_pow_pos _), ← pow_add]
        exact (F.sig_lt c).trans_le (Nat.pow_le_pow_right (by norm_num) (by omega))
      rw [hd, roundInt_of_neg]
      dsimp only
      split <;> omega
    obtain ⟨c', hc', hmag⟩ := F.exists_code_of_bits hF hinf (q := 0) (hle.trans_lt (Nat.pow_lt_pow_right (by norm_num) F.m.lt_succ_self))
      (by rw [Format.low]; omega) (by
        rw [zpow_zero, mul_one]
        calc ((roundInt mode n (F.sig c) (F.exp c)).1 : ℝ) ≤ 2 ^ (F.m : Int) := by exact_mod_cast hle
          _ < _ := zpow_lt_zpow_right₀ (by norm_num) (by omega))
    exact ⟨c', hc', by rw [hmag, zpow_zero, mul_one]⟩

/-- Rounding to an integral value of the same format (R161). -/
theorem integralF_fin (hF : F.Usable) (hinf : F.finite = false) (hbig : (F.m : Int) + F.bias < (2 ^ F.e - 1 : Nat)) (hbias : 1 ≤ F.bias)
    (mode : Mode) {x m : Nat} {n : Bool} {e : Int} (hx : x < 2 ^ (1 + F.e + F.m)) (h : decodeF F x = .fin n m e) :
    let r := integralF F mode x
    ∃ (k : Int) (m' : Nat) (e' : Int), RoundsToInt mode (exactOf n m e) k ∧
      decodeF F r.1 = .fin n m' e' ∧ exactOf n m' e' = k ∧ (exactOf n m e ≠ k → r.2 = flInexact) ∧ (¬ exactOf n m e ≠ k → r.2 = 0) := by
  intro r
  obtain ⟨c, hc, -, rfl, rfl⟩ := exists_of_decodeF_fin hx h
  obtain ⟨hround, hne⟩ := roundInt_spec mode n (F.sig c) (F.exp c)
  obtain ⟨c', hc', hmag⟩ := exists_code_roundInt hF hinf hbig hbias mode n hc
  have hr : r = (signBit F n + c', flagIf (roundInt mode n (F.sig c) (F.exp c)).2 flInexact) := by
    simp only [r, integralF, h]
    split
    · next h0 =>
      rw [h0, Nat.cast_zero, ← F.mag_zero] at hmag
      rw [F.mag_strictMono.injective hmag, add_zero]
    · next h0 => rw [roundMag_mag hF mode false n h0 hc' (by rw [hmag, zpow_zero, mul_one])]
  generalize roundInt mode n (F.sig c) (F.exp c) = z at hround hne hmag hr
  have hk : (((if n then -(z.1 : Int) else z.1) : Int) : ℚ) = (if n then -1 else 1) * z.1 := by cases n <;> simp
  rw [← hk] at hne
  refine ⟨_, F.sig c', F.exp c', hround, by rw [hr]; exact decodeF_of_lt n hc', ?_, fun h => ?_, fun h => ?_⟩
  · have : ((exactOf n (F.sig c') (F.exp c') : ℚ) : ℝ) = (((if n then -1 else 1) * z.1 : ℚ) : ℝ) := by
      rw [exactOf_code, hmag]
      cases n <;> simp [sgn]
    rw [hk]
    exact_mod_cast this
  · rw [hr, hne.2 h]
    rfl
  · rw [hr, Bool.eq_false_iff.2 fun hb => h (hne.1 hb)]
    rfl

end Sys2Proof.Machine
end

section
/-! ### CVT (R94, R102, R103, R160, R161) -/

namespace Sys2Proof.Machine

variable {F G : Format} {mode : Mode} {sat : Bool} {c d x : Nat}

/-- A magnitude beyond the largest gives the largest where that is asked for (R102). -/
theorem roundF_saturates (hF : F.Usable) (mode : Mode) (n : Bool) {m : Nat} (e : Int) (h : F.mag (F.limit - 1) < |((exactOf n m e : ℚ) : ℝ)|) :
    (roundF F mode true (.fin n m e)).1 = maxOf F n ∧ (roundF F mode true (.fin n m e)).2 &&& flInexact = flInexact := by
  have hm : m ≠ 0 := fun h0 => by
    rw [exactOf_eq_zero.2 h0, Rat.cast_zero, abs_zero] at h
    exact h.not_ge (F.mag_nonneg _)
  rw [abs_exactOf_cast] at h
  obtain ⟨c, b, hfl, hb, hplace⟩ := roundMag_place hF mode true n (sticky := false) hm (Sticky.exact m (by positivity)) (by simp)
  have hge := F.mag_strictMono.lt_iff_lt.1 (h.trans hfl.hi)
  rw [roundF_fin F mode true n e hm, hplace, Format.place]
  split
  · exact ⟨rfl, show (flOverflow ||| flInexact) &&& flInexact = flInexact by decide⟩
  · next hlt =>
    obtain rfl : c = F.limit - 1 := by omega
    have hup : F.up mode n (m * 2 ^ e) (F.limit - 1) = false := by
      rw [← Bool.not_eq_true]
      intro hu
      rw [hu, Bool.toNat_true] at hlt
      omega
    rw [hup, Bool.toNat_false, add_zero, hb.2 h.ne', maxOf_eq]
    refine ⟨rfl, ?_⟩
    dsimp only
    cases (true && decide (F.limit - 1 < 2 ^ F.m) && F.limit - 1 != 0) <;> decide

/-! #### The codes of R160 -/

/-- A code names a floating format. -/
structure CvtFloat (c : Nat) (F : Format) : Prop where
  lt : c < 12
  float : cvtFloat c = true
  format : cvtFormat c = F
  usable : F.Usable

theorem cvtFloat_of_mem (h : (c, F) ∈ [(0, fp32), (1, fp64), (2, fp16), (3, bf16)] ++ [(8, e4m3), (9, e5m2)]) : CvtFloat c F := by
  simp only [List.cons_append, List.nil_append, List.mem_cons, Prod.mk.injEq, List.not_mem_nil, or_false] at h
  obtain ⟨rfl, rfl⟩ | ⟨rfl, rfl⟩ | ⟨rfl, rfl⟩ | ⟨rfl, rfl⟩ | ⟨rfl, rfl⟩ | ⟨rfl, rfl⟩ := h <;>
    exact ⟨by decide, by decide, rfl, usable_of_mem (by simp)⟩

/-- A code names an integer type. -/
structure CvtInt (d w : Nat) (signed : Bool) : Prop where
  lt : d < 12
  int : cvtFloat d = false
  type : cvtInt d = (w, signed)
  pos : 0 < w

theorem cvtInt_of_mem {w : Nat} {signed : Bool}
    (h : (d, w, signed) ∈ [(4, 32, true), (5, 32, false), (6, 64, true), (7, 64, false)] ++ [(10, 8, true), (11, 8, false)]) : CvtInt d w signed := by
  simp only [List.cons_append, List.nil_append, List.mem_cons, Prod.mk.injEq, List.not_mem_nil, or_false] at h
  obtain ⟨rfl, rfl, rfl⟩ | ⟨rfl, rfl, rfl⟩ | ⟨rfl, rfl, rfl⟩ | ⟨rfl, rfl, rfl⟩ | ⟨rfl, rfl, rfl⟩ | ⟨rfl, rfl, rfl⟩ := h <;>
    exact ⟨by decide, by decide, rfl, by decide⟩

/-- The formats in which CVT saturates: their largest numbers, and which of them has no infinities. -/
theorem max_of_mem (h : (d, G) ∈ [(0, fp32), (1, fp64), (2, fp16), (3, bf16)] ++ [(8, e4m3), (9, e5m2)]) :
    (G.finite = decide (d = 8)) ∧ (d = 8 ∨ d = 9 → G.mag (G.limit - 1) = ((if d = 8 then 448 else 57344 : Nat) : ℝ)) := by
  simp only [List.cons_append, List.nil_append, List.mem_cons, Prod.mk.injEq, List.not_mem_nil, or_false] at h
  obtain ⟨rfl, rfl⟩ | ⟨rfl, rfl⟩ | ⟨rfl, rfl⟩ | ⟨rfl, rfl⟩ | ⟨rfl, rfl⟩ | ⟨rfl, rfl⟩ := h
  iterate 4 exact ⟨rfl, by simp⟩
  · exact ⟨rfl, fun _ => by norm_num [Format.mag, Format.limit, Format.sig, Format.exp, e4m3]⟩
  · exact ⟨rfl, fun _ => by norm_num [Format.mag, Format.limit, Format.sig, Format.exp, e5m2]⟩

theorem CvtFloat.to_float (hc : CvtFloat c F) (hd : CvtFloat d G) (hne : c ≠ d) (hx : x < 2 ^ (1 + F.e + F.m)) :
    cvtValue mode sat c d x = ((roundF G mode sat (decodeF F x)).1, (decodeF F x).sig ||| (roundF G mode sat (decodeF F x)).2) := by
  have := hd.lt
  simp only [cvtValue, if_neg (show ¬ 12 ≤ d by omega), hc.float, hd.float, if_true, if_neg hne, hc.format, hd.format, Nat.mod_eq_of_lt hx]

theorem CvtFloat.to_self (hc : CvtFloat c F) (hx : x < 2 ^ (1 + F.e + F.m)) : cvtValue mode sat c c x = integralF F mode x := by
  have := hc.lt
  simp only [cvtValue, if_neg (show ¬ 12 ≤ c by omega), hc.float, if_true, hc.format, Nat.mod_eq_of_lt hx]

theorem CvtFloat.to_int {w : Nat} {signed : Bool} (hc : CvtFloat c F) (hd : CvtInt d w signed) (hx : x < 2 ^ (1 + F.e + F.m)) :
    cvtValue mode sat c d x = toIntF mode w signed (decodeF F x) := by
  have := hd.lt
  simp only [cvtValue, if_neg (show ¬ 12 ≤ d by omega), hc.float, hd.int, hd.type, if_true, if_false, Bool.false_eq_true, hc.format,
    Nat.mod_eq_of_lt hx]

/-- The integer that a pattern of w bits stands for. -/
theorem cvtInt_value {w : Nat} (hw : 0 < w) {signed : Bool} {v : Int} (hlo : (if signed = true then -(2 : Int) ^ (w - 1) else 0) ≤ v)
    (hhi : v ≤ if signed = true then (2 : Int) ^ (w - 1) - 1 else 2 ^ w - 1) :
    (if signed then toSigned w (v % 2 ^ w).toNat else (((v % 2 ^ w).toNat % 2 ^ w : Nat) : Int)) = v := by
  obtain ⟨j, rfl⟩ := Nat.exists_eq_add_of_lt hw
  rw [zero_add] at *
  have hpow : (2 : Int) ^ (j + 1) = 2 * 2 ^ j := pow_succ' ..
  have hK : (0 : Int) < 2 ^ j := by positivity
  have hmod : (v % 2 ^ (j + 1)).toNat % 2 ^ (j + 1) = (v % 2 ^ (j + 1)).toNat := by
    refine Nat.mod_eq_of_lt ?_
    have := Int.emod_lt_of_pos v (show (0 : Int) < 2 ^ (j + 1) by positivity)
    zify
    rw [Int.toNat_of_nonneg (Int.emod_nonneg _ (by positivity))]
    exact this
  have hcast : ((v % 2 ^ (j + 1)).toNat : Int) = v % 2 ^ (j + 1) := Int.toNat_of_nonneg (Int.emod_nonneg _ (by positivity))
  rw [Nat.add_sub_cancel] at hlo hhi
  cases signed
  · simp only [Bool.false_eq_true, if_false] at hlo hhi ⊢
    rw [hmod, hcast, Int.emod_eq_of_lt hlo (by omega)]
  · simp only [if_true] at hlo hhi ⊢
    simp only [toSigned, hmod]
    zify
    rw [hcast]
    rcases le_or_gt 0 v with h | h
    · rw [Int.emod_eq_of_lt h (by omega), if_pos (by omega)]
    · have : v % 2 ^ (j + 1) = v + 2 ^ (j + 1) := by
        rw [← Int.add_emod_right, Int.emod_eq_of_lt (by omega) (by omega)]
      rw [this, if_neg (by omega)]
      ring

section
variable {w : Nat} {signed : Bool} {v : Int} (hc : CvtInt c w signed) (hlo : (if signed = true then -(2 : Int) ^ (w - 1) else 0) ≤ v)
  (hhi : v ≤ if signed = true then (2 : Int) ^ (w - 1) - 1 else 2 ^ w - 1)
include hc hlo hhi

theorem CvtInt.to_float (hd : CvtFloat d G) :
    cvtValue mode sat c d (v % 2 ^ w).toNat = roundF G mode sat (.fin (decide (v < 0)) v.natAbs 0) := by
  have := hd.lt
  have hv := cvtInt_value hc.pos hlo hhi
  simp only [cvtValue, if_neg (show ¬ 12 ≤ d by omega), hc.int, hc.type, hd.float, if_true, if_false, Bool.false_eq_true, hd.format, ofIntF, hv]

theorem CvtInt.to_int {n : Nat} {s : Bool} (hd : CvtInt d n s) :
    let lo := if s = true then -(2 : Int) ^ (n - 1) else 0
    let hi := if s = true then (2 : Int) ^ (n - 1) - 1 else 2 ^ n - 1
    cvtValue mode sat c d (v % 2 ^ w).toNat =
      if sat then ((clampInt v lo hi % 2 ^ n).toNat, flagIf (clampInt v lo hi != v) flIntOverflow) else ((v % 2 ^ n).toNat, 0) := by
  intro lo hi
  have := hd.lt
  have hv := cvtInt_value hc.pos hlo hhi
  simp only [cvtValue, if_neg (show ¬ 12 ≤ d by omega), hc.int, hc.type, hd.int, hd.type, if_false, Bool.false_eq_true, hv, ofSigned_eq, lo, hi]
  push_cast
  rfl

end

end Sys2Proof.Machine
end

section
/-! ### What CVT makes of a pattern, together -/

namespace Sys2Proof.Machine

variable {F G : Format} {mode : Mode} {sat : Bool} {c d x : Nat}

theorem FVal.sig_fin_or (n : Bool) (m : Nat) (e : Int) (f : BitVec 6) : (FVal.fin n m e).sig ||| f = f := BitVec.zero_or

/-- One rounding to a floating format, or its largest numbers where the value is beyond them and they are asked for. -/
theorem roundF_cvt (hd : (d, G) ∈ [(0, fp32), (1, fp64), (2, fp16), (3, bf16)] ++ [(8, e4m3), (9, e5m2)]) (hsat : sat = true → d = 8 ∨ d = 9)
    (mode : Mode) (n : Bool) {m : Nat} (e : Int) (hm : m ≠ 0) :
    (sat = false ∨ |exactOf n m e| ≤ (if d = 8 then 448 else 57344) →
      Rounds G mode (roundF G mode sat (.fin n m e)) ((exactOf n m e : ℚ) : ℝ)) ∧
    (sat = true → (if d = 8 then 448 else 57344) < |exactOf n m e| →
      (roundF G mode sat (.fin n m e)).1 = maxOf G n ∧ (roundF G mode sat (.fin n m e)).2 &&& flInexact = flInexact) := by
  have hU := (cvtFloat_of_mem hd).usable
  have hmax : sat = true → G.mag (G.limit - 1) = (((if d = 8 then 448 else 57344 : ℚ)) : ℝ) := fun h => by
    rw [(max_of_mem hd).2 (hsat h)]
    split <;> norm_num
  refine ⟨fun h => ?_, fun h hlt => ?_⟩
  · refine roundF_rounds hU mode n e hm ?_
    cases hs : sat
    · exact .inl rfl
    · rw [hmax hs]
      exact .inr (by exact_mod_cast h.resolve_left (by simp [hs]))
  · rw [h]
    refine roundF_saturates hU mode n e ?_
    rw [hmax h]
    exact_mod_cast hlt

/-- An infinity in a format without one, or where the largest numbers stand for it. -/
theorem roundF_inf_cvt (hd : (d, G) ∈ [(0, fp32), (1, fp64), (2, fp16), (3, bf16)] ++ [(8, e4m3), (9, e5m2)]) (mode : Mode) (n : Bool) :
    roundF G mode sat (.inf n) = if sat = true then (maxOf G n, flOverflow ||| flInexact)
      else if d = 8 then (nanOf G, flInvalid) else (infOf G n, 0) := by
  have hfin := (max_of_mem hd).1
  by_cases h8 : d = 8 <;> simp [roundF, hfin, h8]

theorem exactOf_int (v : Int) : exactOf (decide (v < 0)) v.natAbs 0 = v := by rw [exactOf_natAbs, zpow_zero, mul_one]

/-- An integer to floating is one rounding, or the largest numbers where they are asked for. -/
theorem roundF_int_cvt (hd : (d, G) ∈ [(0, fp32), (1, fp64), (2, fp16), (3, bf16)] ++ [(8, e4m3), (9, e5m2)]) (hsat : sat = true → d = 8 ∨ d = 9)
    (mode : Mode) {v : Int} (hv : v ≠ 0) :
    let r := roundF G mode sat (.fin (decide (v < 0)) v.natAbs 0)
    (sat = false ∨ |v| ≤ (if d = 8 then 448 else 57344) → Rounds G mode r v) ∧
      (sat = true → (if d = 8 then 448 else 57344) < |v| → r.1 = maxOf G (decide (v < 0)) ∧ r.2 &&& flInexact = flInexact) := by
  have hcast : (if d = 8 then 448 else 57344 : ℚ) = ((if d = 8 then 448 else 57344 : Int) : ℚ) := by split <;> norm_num
  have h := roundF_cvt hd hsat mode (decide (v < 0)) (m := v.natAbs) 0 (Int.natAbs_ne_zero.2 hv)
  rw [exactOf_int, ← Int.cast_abs, hcast, Int.cast_le, Int.cast_lt, Rat.cast_intCast] at h
  exact h

theorem clampInt_of_mem {v lo hi : Int} (hlo : lo ≤ v) (hhi : v ≤ hi) : clampInt v lo hi = v := by
  rw [clampInt, if_neg hlo.not_gt, if_neg hhi.not_gt]

theorem clampInt_of_lt {v lo hi : Int} (h : v < lo) : clampInt v lo hi = lo := by rw [clampInt, if_pos h]

theorem clampInt_of_gt {v lo hi : Int} (hle : lo ≤ hi) (h : hi < v) : clampInt v lo hi = hi := by
  rw [clampInt, if_neg (hle.trans_lt h).le.not_gt, if_pos h]

/-- The ends of the range of an integer type, in order. -/
theorem intRange_le (n : Nat) (signed : Bool) :
    (if signed = true then -(2 : Int) ^ (n - 1) else 0) ≤ if signed = true then (2 : Int) ^ (n - 1) - 1 else 2 ^ n - 1 := by
  have h1 : (0 : Int) < 2 ^ (n - 1) := by positivity
  have h2 : (0 : Int) < 2 ^ n := by positivity
  cases signed <;> simp only [if_true, if_false, Bool.false_eq_true] <;> omega

/-- FP32 holds every number of E4M3 and of E5M2. -/
theorem cvt_widen (hd : (d, G) ∈ [(12, e4m3), (13, e5m2)]) {n : Bool} {m : Nat} {e : Int} (hx : x < 256) (h : decodeF G x = .fin n m e) (hm : m ≠ 0) :
    IsExactly fp32 (roundF fp32 .rne false (.fin n m e)) (exactOf n m e) := by
  have hfacts : 1 + G.e + G.m = 8 ∧ G.m ≤ 3 ∧ -149 ≤ G.low ∧ G.mag G.limit ≤ 65536 := by
    simp only [List.mem_cons, Prod.mk.injEq, List.not_mem_nil, or_false] at hd
    obtain ⟨-, rfl⟩ | ⟨-, rfl⟩ := hd
    · exact ⟨rfl, le_rfl, by decide, by norm_num [Format.mag, Format.limit, Format.sig, Format.exp, e4m3]⟩
    · exact ⟨rfl, by decide, by decide, by norm_num [Format.mag, Format.limit, Format.sig, Format.exp, e5m2]⟩
  obtain ⟨hbits, hGm, hlow, hlim⟩ := hfacts
  obtain ⟨k, hk, -, rfl, rfl⟩ := exists_of_decodeF_fin (hbits ▸ hx) h
  have hsig : G.sig k < 2 ^ 4 := (G.sig_lt k).trans_le (Nat.pow_le_pow_right (by norm_num) (by omega))
  obtain ⟨c, hc, hmag⟩ := fp32.exists_code_of_bits usable_fp32 rfl (hsig.trans (by decide)) (q := G.exp k) (hlow.trans (G.low_le_exp k)) (by
    calc G.mag k < 65536 := (G.mag_strictMono hk).trans_le hlim
      _ ≤ (2 : ℝ) ^ (128 : Int) := by norm_num)
  rw [roundF_fin fp32 .rne false n _ hm, roundMag_mag usable_fp32 .rne false n hm hc hmag]
  exact isExactly_code n hc (by rw [exactOf_cast, hmag])

section
variable (hc : (c, F) ∈ [(0, fp32), (1, fp64), (2, fp16), (3, bf16)])
include hc

theorem cvt_self_facts : F.finite = false ∧ (F.m : Int) + F.bias < (2 ^ F.e - 1 : Nat) ∧ 1 ≤ F.bias := by
  simp only [List.mem_cons, Prod.mk.injEq, List.not_mem_nil, or_false] at hc
  obtain ⟨-, rfl⟩ | ⟨-, rfl⟩ | ⟨-, rfl⟩ | ⟨-, rfl⟩ := hc <;> decide

end

/-- What CVT makes of a pattern. -/
theorem conversionsPart : ConversionsPart := by
  intro mode sat floats ints lo hi bits flag
  refine ⟨?_, ?_, ?_, ?_, ?_⟩
  · intro c F d G hc hd hne hsat x hx r
    have hr := (cvtFloat_of_mem (List.mem_append_left _ hc)).to_float (mode := mode) (sat := sat) (cvtFloat_of_mem hd) hne hx
    refine ⟨fun n m e h hm => ?_, fun n e h => ?_, fun n h => ?_, fun z h => ?_⟩
    · rw [h, FVal.sig_fin_or] at hr
      have := roundF_cvt hd hsat mode n e hm
      rwa [← show r = roundF G mode sat (.fin n m e) from hr] at this
    · rw [h, FVal.sig_fin_or] at hr
      exact hr
    · rw [h] at hr
      exact hr.trans ((congrArg _ (BitVec.zero_or ..)).trans (roundF_inf_cvt hd mode n))
    · rw [h] at hr
      refine hr.trans ?_
      cases z <;> simp [roundF, FVal.sig]
  · intro c F hc x hx r
    have hC := cvtFloat_of_mem (List.mem_append_left _ hc)
    have hr : r = integralF F mode x := hC.to_self hx
    obtain ⟨hinf, hbig, hbias⟩ := cvt_self_facts hc
    rw [hr]
    refine ⟨fun n m e h => integralF_fin hC.usable hinf hbig hbias mode hx h, fun n h => ?_, fun z h => ?_⟩
    · simp [integralF, h]
    · simp [integralF, h]
  · intro c F d w signed hc hd x hx r
    have hr : r = toIntF mode w signed (decodeF F x) := (cvtFloat_of_mem (List.mem_append_left _ hc)).to_int (cvtInt_of_mem hd) hx
    rw [hr]
    refine ⟨fun n m e h => ?_, fun n h => ?_, fun z h => ?_⟩
    · rw [h]
      exact toIntF_fin mode w signed n m e
    · rw [h]
      simp only [toIntF, ofSigned_eq, bits, lo, hi]
      push_cast
      rfl
    · rw [h]
      rfl
  · intro c w signed hc v hlo hhi
    have hC := cvtInt_of_mem (List.mem_append_left _ hc)
    constructor
    · intro d G hd hsat r
      have hr : r = roundF G mode sat (.fin (decide (v < 0)) v.natAbs 0) := hC.to_float hlo hhi (cvtFloat_of_mem hd)
      rw [hr]
      refine ⟨fun h0 => (roundF_int_cvt hd hsat mode h0).1, fun h0 => ?_, fun h hlt => (roundF_int_cvt hd hsat mode fun h0 => ?_).2 h hlt⟩
      · rw [h0]
        rfl
      · rw [h0] at hlt
        split at hlt <;> simp at hlt
    · intro d n s' hd _ r
      have hr : r = if sat then ((clampInt v (lo n s') (hi n s') % 2 ^ n).toNat, flagIf (clampInt v (lo n s') (hi n s') != v) flIntOverflow)
        else ((v % 2 ^ n).toNat, 0) := hC.to_int hlo hhi (cvtInt_of_mem hd)
      refine ⟨fun h1 h2 => ?_, fun h h1 => ?_, fun h h1 => ?_, fun h => ?_⟩
      · rw [hr, clampInt_of_mem h1 h2]
        cases sat <;> simp [flagIf, bits]
      · rw [hr, if_pos h, clampInt_of_lt h1]
        simp [flagIf, bits, h1.ne']
      · rw [hr, if_pos h, clampInt_of_gt (show lo n s' ≤ hi n s' from intRange_le n s') h1]
        simp [flagIf, bits, h1.ne]
      · rw [hr, if_neg (by simp [h])]
  · intro d G hd x r
    have hG : 12 ≤ d ∧ (if d = 12 then e4m3 else e5m2) = G := by
      simp only [List.mem_cons, Prod.mk.injEq, List.not_mem_nil, or_false] at hd
      obtain ⟨rfl, rfl⟩ | ⟨rfl, rfl⟩ := hd <;> decide
    have hr : r = ((roundF fp32 .rne false (decodeF G (x % 256))).1, (decodeF G (x % 256)).sig ||| (roundF fp32 .rne false (decodeF G (x % 256))).2) := by
      simp only [r, cvtValue, if_pos hG.1, hG.2]
    refine ⟨fun n m e h hm => ?_, fun n e h => ?_, fun n h => ?_, fun z h => ?_⟩ <;> rw [hr, h]
    · rw [FVal.sig_fin_or]
      exact cvt_widen hd (Nat.mod_lt _ (by norm_num)) h hm
    · rw [FVal.sig_fin_or]
      rfl
    · cases n <;> rfl
    · cases z <;> rfl

end Sys2Proof.Machine

namespace Sys2Proof
open Machine

/-- Settles O18: a finite number's code, in the order of the codes, says where roundMag lands; the other rules are about values that
it is given. -/
theorem minMaxRule : Obligations.MinMaxRule := ⟨minMaxRulePart, roundingRulePart, specialFunctionsPart, conversionsPart⟩

end Sys2Proof
end

section
/-! ### Waits that end, windows and idle leases (R175, R207, R239, R259) -/

namespace Sys2Proof.Machine

/-- A wake of the split that the event names ends its wait when that is over, and changes no memory and no register. -/
theorem State.wake_here {s : State} (h : EventHere s) {p : Wait → Bool} (hp : p s.g.sp.wait = true) :
    (s.wake p).g.sp = { s.g.sp with wait := if s.waitOver s.g s.g.sp then .none else s.g.sp.wait } ∧
      (s.wake p).dev = s.dev ∧ (s.wake p).g.v = s.g.v := by
  obtain ⟨hlive, hcore, hslot, hage⟩ := h
  rw [State.wake, State.modGroup, if_pos ⟨hlive, hcore.symm, hslot.symm⟩]
  refine ⟨?_, rfl, rfl⟩
  simp only [Group.modSplit, Group.mapSplits, hage, if_true, hp, Bool.true_and]
  split <;> rfl

/-- A window that is not the clock's is over: the next begins empty, with the budget set for it (R191, R259). -/
theorem Core.windowed_of_ne {c : Core} {clock : Nat} (h : c.actWindow ≠ clock / 32) : c.windowed clock =
    { c with actWindow := clock / 32, actCount := 0, actClosed := false, actBudget := c.actNext.getD c.actBudget, actNext := none } :=
  if_neg h

theorem State.retryAll_sameMemory (s : State) : s.sameMemory s.retryAll := ⟨fun _ => rfl, fun _ => rfl, fun _ _ => rfl, rfl⟩

theorem State.modCore_sameMemory (s : State) (c : Nat) {f : Core → Core} (hf : (f (s.coreAt c)).scratch = (s.coreAt c).scratch) :
    s.sameMemory (s.modCore c f) := by
  refine ⟨fun _ => rfl, fun _ => rfl, fun d a => ?_, rfl⟩
  rw [State.coreAt_modCore]
  split
  · next h => rw [hf, h.1]
  · rfl

theorem waitsEndPart : WaitsEndPart := by
  refine ⟨fun s x h hw => ?_, fun s x h hw => ?_, fun s l n h hw => ?_, fun s hc hne => ?_, fun s x hcl hl hleft hidle => ?_⟩
  · obtain ⟨hsp, hdev, hv⟩ := s.wake_here h (p := fun w => match w with
      | .sleept _ => true
      | _ => false) (by rw [hw])
    refine ⟨_, rfl, hsp.trans ?_, hdev, hv⟩
    simp only [State.waitOver, hw, decide_eq_true_eq]
  · obtain ⟨hsp, hdev, hv⟩ := s.wake_here h (p := fun w => match w with
      | .sleep _ => true
      | _ => false) (by rw [hw])
    refine ⟨_, rfl, hsp.trans ?_, hdev, hv⟩
    simp only [State.waitOver, hw, decide_eq_true_eq]
    rfl
  · obtain ⟨hsp, hdev, hv⟩ := s.wake_here h (p := fun w => match w with
      | .yielded _ _ => true
      | _ => false) (by rw [hw])
    refine ⟨_, rfl, hsp.trans ?_, hdev, hv⟩
    simp only [State.waitOver, hw, Bool.or_eq_true, decide_eq_true_eq, List.isEmpty_iff]
  · have hnow : s.actNow s.ev.core = _ := Core.windowed_of_ne hne
    have hat : ∀ k, (s.modAct s.ev.core fun c => c).retryAll.coreAt k = if k = s.ev.core ∧ k < 256 then s.actNow s.ev.core else s.coreAt k :=
      fun k => s.coreAt_modCore s.ev.core k fun _ => s.actNow s.ev.core
    have hthis := (hat s.ev.core).trans (if_pos ⟨rfl, hc⟩)
    refine ⟨_, rfl, ?_, ?_, ?_, ?_, ?_, fun c hc => (hat c).trans (if_neg fun h => hc h.1), (s.modCore_sameMemory _ ?_).trans (State.retryAll_sameMemory _)⟩
    · rw [hthis, hnow]
    · rw [hthis, hnow]
    · rw [hthis, hnow]
      rfl
    · rw [hthis, hnow]
    · rw [hthis, hnow]
      cases (s.coreAt s.ev.core).actNext <;> rfl
    · rw [hnow]
  · have hany : ((s.clusterAt s.ev.cl).table.any fun e => e.block = x.block) = false := by simpa using hidle
    have hover : (s.clusterAt s.ev.cl).leaseOver = decide (x.lastEntry + 256 ≤ (s.clusterAt s.ev.cl).cycle) := by
      simp [Cluster.leaseOver, hl, hleft, hany]
    have hat : (s.modCluster s.ev.cl fun c => if c.leaseOver then { c with lease := none } else c).clusterAt s.ev.cl = _ :=
      (s.clusterAt_modCluster ..).trans (if_pos ⟨rfl, hcl⟩)
    refine ⟨_, rfl, ?_, ?_, s.modCluster_sameMemory _ _⟩ <;> rw [hat, hover]
    · split <;> simp_all
    · split <;> rfl

end Sys2Proof.Machine
end

section
/-! ### The end of a group (R33, R176, R246) -/

namespace Sys2Proof.Machine

/-- What holds of a group that leaves its slot: its lanes have all left, nothing of it is outstanding, and its block stays as it is. -/
structure State.GroupDone (s : State) (b : Block) : Prop where
  live : s.g.live = true
  service : s.g.service = false
  masks : ∀ x ∈ s.g.splits, x.mask = 0
  ending : s.endingOf s.g = false
  reports : s.g.reports = []
  l1 : ∀ x ∈ (s.coreAt s.g.core).l1, x.own = none
  pantry : ∀ e ∈ (s.coreAt s.g.core).pantry, e.slot ≠ s.g.slot
  flights : ∀ f ∈ s.flights, f.core = s.g.core → f.slot ≠ s.g.slot
  reqs : ∀ r ∈ s.reqs, r.core = s.g.core → r.slot ≠ s.g.slot
  block : s.block s.g.block = some b
  restoring : b.restoring = none

/-- The machine without the group of a slot, but for what its core drops. -/
def State.vacated (s : State) (core slot : Nat) : State :=
  { s.releaseMatrix core slot with
    popWait := s.popWait.filter fun w => !(w.core = core && w.slot = slot)
    g := if s.g.core = core ∧ s.g.slot = slot then { s.g with live := false } else s.g
    others := s.others.filter fun g => !(g.core = core && g.slot = slot) }

/-- A core that a group leaves may return to the reset budget; its scratchpad stays. -/
theorem State.settleBudget_eq (s : State) (core : Nat) : ∃ cs, s.settleBudget core = { s with cores := cs } ∧
    ∀ c, (vget cs c Core.reset).scratch = (s.coreAt c).scratch := by
  rw [State.settleBudget]
  split
  · exact ⟨s.cores, rfl, fun _ => rfl⟩
  · refine ⟨_, rfl, fun c => s.modCore_scratch core (f := fun k =>
      { k.windowed (s.clusterAt (coreCluster core)).cycle with actBudget := Config.budgetReset, actNext := none }) (fun k => ?_) c⟩
    simp only [Core.windowed]
    split <;> rfl

theorem State.releaseGroup_eq (s : State) (core slot : Nat) : ∃ cs, s.releaseGroup core slot = { s.vacated core slot with cores := cs } ∧
    ∀ c, (vget cs c Core.reset).scratch = (s.coreAt c).scratch := by
  obtain ⟨cs, heq, hscr⟩ := ((s.vacated core slot).modCore core fun c =>
    { c with l1 := c.l1.map fun x => if x.own.any (fun o => o.slot = slot) then { x with own := none, dirty := 0, valid := c.fresh x } else x }).settleBudget_eq core
  refine ⟨cs, heq, fun c => (hscr c).trans ((s.vacated core slot).modCore_scratch core ?_ c)⟩
  exact fun _ => rfl

theorem State.vacated_groupAt (s : State) (core slot : Nat) : (s.vacated core slot).groupAt core slot = none := by
  simp only [State.groupAt, State.groups, State.vacated, List.find?_eq_none, List.mem_append, Bool.and_eq_true, decide_eq_true_eq]
  rintro x (hx | hx)
  · by_cases h : s.g.core = core ∧ s.g.slot = slot
    · simp [h] at hx
    · simp only [if_neg h] at hx
      split at hx
      · rw [List.mem_singleton.1 hx]
        exact h
      · simp at hx
  · simpa [imp_iff_not_or] using (List.mem_filter.1 hx).2

/-- A group with nothing outstanding leaves its slot; its block goes on with its other groups. -/
theorem State.GroupDone.groupEnd_eq {s : State} {b : Block} (h : s.GroupDone b)
    (hother : ∃ x ∈ s.others, x.block = s.g.block ∧ ¬ (x.core = s.g.core ∧ x.slot = s.g.slot)) :
    s.groupEnd s.g.core s.g.slot = (s.releaseGroup s.g.core s.g.slot).retryAll := by
  have hat : s.groupAt s.g.core s.g.slot = some s.g := State.groupAt_issuing ⟨h.live, rfl, rfl⟩
  have hspent : s.g.spent = true := List.all_eq_true.2 fun x hx => decide_eq_true (h.masks x hx)
  have hret : s.returning s.g = false := by simp [State.returning, h.block, h.restoring]
  have hpan : ∀ p : PantryEntry → Bool, ((s.coreAt s.g.core).pantry.any fun e => decide (e.slot = s.g.slot) && p e) = false := fun p => by
    simp only [List.any_eq_false, Bool.and_eq_true, decide_eq_true_eq, not_and]
    exact fun e he hs => absurd hs (h.pantry e he)
  have hbusy : s.groupBusy s.g = false := by
    have := hpan fun _ => true
    simp only [Bool.and_true] at this
    simp only [State.groupBusy, this, Bool.or_false, Bool.or_eq_false_iff, List.any_eq_false, Bool.and_eq_true, decide_eq_true_eq, not_and]
    exact ⟨h.flights, h.reqs⟩
  have hflush : s.flushOwn s.g.core s.g.slot = s := by
    rw [State.flushOwn, List.filter_eq_nil_iff.2 fun x hx => by simp [h.l1 x hx]]
    rfl
  have hleft : s.ownLeft s.g.core s.g.slot = false := by
    simp only [State.ownLeft, List.any_eq_false, Bool.and_eq_true, not_and]
    exact fun x hx _ => by simp [h.l1 x hx]
  obtain ⟨cs, hrel, -⟩ := s.releaseGroup_eq s.g.core s.g.slot
  have hblock : (s.releaseGroup s.g.core s.g.slot).block s.g.block = some b := by
    rw [hrel]
    exact h.block
  have hgroups : ((s.releaseGroup s.g.core s.g.slot).groups.any fun x => x.block = s.g.block) = true := by
    obtain ⟨x, hx, hxb, hne⟩ := hother
    rw [hrel, List.any_eq_true]
    refine ⟨x, List.mem_append_right _ (List.mem_filter.2 ⟨hx, ?_⟩), decide_eq_true hxb⟩
    simpa [imp_iff_not_or] using hne
  simp only [State.groupEnd, hat, h.service, hspent, h.ending, hret, h.reports, hpan, hbusy, hflush, hleft, hblock, hgroups, Bool.not_false,
    Bool.not_true, Bool.true_or, Bool.and_false, Bool.or_false, Bool.false_eq_true, if_false, if_true]

theorem State.releaseMatrix_engine (s : State) (core slot : Nat) :
    ((s.releaseMatrix core slot).engine core).bankOwner = (s.engine core).bankOwner.filter (fun x => x.2 ≠ ownerKey core slot) ∧
      ((s.releaseMatrix core slot).engine core).unitOwner = (s.engine core).unitOwner.filter (fun x => x.2 ≠ ownerKey core slot) := by
  rw [State.engine, State.releaseMatrix, State.modEngine, State.clusterAt_modCluster]
  split
  · exact ⟨rfl, rfl⟩
  · next hout =>
    have : s.clusterAt (coreCluster core) = Cluster.reset := dif_neg fun hlt => hout ⟨rfl, hlt⟩
    rw [State.engine, this]
    exact ⟨rfl, rfl⟩

theorem State.retryAll_groups (s : State) : s.retryAll.groups = s.groups.map fun g => g.mapSplits Split.retry := by
  simp only [State.groups, State.retryAll, List.map_append]
  cases h : s.g.live <;> simp [Group.mapSplits, h]

theorem State.retryAll_groupAt (s : State) (core slot : Nat) :
    s.retryAll.groupAt core slot = (s.groupAt core slot).map fun g => g.mapSplits Split.retry := by
  rw [State.groupAt, State.retryAll_groups, List.find?_map]
  rfl

/-- GROUP_END (R33, R176, R246). -/
theorem State.GroupDone.groupEnd {s : State} {b : Block} (h : s.GroupDone b) (hev : EventHere s)
    (hother : ∃ x ∈ s.others, x.block = s.g.block ∧ ¬ (x.core = s.g.core ∧ x.slot = s.g.slot)) :
    ∃ t, exec .groupEnd s = .next t ∧ t.groupAt s.g.core s.g.slot = none ∧ t.blocks = s.blocks ∧ t.launches = s.launches ∧
      (t.engine s.g.core).bankOwner = (s.engine s.g.core).bankOwner.filter (fun x => x.2 ≠ ownerKey s.g.core s.g.slot) ∧
      (t.engine s.g.core).unitOwner = (s.engine s.g.core).unitOwner.filter (fun x => x.2 ≠ ownerKey s.g.core s.g.slot) ∧
      t.flights = s.flights ∧ t.reqs = s.reqs ∧ s.sameMemory t := by
  obtain ⟨-, hcore, hslot, -⟩ := hev
  obtain ⟨cs, hrel, hscr⟩ := s.releaseGroup_eq s.g.core s.g.slot
  obtain ⟨hbank, hunit⟩ := s.releaseMatrix_engine s.g.core s.g.slot
  refine ⟨(s.releaseGroup s.g.core s.g.slot).retryAll, ?_, ?_⟩
  · rw [← h.groupEnd_eq hother]
    change Host.Outcome.next (s.groupEnd s.ev.core s.ev.slot) = _
    rw [hcore, hslot]
  · rw [hrel]
    refine ⟨?_, rfl, rfl, hbank, hunit, rfl, rfl, fun _ => rfl, fun _ => rfl, fun c a => congrArg (Memory.read · a) (hscr c), rfl⟩
    rw [State.retryAll_groupAt]
    exact congrArg (Option.map _) (s.vacated_groupAt s.g.core s.g.slot)

end Sys2Proof.Machine
end

section
/-! ### Passes of the matrix engine (R236, R238, R239, R263) -/

namespace Sys2Proof.Machine

/-- A quarter-operation changes the banks, by what the operand buffer and the banks hold. -/
theorem Cluster.bankFill_eq (c : Cluster) (bank : Nat) (f : Nat → Nat → Word) : c.bankFill bank f =
    { c with banks := (List.range 1024).foldl (fun m n => Smap.set none m (1024 * bank + 128 * (n / 128) + n % 128) (some (f (n / 128) (n % 128)))) c.banks } := by
  rw [Cluster.bankFill]
  generalize List.range 1024 = l
  induction l generalizing c with
  | nil => rfl
  | cons n l ih => exact ih _

theorem Cluster.quarter_eq (c : Cluster) (z : Bool) (da db : BitVec 64) (a0 bank b0 : Nat) :
    c.quarter z da db a0 bank b0 = { c with banks := (c.quarter z da db a0 bank b0).banks } := by
  rw [Cluster.quarter, Cluster.bankFill_eq]

theorem Cluster.quarter_banks_of_table (c : Cluster) (t : List QuarterOp) (z : Bool) (da db : BitVec 64) (a0 bank b0 : Nat) :
    ({ c with table := t }.quarter z da db a0 bank b0).banks = (c.quarter z da db a0 bank b0).banks := by
  rw [Cluster.quarter, Cluster.bankFill_eq, Cluster.quarter, Cluster.bankFill_eq]
  rfl

theorem Cluster.quarter_banks_of_entry (c : Cluster) (t : List QuarterOp) (l : Option Lease) (z : Bool) (da db : BitVec 64) (a0 bank b0 : Nat) :
    ({ c with lease := l, table := t }.quarter z da db a0 bank b0).banks = (c.quarter z da db a0 bank b0).banks := by
  rw [Cluster.quarter, Cluster.bankFill_eq, Cluster.quarter, Cluster.bankFill_eq]
  rfl

theorem Cluster.quarter_of_table (c : Cluster) (t : List QuarterOp) (z : Bool) (da db : BitVec 64) (a0 bank b0 : Nat) :
    { c with table := t }.quarter z da db a0 bank b0 = { c with table := t, banks := (c.quarter z da db a0 bank b0).banks } := by
  rw [Cluster.quarter_eq, Cluster.quarter_banks_of_table]

theorem Cluster.cycle_of_entry (c : Cluster) (t : List QuarterOp) (b : Smap (Option Word)) :
    ({ c with table := t, banks := b } : Cluster).cycle = c.cycle := rfl

theorem State.modReq_clusterAt (s : State) (id : Nat) (f : EngReq → EngReq) (k : Nat) : (s.modReq id f).clusterAt k = s.clusterAt k := rfl

theorem State.retryAll_reqs (s : State) : s.retryAll.reqs = s.reqs := rfl

theorem State.retryAll_clusterAt (s : State) (k : Nat) : s.retryAll.clusterAt k = s.clusterAt k := rfl

/-- The count of a pass changes counters of the die and of the device only. -/
theorem State.tally_pass_frame (s : State) (d : Nat) : (∀ k, (s.tally 9 1 none d).clusterAt k = s.clusterAt k) ∧
    (s.tally 9 1 none d).reqs = s.reqs ∧ s.sameMemory (s.tally 9 1 none d) :=
  ⟨fun _ => rfl, rfl, fun _ => rfl, fun _ => rfl, fun _ _ => rfl, rfl⟩

theorem State.modReq_sameMemory (s : State) (id : Nat) (f : EngReq → EngReq) : s.sameMemory (s.modReq id f) :=
  ⟨fun _ => rfl, fun _ => rfl, fun _ _ => rfl, rfl⟩

theorem State.clusterAt_modCluster_same {s : State} {c : Nat} (f : Cluster → Cluster) (h : c < 64) : (s.modCluster c f).clusterAt c = f (s.clusterAt c) := by
  rw [State.clusterAt_modCluster, if_pos ⟨rfl, h⟩]

/-- An entry of a lease's block stands alone in the table of a cluster's engine, and its quarter-operation may act. -/
structure State.LoneEntry (s : State) (cl : Nat) (x : Lease) (e : QuarterOp) (r : EngReq) (z : Bool) (da db : BitVec 64) (a0 bank b0 : Nat) : Prop where
  lt : cl < 64
  lease : (s.clusterAt cl).lease = some x
  table : (s.clusterAt cl).table = [e]
  block : e.block = x.block
  quarter : e.lease = none
  req : s.reqs.find? (fun q => q.id = e.req) = some r
  kind : r.kind = .mma z da db a0 bank b0
  turn : s.engineTurn r = true
  loads : s.loadsDone r = true

theorem State.eligible_of_req {s : State} {e : QuarterOp} {r : EngReq} (h : s.reqs.find? (fun q => q.id = e.req) = some r)
    (ht : s.engineTurn r = true) (hl : s.loadsDone r = true) : s.eligible e = true := by
  have : s.entryReq e = some r := h
  simp [State.eligible, this, ht, hl]

section
variable {s : State} {cl : Nat} {x : Lease} {e : QuarterOp} {r : EngReq} {z : Bool} {da db : BitVec 64} {a0 bank b0 : Nat}

/-- The engine performs the quarter-operation, frees its entry, and counts a pass of the lease. -/
theorem State.LoneEntry.pass_eq {s₀ : State} (h : s.LoneEntry cl x e r z da db a0 bank b0) (hclock : s₀.clockStopped cl = false)
    (hstep : s₀.leaseStep cl = s) : s₀.pass cl = (((s.grantQuarter cl e).tally 9 1 none (cl / 8)).modCluster cl fun c =>
      { c with lease := c.lease.map fun x => { x with left := x.left - 1, lastEntry := c.cycle } }).retryAll := by
  have hmine : [e].filter (fun e => e.block = x.block && e.lease.isNone && s.eligible e) = [e] := by
    simp [h.block, h.quarter, State.eligible_of_req h.req h.turn h.loads]
  have hrest : [e].filter (fun y => y.age ≠ e.age) = [] := by simp
  simp only [State.pass, hclock, Bool.false_eq_true, if_false, hstep, h.lease, h.table, hmine, bestEntry, hrest, State.fuse, List.foldl_cons,
    List.foldl_nil]

/-- What performing the lone quarter-operation leaves. -/
theorem State.LoneEntry.granted (h : s.LoneEntry cl x e r z da db a0 bank b0) :
    (s.grantQuarter cl e).clusterAt cl = { s.clusterAt cl with table := [], banks := ((s.clusterAt cl).quarter z da db a0 bank b0).banks } ∧
      (s.grantQuarter cl e).reqs.find? (fun q => q.id = e.req) = some { r with done := true } ∧ s.sameMemory (s.grantQuarter cl e) := by
  have hq : s.quarterKind e = some (.mma z da db a0 bank b0) := by
    rw [State.quarterKind, State.entryReq, h.req, Option.map_some, h.kind]
  have hrest : [e].filter (fun y => y.age ≠ e.age) = [] := by simp
  have heq : s.grantQuarter cl e = ((s.modCluster cl fun c => { c with table := c.table.filter fun x => x.age ≠ e.age }).modCluster cl fun c =>
      c.quarter z da db a0 bank b0).modReq e.req fun r => { r with done := true } := by
    simp only [State.grantQuarter, hq]
  have hid : decide (r.id = e.req) = true := List.find?_some (p := fun q : EngReq => decide (q.id = e.req)) h.req
  rw [heq]
  refine ⟨?_, modFirst_find? (p := fun q : EngReq => decide (q.id = e.req)) h.req hid,
    ((State.modCluster_sameMemory ..).trans (State.modCluster_sameMemory ..)).trans (State.modReq_sameMemory ..)⟩
  rw [State.modReq_clusterAt, State.clusterAt_modCluster_same _ h.lt, State.clusterAt_modCluster_same _ h.lt, h.table, hrest, Cluster.quarter_of_table]

theorem State.LoneEntry.passed {s₀ : State} (h : s.LoneEntry cl x e r z da db a0 bank b0) (hclock : s₀.clockStopped cl = false)
    (hstep : s₀.leaseStep cl = s) :
    let c := s.clusterAt cl
    ((s₀.pass cl).clusterAt cl).table = [] ∧ ((s₀.pass cl).clusterAt cl).lease = some { x with left := x.left - 1, lastEntry := c.cycle } ∧
      ((s₀.pass cl).clusterAt cl).banks = (c.quarter z da db a0 bank b0).banks ∧ ((s₀.pass cl).clusterAt cl).opBuf = c.opBuf ∧
      (s₀.pass cl).reqs.find? (fun q => q.id = e.req) = some { r with done := true } ∧ s.sameMemory (s₀.pass cl) := by
  dsimp only
  obtain ⟨hgrant, hreq, hmem⟩ := h.granted
  generalize ((s.clusterAt cl).quarter z da db a0 bank b0).banks = banks at hgrant ⊢
  obtain ⟨hat, hreqs, htally⟩ := (s.grantQuarter cl e).tally_pass_frame (cl / 8)
  have hlease : ((s.grantQuarter cl e).clusterAt cl).lease = some x := by rw [hgrant, ← h.lease]
  rw [h.pass_eq hclock hstep, State.retryAll_clusterAt, State.retryAll_reqs, State.modCluster_reqs, State.clusterAt_modCluster_same _ h.lt, hat, hreqs,
    hlease, hgrant]
  refine ⟨rfl, ?_, rfl, rfl, hreq, ((hmem.trans htally).trans (State.modCluster_sameMemory ..)).trans (State.retryAll_sameMemory _)⟩
  rw [Option.map_some, Cluster.cycle_of_entry]

end

/-- Without a lease, the lone entry that may act takes it for its block (R239, R263). -/
theorem State.leaseStep_grant {s : State} {cl : Nat} {e : QuarterOp} (hl : (s.clusterAt cl).lease = none) (ht : (s.clusterAt cl).table = [e])
    (he : s.eligible e = true) : s.leaseStep cl = s.grantLease cl e := by
  have hover : (s.clusterAt cl).leaseOver = true := by simp [Cluster.leaseOver, hl]
  have hel : [e].filter s.eligible = [e] := by simp [he]
  have hst : starved [e] [e] = some e ∨ starved [e] [e] = none := by
    rw [starved, List.find?_cons]
    split
    · exact .inl rfl
    · exact .inr rfl
  rw [State.leaseStep]
  simp only [hover, Bool.not_true, Bool.false_eq_true, if_false, ht, hel]
  rcases hst with h | h <;> rw [h]
  rfl

theorem State.grantLease_quarter {s : State} {cl : Nat} {e : QuarterOp} (ht : (s.clusterAt cl).table = [e]) (he : e.lease = none) :
    s.grantLease cl e = s.modCluster cl fun c =>
      { c with lease := some { block := e.block, left := s.leaseLen e.core e.slot, lastEntry := c.cycle }
               table := (c.table.filter fun x => !(x.lease.isSome && x.block = e.block)).map fun x =>
                 { x with passed := if x.block = e.block then 0 else x.passed + 1 } } := by
  have hgone : [e].filter (fun x => x.lease.isSome && x.block = e.block) = [] := by simp [he]
  simp only [State.grantLease, ht, hgone, List.foldl_nil]

/-- The lease is the block's, and the lone quarter-operation may act under it. -/
theorem State.loneEntry_of_grant {s : State} {cl : Nat} {e : QuarterOp} {r : EngReq} {z : Bool} {da db : BitVec 64} {a0 bank b0 : Nat} (hcl : cl < 64)
    (ht : (s.clusterAt cl).table = [e]) (hq : e.lease = none) (hr : s.reqs.find? (fun q => q.id = e.req) = some r) (hk : r.kind = .mma z da db a0 bank b0)
    (hturn : s.engineTurn r = true) (hloads : s.loadsDone r = true) :
    let x : Lease := { block := e.block, left := s.leaseLen e.core e.slot, lastEntry := (s.clusterAt cl).cycle }
    (s.grantLease cl e).LoneEntry cl x { e with passed := 0 } r z da db a0 bank b0 ∧
      (s.grantLease cl e).clusterAt cl = { s.clusterAt cl with lease := some x, table := [{ e with passed := 0 }] } := by
  intro x
  have hfilter : [e].filter (fun y => !(y.lease.isSome && y.block = e.block)) = [e] := by simp [hq]
  have hat : (s.grantLease cl e).clusterAt cl = { s.clusterAt cl with lease := some x, table := [{ e with passed := 0 }] } := by
    rw [State.grantLease_quarter ht hq, State.clusterAt_modCluster_same _ hcl, ht, hfilter, List.map_singleton, if_pos rfl]
  have hlone : (s.grantLease cl e).reqs = s.reqs ∧ (s.grantLease cl e).flights = s.flights := by
    rw [State.grantLease_quarter ht hq]
    exact ⟨rfl, rfl⟩
  refine ⟨⟨hcl, by rw [hat], by rw [hat], rfl, hq, by rw [hlone.1]; exact hr, hk, ?_, ?_⟩, hat⟩
  · rw [← hturn, State.engineTurn, State.engineTurn, State.engineBusy, State.engineBusy, hlone.1]
  · rw [← hloads, State.loadsDone, State.loadsDone, hlone.2]

/-- A lone MLEASE takes the lease of the passes that it asks for, and its split goes on; nothing acts in this pass. -/
theorem State.pass_mlease {s : State} {cl n : Nat} {e : QuarterOp} (hcl : cl < 64) (hclock : s.clockStopped cl = false)
    (hl : (s.clusterAt cl).lease = none) (ht : (s.clusterAt cl).table = [e]) (he : e.lease = some n) :
    s.pass cl = (s.modCluster cl fun c => { c with lease := some { block := e.block, left := n, lastEntry := c.cycle }, table := [] }).modGroup e.core e.slot
      fun g => g.modSplit e.split fun sp => sp.finish 4 := by
  have hgone : [e].filter (fun x => x.lease.isSome && x.block = e.block) = [e] := by simp [he]
  have hstays : [e].filter (fun x => !(x.lease.isSome && x.block = e.block)) = [] := by simp [he]
  have hgrant : s.grantLease cl e = (s.modCluster cl fun c =>
      { c with lease := some { block := e.block, left := n, lastEntry := c.cycle }, table := [] }).modGroup e.core e.slot
        fun g => g.modSplit e.split fun sp => sp.finish 4 := by
    simp only [State.grantLease, State.modCluster, ht, hgone, hstays, List.foldl_cons, List.foldl_nil, he, Option.getD_some, List.map_nil]
  have hat : ∀ (u : State) f, (u.modGroup e.core e.slot f).clusterAt cl = u.clusterAt cl := fun u f => by
    rw [State.modGroup]
    split <;> rfl
  have hstep := (State.leaseStep_grant hl ht (by simp [State.eligible, he])).trans hgrant
  simp only [State.pass, hclock, Bool.false_eq_true, if_false, hstep, hat, State.clusterAt_modCluster_same _ hcl, List.filter_nil, bestEntry]

theorem groupsAndPassesPart : GroupsAndPassesPart := by
  refine ⟨?_, ?_, ?_, ?_, ?_⟩
  · rintro s hev hservice hmask hending hrep hl1 hpantry hflights hreqs ⟨b, hb, hrest⟩ hother
    exact State.GroupDone.groupEnd ⟨hev.1, hservice, hmask, hending, hrep, hl1, hpantry, hflights, hreqs, hb, hrest⟩ hev hother
  · intro s x e r z da db a0 bank b0 cl c hcl hclock hl hleft ht hblock hq hr hk hturn hloads
    have hstep : s.leaseStep cl = s := by
      have hover : c.leaseOver = false := by simp [Cluster.leaseOver, show c.lease = some x from hl, hleft, show c.table = [e] from ht, hblock]
      rw [State.leaseStep, show s.clusterAt cl = c from rfl, hover]
      rfl
    exact ⟨_, rfl, State.LoneEntry.passed ⟨hcl, hl, ht, hblock, hq, hr, hk, hturn, hloads⟩ hclock hstep⟩
  · intro s e r z da db a0 bank b0 cl c hcl hclock hl ht hq hr hk hturn hloads
    obtain ⟨hlone, hat⟩ := State.loneEntry_of_grant hcl ht hq hr hk hturn hloads
    obtain ⟨htable, hlease, hbanks, -, hreq, hmem⟩ := hlone.passed hclock (State.leaseStep_grant hl ht (State.eligible_of_req hr hturn hloads))
    have hgrant : s.sameMemory (s.grantLease cl e) := by
      rw [State.grantLease_quarter ht hq]
      exact State.modCluster_sameMemory ..
    rw [hat] at hlease hbanks
    exact ⟨_, rfl, htable, hlease, hbanks.trans (Cluster.quarter_banks_of_entry ..), hreq, hgrant.trans hmem⟩
  · intro s e n cl c hcl hclock hl ht hn hlive hcore hslot hsplit _
    have hpass := State.pass_mlease hcl hclock hl ht hn
    rw [State.modGroup, if_pos ⟨hlive, hcore.symm, hslot.symm⟩] at hpass
    have hat := State.clusterAt_modCluster_same (s := s)
      (fun c => { c with lease := some { block := e.block, left := n, lastEntry := c.cycle }, table := [] }) hcl
    refine ⟨s.pass cl, rfl, ?_⟩
    rw [hpass]
    refine ⟨congrArg Cluster.table hat, congrArg Cluster.lease hat, ?_, fun _ => rfl, fun _ => rfl, fun _ _ => rfl, rfl⟩
    simp only [Group.modSplit, Group.mapSplits, hsplit, State.modCluster_g, if_true]
    rfl
  · intro s hclock
    change Host.Outcome.next (s.pass s.ev.cl) = _
    rw [State.pass, if_pos hclock]

end Sys2Proof.Machine
end

section
/-! ### The words of a bank (R231, R236) -/

namespace Sys2Proof.Machine

/-- The banks after a bank's first words up to a count have been written, in ascending order. -/
def filled (m : Smap (Option Word)) (bank : Nat) (f : Nat → Nat → Word) (n : Nat) : Smap (Option Word) :=
  (List.range n).foldl (fun m k => Smap.set none m (1024 * bank + 128 * (k / 128) + k % 128) (some (f (k / 128) (k % 128)))) m

theorem filled_succ (m : Smap (Option Word)) (bank : Nat) (f : Nat → Nat → Word) (n : Nat) : filled m bank f (n + 1) =
    Smap.set none (filled m bank f n) (1024 * bank + 128 * (n / 128) + n % 128) (some (f (n / 128) (n % 128))) := by
  simp only [filled, List.range_succ, List.foldl_append, List.foldl_cons, List.foldl_nil]

theorem filled_wf {m : Smap (Option Word)} (h : Smap.wf none m = true) (bank : Nat) (f : Nat → Nat → Word) (n : Nat) :
    Smap.wf none (filled m bank f n) = true := by
  induction n with
  | zero => exact h
  | succ n ih =>
    rw [filled_succ]
    exact Smap.set_wf ih

theorem filled_get {m : Smap (Option Word)} (h : Smap.wf none m = true) (bank : Nat) (f : Nat → Nat → Word) (n k : Nat) :
    Smap.get none (filled m bank f n) k =
      if 1024 * bank ≤ k ∧ k < 1024 * bank + n then some (f ((k - 1024 * bank) / 128) ((k - 1024 * bank) % 128)) else Smap.get none m k := by
  induction n with
  | zero => rw [if_neg (by omega)]; rfl
  | succ n ih =>
    have hkey : 1024 * bank + 128 * (n / 128) + n % 128 = 1024 * bank + n := by omega
    rw [filled_succ, Smap.get_set (filled_wf h bank f n), ih, hkey]
    by_cases hk : k = 1024 * bank + n
    · rw [if_pos hk, if_pos (by omega), hk, Nat.add_sub_cancel_left]
    · rw [if_neg hk]
      exact if_congr (by omega) rfl rfl

theorem Cluster.bankFill_filled (c : Cluster) (bank : Nat) (f : Nat → Nat → Word) : c.bankFill bank f = { c with banks := filled c.banks bank f 1024 } :=
  c.bankFill_eq bank f

/-- A filled bank holds what it was filled with. -/
theorem Cluster.bankWord_bankFill_same {c : Cluster} (h : Smap.wf none c.banks = true) (bank : Nat) (f : Nat → Nat → Word) {i j : Nat} (hi : i < 8)
    (hj : j < 128) : (c.bankFill bank f).bankWord bank i j = f i j := by
  have hget := filled_get h bank f 1024 (1024 * bank + 128 * i + j)
  rw [if_pos (by omega), show 1024 * bank + 128 * i + j - 1024 * bank = 128 * i + j by omega, show (128 * i + j) / 128 = i by omega,
    show (128 * i + j) % 128 = j by omega] at hget
  rw [Cluster.bankFill_filled]
  generalize filled c.banks bank f 1024 = m at hget
  simp only [Cluster.bankWord, hget]

/-- Filling a bank leaves the words of the others. -/
theorem Cluster.bankWord_bankFill_other {c : Cluster} (h : Smap.wf none c.banks = true) {bank bank' : Nat} (hne : bank' ≠ bank) (f : Nat → Nat → Word)
    {i j : Nat} (hi : i < 8) (hj : j < 128) : (c.bankFill bank f).bankWord bank' i j = c.bankWord bank' i j := by
  have hget := filled_get h bank f 1024 (1024 * bank' + 128 * i + j)
  rw [if_neg (by omega)] at hget
  rw [Cluster.bankFill_filled]
  generalize filled c.banks bank f 1024 = m at hget
  simp only [Cluster.bankWord, hget]

theorem Cluster.bankWord_quarter {c : Cluster} (h : Smap.wf none c.banks = true) (z : Bool) (da db : BitVec 64) (a0 bank b0 : Nat) {i j : Nat} (hi : i < 8)
    (hj : j < 128) : (c.quarter z da db a0 bank b0).bankWord bank i j = quarterElement c z da db (a0 + i) (b0 + j) (c.bankWord bank i j) := by
  rw [Cluster.quarter, Cluster.bankWord_bankFill_same h bank _ hi hj]

/-! ### Elements and scales of a range (R97, R98, R227, R228, R230) -/

theorem resFmt_eq (d : BitVec 64) : resFmt d = fmtAt d := rfl

theorem groupLen_eq (d : BitVec 64) : groupLen (resGlen d) = groupAt d := rfl

theorem resScale_eq (d : BitVec 64) : resScale d = 64 * (d.toNat / 2 ^ 32 % 2 ^ 16) := Nat.mul_comm ..

theorem resZp_eq (d : BitVec 64) : resZp d = 64 * (d.toNat / 2 ^ 48) := by
  have := d.isLt
  simp only [resZp, bget, fld]
  omega

theorem rangeByte_eq (c : Cluster) (d : BitVec 64) (o : Nat) : c.rangeByte d o = rangeAt c d o := by
  rw [Cluster.rangeByte, rangeAt, resBase, bget, fld, unitBytes, pow_zero, Nat.div_one, Nat.mul_comm, show 2 ^ 8 = 256 from rfl]

theorem element_eq (c : Cluster) (d : BitVec 64) (n k : Nat) : c.element d n k = elementAt c d n k := by
  simp only [Cluster.element, elementAt, resFmt_eq, rangeByte_eq, sliceBytes]
  by_cases h2 : fmtAt d = 2 ∨ fmtAt d = 3
  · simp only [h2, if_true, Nat.mul_comm n]
  · by_cases h6 : fmtAt d = 6
    · rcases Nat.mod_two_eq_zero_or_one k with h | h <;> simp [h6, h, Nat.mul_comm n]
    · simp only [h2, h6, if_false, Nat.mul_comm n]

theorem floatElement_eq (c : Cluster) (d : BitVec 64) (n k : Nat) : c.floatElement d n k = decodeF (floatOf (fmtAt d)) (elementAt c d n k) := by
  rw [← element_eq]
  rfl

theorem elementAt_lt_of_int8 (c : Cluster) {d : BitVec 64} (h : fmtAt d = 5) (n k : Nat) : elementAt c d n k < 2 ^ 8 := by
  rw [elementAt, h]
  exact BitVec.isLt _

theorem intElement_eq (c : Cluster) {d : BitVec 64} (hlo : 4 ≤ fmtAt d) (hhi : fmtAt d ≤ 6) (n k : Nat) : c.intElement d n k = integerAt c d n k := by
  simp only [Cluster.intElement, integerAt, resFmt_eq, rangeByte_eq, element_eq, groupLen_eq, resZp_eq, zpBytes]
  by_cases h5 : fmtAt d = 5
  · rw [if_pos h5, if_pos h5, ← toSigned_toNat, BitVec.toNat_ofNat, Nat.mod_eq_of_lt (elementAt_lt_of_int8 c h5 n k)]
  · have h46 : fmtAt d = 4 ∨ fmtAt d = 6 := by omega
    simp only [h5, h46, if_false, if_true]

theorem scaleOf_eq (c : Cluster) {d : BitVec 64} (h : fmtAt d ≤ 1 ∨ 4 ≤ fmtAt d) (n b : Nat) : c.scaleOf d n b = scaleAt c d n b := by
  simp only [Cluster.scaleOf, scaleAt, resFmt_eq, rangeByte_eq, groupLen_eq, resScale_eq, scaleBytes]
  by_cases h1 : fmtAt d ≤ 1
  · simp only [h1, if_true, Nat.mul_comm n]
  · simp only [h1, h.resolve_left h1, if_false, if_true]

/-! ### Exact values of sums and products (R99, R111) -/

/-- A finite value of the model, of this number. -/
def IsValue (x : FVal) (v : ℚ) : Prop := ∃ n m e, x = .fin n m e ∧ exactOf n m e = v

theorem isValue_of_means {F : Format} {x : Nat} {v : ℚ} (h : Means F x v) : IsValue (decodeF F x) v := h

theorem IsValue.add {x y : FVal} {v w : ℚ} (mode : Mode) (hx : IsValue x v) (hy : IsValue y w) : IsValue (x.add mode y).1 (v + w) := by
  obtain ⟨n, m, e, rfl, rfl⟩ := hx
  obtain ⟨n', m', e', rfl, rfl⟩ := hy
  obtain ⟨n₁, m₁, e₁, h, hv⟩ := FVal.add_fin mode n n' m m' e e'
  exact ⟨n₁, m₁, e₁, by rw [h], hv⟩

theorem IsValue.mul {x y : FVal} {v w : ℚ} (hx : IsValue x v) (hy : IsValue y w) : IsValue (x.mul y).1 (v * w) := by
  obtain ⟨n, m, e, rfl, rfl⟩ := hx
  obtain ⟨n', m', e', rfl, rfl⟩ := hy
  obtain ⟨n₁, m₁, e₁, h, hv⟩ := FVal.mul_fin n n' m m' e e'
  exact ⟨n₁, m₁, e₁, by rw [h], hv⟩

theorem IsValue.scale {x : FVal} {v : ℚ} (hx : IsValue x v) (k : Int) : IsValue (x.scale k) (2 ^ k * v) := by
  obtain ⟨n, m, e, rfl, rfl⟩ := hx
  refine ⟨n, m, e + k, rfl, ?_⟩
  rw [exactOf, exactOf, zpow_add₀ two_ne_zero]
  ring

theorem isValue_intVal (z : Int) : IsValue (intVal z) z := ⟨_, _, _, rfl, by rw [exactOf_natAbs, zpow_zero, mul_one]⟩

theorem IsValue.nearest {x : FVal} {v : ℚ} (h : IsValue x v) : Nearest v (roundF fp32 .rne false x).1 := by
  obtain ⟨n, m, e, rfl, rfl⟩ := h
  exact ⟨n, m, e, rfl, rfl⟩

theorem isValue_foldl {f g : Nat → FVal} {va vb : Nat → ℚ} {l : List Nat} {acc : FVal} {v : ℚ} (hacc : IsValue acc v)
    (hf : ∀ k ∈ l, IsValue (f k) (va k)) (hg : ∀ k ∈ l, IsValue (g k) (vb k)) :
    IsValue (l.foldl (fun acc j => (acc.add .rne ((f j).mul (g j)).1).1) acc) (v + (l.map fun k => va k * vb k).sum) := by
  induction l generalizing acc v with
  | nil => simpa using hacc
  | cons k l ih =>
    rw [List.forall_mem_cons] at hf hg
    rw [List.foldl_cons, List.map_cons, List.sum_cons, ← add_assoc]
    exact ih (hacc.add .rne (hf.1.mul hg.1)) hf.2 hg.2

/-- The sum of products of finite elements is exact. -/
theorem isValue_dot {f g : Nat → FVal} {va vb : Nat → ℚ} {l : List Nat} (hf : ∀ k ∈ l, IsValue (f k) (va k)) (hg : ∀ k ∈ l, IsValue (g k) (vb k)) :
    IsValue (dot f g l) (l.map fun k => va k * vb k).sum := by
  cases l with
  | nil => exact ⟨true, 0, 0, rfl, by simp [exactOf]⟩
  | cons k l =>
    rw [List.forall_mem_cons] at hf hg
    rw [List.map_cons, List.sum_cons]
    exact isValue_foldl (hf.1.mul hg.1) hf.2 hg.2

/-! ### Chunks (R111) -/

/-- The k of a chunk. -/
def chunkAt (len t : Nat) : List Nat := (List.range len).map fun k => t * len + k

theorem chunks_eq (len : Nat) : chunks len = (List.range (128 / len)).map (chunkAt len) := rfl

theorem zipIdx_map_range {α : Type} (f : Nat → α) (n : Nat) : ((List.range n).map f).zipIdx = (List.range n).map fun t => (f t, t) := by
  refine List.ext_getElem (by simp) fun k _ _ => ?_
  simp

theorem lt_of_mem_chunkAt {len t k : Nat} (ht : t < 128 / len) (h : k ∈ chunkAt len t) : k < 128 := by
  obtain ⟨j, hj, rfl⟩ := List.mem_map.1 h
  have hlen : (t + 1) * len ≤ 128 := (Nat.mul_le_mul_right len ht).trans (Nat.div_mul_le_self ..)
  have := List.mem_range.1 hj
  rw [Nat.add_mul] at hlen
  omega

/-- The value of a chunk of the MX formats. -/
def mxChunk (c : Cluster) (da db : BitVec 64) (a b t : Nat) : Nat :=
  if scaleAt c da a t = 255 ∨ scaleAt c db b t = 255 then nanOf fp32
  else (roundF fp32 .rne false ((dot (c.floatElement da a) (c.floatElement db b) (chunkAt 32 t)).scale
    ((scaleAt c da a t : Int) + scaleAt c db b t - 254))).1

/-- The value of a chunk of BF16 or FP16. -/
def halfChunk (c : Cluster) (da db : BitVec 64) (a b t : Nat) : Nat :=
  (roundF fp32 .rne false (dot (c.floatElement da a) (c.floatElement db b) (chunkAt 4 t))).1

/-- The value of a chunk of the integer formats. -/
def intChunk (c : Cluster) (da db : BitVec 64) (a b t : Nat) : Nat :=
  (roundF fp32 .rne false ((((decodeF fp16 (scaleAt c da a t)).mul (decodeF fp16 (scaleAt c db b t))).1).mul
    (intVal (intDot c da db a b (chunkAt (groupAt da) t)))).1).1

theorem chunkValues_mx (c : Cluster) {da db : BitVec 64} (ha : fmtAt da ≤ 1) (hb : fmtAt db ≤ 1) (a b : Nat) :
    chunkValues c da db a b = (List.range 4).map (mxChunk c da db a b) := by
  simp only [chunkValues, resFmt_eq, if_pos ha, chunks_eq, zipIdx_map_range, List.map_map, scaleOf_eq c (.inl ha), scaleOf_eq c (.inl hb)]
  rfl

theorem chunkValues_half (c : Cluster) {da : BitVec 64} (db : BitVec 64) (ha : fmtAt da = 2 ∨ fmtAt da = 3) (a b : Nat) :
    chunkValues c da db a b = (List.range 32).map (halfChunk c da db a b) := by
  simp only [chunkValues, resFmt_eq, if_neg (show ¬ fmtAt da ≤ 1 by omega), if_pos (show fmtAt da ≤ 3 by omega), chunks_eq, List.map_map]
  rfl

theorem chunkValues_int (c : Cluster) {da db : BitVec 64} (ha : 4 ≤ fmtAt da) (hb : 4 ≤ fmtAt db) (a b : Nat) :
    chunkValues c da db a b = (List.range (128 / groupAt da)).map (intChunk c da db a b) := by
  simp only [chunkValues, resFmt_eq, if_neg (show ¬ fmtAt da ≤ 1 by omega), if_neg (show ¬ fmtAt da ≤ 3 by omega), chunks_eq, zipIdx_map_range,
    List.map_map, groupLen_eq, scaleOf_eq c (.inr ha), scaleOf_eq c (.inr hb)]
  rfl

theorem intDot_eq (c : Cluster) {da db : BitVec 64} (halo : 4 ≤ fmtAt da) (hahi : fmtAt da ≤ 6) (hblo : 4 ≤ fmtAt db) (hbhi : fmtAt db ≤ 6) (a b : Nat)
    (l : List Nat) : intDot c da db a b l = (l.map fun k => integerAt c da a k * integerAt c db b k).sum := by
  simp only [intDot, intElement_eq c halo hahi, intElement_eq c hblo hbhi]

/-! ### The accumulator (R110, R111) -/

theorem signBit_add_lt {F : Format} (n : Bool) {c : Nat} (h : c < 2 ^ (F.m + F.e)) : signBit F n + c < 2 ^ (1 + F.m + F.e) := by
  have : 2 ^ (1 + F.m + F.e) = 2 * 2 ^ (F.m + F.e) := by rw [add_assoc, pow_add, pow_one]
  rw [signBit]
  split <;> omega

theorem limit_fp32 : fp32.limit = 255 * 2 ^ 23 := by decide

/-- What rounds to nearest in FP32 fits a word. -/
theorem roundMag_fp32_lt (n : Bool) {m : Nat} (hm : m ≠ 0) (e : Int) : (roundMag fp32 .rne false n m e false).1 < 2 ^ 32 := by
  obtain ⟨c, b, -, -, h⟩ := roundMag_place usable_fp32 .rne false n (sticky := false) hm (Sticky.exact m (u := (2 : ℝ) ^ e) (by positivity)) (by simp)
  rw [h, Format.place]
  split
  · cases n <;> decide
  · next hc =>
    rw [limit_fp32] at hc
    exact signBit_add_lt (F := fp32) n (by change _ < 2 ^ 31; omega)

theorem roundF_fp32_lt (x : FVal) : (roundF fp32 .rne false x).1 < 2 ^ 32 := by
  cases x with
  | nan s => cases s <;> decide
  | inf n => cases n <;> decide
  | fin n m e =>
    rcases eq_or_ne m 0 with rfl | hm
    · rw [roundF_zero]
      cases n <;> decide
    · rw [roundF_fin fp32 .rne false n e hm]
      exact roundMag_fp32_lt n hm e

theorem foldl_addF_lt (x : Nat → Nat) {acc : Nat} (h : acc < 2 ^ 32) (l : List Nat) :
    l.foldl (fun acc t => (addF fp32 .rne acc (x t)).1) acc < 2 ^ 32 := by
  induction l generalizing acc with
  | nil => exact h
  | cons t l ih => exact ih (roundF_fp32_lt _)

/-- The accumulator adds the chunk values one after another. -/
theorem quarterElement_added {c : Cluster} {da db : BitVec 64} {a b n : Nat} {x : Nat → Nat} (h : chunkValues c da db a b = (List.range n).map x)
    (old : Word) : (quarterElement c false da db a b old).toNat = (List.range n).foldl (fun acc t => (addF fp32 .rne acc (x t)).1) old.toNat := by
  rw [quarterElement, if_neg Bool.false_ne_true, h, List.foldl_map, BitVec.toNat_ofNat, Nat.mod_eq_of_lt (foldl_addF_lt x old.isLt _)]

/-! ### The sums of a quarter-operation -/

theorem intChunk_nearest (c : Cluster) {da db : BitVec 64} (halo : 4 ≤ fmtAt da) (hahi : fmtAt da ≤ 6) (hblo : 4 ≤ fmtAt db) (hbhi : fmtAt db ≤ 6)
    {a b t : Nat} {sa sb : ℚ} (ha : Means fp16 (scaleAt c da a t) sa) (hb : Means fp16 (scaleAt c db b t) sb) :
    Nearest (sa * sb * (((List.range (groupAt da)).map fun k =>
      integerAt c da a (t * groupAt da + k) * integerAt c db b (t * groupAt da + k)).sum : Int)) (intChunk c da db a b t) := by
  have hsum := intDot_eq c halo hahi hblo hbhi a b (chunkAt (groupAt da) t)
  rw [chunkAt, List.map_map] at hsum
  have h := (((isValue_of_means ha).mul (isValue_of_means hb)).mul (isValue_intVal (intDot c da db a b (chunkAt (groupAt da) t)))).nearest
  exact hsum ▸ h

/-- The exact sum of a chunk of floating-point elements. -/
theorem isValue_dot_chunk {c : Cluster} {da db : BitVec 64} {a b : Nat} {va vb : Nat → ℚ}
    (h : ∀ k, k < 128 → Means (floatOf (fmtAt da)) (elementAt c da a k) (va k) ∧ Means (floatOf (fmtAt db)) (elementAt c db b k) (vb k))
    {len t : Nat} (ht : t < 128 / len) : IsValue (dot (c.floatElement da a) (c.floatElement db b) (chunkAt len t))
      ((List.range len).map fun k => va (t * len + k) * vb (t * len + k)).sum := by
  have hdot := isValue_dot (f := c.floatElement da a) (g := c.floatElement db b) (va := va) (vb := vb) (l := chunkAt len t)
    (fun k hk => by
      rw [floatElement_eq]
      exact (h k (lt_of_mem_chunkAt ht hk)).1)
    (fun k hk => by
      rw [floatElement_eq]
      exact (h k (lt_of_mem_chunkAt ht hk)).2)
  rwa [chunkAt, List.map_map] at hdot

theorem matrixSumsPart : MatrixSumsPart := by
  intro c da db a0 bank b0 i j hwf _ hi hj a b old new added
  have hnew : ∀ z, new z = quarterElement c z da db a b old := fun z => Cluster.bankWord_quarter hwf z da db a0 bank b0 hi hj
  have hadded : ∀ {n : Nat} {x : Nat → Nat}, chunkValues c da db a b = (List.range n).map x → added n x := fun h =>
    (congrArg BitVec.toNat (hnew false)).trans (quarterElement_added h old)
  clear_value new added
  refine ⟨fun halo hahi _ hblo hbhi _ _ => ⟨?_, fun sa sb hs => ?_⟩, fun va vb hv => ⟨fun hf _ => ?_, fun ha hb => ?_⟩, ?_⟩
  · rw [hnew, quarterElement, if_pos rfl, intDot_eq c halo hahi hblo hbhi]
  · exact ⟨_, hadded (chunkValues_int c halo hblo a b), fun t ht => intChunk_nearest c halo hahi hblo hbhi (hs t ht).1 (hs t ht).2⟩
  · exact ⟨_, hadded (chunkValues_half c db hf a b), fun t ht => (isValue_dot_chunk hv (len := 4) ht).nearest⟩
  · refine ⟨_, hadded (chunkValues_mx c ha hb a b), fun t ht => ?_⟩
    split
    · next hnan => exact if_pos hnan
    · next hnan =>
      rw [mxChunk, if_neg hnan]
      exact ((isValue_dot_chunk hv (len := 32) ht).scale _).nearest
  · intro z bank' i' j' _ hne hi' hj'
    rw [Cluster.quarter, Cluster.bankWord_bankFill_other hwf hne _ hi' hj']

end Sys2Proof.Machine

namespace Sys2Proof

open Machine

/-- Settles O50: the ends of waits, of a group and of an idle lease; a pass of the engine by the lone entry of its table; and the sums of a
quarter-operation, whose chunk values are exact before their one rounding. -/
theorem waitsGroupsPasses : Obligations.WaitsGroupsPasses := ⟨waitsEndPart, groupsAndPassesPart, matrixSumsPart⟩

end Sys2Proof
end
